-- ==== Sys2Proof/Word.lean ====
section
/-! DEFINITION. The word types of the Rinarna T48 and the containers of a fixed number of like things. -/

namespace Sys2Proof

/-- One byte (00, bits and fields). -/
abbrev Byte := BitVec 8
/-- A byte string, in the order its source defines (07 R250). -/
abbrev Bytes := List Byte
/-- One host or register word (06 R208). -/
abbrev Word32 := BitVec 32
/-- A LIFE value (04 R131). -/
abbrev Life := BitVec 64

end Sys2Proof
end

