-- ==== Sys2Proof/Syntax.lean ====
section
/-! DEFINITION. The commands of the Rinarna T48, one constructor of `Instr` for each row of
spec/opcode_table.json, and the types of their operands. -/

namespace Sys2Proof

/-- The two outlets (07 R252: 0 is outlet A, 1 is outlet B). -/
inductive Outlet | a | b
  deriving DecidableEq, Repr

/-- A contactor driver CD0 to CD3 (07 R252). -/
abbrev Driver := Fin 4
/-- A command or event mailbox (06). -/
abbrev Mailbox := Fin 8
/-- An isolation island I0 to I5 (01 R27). -/
abbrev Island := Fin 6
/-- A measurement channel 00 to 47 (01 R27). -/
abbrev Channel := Fin 48

/-- A metering selector (07 R252: supply side, outlet A, outlet B). -/
inductive Selector | supply | a | b
  deriving DecidableEq, Repr

/-- The five stages, each holding one permit per driver (01 Table 1.8). -/
inductive Stage | isl | wv | saf | wch | app
  deriving DecidableEq, Repr

/-- The bus masters (07 R263). -/
inductive Master | app0 | app1 | dma | upd | mbx | met | saf | wch | wv | cry | debug | dse
  deriving DecidableEq, Repr

/-- The fourteen clock domains (01 Table 1.4, 04 Table 4.1). -/
inductive Domain | ao32 | aof | ref | app | met | saf | mod | flt | gph | net | spe | dsp | hif | per
  deriving DecidableEq, Repr

/-- The regions the firewall tells apart (01 Table 1.3). -/
inductive Region
  | legalMram | publication | metrologySram | safetySram | safetyMram | banks | configStore
  | updateControl | appData | appSram | frameLegal | frameOther | frameEngine | watchSram
  | buffers | keyStore
  /-- The parts that Table 1.3 and R31 tell apart: the sealed legal display content, the tile stress counters, and the
  three parts of watch retained SRAM that take writes of other masters. -/
  | legalDisplay | tileCounters | watchSegments | watchReadIndex | watchSettings
  /-- The TIME block (04 R145) and the WCH block (05 R206). -/
  | timeBlock | watchBlock
  deriving DecidableEq, Repr

/-- The memory regions of 01 Table 1.7 and Table 1.6, in order (07 R263). -/
inductive MemRegion
  | bankA | bankB | legal | keyStore | configStore | updateControl | safetyMram | appData
  | appSram | frameStore | metrologySram | safetySram | watchSram | buffers
  deriving DecidableEq, Repr

/-- An access of a bus master to a target (01 R29): a crypto channel names itself beside its master, and a write to a
register carries its data and whether it is one whole word (00 R21). -/
structure BusAccess where
  master : Master
  channel : Nat := 0
  region : Region
  write : Bool
  addr : Word32
  data : Word32 := 0
  whole : Bool := true
  deriving DecidableEq, Repr

/-- Where HIF_SEL falls in a transaction (06 R231, R232): before the first data bit, or in a data
phase after `bits` of an incomplete word (most significant first; none at a word boundary). -/
inductive Cut
  | beforeData
  | inWord (bits : List Bool)
  deriving DecidableEq, Repr

/-- A word of a read as the port serves it (06 R214, R215): the busy bytes sent before it, and whether its fetch met an
uncorrectable error. -/
structure ReadWord where
  busy : Nat := 0
  bad : Bool := false
  deriving DecidableEq, Repr

/-- A write transaction under way when the port is shut (06 Table 6.7). -/
structure HifCut where
  opcode : Byte
  addr : BitVec 16
  words : List Word32
  cut : Cut
  deriving DecidableEq, Repr

/-- The comparator self-test of a channel (08 R298): its pair is taken under test; or the outcomes above the high
threshold, below the low one and between them are read back, each as it should be or not. -/
inductive SelfTestStep
  | takeUp (m : Fin 8)
  | outcomes (above below between : Bool)
  deriving DecidableEq, Repr

/-- What a start finds (01 Table 1.12, 03 Table 3.6): checks of signatures and keys, islands that
synchronise, inputs found open, mirror contacts, and diagnostics. -/
structure StartInputs where
  /-- Metrology image and its signature; calibration seal (steps 3; 09 R325). -/
  imageOk : Bool
  sealOk : Bool
  /-- Islands whose links synchronise (step 6). -/
  islands : BitVec 6
  /-- Channels whose open-input test finds them open (08 R308). -/
  openInputs : List Channel
  /-- SAF start diagnostics beside the mirror check (12 R464). -/
  diagOk : Bool
  /-- Mirror contacts that read closed, one bit per driver (12 R464). -/
  mirrors : BitVec 4
  /-- Key slots that fail their integrity check when the bound slots are derived (18). -/
  badSlots : List (Fin 64)
  deriving DecidableEq, Repr

/-- The gate test of a driver (12 R443): the cut elements that read open while their test input opens them, and those that read
closed once it is released, one bit per permit. -/
structure GateTest where
  opened : BitVec 5
  closed : BitVec 5
  deriving DecidableEq, Repr

/-- Operations of the crypto engine (18 R623, R635). -/
inductive CryptoOp
  | sign | tlsAuth | encrypt | decrypt | verify | tlsRelease | random
  deriving DecidableEq, Repr

/-- A request to the crypto engine (18): channel, operation, slot and input. -/
structure CryptoReq where
  channel : Nat
  op : CryptoOp
  slot : Fin 64
  input : Bytes
  /-- The additional authenticated data of an encryption or decryption. -/
  aad : Bytes := []
  deriving DecidableEq, Repr

/-- The frames of 05 R171 and 14 R504 by how they meet the wake rules. -/
inductive WakeFrame | unicast | magic | pair | other
  deriving DecidableEq, Repr

/-- What the rinse finds in a granule (05 R187, R197): the number of bit errors of its code word, or of its worst word in
SRAM, or a foreground write on the granule (05 Table 5.5). -/
inductive GranuleOutcome
  | read (errors : Nat)
  | foreground
  deriving DecidableEq, Repr

/-- A request written to the MET request port (09 R330). -/
inductive MetRequest
  | orderLimit (h : Nat)
  | testOutput (pin : Option (Fin 64)) (sel : Selector) (quantity : Nat)
  | tariffTable (entries : List (Nat × BitVec 8 × Nat)) (offsetMin : Int) (dst : Bytes)
  | tariffSwitch (tariff boundary second : Nat)
  | localTime (offsetMin : Int) (dst : Bytes)
  | demandKeys (intervalMin subMin subCount resetDay : Nat)
  | adjustLimit (seconds : Nat)
  deriving DecidableEq, Repr

/-- High-level protocols (07 SESSION_STATUS_GET). -/
inductive Protocol | pwm | din | iso2 | iso20
  deriving DecidableEq, Repr

/-- The limits that a vehicle sends in its charge loop (11). -/
structure VehLimits where
  maxMa : Nat
  maxW : Nat
  maxMv : Nat
  targetMv : Nat
  /-- Largest discharge current offered, 0 when it offers none. -/
  dischargeMa : Nat
  deriving DecidableEq, Repr

/-- Which protocol timeout passes (11). -/
inductive TimeoutKind | slacInit | slac | session | message | cableCheck | preCharge | handshake
  deriving DecidableEq, Repr

/-- Messages of the vehicle that have no row of their own (11). -/
inductive VehMsg
  | sessionSetup
  | identification (plugAndCharge chainOk : Bool) (contract : Bytes)
  | authorisation
  | parameters (limits : VehLimits) (bidirectional : Bool)
  | pause
  | resume
  | stop
  | weldingDetection
  deriving DecidableEq, Repr

/-- What the safety core reads in one cycle (12 R442, R309, Table 12.6). -/
structure SafInputs where
  /-- Cut elements read closed, five bits for each driver. -/
  gates : List (BitVec 5)
  katOk : Bool
  signatureOk : Bool
  deriving DecidableEq, Repr

/-- The two seam paths (12 R446). -/
inductive SeamPath | a | b
  deriving DecidableEq, Repr

/-- The points of a SunSpec device and their scale factors (14 R517): DC voltage in V, current in A, AC power in W (15 R554), and the
temperature in degrees Celsius. -/
structure SunPoints where
  volts : Int
  voltSf : Int
  amps : Int
  ampSf : Int
  watts : Int
  wattSf : Int
  celsius : Int
  celsiusSf : Int
  deriving DecidableEq, Repr

/-- The answers to BootNotification (15). -/
inductive BootStatus | accepted | pending | rejected
  deriving DecidableEq, Repr

/-- Authorisation results in the order of 07 AUTH_IDENTITY_SUBMIT: 0 accepted to 4 unknown. -/
inductive AuthStatus | accepted | blocked | expired | invalid | unknown
  deriving DecidableEq, Repr

/-- A tariff table entry as a message carries it (07 TARIFF_TABLE_LOAD). -/
structure TariffEntry where
  tariff : Nat
  days : Nat
  minute : Nat
  deriving DecidableEq, Repr

/-- An entry of the local list or of the cache (15 R548). -/
structure ListEntry where
  id : Bytes
  status : Option AuthStatus
  expiry : Nat
  parent : Bytes
  deriving DecidableEq, Repr

/-- A charging profile (15 R559). -/
structure ChargingProfile where
  id : Nat
  stack : Nat
  purpose : Nat
  /-- Start second, and periods of (start offset in seconds, limit, in watts or not). -/
  start : Nat
  duration : Nat
  inWatts : Bool
  periods : List (Nat × Nat)
  deriving DecidableEq, Repr

/-- The charges that an output test measures (16 R590): of the panel's sources, of its gates with the test row's where it has one, of
the segments, and of SEG_COM. -/
structure OutputCharges where
  sources : List Nat
  gates : List Nat
  segments : List Nat
  segCom : Nat
  deriving DecidableEq, Repr

/-- Operations on the certificate store (18). -/
inductive CertOp
  | install (kind : Nat) (der : Bytes)
  | delete (hash : Bytes)
  | sign
  deriving DecidableEq, Repr

/-- The commands: one constructor for each row of spec/opcode_table.json. (log 84, DESIGN CHOICE) -/
inductive Instr
  /-- REGISTER_WRITE (R210): A host single or burst write to registers or window words that have no row of their own. -/
  | registerWrite (opcode : Byte) (addr : BitVec 16) (words : List Word32)
  /-- BAD_OPCODE (R211): A transaction with an invalid opcode is ignored, lanes stay high impedance and BAD_OPCODE is set. -/
  | badOpcode (opcode : Byte)
  /-- SET_CMD_WIDTH (R211): Special opcode 0x0F sets the command-phase width from its x1 data word for later transactions. -/
  | setCmdWidth (word : Word32)
  /-- RESET_CMD_WIDTH (R211): Special opcode 0xFF returns the command width to x1 when HIF_SEL falls. -/
  | resetCmdWidth
  /-- READ_DATA_READY (R214): A window word fetched for a busy read becomes ready, and the ready marker and data are sent. -/
  | readDataReady (opcode : Byte) (addr : BitVec 16) (words : List ReadWord)
  /-- BUSY_TIMEOUT (R216): A busy stretch reaches 64 us of REF time; the marker and the error word 0xEEEE_0040 are sent and BUSY_TIMEOUT is set. -/
  | busyTimeout (opcode : Byte) (addr : BitVec 16) (served : List ReadWord) (busy wordsLeft : Nat)
  /-- EARLY_SELECT_RELEASE (R231): HIF_SEL falls during a write data phase; complete words are written and the partial word is written right-aligned or discarded. -/
  | earlySelectRelease (opcode : Byte) (addr : BitVec 16) (words : List Word32) (cut : Cut)
  /-- TRANSACTION_NOT_READY (R218): A transaction begun while HIF_RDY is low is ignored and NOT_READY is set. -/
  | transactionNotReady
  /-- WRITE_BUFFER_DRAINED (R217): The mailbox unit finishes writing buffered words to their targets and HIF_RDY returns high. -/
  | writeBufferDrained
  /-- CMD_DOORBELL (R221): A write to CMD_DOORBELL moves each named FREE command mailbox to PENDING, capturing code, sequence and length. -/
  | cmdDoorbell (word : Word32)
  /-- CMD_RELEASE (R221): A write to CMD_RELEASE returns each named DONE command mailbox to FREE and clears its CMD_DONE bit. -/
  | cmdRelease (word : Word32)
  /-- EVT_ACK (R227): A write to EVT_ACK empties each named event mailbox so the oldest queued event can fill it. -/
  | evtAck (word : Word32)
  /-- HIF_STATUS_CLEAR (R219): A W1C write to HIF_STATUS clears bits, and clearing EVT_LOST also clears HIF_EVT_LOST. -/
  | hifStatusClear (word : Word32)
  /-- EVENT_RAISE (R225): Firmware raises an event; it gets the next sequence and goes to an empty event mailbox or the queue. -/
  | eventRaise (code : BitVec 16) (fields : Bytes)
  /-- RESET_KEY_APP_CORES (R233): HIF_RESET_KEY word 0xA5C3_0001 requests a core reset of the application cores. -/
  | resetKeyAppCores (word : Word32)
  /-- RESET_KEY_RST_N (R233): HIF_RESET_KEY word 0xA5C3_0002 requests a reset with the effect of RST_N. -/
  | resetKeyRstN (word : Word32)
  /-- LC_REQUEST_PROVISIONED (R632): HIF_LC_TRIGGER action 0x0001 requests the PROVISIONED lifecycle state. -/
  | lcRequestProvisioned (word : Word32)
  /-- LC_REQUEST_FIELD (R632): HIF_LC_TRIGGER action 0x0002 requests FIELD, needing a recent operation 4 authorisation. -/
  | lcRequestField (word : Word32)
  /-- LC_REQUEST_RETIRED (R633): HIF_LC_TRIGGER action 0x0003 requests RETIRED, unpicking every slot on success. -/
  | lcRequestRetired (word : Word32)
  /-- UPD_ACTIVATE (R662): HIF_UPD_TRIGGER action 0x0001 arms and sets TRIAL in the boot selector and restarts with the effect of RST_N. -/
  | updActivate (word : Word32)
  /-- UPD_CONFIRM (R664): HIF_UPD_TRIGGER action 0x0002 confirms the image on trial. -/
  | updConfirm (word : Word32)
  /-- UPD_FALLBACK (R665): HIF_UPD_TRIGGER action 0x0003 falls back from the trial to the confirmed bank. -/
  | updFallback (word : Word32)
  /-- MODULE_VERSION_GET (R258): Command 0x0101 returns the version report. -/
  | moduleVersionGet (mb : Mailbox)
  /-- COMMAND_LIST_GET (R259): Command 0x0102 returns the bitmap of commands or events served in a group. -/
  | commandListGet (mb : Mailbox)
  /-- MODULE_STATUS_GET (R260): Command 0x0103 returns power state, start step, lifecycle, permits, latches, LIFE and EPOCH. -/
  | moduleStatusGet (mb : Mailbox)
  /-- TIME_GET (R260): Command 0x0201 returns LIFE, RTC, status, trim and adjustment limit from one coherent read. -/
  | timeGet (mb : Mailbox)
  /-- TIME_SET (R136): Command 0x0202 sets the RTC to an absolute second, reporting the offset applied and whether slewed or stepped. -/
  | timeSet (mb : Mailbox)
  /-- TIME_ADJUST (R136): Command 0x0203 adjusts the RTC by a signed millisecond offset. -/
  | timeAdjust (mb : Mailbox)
  /-- TIME_TRIM_SET (R140): Command 0x0204 sets the RTC rate trim, clipping beyond 50 ppm. -/
  | timeTrimSet (mb : Mailbox)
  /-- CONFIG_CANDIDATE_OPEN (R651): Command 0x0301 opens an empty or copied candidate set. -/
  | configCandidateOpen (mb : Mailbox)
  /-- CONFIG_CANDIDATE_WRITE (R651): Command 0x0302 writes bytes into the candidate body at an offset. -/
  | configCandidateWrite (mb : Mailbox)
  /-- CONFIG_KEY_SET (R651): Command 0x0303 replaces or appends one key line in the candidate. -/
  | configKeySet (mb : Mailbox)
  /-- CONFIG_KEY_GET (R651): Command 0x0304 reads a key from the set in force, the previous set or the candidate. -/
  | configKeyGet (mb : Mailbox)
  /-- CONFIG_COMMIT (R652): Command 0x0305 checks the candidate and makes it the active set in one header write. -/
  | configCommit (mb : Mailbox)
  /-- CONFIG_REVERT (R653): Command 0x0306 makes the previous set active, migrating it if older. -/
  | configRevert (mb : Mailbox)
  /-- CONFIG_INFO_GET (R260): Command 0x0307 reports the active, previous, candidate and migration sets. -/
  | configInfoGet (mb : Mailbox)
  /-- UPDATE_BEGIN (R656): Command 0x0401 checks an image header and starts or resumes a download. -/
  | updateBegin (mb : Mailbox)
  /-- UPDATE_BLOCK_WRITE (R659): Command 0x0402 places image data into the staging buffer. -/
  | updateBlockWrite (mb : Mailbox)
  /-- STAGED_BLOCK_COMMIT (R659): A staged block becomes complete and is written to the target bank, read back and confirmed. -/
  | stagedBlockCommit (block : Nat) (readBackOk : Bool)
  /-- UPDATE_STATUS_GET (R260): Command 0x0403 reports the update stage, banks, blocks and trial state. -/
  | updateStatusGet (mb : Mailbox)
  /-- UPDATE_VERIFY (R660): Command 0x0404 rechecks the header and digests and marks the bank verified. -/
  | updateVerify (mb : Mailbox)
  /-- UPDATE_ABORT (R660): Command 0x0405 discards a download in stages 1 to 4. -/
  | updateAbort (mb : Mailbox)
  /-- KEY_ENVELOPE_APPLY (R627): Command 0x0501 checks a key envelope and applies its operations whole. -/
  | keyEnvelopeApply (mb : Mailbox)
  /-- KEY_SLOT_STATUS_GET (R260): Command 0x0502 returns the state, binding and parent of all 64 slots. -/
  | keySlotStatusGet (mb : Mailbox)
  /-- LIFECYCLE_GET (R260): Command 0x0503 returns lifecycle, debug port state, envelope counter and identity. -/
  | lifecycleGet (mb : Mailbox)
  /-- DEVICE_CERT_GET (R267): Command 0x0504 returns a chunk of a device, legal signing or authority certificate. -/
  | deviceCertGet (mb : Mailbox)
  /-- MEASUREMENT_LOG_GET (R643): Command 0x0505 returns the three boot measurements. -/
  | measurementLogGet (mb : Mailbox)
  /-- SYNC_TRIGGER (R290): Command 0x0601 requests a synchronisation of the weave. -/
  | syncTrigger (mb : Mailbox)
  /-- CHANNEL_STATUS_GET (R260): Command 0x0602 returns mode, flags and range of all 48 channels. -/
  | channelStatusGet (mb : Mailbox)
  /-- CHANNEL_SAT_CLEAR (R287): Command 0x0603 clears the sticky SAT flags of the channels in the mask. -/
  | channelSatClear (mb : Mailbox)
  /-- SAMPLES_READ (R260): Command 0x0604 returns raw sample words of an application-visible channel. -/
  | samplesRead (mb : Mailbox)
  /-- CALIBRATION_STATUS_GET (R260): Command 0x0605 returns the spare and calibration status of each island. -/
  | calibrationStatusGet (mb : Mailbox)
  /-- METER_READ (R327): Command 0x0701 returns a selector's quantities from the publication window. -/
  | meterRead (mb : Mailbox)
  /-- HARMONICS_READ (R324): Command 0x0702 returns harmonic magnitudes, phases and THD of a channel. -/
  | harmonicsRead (mb : Mailbox)
  /-- BILLING_REGISTERS_READ (R350): Command 0x0801 returns the post set registers of a tariff. -/
  | billingRegistersRead (mb : Mailbox)
  /-- DEMAND_READ (R358): Command 0x0802 returns the fixed or sliding demand maxima of a demand period. -/
  | demandRead (mb : Mailbox)
  /-- TARIFF_TABLE_LOAD (R352): Command 0x0803 requests MET to accept a new tariff table. -/
  | tariffTableLoad (mb : Mailbox)
  /-- TARIFF_SWITCH (R354): Command 0x0804 requests a remote tariff switch at a boundary. -/
  | tariffSwitch (mb : Mailbox)
  /-- LEGAL_LOG_READ (R368): Command 0x0805 reads entries of the legal event log. -/
  | legalLogRead (mb : Mailbox)
  /-- SESSION_RECORD_READ (R376): Command 0x0806 reads a chunk of a signed OCMF session record. -/
  | sessionRecordRead (mb : Mailbox)
  /-- SESSION_START (R552): Command 0x0901 starts a session on an outlet after its checks and authorisation. -/
  | sessionStart (mb : Mailbox)
  /-- SESSION_STOP (R415): Command 0x0902 stops a session by the stop sequence. -/
  | sessionStop (mb : Mailbox)
  /-- SESSION_STATUS_GET (R402): Command 0x0903 reports an outlet's session state and currents. -/
  | sessionStatusGet (mb : Mailbox)
  /-- SETPOINT_SET (R408): Command 0x0904 sets an outlet's current or power target, clipped to the limit. -/
  | setpointSet (mb : Mailbox)
  /-- SAFETY_STATUS_GET (R260): Command 0x0A01 returns permits, latches, seam paths and safety measurements. -/
  | safetyStatusGet (mb : Mailbox)
  /-- TRIP_CAUSE_READ (R428): Command 0x0A02 returns the trip cause word of a driver. -/
  | tripCauseRead (mb : Mailbox)
  /-- SAFETY_REARM_REQUEST (R428): Command 0x0A03 asks the safety core to re-arm a driver. -/
  | safetyRearmRequest (mb : Mailbox)
  /-- LOAD_SWITCH_SET (R474): Command 0x0B01 sets the commanded state of load-switch channels. -/
  | loadSwitchSet (mb : Mailbox)
  /-- LOAD_SWITCH_STATUS_GET (R260): Command 0x0B02 returns current, state, temperature and count of each channel. -/
  | loadSwitchStatusGet (mb : Mailbox)
  /-- LOAD_SWITCH_RESTART (R478): Command 0x0B03 restarts tripped or latched channels that have cooled. -/
  | loadSwitchRestart (mb : Mailbox)
  /-- WEAR_COUNTERS_READ (R490): Command 0x0B04 returns contactor and clamp wear counters. -/
  | wearCountersRead (mb : Mailbox)
  /-- PORT_STATUS_GET (R260): Command 0x0C01 returns link state, errors and rate of each network port. -/
  | portStatusGet (mb : Mailbox)
  /-- STRING_STATUS_GET (R513): Command 0x0C02 returns a string's voltage, current and optimiser and SunSpec records. -/
  | stringStatusGet (mb : Mailbox)
  /-- RSD_KEEPALIVE_SET (R515): Command 0x0C03 sets or clears the application's keep-alive request per string. -/
  | rsdKeepaliveSet (mb : Mailbox)
  /-- PAIR_ROLE_SWAP_REQUEST (R525): Command 0x0C04 requests a leadership swap over the pair link. -/
  | pairRoleSwapRequest (mb : Mailbox)
  /-- PAIR_STATUS_GET (R260): Command 0x0C05 returns pair role, peer, budget and shares. -/
  | pairStatusGet (mb : Mailbox)
  /-- POWER_MODULE_STATUS_GET (R520): Command 0x0C06 returns the state of each power module on a bus. -/
  | powerModuleStatusGet (mb : Mailbox)
  /-- AUTH_IDENTITY_SUBMIT (R547): Command 0x0D01 submits an identity for authorisation. -/
  | authIdentitySubmit (mb : Mailbox)
  /-- SOLAR_FOLLOW_SET (R554): Command 0x0D02 sets an outlet's solar-following mode and minimum. -/
  | solarFollowSet (mb : Mailbox)
  /-- DISPLAY_REGION_WRITE (R568): Command 0x0E01 writes pixel codes into the target plane outside the legal band. -/
  | displayRegionWrite (mb : Mailbox)
  /-- DISPLAY_UPDATE (R570): Command 0x0E02 requests an update of a rectangle of the application area. -/
  | displayUpdate (mb : Mailbox)
  /-- SEGMENT_SET (R582): Command 0x0E03 sets the application segments of the requested pattern. -/
  | segmentSet (mb : Mailbox)
  /-- DISPLAY_STATUS_GET (R260): Command 0x0E04 returns display verification, crack loop and update status. -/
  | displayStatusGet (mb : Mailbox)
  /-- PSP_TRANSFER (R602): Command 0x0F01 requests a peripheral port transfer. -/
  | pspTransfer (mb : Mailbox)
  /-- PSP_TRANSFER_RUN (R606): A queued transfer gets its port and runs select, transmit, turnaround, busy wait, receive and release. -/
  | pspTransferRun (port : Fin 3) (groups : List Bytes) (clocks : List (List (Nat × Bool)))
  /-- PSP_BUSY_TIMEOUT (R605): The busy wait passes psp.N.busy_timeout_us; the select is released and the transfer ends with ST_PSP_BUSY_TIMEOUT. -/
  | pspBusyTimeout (port : Fin 3)
  /-- GPIO_SET (R608): Command 0x0F02 sets the levels of out and od pins in the mask. -/
  | gpioSet (mb : Mailbox)
  /-- GPIO_GET (R610): Command 0x0F03 returns pin levels and driving outputs. -/
  | gpioGet (mb : Mailbox) (levels : BitVec 64)
  /-- WATCH_STATUS_GET (R260): Command 0x1001 returns watch status, last wake cause and record counts. -/
  | watchStatusGet (mb : Mailbox)
  /-- RTC_ADJ_MS_WRITE (R137): A write to RTC_ADJ_MS starts a slew within the limit or a step beyond it. -/
  | rtcAdjMsWrite (master : Master) (word : Word32) (whole : Bool)
  /-- RTC_SET_LO_WRITE (R136): A write to RTC_SET_LO sets the RTC as an offset from its present value, replacing unabsorbed adjustments. -/
  | rtcSetLoWrite (master : Master) (hi : BitVec 1) (lo : Word32) (whole : Bool)
  /-- RTC_TRIM_WRITE (R140): A write to RTC_TRIM changes the RTC rate, clipped at 50 ppm. -/
  | rtcTrimWrite (master : Master) (word : Word32)
  /-- TMR_PERIOD_WRITE (R142): A write to TMRn_PERIOD sets, stops or refuses the period function of a timer. -/
  | tmrPeriodWrite (master : Master) (n : Fin 16) (period : Word32)
  /-- TMR_PERIOD_EVENT (R142): A timer's period elapses; EVT is set and the owner may be interrupted. -/
  | tmrPeriodEvent (n : Fin 16)
  /-- AO32_TICK (R146): On each AO32 cycle LIFE increments and the RTC and calendar registers update together. -/
  | ao32Tick
  /-- SLEW_ABSORBED (R137): A slew has absorbed its offset and SLEWING clears. -/
  | slewAbsorbed
  /-- RTC_RANGE_END (R153): The RTC reaches 2255-12-31T23:59:59, stops, sets RANGE_END and clears VALID. -/
  | rtcRangeEnd
  /-- MET_TIME_REPORT (R361): MET handles a slew or step report from the TIME block, logging it and applying the hem for a step. -/
  | metTimeReport
  /-- AO32_FAULT (R159): AO32 fails; LIFE and RTC count AOF/128 and HOLDOVER is set. -/
  | ao32Fault
  /-- AOF_FAULT (R159): AOF leaves 128 +/ - 3 cycles per AO32 period; the watch core runs from AO32 and theft watch is suspended. -/
  | aofFault
  /-- REF_FAULT (R159): REF fails; PERMIT_WCH is withdrawn and the control base is reset without the save sequence. -/
  | refFault
  /-- MET_CLOCK_FAULT (R159): The MET clock leaves +/ -1 %; PERMIT_WCH is withdrawn and MET has a core reset. -/
  | metClockFault
  /-- SAF_CLOCK_FAULT (R159): The SAF clock leaves +/ -1 %; PERMIT_WCH is withdrawn and SAF has a core reset. -/
  | safClockFault
  /-- APP_CLOCK_FAULT (R159): The APP clock leaves +/ -1 % against SAF; the application cores have a core reset. -/
  | appClockFault
  /-- FLT_FAULT (R159): FLT leaves +/ -1 %; PERMIT_SAF is withdrawn and all channels are marked OOS. -/
  | fltFault
  /-- PLL_DOMAIN_FAULT (R159): GPH, NET, SPE, DSP or PER loses lock; the PLL restarts once, or stays off after a second fault. -/
  | pllDomainFault (domain : Domain)
  /-- DOMAIN_READMITTED (R160): A faulted domain has run within limits for its readmission time and EV_CLOCK_FAULT reports it readmitted. -/
  | domainReadmitted (domain : Domain)
  /-- VAUX_START_DEBOUNCED (R119): VAUX stays above the start threshold for the debounce time and the module start begins. -/
  | vauxStartDebounced (vauxMv : Nat)
  /-- MODULE_POWER_ON (R61): Module power-on reset is released and the start order of Table 1.12 runs through step 8. -/
  | modulePowerOn (start : StartInputs)
  /-- START_STEP_9 (R465): Once the hold-up self-test ends, the watch domain grants PERMIT_WCH and SAF grants PERMIT_SAF and re-arms drivers. -/
  | startStep9 (gates : List GateTest)
  /-- HOLDUP_SELFTEST_COMPLETE (R103): The hold-up self-test finishes and classifies the capacitor as pass, worn or failed. -/
  | holdupSelftestComplete (uF mOhm uA : Nat)
  /-- HOLDUP_SELFTEST_TIMEOUT (R120): The capacitor has not reached 31 V within 500 ms and the self-test fails. -/
  | holdupSelftestTimeout (uF capMv : Nat)
  /-- START_REPEAT (R121): A non -E module has not completed step 8 within 2 s and repeats its start from step 1. -/
  | startRepeat
  /-- VAUX_OV_CUT (R96): VAUX stays above the overvoltage cut for its filter; coil drive is removed and every load switch turned off. -/
  | vauxOvCut (vauxMv : Nat)
  /-- VAUX_OV_RELEASE (R96): VAUX stays below the release level for 100 ms and load switches return to their commanded states. -/
  | vauxOvRelease (vauxMv : Nat)
  /-- VAUX_LOW (R96): VAUX stays below the low-supply level for 100 ms and EV_VAUX_LOW is raised. -/
  | vauxLow (vauxMv : Nat)
  /-- SAVE_ENTRY (R123): VAUX stays below the power-fail warning for the filter time and the save sequence runs. -/
  | saveEntry (clamped : BitVec 32) (cut : Option HifCut)
  /-- SAVE_COMPLETE (R109): The save sequence ends; the module restarts if VAUX has returned, or enters WATCH. -/
  | saveComplete (capMv : Nat)
  /-- LAST_CALL (R116): The capacitor reaches 11 V during the save; the running step stops and the save record is written. -/
  | lastCall (step items : Nat)
  /-- CONVERTER_STOP (R116): The capacitor reaches 9 V before the save record completes and the control base switches off. -/
  | converterStop (step items : Nat)
  /-- HOLDUP_LOW (R115): The capacitor stays below 31 V for 100 ms with VAUX present and the hold-up is treated as failed. -/
  | holdupLow (capMv : Nat)
  /-- RAIL_FAULT (R114): A rail leaves tolerance for 10 us; PERMIT_WCH is withdrawn, the save runs and a power-on reset follows. -/
  | railFault
  /-- WATCH_SOURCE_CHANGE (R98): The battery-domain switch changes the watch-domain source without interruption. -/
  | watchSourceChange (capMv vbatMv : Nat)
  /-- RST_N_LOW (R46): RST_N is held low for its minimum width and resets every block except the watch domain. -/
  | rstNLow (lowNs : Nat) (held : Bool)
  /-- WATCH_DOMAIN_POR (R163): All supplies are lost together; LIFE, RTC and watch SRAM are cleared and the watch core restarts. -/
  | watchDomainPor
  /-- APP_CORE_RESET (R47): The application cores are reset, PERMIT_APP is withdrawn and outstanding commands are aborted. -/
  | appCoreReset
  /-- APP_WATCHDOG_EXPIRY (R46): The application-core watchdog expires and causes a core reset of the application cores. -/
  | appWatchdogExpiry
  /-- SAF_CORE_RESET (R48): The safety core is reset and PERMIT_SAF is withdrawn for all drivers until it re-arms. -/
  | safCoreReset
  /-- PERMIT_WITHDRAWAL (R42): The power die sees a permit withdrawn, removes coil drive and sets the driver's trip latch. -/
  | permitWithdrawal (d : Driver) (stage : Stage) (code : BitVec 16)
  /-- TRIP_WINDOW_CLOSE (R52): The 2 us first-cause window closes and EV_TRIP is raised once with every first cause. -/
  | tripWindowClose (d : Driver)
  /-- PERMIT_GRANT (R40): A permit pair resumes antiphase toggling; with all permits granted and latch clear, coil drive begins. -/
  | permitGrant (d : Driver) (stage : Stage)
  /-- SAF_REARM (R42): The safety core re-arms a driver after its gate test, clearing the trip latch. -/
  | safRearm (d : Driver) (gate : GateTest)
  /-- POWER_DIE_LINK_LOSS (R58): No valid link frame reaches the power die for 1 ms; all coil drive is removed and load switches take fail states. -/
  | powerDieLinkLoss
  /-- FIREWALL_BLOCK (R55): An access not allowed by Table 1.3 returns a bus error and is recorded and reported. -/
  | firewallBlock (access : BusAccess)
  /-- CRYPTO_REQUEST (R32): A requester submits an operation to the crypto engine on its channel. -/
  | cryptoRequest (req : CryptoReq)
  /-- CRYPTO_REQUEST_DONE (R49): A crypto engine operation completes and its result returns to the requester. -/
  | cryptoRequestDone (channel : Nat)
  /-- TAMPER_SAMPLE (R178): Every 4,096 AO32 cycles the watch core senses TMP_COV and TMP_TRM and records a filtered change. -/
  | tamperSample (covOhm trmOhm : Option Nat)
  /-- CRACK_CHECK (R180): Once per second the watch core measures the crack loop and decides verified or unverified. -/
  | crackCheck (ohm : Nat)
  /-- VBAT_CHECK (R106): Once per second the watch core reads VBAT and decides low or absent. -/
  | vbatCheck (vbatMv : Nat)
  /-- PILOT_WAKE_SAMPLE (R168): In IDLE the watch core samples the pilots every 328 cycles and fires the plug-in wake. -/
  | pilotWakeSample (cpOutOfA ppMoved : Bool) (outlet : Outlet)
  /-- THEFT_BURST (R175): In WATCH the watch domain runs a 40 ms measurement burst on the theft island's selected channels. -/
  | theftBurst (valid : Bool) (bits : List (List Bool))
  /-- SEGMENT_UPDATE_START (R181): The watch core finds the requested pattern differs from the shown one and starts a segment update. -/
  | segmentUpdateStart (celsius : Int)
  /-- SEGMENT_UPDATE_END (R181): A segment update ends and the requested pattern is the pattern shown. -/
  | segmentUpdateEnd
  /-- SEGMENT_PATTERN_WRITE (R31): MET or the application writes the requested segment pattern, masked by bit. -/
  | segmentPatternWrite (m : Master) (pattern : BitVec 64)
  /-- SEGMENT_REDRIVE (R583): Once per 24 h the watch core re-drives every segment in its shown colour. -/
  | segmentRedrive
  /-- WDG_SERVICE (R183): SAF writes WCH_WDG_SVC; an accepted service renews the token and the window. -/
  | wdgService (master : Master) (word : Word32) (whole : Bool)
  /-- WDG_LATE (R184): No accepted service arrives by AO32 cycle 492; PERMIT_WCH is withdrawn and SAF is reset. -/
  | wdgLate
  /-- HEARTBEAT_TICK (R196): Each millisecond the watch core increments HEARTBEAT and refreshes its PERMIT_WCH toggling logic. -/
  | heartbeatTick
  /-- PERMIT_WCH_REFRESH_TIMEOUT (R196): The toggling logic is not refreshed for 2 ms and drives every PERMIT_WCH pair low. -/
  | permitWchRefreshTimeout
  /-- MET_CARRY_RING (R167): MET carries watch ring entries and the LOST count into the legal event log and advances the read index. -/
  | metCarryRing
  /-- WATCH_SETTINGS_APPLY (R202): The watch core applies a newly written watch settings block at its next AO32 cycle. -/
  | watchSettingsApply
  /-- RTC_ALARM_FIRE (R710): The enabled alarm second is reached with VALID set; the wake cause bit is set and the enable cleared. -/
  | rtcAlarmFire
  /-- GP_WAKE_EDGE (R609): A filtered edge on a wake pin sets wake cause bit 5 and wakes the application in IDLE. -/
  | gpWakeEdge (pin : Fin 64) (rising : Bool)
  /-- NETWORK_WAKE_FRAME (R504): A frame matching a port's wake rule in IDLE is held and wakes the application. -/
  | networkWakeFrame (port : Fin 4) (kind : WakeFrame) (frame : Bytes)
  /-- ARP_REPLY_IDLE (R504): In IDLE a MAC answers an ARP request for its address without waking the application. -/
  | arpReplyIdle (port : Fin 4)
  /-- MET_WAKE_REQUEST (R168): MET requests a wake for tamper or reversed or bypassed current. -/
  | metWakeRequest
  /-- SAF_WAKE_REQUEST (R168): SAF requests a wake to report a fault. -/
  | safWakeRequest
  /-- WAKE_COMPLETE (R169): The application island is powered, the bank digest checked and the IDLE checkpoint restored. -/
  | wakeComplete
  /-- IDLE_ENTRY (R173): The IDLE conditions have held for power.idle_after_s and the application writes its checkpoint. -/
  | idleEntry
  /-- APP_ISLAND_REMOVED (R173): After the checkpoint is written the power die removes the application island and HIF_STATE.POWER reads IDLE. -/
  | appIslandRemoved
  /-- RINSE_GRANULE (R187): The rinse reads and corrects one granule of MRAM or SRAM at its pace or share. -/
  | rinseGranule (region : MemRegion) (outcome : GranuleOutcome)
  /-- CALIBRATION_DUE (R191): A modulator's calibration interval elapses; darning starts if conditions hold, otherwise it is deferred. -/
  | calibrationDue (k : Island) (m : Fin 8)
  /-- DARNING_COMPARE (R294): After one span the M8 and Mn streams are compared and the blend runs or the handover ends. -/
  | darningCompare (k : Island)
  /-- DARNING_REFERENCE_DONE (R293): Mn's reference calibration ends, new coefficients are computed and Mn returns to the input. -/
  | darningReferenceDone (k : Island) (offset gain : Int)
  /-- DARNING_RELEASE (R293): The blend back completes and M8 is released. -/
  | darningRelease (k : Island)
  /-- M8_SELF_CALIBRATION (R295): An idle M8 calibrates itself against the internal references once per calibration cycle. -/
  | m8SelfCalibration (k : Island) (offset gain : Int) (pass : Bool)
  /-- COMPARATOR_SELFTEST (R298): Every 10 min an island tests each channel's comparator pair with the standby pair protecting it. -/
  | comparatorSelftest (k : Island) (step : SelfTestStep)
  /-- EGRESS_FRAME_DONE (R193): A frame finishes transmitting and the next frame is taken from the highest non-empty egress queue. -/
  | egressFrameDone (port : Fin 8)
  /-- TELEMETRY_ENQUEUE (R194): A telemetry frame is queued, dropping the oldest telemetry frame when it does not fit. -/
  | telemetryEnqueue (port : Fin 8) (frame : Bytes)
  /-- ISLAND_FRAME (R277): An island's 40-bit frame arrives each MOD cycle, or fails its check and missing bits are substituted. -/
  | islandFrame (k : Island) (frame : BitVec 40) (loads : BitVec 9)
  /-- ISLAND_LINK_LOSS (R57): More than 4 consecutive frames fail; the island's channels go OOS, PERMIT_ISL is withdrawn and the island restarts. -/
  | islandLinkLoss (k : Island)
  /-- ISLAND_RESTART_RETRY (R57): While the link stays bad the island restart is repeated every 100 ms. -/
  | islandRestartRetry (k : Island)
  /-- ISLAND_LINK_RESYNC (R57): The island link resynchronises and its channels begin to return. -/
  | islandLinkResync (k : Island)
  /-- WEAVE_FRAME (R279): One 64-slot weave frame advances every chain and delivers due output words. -/
  | weaveFrame
  /-- WEAVE_THRESHOLD_TRIP (R299): A channel's count of samples beyond its weave threshold is reached and PERMIT_WV is withdrawn. -/
  | weaveThresholdTrip (ch : Channel)
  /-- COMPARATOR_TRIP (R296): A comparator counts its consecutive fast samples beyond threshold; the trip is latched and PERMIT_ISL withdrawn. -/
  | comparatorTrip (ch : Channel) (high : Bool)
  /-- SYNC_IN_EDGE (R290): A rising edge on SYNC_IN held 2 MOD cycles requests a synchronisation. -/
  | syncInEdge (highNs : Nat)
  /-- SYNCHRONISATION_INSTANT (R290): Within two MOD cycles of a request the weave resets and flushes every chain and re-bases schedules. -/
  | synchronisationInstant (refCycles : Word32)
  /-- MAINS_CYCLE_END (R283): The tracker measures a mains cycle and sets the phase increment for the next. -/
  | mainsCycleEnd (milliHz rmsPermille refCycles : Nat)
  /-- MODULATOR_FAILED (R307): A modulator shows no transition for 64 MOD cycles; M8 takes the channel or it goes OOS. -/
  | modulatorFailed (k : Island) (m : Fin 9)
  /-- OPEN_INPUT_TEST (R308): The island drives 20 uA into a low-voltage input for 1 ms and takes an open input out of service. -/
  | openInputTest (ch : Channel) (isOpen : Bool)
  /-- CHANNEL_READMIT (R306): MET readmits a channel at the first mains-cycle boundary after its settling outputs. -/
  | channelReadmit (ch : Channel)
  /-- MET_SAMPLE_ACCUMULATE (R318): MET accumulates each accumulable sample of its metered channels. -/
  | metSampleAccumulate (sel : Selector)
  /-- TEST_PULSE_END (R331): The 2 ms test pulse ends. -/
  | testPulseEnd
  /-- INTEGRATION_PERIOD_END (R327): An integration period ends; MET computes quantities, books energies and publishes the window. -/
  | integrationPeriodEnd
  /-- HARMONIC_WINDOW_END (R323): A harmonic window of 10 or 12 cycles ends and harmonics and THD are published. -/
  | harmonicWindowEnd
  /-- SYNC_BRIDGE (R335): The first valid sample after a synchronisation lets MET interpolate and book the bridged span. -/
  | syncBridge (sel : Selector)
  /-- MEASUREMENT_GAP (R338): A run of unaccumulated, unbridged samples ends and MET logs the gap with its estimate. -/
  | measurementGap (sel : Selector) (ms : Nat)
  /-- GAP_SESSION_END (R338): A metered channel of a billed session delivers nothing accumulable for 1 s and the session ends. -/
  | gapSessionEnd (o : Outlet)
  /-- MET_CORE_RESET (R341): MET restarts from its last checkpoint, logs the reset and ends running billed sessions. -/
  | metCoreReset
  /-- CALIBRATION_AGE_EXCEEDED (R342): A metered modulator passes its assumed calibration age; the valid bit clears and MET logs it. -/
  | calibrationAgeExceeded (k : Island) (m : Fin 9)
  /-- STARTUP_ROTATION_COMPLETE (R344): An island's start-up calibration rotation completes and the window's rotation bit is set. -/
  | startupRotationComplete (k : Island)
  /-- MET_REQUEST_WRITE (R330): The application writes a request into the MET request port queue for MET to judge. -/
  | metRequestWrite (m : Master) (req : MetRequest)
  /-- CHECKPOINT (R363): Every 60 s of LIFE, or at a listed event, MET checkpoints its legal state. -/
  | checkpoint
  /-- TARIFF_ENTRY_START (R351): A table entry's start arrives and the tariff in force changes. -/
  | tariffEntryStart (entry : Nat)
  /-- REMOTE_SWITCH_EFFECT (R355): A remote tariff switch reaches its boundary and takes effect. -/
  | remoteSwitchEffect
  /-- DEMAND_INTERVAL_END (R356): A fixed demand interval ends and its demand competes for the maximum. -/
  | demandIntervalEnd
  /-- SLIDING_SUB_END (R357): A sliding sub-interval ends and the sliding demand is computed. -/
  | slidingSubEnd
  /-- DEMAND_PERIOD_CLOSE (R358): A demand period closes, is logged and the oldest closed period is discarded. -/
  | demandPeriodClose
  /-- LOG_ENTRY_WRITE (R368): MET writes a pending entry into the legal event log ring. -/
  | logEntryWrite
  /-- SESSION_RECORD_SIGNED (R371): A closed session record is signed on channel 0, logged and EV_SESSION_RECORD_READY raised. -/
  | sessionRecordSigned (o : Outlet) (ok : Bool)
  /-- CP_STATE_CHANGE (R391): Three consecutive periods classify CP into a new pilot state. -/
  | cpStateChange (o : Outlet) (highMv : Int)
  /-- PP_CHANGE (R394): Three consecutive PP readings give a new cable capacity. -/
  | ppChange (o : Outlet) (ohm : Nat)
  /-- DIODE_FAULT (R392): The CP low level stays above -10.8 V for 3 periods. -/
  | diodeFault (o : Outlet) (lowMv : Int)
  /-- PWM_DUTY_CHANGE (R397): A decided duty change takes effect at the start of the next PWM period. -/
  | pwmDutyChange (o : Outlet)
  /-- CM_SLAC_PARAM (R398): The modem receives CM_SLAC_PARAM and answers it. -/
  | cmSlacParam (o : Outlet) (runId : BitVec 64)
  /-- CM_MNBC_SOUND (R398): The modem measures CM_MNBC_SOUND messages and returns CM_ATTEN_CHAR. -/
  | cmMnbcSound (o : Outlet) (attenDb : Nat)
  /-- CM_SLAC_MATCH (R398): The modem answers CM_SLAC_MATCH with a fresh network key or refuses on attenuation. -/
  | cmSlacMatch (o : Outlet)
  /-- SDP_REQUEST (R399): An SDP request on UDP 15118 is answered with TLS or TCP offers. -/
  | sdpRequest (o : Outlet) (tls : Bool)
  /-- SUPPORTED_APP_PROTOCOL (R400): The vehicle's protocol list is matched against veh.outX.protocols. -/
  | supportedAppProtocol (o : Outlet) (offered : List Protocol)
  /-- CABLE_CHECK (R404): The vehicle requests CableCheck and the insulation test begins. -/
  | cableCheck (o : Outlet) (vehMaxMv outletMv : Nat)
  /-- INSULATION_TEST_STABLE (R404): The test voltage has been within 5 % for 1 s and the insulation measurement begins. -/
  | insulationTestStable (o : Outlet) (outletMv : Nat)
  /-- PRE_CHARGE (R406): A PreCharge request sets the modules to the requested voltage at 2 A. -/
  | preCharge (o : Outlet) (requestMv outletMv : Nat)
  /-- POWER_DELIVERY (R402): A PowerDelivery start or stop moves the session into or out of energy transfer. -/
  | powerDelivery (o : Outlet) (start : Bool)
  /-- CHARGE_LOOP_REQUEST (R414): A charge-loop request is answered with the delivered limit within 20 ms. -/
  | chargeLoopRequest (o : Outlet) (veh : VehLimits)
  /-- DIRECTION_RENEGOTIATION (R411): The vehicle accepts or refuses a new power direction under ISO 15118-20. -/
  | directionRenegotiation (o : Outlet) (accepted : Bool)
  /-- SETPOINT_RAMP_TICK (R409): Every 10 ms a DC outlet's delivered limit moves towards its target at the slews. -/
  | setpointRampTick (o : Outlet) (currentMa : Int)
  /-- POWER_TARGET_CONVERT (R407): Every 100 ms a power target is converted to a current at the present voltage. -/
  | powerTargetConvert (o : Outlet) (outletMv : Nat)
  /-- AC_HOLDOFF_END (R410): The 5 s AC hold-off ends and the latest target takes effect. -/
  | acHoldoffEnd (o : Outlet)
  /-- BPT_DWELL_END (R411): The dwell at zero ends and direction renegotiation begins. -/
  | bptDwellEnd (o : Outlet)
  /-- STOP_TIMEOUT (R415): veh.stop_timeout_s passes in a stop and the contactors open. -/
  | stopTimeout (o : Outlet)
  /-- PAUSE_TIMEOUT (R416): A session paused for more than 24 h ends. -/
  | pauseTimeout (o : Outlet)
  /-- HANDSHAKE_TIMEOUT (R416): A handshake state without a protocol timer ends after 60 s. -/
  | handshakeTimeout (o : Outlet)
  /-- PROTOCOL_TIMEOUT (R418): A SLAC, TLS or protocol timer expires and the session ends with reason communication or falls back. -/
  | protocolTimeout (o : Outlet) (kind : TimeoutKind)
  /-- OUTLET_OVERCURRENT (R418): An outlet draws beyond its offered or delivered limit for the set time and PERMIT_APP is withdrawn. -/
  | outletOvercurrent (o : Outlet) (currentMa : Int)
  /-- OUTLET_REENABLE (R419): CP reads A for 2 s after a pilot fault or cable ending and the outlet accepts sessions again. -/
  | outletReenable (o : Outlet)
  /-- SAF_CYCLE (R442): Each 10 ms the safety core compares gate states, checks heartbeat and known-answer test and reads inputs. -/
  | safCycle (inp : SafInputs)
  /-- ESTOP_OPEN (R439): An emergency-stop input reads open twice, or the inputs disagree 100 ms, and the module safe state is taken. -/
  | estopOpen (aOpen bOpen : Bool × Bool) (disagreeMs : Nat)
  /-- RESIDUAL_DC_CYCLE (R430): Each mains cycle the safety core computes the residual DC mean and trips when a tier count is reached. -/
  | residualDcCycle (o : Outlet)
  /-- RCD_REF_OUT (R431): The sensor reference stays outside 40 to 60 % for 30 ms and SF02 trips. -/
  | rcdRefOut (o : Outlet) (perMille : Nat)
  /-- RCD_SENSOR_TEST (R431): Before a closing the sensor test winding is excited for 3 cycles and the result judged. -/
  | rcdSensorTest (o : Outlet) (riseUa : Int) (windingOhm : Nat)
  /-- INSULATION_MEASUREMENT (R432): A 2 s leg-off and leg-on measurement yields DC+ and DC- insulation resistances. -/
  | insulationMeasurement (o : Outlet) (plusOhm minusOhm outletMv : Nat)
  /-- IMD_SELF_CHECK (R433): At a cable check and every 24 h of transfer the test leg's effect is checked. -/
  | imdSelfCheck (o : Outlet) (changeMv computedMv : Nat)
  /-- PE_LOOP_FAULT (R434): The PE loop stays above its limit for 100 ms and SF04 trips. -/
  | peLoopFault (o : Outlet) (loopMilliohm : Nat)
  /-- PEN_FAULT (R435): The N-to-PE fundamental stays above its limit for safety.pen_time_ms and both outlets take the safe state. -/
  | penFault (nPeMv phasePeMv : Nat)
  /-- TEMPERATURE_READING (R436): A terminal temperature reading derates the outlet or, after 5 readings, trips it. -/
  | temperatureReading (o : Outlet) (sensor : Nat) (deciC : Int)
  /-- DC_OVERVOLTAGE (R437): The outlet voltage stays above the vehicle maximum plus margin for 20 ms and SF08 trips. -/
  | dcOvervoltage (o : Outlet) (outletMv : Nat)
  /-- DISCHARGE_CHECK (R438): 1 s after opening a DC outlet not below 60 V trips with DISCHARGE. -/
  | dischargeCheck (o : Outlet) (outletMv : Nat)
  /-- INPUT_UNAVAILABLE (R440): A safety input delivers no usable sample for 100 ms and its drivers trip. -/
  | inputUnavailable (ch : Channel)
  /-- DIVIDER_PLAUSIBILITY (R441): A divider channel disagrees with its second source for 300 ms and the outlet trips. -/
  | dividerPlausibility (o : Outlet) (converter : Bool) (readMv secondMv : Nat)
  /-- WELD_CHECK (R444): At every opening the coil current, mirror contact and outlet voltage are checked for a weld. -/
  | weldCheck (d : Driver) (coilMa : Nat) (mirrorMs : Option Nat) (phasesMv : List Nat)
  /-- COIL_READBACK (R445): Every 10 ms the power die reads an idle driver's lands and coil current for a shorted switch. -/
  | coilReadback (d : Driver) (hMv lMv coilMa : Nat)
  /-- CP_FORCE_F_END (R427): 3 s after a trip the forced state F on CP changes to constant +12 V. -/
  | cpForceFEnd (o : Outlet)
  /-- SEAM_FRAME_SEND (R447): The T48 sends a safety frame on both seam paths every 10 ms or within 5 ms of a change. -/
  | seamFrameSend (change : Bool)
  /-- SEAM_FRAME_RECEIVE (R448): A safety frame arrives on a path and is accepted or discarded and acted on. -/
  | seamFrameReceive (path : SeamPath) (frame : Bytes)
  /-- SEAM_PATH_TIMEOUT (R449): A path has no accepted frame for 20 ms and goes absent. -/
  | seamPathTimeout (path : SeamPath)
  /-- SEAM_DEGRADED_TIMEOUT (R460): 60 s after a path leaves service a degraded session ends. -/
  | seamDegradedTimeout
  /-- SAF_INTERNAL_FAULT (R461): The safety core finds an internal fault, withdraws PERMIT_SAF, records it and resets itself. -/
  | safInternalFault
  /-- COMPARATOR_SELFTEST_AGE (R462): A mapped comparator's last passed self-test becomes older than 24 h and new sessions are refused. -/
  | comparatorSelftestAge (k : Island)
  /-- DIE_OVERTEMP (R701): A die exceeds its temperature limit for 1 s and the module safe state is taken. -/
  | dieOvertemp (powerDie : Bool) (celsius : Nat)
  /-- LS_CURRENT_SAMPLE (R476): Every 50 us the power die measures each channel's current and updates its heating model. -/
  | lsCurrentSample (n : Fin 32) (mA celsius : Nat)
  /-- I2T_TRIP (R477): A channel's heat reaches 1.21 and the channel trips off. -/
  | i2tTrip (n : Fin 32) (clampUj : Nat)
  /-- CURRENT_LIMIT_TRIP (R477): A channel stays in current limit for 2 ms and trips. -/
  | currentLimitTrip (n : Fin 32)
  /-- THERMAL_SHUTDOWN (R479): A channel's junction reaches 170 C and it switches off, to restart or latch. -/
  | thermalShutdown (n : Fin 32) (celsius : Nat)
  /-- THERMAL_RESTART (R479): A channel in thermal restart cools to 150 C and returns to its commanded state. -/
  | thermalRestart (n : Fin 32) (celsius : Nat)
  /-- LS_PAIR_APPLY (R473): A changed ls.NN.pair takes effect once both channels are off. -/
  | lsPairApply (n : Fin 32)
  /-- PULL_IN_END (R485): The pull-in time ends, the pull-in current is checked and the economiser starts hold regulation. -/
  | pullInEnd (d : Driver) (peakMa : Nat)
  /-- MIRROR_SENSE (R488): Every 1 ms the power die senses a mirror contact and takes a new state on 3 equal readings. -/
  | mirrorSense (d : Driver) (ohm : Nat)
  /-- MIRROR_TIMEOUT (R488): The mirror has not reported closed within safety.cdN.mirror_ms of coil drive and the closing fails. -/
  | mirrorTimeout (d : Driver)
  /-- COIL_CURRENT_LIMIT (R496): A coil current held at 5 A for 10 ms turns both switches off and trips COIL_DRIVER. -/
  | coilCurrentLimit (d : Driver)
  /-- SHUNT_TRIP_PULSE_END (R475): The 500 ms shunt-trip pulse after a weld trip ends. -/
  | shuntTripPulseEnd (o : Outlet)
  /-- CAN_BUS_OFF_RESTART (R507): After bus-off the CAN controller restarts after 128 occurrences of 11 recessive bits. -/
  | canBusOffRestart (n : Fin 4)
  /-- LINK_CHANGE (R532): A port's link goes up or down and EV_LINK reports it. -/
  | linkChange (port : Fin 8) (up : Bool) (kbps errors : Nat) (high : Bool)
  /-- STRING_POLL (R511): The T48 sends a POLL attempt to a known optimiser. -/
  | stringPoll (j : Fin 4) (addr : Word32)
  /-- STRING_REPLY (R510): An optimiser reply frame arrives and is taken. -/
  | stringReply (j : Fin 4) (frame : Bytes)
  /-- STRING_ATTEMPT_TIMEOUT (R510): No sync word arrives within 20 ms of a request and the attempt fails. -/
  | stringAttemptTimeout (j : Fin 4)
  /-- OPTIMISER_REMOVED (R511): An optimiser unanswered for 3,600 s is removed from the known list. -/
  | optimiserRemoved (j : Fin 4) (addr : Word32)
  /-- DISCOVERY_ROUND (R512): The T48 sends DISCOVER, hears announcements in 16 slots and enrols the optimisers heard. -/
  | discoveryRound (j : Fin 4) (heard : List (Word32 × Bool)) (garbled : Bool)
  /-- KEEPALIVE_STOP (R515): The safety enable or the application request drops and the string keep-alive goes silent. -/
  | keepaliveStop (j : Fin 4) (coupler : Bool)
  /-- KEEPALIVE_RESUME (R515): Both enables are present and 10 s have passed, and the keep-alive resumes. -/
  | keepaliveResume (j : Fin 4)
  /-- SUNSPEC_READ (R516): Once per pv.sunspec_s the T48 reads a SunSpec device over Modbus TCP. -/
  | sunspecRead (k : Fin 8) (points : SunPoints)
  /-- SUNSPEC_TIMEOUT (R516): A Modbus request is unanswered after 1 s and is repeated. -/
  | sunspecTimeout (k : Fin 8)
  /-- PM_SETPOINT_CYCLE (R519): Once per pm.cycle_ms the T48 sends SETPOINT to every node of a power bus. -/
  | pmSetpointCycle (bus : Fin 4)
  /-- PM_STATUS_RECEIVE (R520): A power-module STATUS arrives and may admit or lose the module. -/
  | pmStatusReceive (bus : Fin 4) (node : Fin 32) (payload : Bytes)
  /-- PM_IDENT_RECEIVE (R520): A power-module IDENT arrives and the module enters readmitting at zero. -/
  | pmIdentReceive (bus : Fin 4) (node : Fin 32) (payload : Bytes)
  /-- PM_LOST (R520): A module misses 3 cycles of valid STATUS and is lost. -/
  | pmLost (bus : Fin 4) (node : Fin 32)
  /-- PAIR_FRAME_SEND (R522): The leader sends a pair frame each 5 ms, or the follower answers. -/
  | pairFrameSend
  /-- PAIR_FRAME_RECEIVE (R522): A valid pair frame arrives and roles, shares and swaps are updated. -/
  | pairFrameReceive (frame : Bytes)
  /-- PAIR_HANDOVER (R525): At handover frame H leadership moves to the new leader. -/
  | pairHandover
  /-- PEER_LOST (R532): No valid pair frame for 100 ms; the module becomes alone. -/
  | peerLost
  /-- LEADER_SHARE_RAISE (R532): 5 s after the peer is lost a leader may raise its share. -/
  | leaderShareRaise
  /-- OCPP_RECONNECT (R539): The reconnect wait expires and the application reconnects to the back office. -/
  | ocppReconnect (accepted : Bool)
  /-- BOOT_NOTIFICATION_RESPONSE (R540): The BootNotification answer arrives, setting time or holding messages when Pending or Rejected. -/
  | bootNotificationResponse (status : BootStatus) (second interval : Nat)
  /-- HEARTBEAT_SEND (R540): The heartbeat interval expires and a Heartbeat is sent. -/
  | heartbeatSend
  /-- AUTHORIZE_RESPONSE (R547): The back office answers Authorize and the identity's result is decided. -/
  | authorizeResponse (id : Bytes) (result : AuthStatus) (expiry : Nat)
  /-- AUTH_OFFLINE_TIMEOUT (R547): The back office does not answer within ocpp.message_timeout_s and the offline rules decide. -/
  | authOfflineTimeout (id : Bytes)
  /-- REMOTE_START (R560): A RemoteStartTransaction or RequestStartTransaction starts a billed session. -/
  | remoteStart (o : Outlet) (kind : Nat) (id : Bytes)
  /-- RESERVE_NOW (R553): A ReserveNow reserves an outlet for an identity. -/
  | reserveNow (outlet : Option Outlet) (reservation : Nat) (id parent : Bytes) (expiry : Nat)
  /-- RESERVATION_EXPIRE (R553): A reservation reaches its expiry. -/
  | reservationExpire (reservation : Nat)
  /-- CHANGE_CONFIGURATION (R546): ChangeConfiguration or SetVariables commits a change to ocpp, auth or solar keys. -/
  | changeConfiguration (name value : Bytes)
  /-- TARIFF_TABLE_DATATRANSFER (R545): A DataTransfer TariffTable is passed to MET and answered Accepted or Rejected. -/
  | tariffTableDatatransfer (entries : List TariffEntry)
  /-- TARIFF_SWITCH_DATATRANSFER (R545): A DataTransfer TariffSwitch is passed to MET as a remote switch. -/
  | tariffSwitchDatatransfer (tariff boundary second : Nat)
  /-- KEY_ENVELOPE_DATATRANSFER (R636): A DataTransfer KeyEnvelope is passed unchanged to KEY_ENVELOPE_APPLY. -/
  | keyEnvelopeDatatransfer (envelope : Bytes)
  /-- UPDATE_FIRMWARE (R671): UpdateFirmware or SignedUpdateFirmware runs the download and update stages for the operator. -/
  | updateFirmware (header image : Bytes) (ocppSigOk : Bool) (install : Nat)
  /-- OPERATOR_ACTIVATION (R671): The install time is reached with no session open and the verified bank is activated. -/
  | operatorActivation
  /-- SEND_LOCAL_LIST (R548): SendLocalList updates the local authorisation list. -/
  | sendLocalList (version : Nat) (full : Bool) (entries : List ListEntry)
  /-- CLEAR_CACHE (R548): ClearCache empties the authorisation cache. -/
  | clearCache
  /-- SET_CHARGING_PROFILE (R541): A charging profile is stored and enters the outlet limit. -/
  | setChargingProfile (o : Outlet) (profile : ChargingProfile)
  /-- METER_VALUES_SEND (R543): Every ocpp.meter_interval_s meter values of a session are sent. -/
  | meterValuesSend (o : Outlet)
  /-- RECORD_DELIVERY (R544): A signed session record is delivered to the back office and repeated until acknowledged. -/
  | recordDelivery (record : Nat)
  /-- TLS_FAILURE (R562): A TLS failure counts as a lost connection and is recorded as a security event. -/
  | tlsFailure
  /-- IDLE_OCPP_WINDOW (R564): With periodic idle mode the RTC alarm wakes the post for a 60 s OCPP window. -/
  | idleOcppWindow
  /-- READER_POLL (R550): Every auth.reader_poll_ms the application polls the card reader with one transfer. -/
  | readerPoll (answer : Option Bytes)
  /-- IDENTITY_LAPSE (R551): A held identity lapses after auth.timeout_s without a plugged outlet. -/
  | identityLapse
  /-- SOLAR_PRODUCTION_TICK (R554): Once a second the application computes PV production and the surplus. -/
  | solarProductionTick
  /-- SOLAR_UPDATE (R555): Every solar.update_s the surplus share becomes each solar outlet's target. -/
  | solarUpdate
  /-- SOLAR_STOP_TIMER (R556): The share stays below minimum for solar.stop_s and the target becomes zero. -/
  | solarStopTimer (o : Outlet)
  /-- SOLAR_START_TIMER (R556): The share stays at or above minimum for solar.start_s and the session resumes. -/
  | solarStartTimer (o : Outlet)
  /-- DISPLAY_UPDATE_START (R572): At the first frame boundary an update takes its snapshot and starts driving. -/
  | displayUpdateStart (deciC : Option Int)
  /-- DISPLAY_FRAME (R572): Each 20 ms frame drives the selected rows of running updates. -/
  | displayFrame
  /-- DISPLAY_UPDATE_END (R572): An update's longest waveform ends and EV_DISPLAY_UPDATE_DONE reports it. -/
  | displayUpdateEnd (slot : Fin 8)
  /-- LEGAL_UPDATE_REQUEST (R579): MET requests a legal update on a change or at its 10 s or 60 min cadence. -/
  | legalUpdateRequest
  /-- OUTPUT_TEST (R590): At start and every 24 h the display driver tests its outputs for opens and shorts. -/
  | outputTest (charges : OutputCharges)
  /-- AGEING_SENSING (R577): Once per 24 h of RUN the engine measures test pixel charge and sets ageing factors. -/
  | ageingSensing (charges : List Nat)
  /-- TILE_COUNTER_WRITE (R576): Every 60 min of RUN the tile stress counters are written to MRAM. -/
  | tileCounterWrite
  /-- DISPLAY_DIE_FAULT (R591): A display driver die fault makes the display unverified and aborts running updates. -/
  | displayDieFault
  /-- TEMP_CHANNEL_STALE (R592): The panel temperature channel has no usable sample for 10 min and the 25 C band applies. -/
  | tempChannelStale
  /-- DEBUG_CHALLENGE (R634): The debugger reads a random 32-byte challenge. -/
  | debugChallenge
  /-- DEBUG_SIGNATURE (R634): The debugger returns a signature that opens the port or counts a failure. -/
  | debugSignature (slot : Fin 64) (signature : Bytes)
  /-- LC_AUTHORISATION_EXPIRE (R632): A lifecycle authorisation from operation 4 expires after 60 s of LIFE. -/
  | lcAuthorisationExpire
  /-- RNG_HEALTH_FAIL (R641): A random-source health test fails and random data is refused. -/
  | rngHealthFail
  /-- RNG_RESTART (R641): A restart of the random source passes its start-up tests and random data is served again. -/
  | rngRestart (passed : Bool)
  /-- TRIAL_CONFIRM_AUTO (R664): An attempt reaches 30 min of healthy time and the trial is confirmed. -/
  | trialConfirmAuto
  /-- POWER_DIE_LINK_RESTORED (R58): Valid link frames reach the power die again; it reports the trip to the safety core and load switches return once the control base has restarted. -/
  | powerDieLinkRestored
  /-- PROTOCOL_MESSAGE (R402): A vehicle protocol message other than those listed (identification, authorisation, ChargeParameterDiscovery, pause, SessionStop, WeldingDetection, certificate installation) is taken and moves the session. -/
  | protocolMessage (o : Outlet) (msg : VehMsg)
  /-- OCPP_CONNECTION_LOST (R561): The WebSocket connection to the back office drops; EV_OCPP_CONNECTION reports it, messages are queued and the reconnect wait starts. -/
  | ocppConnectionLost
  /-- OPERATOR_STOP (R560): A remote stop from the back office ends the session by the stop sequence. -/
  | operatorStop (session : Nat)
  /-- HEARTBEAT_RESPONSE (R540): A Heartbeat response arrives and its currentTime is applied as an absolute set, at most once per hour. -/
  | heartbeatResponse (second : Nat)
  /-- NTP_REPLY (R540): An NTP reply from time.ntp_server arrives and sets the RTC as an absolute set. -/
  | ntpReply (second millis : Nat)
  /-- TRANSACTION_RESPONSE (R548): The back office answers a transaction message; idTagInfo updates the cache and an acknowledgement ends the repeated delivery of a record. -/
  | transactionResponse (record : Option Nat) (idInfo : Option ListEntry)
  /-- CANCEL_RESERVATION (R553): A CancelReservation message ends a reservation before its expiry. -/
  | cancelReservation (reservation : Nat)
  /-- INSTALL_CERTIFICATE (R636): An operator certificate message (CertificateSigned, InstallCertificate, DeleteCertificate, SignCertificate) changes the certificate store or requests a CSR. -/
  | installCertificate (op : CertOp)
  /-- WATCH_SRAM_SCRUB (R166): The watch core scrubs watch retained SRAM at 1,024 granules per hour in every power state, recording uncorrectable errors. -/
  | watchSramScrub (granule : Nat) (uncorrectable : Bool)
  /-- CHARGING_PROFILE_PERIOD (R407): A period of the charging schedule in force begins and the outlet's limit changes. -/
  | chargingProfilePeriod (o : Outlet)
  deriving DecidableEq, Repr

end Sys2Proof
end

