-- ==== Sys2Proof/Parts/Basic.lean ====
section
/-! DEFINITION. Containers of a fixed number of like things: one value for each outlet, and vectors
changed in one place. -/

namespace Sys2Proof

/-- One value for each outlet (07 R252). -/
structure Two (α : Type) where
  a : α
  b : α
  deriving DecidableEq, Repr

namespace Two

/-- The value of outlet `o`. -/
def get {α : Type} (t : Two α) : Outlet → α
  | .a => t.a
  | .b => t.b

/-- `t` with the value of outlet `o` changed by `f`. -/
def modify {α : Type} (t : Two α) (o : Outlet) (f : α → α) : Two α :=
  match o with
  | .a => { t with a := f t.a }
  | .b => { t with b := f t.b }

/-- `t` with both values changed by `f`. -/
def map {α β : Type} (t : Two α) (f : α → β) : Two β := ⟨f t.a, f t.b⟩

end Two

/-- Vector `v` with entry `i` changed by `f`. -/
def vmod {α : Type} {n : Nat} (v : Vector α n) (i : Fin n) (f : α → α) : Vector α n :=
  v.set i (f v[i])

/-- The outlets, A first. -/
def Outlet.all : List Outlet := [.a, .b]

/-- The outlet's number (07 R252). -/
def Outlet.num : Outlet → Nat
  | .a => 0
  | .b => 1

/-- The other outlet. -/
def Outlet.other : Outlet → Outlet
  | .a => .b
  | .b => .a

end Sys2Proof
end

