-- ==== Sys2Proof/Parts/Display.lean ====
section
/-! DEFINITION. The panel display (16): frame store, updates, stress counters and verification. -/

namespace Sys2Proof

/-- An output of the display lands (16 R590): a source, a gate or a segment output, or SEG_COM. -/
inductive DispOutput
  | source (n : Nat)
  | gate (n : Nat)
  | segment (n : Nat)
  | segCom
  deriving DecidableEq, Repr

/-- The display profile (16 Table 16.1), sealed at manufacture; the levels stand in mV. -/
structure DispProfile where
  model : BitVec 16 := 0
  width : Nat := 960
  height : Nat := 640
  legalRows : Nat := 128
  testRow : Bool := false
  vHighMv : Nat := 15000
  vLowMv : Nat := 5000
  vComMv : Int := -1000
  /-- The names of the strip's first and second colour. -/
  colours : Bytes × Bytes := ([], [])
  deriving DecidableEq, Repr

/-- What the legal band shows of an outlet's session (10 Table 10.6). -/
structure LegalSession where
  record : Nat
  wh : Nat
  beginSec : Nat
  /-- Duration in LIFE cycles. -/
  duration : Nat
  tariff : Nat
  ident : Bytes
  synchronised : Bool
  deriving DecidableEq, Repr

/-- What the legal band shows (10 Table 10.6): the outlets' sessions, the sets, the page and the
conditions. -/
structure LegalContent where
  page : Nat := 0
  outlets : List (Option LegalSession) := []
  importWh : Nat := 0
  exportWh : Nat := 0
  supplyImportWh : Nat := 0
  supplyExportWh : Nat := 0
  tariff : Nat := 0
  tamper : List Nat := []
  legalFault : Bool := false
  timeInvalid : Bool := false
  holdupFailed : Bool := false
  /-- On the second page: the device identity, and the first 16 digits of the SHA-256 of the legal signing public key. -/
  device : Bytes := []
  keyDigest : Bytes := []
  deriving DecidableEq, Repr

/-- A pixel of an update: its number y × 960 + x, its new state, and the source codes of its frames as
driven (16 R572, R575). -/
structure PixWave where
  pixel : Nat
  new : Nat
  codes : List Nat
  deriving DecidableEq, Repr

/-- An update in its slot (16 R570): waiting for its frame boundary, or running. -/
structure DispUpdate where
  x : Nat
  y : Nat
  w : Nat
  h : Nat
  ident : BitVec 16
  fast : Bool
  started : Bool := false
  /-- Frames driven, and frames of the longest waveform. -/
  frame : Nat := 0
  longest : Nat := 0
  pixels : List PixWave := []
  deriving DecidableEq, Repr

/-- Stress counters and sensing (16 R576, R577) as application data MRAM holds them: u32 counts of
1/16 frame per tile, row by row, updates since manufacture, and the first charge of each test column. -/
structure DispStore where
  stress : Vector (BitVec 32) 256 := Vector.replicate 256 0
  updates : BitVec 32 := 0
  firstCharge : Vector (Option Nat) 16 := Vector.replicate 16 none
  deriving DecidableEq, Repr

/-- The display engine and the driver die (16). -/
structure Disp where
  /-- Target plane: pixel number and code; unlisted pixels hold code 0 (log 1, DESIGN CHOICE). -/
  target : List Host.Cell := []
  /-- Current plane: pixel number and state plus 1; unlisted pixels are unknown (R569). -/
  current : List Host.Cell := []
  /-- Slots 0 to 6 for the application, slot 7 for the legal band (R570). -/
  slots : Vector (Option DispUpdate) 8 := Vector.replicate 8 none
  /-- A legal update asked for while one runs: full or fast (R579). -/
  legalNext : Option Bool := none
  /-- What the legal rows of the target plane carry. -/
  legal : LegalContent := {}
  /-- The rows selected in the present frame, one at a time in this order, each with what every source drives on it in mV
  (R572). -/
  scan : List (Nat × List Int) := []
  /-- LIFE of the latest legal update asked for, and of the latest full one (R579). -/
  legalAt : Option Life := none
  fullAt : Option Life := none
  /-- AO32 cycles in RUN, and their number at the latest output test, sensing and write of the counters (R576, R577, R590). -/
  runTime : Nat := 0
  testAt : Nat := 0
  sensedAt : Option Nat := none
  tilesAt : Nat := 0
  /-- Driver die powered, and its fault (R591). -/
  powered : Bool := false
  dieFault : Bool := false
  /-- The start's output test is done; a fault that unverifies stands in it, and in the latest 24 h test; gate
  outputs of the application area and of the test row that are faulty (R585, Table 16.9). -/
  startTested : Bool := false
  startFault : Bool := false
  testFault : Bool := false
  badRows : List Nat := []
  /-- Every output that the latest test found open or shorted. -/
  faulty : List DispOutput := []
  testRowFault : Bool := false
  /-- The legal update of start has completed (R585). -/
  startDone : Bool := false
  verified : Bool := false
  lastIdent : BitVec 16 := 0
  stress : Vector (BitVec 32) 256 := Vector.replicate 256 0
  /-- Ageing factors in 1/256 by tile, measured by sensing; none where the counters apply (R577). -/
  sensed : Vector (Option Rat) 16 := Vector.replicate 16 none
  /-- Panel temperature last valid, and whether it still counts (R574, R592). -/
  deciC : Option Int := none
  /-- LIFE of that reading. -/
  deciCAt : Option Life := none
  deriving DecidableEq, Repr

end Sys2Proof
end

