-- ==== Sys2Proof/Parts/Chain.lean ====
section
/-! DEFINITION. The measurement chain (08): channels, islands and the weave. -/

namespace Sys2Proof

/-- A sinc filter as integrators and combs (08 Table 8.3, R281, R296; 05 R175): the running sums, the last values that the
combs took, and the inputs since the last output. -/
structure Sinc where
  acc : List Int := []
  dif : List Int := []
  n : Nat := 0
  deriving DecidableEq, Repr

/-- The chain of a weave slot (08 Table 8.3, R281): the CIC and its newest output; the single-cycle filter, its decimated
outputs in this conversion and the last conversion; what the half-bands and the compensation FIR still depend on, newest
first; and the newest 48 kS/s output, as a fraction of full scale. -/
structure ChainSlot where
  cic : Sinc := { acc := List.replicate 5 0, dif := List.replicate 5 0 }
  cicOut : Int := 0
  quad : Sinc := { acc := List.replicate 4 0, dif := List.replicate 4 0 }
  quadRun : Nat := 0
  quadOut : Int := 0
  h192 : List Rat := []
  h96 : List Rat := []
  h48 : List Rat := []
  out : Rat := 0
  deriving DecidableEq, Repr

/-- Output modes (08 Table 8.4). -/
inductive ChMode | fixed | mains | single
  deriving DecidableEq, Repr

/-- Input options (08 Table 8.1). -/
inductive ChRange | mv31 | mv250 | v25 | divider
  deriving DecidableEq, Repr

/-- A channel's settings in force (08 Table 8.7). -/
structure ChCfg where
  mode : ChMode := .mains
  rate : Nat := 4000
  range : ChRange := .v25
  woven : Bool := false
  exciteUa : Nat := 0
  deriving DecidableEq, Repr

/-- The descriptor that a delivery port keeps of a channel (08 Table 8.6). -/
structure Desc where
  count : BitVec 32 := 0
  syncNo : BitVec 32 := 0
  syncLife : Life := 0
  syncRef : BitVec 32 := 0
  cfg : ChCfg := {}
  cycleRef : BitVec 32 := 0
  cycleLen : BitVec 32 := 0
  deriving DecidableEq, Repr

/-- What a delivery port holds of a channel (08 R288): the ring, by its index, and the descriptor. Words of the ring that
nothing has written read 0. -/
structure Delivery where
  ring : List (BitVec 32) := []
  desc : Desc := {}
  deriving DecidableEq, Repr

/-- Whether a channel is in service (08 R306): in service; out with its reason; returning. (log 62, DEDUCED) -/
inductive Service
  | inService
  | out (reason : Nat)
  | returning
  deriving DecidableEq, Repr

/-- A channel (08). -/
structure Chan where
  cfg : ChCfg := {}
  service : Service := .inService
  /-- Further reasons for which it is out (01 R57). -/
  oosAlso : List Nat := []
  /-- 48 kS/s outputs, newest first, as far as the longest resampler depends on them (Table 8.4). -/
  h : List Rat := []
  /-- Frames of the weave during which 48 kS/s outputs still carry STALE (R299), words SAT for an overloaded bit (R300), and
  words SPARE for a bit of M8 (R293). -/
  stale48 : Nat := 0
  overFrames : Nat := 0
  spareFrames : Nat := 0
  /-- Frames of the weave during which words still carry STALE (R305, R306). -/
  staleFrames : Nat := 0
  /-- The chain is to be flushed when the STALE of a readmission ends (R306 step 2). -/
  flushDue : Bool := false
  /-- SETTLING outputs left (R290, R291). -/
  settle : Nat := 0
  /-- Outputs since the last synchronisation (Table 8.6); SEQ is this modulo 8. -/
  count : BitVec 32 := 0
  /-- Sticky SAT (R287). -/
  sat : Bool := false
  /-- Latched trips of the high and of the low comparator (R297). -/
  cmpHigh : Bool := false
  cmpLow : Bool := false
  /-- Weave threshold: samples in a row beyond it, and the latched weave trip (R299). -/
  wvRun : Nat := 0
  wvTrip : Bool := false
  /-- The channel has been taken out and has not yet delivered an output without STALE or SETTLING (R306). -/
  wvOut : Bool := false
  /-- LIFE at which it delivered that output (12 Table 12.2). -/
  wvBack : Option Life := none
  /-- LIFE since when the channel delivers no usable word to SAF (12 R440). -/
  lostSince : Option Life := none
  /-- What the three ports hold of it (R288). -/
  metPort : Delivery := {}
  safPort : Delivery := {}
  appPort : Delivery := {}
  deriving DecidableEq, Repr

/-- A comparator of the channel has a latched trip (08 R297). -/
def Chan.cmpTrip (c : Chan) : Bool := c.cmpHigh || c.cmpLow

/-- The spare modulator M8 (08 R293 to R295, R307). -/
inductive Spare
  | idle
  | covering (m : Fin 8)
  | faulty
  deriving DecidableEq, Repr

/-- Where a darning handover stands (08 Table 8.8): the comparison of step 3; the blend of step 5; the reference calibration
of step 6; the comparison of step 7; the blend of step 8. -/
inductive DarnStep | compare | blend | reference | compareBack | blendBack
  deriving DecidableEq, Repr

/-- A darning under way (08 R293): modulator and step, the pairs of Mn's and M8's newest 48 kS/s outputs that a comparison
takes, at most 256, and the weight of M8 in 64ths. -/
structure Darning where
  m : Fin 8
  step : DarnStep
  pairs : List (Rat × Rat) := []
  weight : Nat := 0
  deriving DecidableEq, Repr

/-- A comparator self-test under way (08 R298): its channel, whether that channel's pair is under test now, and whether an
outcome has been wrong. -/
structure PairTest where
  m : Fin 8
  under : Bool := true
  wrong : Bool := false
  deriving DecidableEq, Repr

/-- Coefficients of a modulator (08 Table 8.8 step 6): offset and gain. -/
structure Coef where
  offset : Int := 0
  gain : Int := 0
  deriving DecidableEq, Repr

/-- An isolation island (01 R57, 08). -/
structure Isl where
  powered : Bool := false
  linkUp : Bool := false
  /-- Consecutive failed frames (R305). -/
  failRun : Nat := 0
  restarting : Bool := false
  /-- The status bit of the last frame: of one whose pattern or CRC is wrong, as it should have been (R277; log 94, DEDUCED). -/
  lastStatus : Option Bool := none
  /-- The modulator bits last received, MOD cycles without a transition, and the comparator bits. -/
  modBits : BitVec 9 := 0
  stuckRun : Vector Nat 9 := Vector.replicate 9 0
  cmpBits : BitVec 16 := 0
  standby : BitVec 2 := 0
  /-- The fast path of each modulator, and the fast samples in a row beyond each channel's high and low threshold (R296). -/
  fast : Vector Sinc 9 := Vector.replicate 9 { acc := List.replicate 3 0, dif := List.replicate 3 0 }
  cmpRun : Vector (Nat × Nat) 8 := Vector.replicate 8 (0, 0)
  spare : Spare := .idle
  /-- The modulator on which M8 last failed step 3 (R294). -/
  suspect : Option (Fin 8) := none
  darning : Option Darning := none
  /-- A covered channel stays on M8 until the next module power-on (R294, R307). -/
  covered : List (Fin 8) := []
  failed : List (Fin 9) := []
  calibrations : BitVec 32 := 0
  lastCal : Life := 0
  deferrals : BitVec 8 := 0
  /-- Every modulator was calibrated since the start (09 R344). -/
  rotated : Bool := false
  calibrated : List (Fin 9) := []
  /-- LIFE of each modulator's last calibration (09 R342). -/
  calLife : Vector Life 9 := Vector.replicate 9 0
  /-- LIFE of the last passed comparator self-test, and whether it was missed or failed (R298). -/
  selfTestLife : Option Life := none
  selfTestFailed : Bool := false
  selfTestMissed : Bool := false
  /-- The self-test under way. -/
  selfTest : Option PairTest := none
  /-- The next modulator of the rotation, when each last fell due, and M8's own calibration done in this cycle (05 R191; 08
  R295). -/
  calNext : Fin 8 := 0
  calAt : Vector (Option Life) 8 := Vector.replicate 8 none
  spareDone : Bool := false
  coef : Vector Coef 9 := Vector.replicate 9 {}
  deriving DecidableEq, Repr

/-- The weave (08): synchronisation, mains tracker and schedules. -/
structure Weave where
  running : Bool := false
  /-- The chains of slots 0 to 59 (05 R192): the channels', the spares', and the modulators' under calibration. -/
  slots : Vector ChainSlot 60 := Vector.replicate 60 {}
  /-- Frames since the last synchronisation. -/
  frame : Nat := 0
  /-- Synchronisation number, its LIFE and REF cycles (Table 8.6). -/
  syncNo : BitVec 32 := 0
  syncLife : Life := 0
  syncRef : BitVec 32 := 0
  /-- A synchronisation is requested; SYNC_TRIGGER commands that wait for it (R290). -/
  syncDue : Bool := false
  syncWaiting : List Mailbox := []
  /-- LIFE of the last SYNC_IN (05 R191). -/
  lastSyncIn : Option Life := none
  /-- 32-bit phase accumulator and increment of the mains-synchronous rate, per weave frame (R282). -/
  phase : BitVec 32 := 0
  increment : BitVec 32 := 0
  /-- Outputs of the mains-synchronous rate since the synchronisation: wraps of the accumulator. -/
  wraps : Nat := 0
  /-- Mains cycles since the synchronisation. -/
  cycles : Nat := 0
  /-- Mains tracker (R283, R284). -/
  locked : Bool := false
  everLocked : Bool := false
  milliHz : Nat := 0
  /-- REF cycles from the synchronisation to the current mains cycle; length of the last, times 256. -/
  cycleRef : BitVec 32 := 0
  cycleLen : BitVec 32 := 0
  deriving DecidableEq, Repr

end Sys2Proof
end

