-- ==== Sys2Proof/Parts/Meter.lean ====
section
/-! DEFINITION. Metrology (09) and billing (10): the metering profile, MET's accumulators and
publication window, the registers, demand, tariffs, legal event log and session records. -/

namespace Sys2Proof

/-- Wiring of a selector (09 Table 9.1). -/
inductive Wiring | none | w1p2w | w3p3w | w3p4w | dc
  deriving DecidableEq, Repr

/-- The metering profile of one selector (09 Table 9.1). -/
structure SelProfile where
  wiring : Wiring := .none
  /-- Voltage channels: L (then N), L1 to L3 (then N), or DC+ and DC-. -/
  volts : List Channel := []
  /-- Metered current channels, and the comparison current channel. -/
  amps : List Channel := []
  comparison : Option Channel := Option.none
  range : ChRange := .mv250
  /-- Sense constant of each current channel, comparison last [nOhm]. -/
  k : List Nat := []
  woven : Bool := false
  /-- Un [mV], In and Imax [mA], Rc [uOhm], meter constant [imp/kWh]. -/
  unMv : Nat := 0
  inMa : Nat := 0
  imaxMa : Nat := 0
  rcUohm : Nat := 0
  impKwh : Nat := 1000
  deriving DecidableEq, Repr

/-- One value for each metering selector. -/
structure Sel3 (α : Type) where
  supply : α
  a : α
  b : α
  deriving DecidableEq, Repr, Inhabited

/-- The value of selector `s`. -/
def Sel3.get {α : Type} (t : Sel3 α) : Selector → α
  | .supply => t.supply
  | .a => t.a
  | .b => t.b

/-- `t` with the value of selector `s` changed by `f`. -/
def Sel3.modify {α : Type} (t : Sel3 α) (s : Selector) (f : α → α) : Sel3 α :=
  match s with
  | .supply => { t with supply := f t.supply }
  | .a => { t with a := f t.a }
  | .b => { t with b := f t.b }

/-- The metering profile (09 R314). -/
structure Profile where
  number : BitVec 16 := 0
  sel : Sel3 SelProfile := ⟨{}, {}, {}⟩
  deriving DecidableEq, Repr

/-- The samples of one instant of a selector: its voltage channels in V, its metered current channels and
its comparison current in A, through the divider ratios and the sense constants (09 R321). -/
structure Row where
  volts : List Rat
  amps : List Rat
  comp : Rat
  deriving DecidableEq, Repr

/-- The six energies of a register set, in µWh, µvarh or µVAh (10 R348). -/
structure Energies where
  active : Nat := 0
  fund : Nat := 0
  lag : Nat := 0
  lead : Nat := 0
  apparent : Nat := 0
  dc : Nat := 0
  deriving DecidableEq, Repr, Inhabited

/-- Both directions of a tariff (10 R348). -/
structure TariffRegs where
  imp : Energies := {}
  exp : Energies := {}
  deriving DecidableEq, Repr, Inhabited

/-- Remainders below the register unit, carried forward (09 R322). -/
structure Remainders where
  active : Rat := 0
  fund : Rat := 0
  lag : Rat := 0
  lead : Rat := 0
  apparent : Rat := 0
  dc : Rat := 0
  deriving DecidableEq, Repr

/-- A phase's published values (09 Table 9.5: 12 i32 values). -/
abbrev PhaseRecord := List Int

/-- A selector record of the publication window (09 Table 9.5). -/
structure SelRecord where
  valid : Bool := false
  harmonicsOff : Bool := false
  sat : Bool := false
  bridged : Bool := false
  gap : Bool := false
  noLoad : Bool := false
  phaseAbsent : Bool := false
  wired : Bool := false
  wiring : BitVec 2 := 0
  phases : List PhaseRecord := []
  totals : List Int := []
  milliHz : Nat := 0
  dcMv : Int := 0
  dcMa : Int := 0
  dcP : Int := 0
  active : Int := 0
  reactive : Int := 0
  deriving DecidableEq, Repr

/-- Demand of one period and kind (10 R358). -/
structure DemandPeriod where
  impMax : Nat := 0
  impSecond : Nat := 0
  expMax : Nat := 0
  expSecond : Nat := 0
  start : Nat := 0
  stop : Nat := 0
  intervalMin : Nat := 15
  subs : Nat := 1
  deriving DecidableEq, Repr

/-- What the commands of group 0x08 read of the window (07 R261, R268): the outlet sets, the tariff in force and the demand
periods as of the last update. -/
structure PostWindow where
  a : Vector TariffRegs 8 := Vector.replicate 8 {}
  b : Vector TariffRegs 8 := Vector.replicate 8 {}
  tariff : Nat := 0
  fixedPeriods : List DemandPeriod := []
  slidingPeriods : List DemandPeriod := []
  deriving DecidableEq, Repr

/-- The publication window (09 Table 9.4). -/
structure Window where
  seq : BitVec 32 := 0
  locked : Bool := false
  rotated : Bool := false
  harmonicsOff : Bool := false
  legalFault : Bool := false
  life : Life := 0
  periods : BitVec 32 := 0
  windows : BitVec 32 := 0
  h : Nat := 0
  profile : BitVec 16 := 0
  sel : Sel3 SelRecord := ⟨{}, {}, {}⟩
  /-- Channel records: RMS, X_0, |X_1| in sample units, and arg X_1 in units of 360°/2³². -/
  channels : List (Channel × List Int) := []
  /-- Per channel: coded magnitudes and phases [360°/65,536] of orders 0 to 63, and THD [0.01 %]. -/
  harmonics : List (Channel × List (Nat × Int) × Nat) := []
  post : PostWindow := {}
  deriving DecidableEq, Repr

/-- MET's accumulator of a selector for the open period, and its episodes (09, 10). -/
structure SelAcc where
  /-- Rows accumulated in the open period, newest first. -/
  rows : List Row := []
  /-- How many of them, the oldest ones, are booked already (Table 9.11: a period split at a boundary). -/
  booked : Nat := 0
  last : Option Row := none
  /-- arg V1 of the first voltage in the previous cycle, in turns (Table 9.3, frequency). -/
  lastArg : Option Rat := none
  sat : Bool := false
  bridged : Bool := false
  gap : Bool := false
  /-- SETTLING outputs passed over since the last accumulated row (R335). -/
  skipped : Nat := 0
  /-- A STALE or OOS output stands in the span passed over (Table 9.11). -/
  broken : Bool := false
  /-- A synchronisation stands in the span passed over. -/
  synced : Bool := false
  /-- A channel was out of service: accumulation resumes at the next boundary (Table 9.11). -/
  held : Bool := false
  /-- LIFE since which no sample was accumulated (R338). -/
  gapSince : Option Life := none
  /-- Last valid total power, W (R338). -/
  lastPower : Rat := 0
  /-- Overload episode: its start and the last SAT (R318). -/
  overload : Option (Life × Life) := none
  /-- Phases marked absent (R340). -/
  absent : List Nat := []
  rem : Remainders := {}
  remExp : Remainders := {}
  /-- Tamper kinds 1 to 3: periods in a row with and without the condition (10 R364). -/
  tamperOn : Vector Nat 3 := Vector.replicate 3 0
  tamperOff : Vector Nat 3 := Vector.replicate 3 0
  deriving DecidableEq, Repr

/-- MET's volatile state in metrology SRAM (09). -/
structure Met where
  running : Bool := false
  /-- MET restarted and accumulates from the next period on (R341). -/
  waitPeriod : Bool := false
  win : Window := {}
  acc : Sel3 SelAcc := ⟨{}, {}, {}⟩
  /-- Order limit in force and asked for (R324, Table 9.11). -/
  h : Nat := 63
  hNext : Nat := 63
  /-- Rows of the running harmonic window: cycles done (R323). -/
  windowCycles : Nat := 0
  /-- Spectral sums of the harmonic window per channel: components of orders 0 to 63. -/
  spectrum : List (Channel × List (Rat × Rat)) := []
  /-- Test output: GP pin, selector, quantity; energy of closed periods since the last pulse and of the open one, in µWh; pulse
  high (R331). -/
  testPin : Option (Fin 64) := none
  testSel : Selector := .supply
  testQuantity : Nat := 0
  testAcc : Rat := 0
  testOpen : Rat := 0
  testHigh : Bool := false
  /-- Running coefficients per island and modulator (R326). -/
  coef : Vector (Vector Coef 9) 6 := Vector.replicate 6 (Vector.replicate 9 {})
  /-- Calibration age exceeded, per island and modulator (R342). -/
  aged : List (Island × Fin 9) := []
  /-- The MET request port's queue, oldest first, at most 16 (R330). -/
  requests : List MetRequest := []
  deriving DecidableEq, Repr

/-- A legal event log entry (10 Table 10.3). -/
structure LogEntry where
  number : Nat := 0
  kind : BitVec 16
  epoch : BitVec 16
  life : Life
  rtc : BitVec 33
  rtcValid : Bool
  continued : Bool := false
  subject : BitVec 8
  data : Bytes
  deriving DecidableEq, Repr

/-- A tariff table entry (07 TARIFF_TABLE_LOAD; 10 R352). -/
structure TableEntry where
  tariff : Nat
  days : BitVec 8
  minute : Nat
  deriving DecidableEq, Repr

/-- A tariff table with its version (10 R352). -/
structure TariffTable where
  version : BitVec 32 := 0
  entries : List TableEntry := [⟨0, 0x7F, 0⟩]
  deriving DecidableEq, Repr

/-- A remote switch (10 R354): the tariff and the RTC second of effect. -/
structure RemoteSwitch where
  tariff : Nat
  second : Nat
  deriving DecidableEq, Repr

/-- A running interval or a sub-interval (10 R356, R357): its start and the energy booked in µWh. -/
structure Interval where
  start : Nat := 0
  startLife : Life := 0
  imp : Nat := 0
  exp : Nat := 0
  deriving DecidableEq, Repr

/-- A closed sub-interval: energy and LIFE duration (10 R357). -/
structure SubInterval where
  imp : Nat
  exp : Nat
  life : Nat
  deriving DecidableEq, Repr

/-- The demand keys in force and asked for (10 Table 10.1, R359). -/
structure DemandKeys where
  intervalMin : Nat := 15
  subMin : Nat := 5
  subCount : Nat := 3
  resetDay : Nat := 1
  deriving DecidableEq, Repr

/-- MET's demand state (10 R356 to R359). -/
structure Demand where
  keys : DemandKeys := {}
  next : DemandKeys := {}
  fixed : Interval := {}
  sub : Interval := {}
  /-- Closed sub-intervals since the latest hem, start or period start, newest first. -/
  subs : List SubInterval := []
  /-- Period 0 first, at most 12 (R358). -/
  fixedPeriods : List DemandPeriod := [{}]
  slidingPeriods : List DemandPeriod := [{ intervalMin := 5, subs := 3 }]
  /-- The interval and sub-interval opened off their boundary: judged by R362. -/
  splitFixed : Bool := false
  splitSub : Bool := false
  deriving DecidableEq, Repr

/-- The end kinds of a reading (10 R374). -/
inductive ReadingKind | beginR | tariff | normal | requested | fault | power
  deriving DecidableEq, Repr

/-- A reading of a session record (10 R374). -/
structure Reading where
  kind : ReadingKind
  rtc : BitVec 33
  sub : BitVec 15
  sync : Bool
  /-- Import and export registers in µWh. -/
  imp : Nat
  exp : Nat
  bidirectional : Bool
  tamper : Bool
  /-- A clock step and a measurement gap in the session (EF). -/
  stepped : Bool
  gap : Bool
  deriving DecidableEq, Repr

/-- A session record (10 R371 to R376). -/
structure Record where
  number : Nat
  outlet : Outlet
  session : BitVec 32
  /-- Identity kind (07 SESSION_START), its bytes and source. -/
  idKind : Nat
  identity : Bytes
  idSource : Nat
  readings : List Reading
  /-- Tariff-change readings listed, at most 10 (R374). -/
  changes : Nat := 0
  bidirectional : Bool := false
  stepped : Bool := false
  gap : Bool := false
  /-- The end reading is due, with its kind, at the first period boundary after the mirror contacts
  report open (09 Table 9.11). -/
  ending : Option ReadingKind := none
  closed : Bool := false
  /-- Signature failures (R385), and the complete OCMF text once signed. -/
  failures : Nat := 0
  signed : Bool := false
  text : Bytes := []
  deriving DecidableEq, Repr

/-- The checkpoint of MET's legal state (10 R363). -/
structure Checkpoint where
  life : Life := 0
  /-- Written by save step 5 (R387). -/
  atSave : Bool := false
  regs : Sel3 (Vector TariffRegs 8) :=
    ⟨Vector.replicate 8 {}, Vector.replicate 8 {}, Vector.replicate 8 {}⟩
  demand : Demand := {}
  tariff : Nat := 0
  table : TariffTable := {}
  nextTable : Option TariffTable := none
  remote : Option RemoteSwitch := none
  held : Option RemoteSwitch := none
  coef : Vector (Vector Coef 9) 6 := Vector.replicate 6 (Vector.replicate 9 {})
  running : Two (Option Record) := ⟨none, none⟩
  deriving DecidableEq, Repr

/-- MET's legal working state (10). -/
structure Bill where
  regs : Sel3 (Vector TariffRegs 8) :=
    ⟨Vector.replicate 8 {}, Vector.replicate 8 {}, Vector.replicate 8 {}⟩
  demand : Demand := {}
  tariff : Nat := 0
  table : TariffTable := {}
  nextTable : Option TariffTable := none
  /-- Remote switch pending, and the one that holds with the RTC second of its effect (R355). -/
  remote : Option RemoteSwitch := none
  held : Option RemoteSwitch := none
  utcOffsetMin : Int := 0
  /-- Canonical text of the DST rule as passed (R353). -/
  dstRule : Bytes := []
  /-- Open tamper kinds with their selector (0xFF for none) (R364). -/
  tamper : List (Nat × BitVec 8) := []
  /-- Log entries that wait in metrology SRAM (Table 10.7), oldest first. -/
  logWait : List LogEntry := []
  /-- Running record of each outlet. -/
  running : Two (Option Record) := ⟨none, none⟩
  deriving DecidableEq, Repr

/-- Legal MRAM (01 Table 1.7, 10). -/
structure Legal where
  epoch : BitVec 16 := 0
  cp : Checkpoint := {}
  /-- The two copies of the registers read (10 R385). -/
  regA : Bool := true
  regB : Bool := true
  coefReadable : Bool := true
  nextEntry : Nat := 1
  /-- Log entries, newest first, at most 16,128 readable (R368). -/
  log : List LogEntry := []
  /-- Damaged entry and record numbers (R384). -/
  badEntries : List (Nat × Nat) := []
  badRecords : List (Nat × Nat) := []
  nextRecord : Nat := 1
  /-- Closed records, newest first, at most 632 (R376). -/
  records : List Record := []
  /-- The legal partition fault and its cause (01 R56, 10 Table 10.4). -/
  fault : Option Nat := none
  adjLimit : Nat := 10
  /-- First granule of the event log's ring within its region (05 R189). -/
  ringAt : Nat := 0
  deriving DecidableEq, Repr

/-- A copy of the registers reads (10 R385). -/
def Legal.registersReadable (l : Legal) : Bool := l.regA || l.regB

end Sys2Proof
end

