-- ==== Sys2Proof/Parts/ConfigKey.lean ====
section
/-! DEFINITION. The configuration keys (the key tables of 03 to 19), the shapes of their values, and
sets of values. -/

namespace Sys2Proof

/-- Keys without an index. -/
inductive GenKey
  | vbatFitted | idleAfterS | utcOffset | dstRule | ntpServer | hostPresent | theftIsland | theftChannels
  | theftPeriodS | theftPermille | tamperCov | tamperTrm | rinsePassH | mainsRef | mainsHz | calInterval
  | orderMax | testGp | testSelector | testQuantity | demandMin | slidingSub | slidingCount | resetDay
  | adjustLimit | slacAtten | slewUp | slewDown | bptDwell | stopTimeout | penEnable | penV
  | penMs | estopA | estopB | seamA | seamB | companions | seamOutlets | rsdOnTrip
  | configCrc | pmCycle | pvDiscover | sunPort | sunS | pairPort | pairPriority | pairBudget
  | soloShare | dns | ocppVersion | ocppUrl | ocppPort | secProfile | csId | heartbeatS
  | meterIntervalS | messageTimeoutS | retryMaxS | idleMode | idleWakeS | localPreAuthorize | localOffline | offlineUnknown
  | cacheEnable | authTimeoutS | readerPort | readerSelect | readerPollMs | solarStrings | solarSunspec | solarBaseLoad
  | solarReserve | solarFilterS | solarUpdateS | solarStartS | solarStopS | solarDcMin | freeTariffs | dispEnable
  | tempChannel | ageing | ageCoeff | gammaNeutral | gammaRed | gammaYellow | ocppClientSlot | ocppPasswordSlot
  | seccSlot | ownerSlot
  deriving DecidableEq, Repr

/-- Keys of the family `meas.ch#.mode`. -/
inductive ChKey
  | mode | rate | range | timing | excite | visible | cmpHi | cmpLo
  | cmpCount | cmpDrivers | wvHi | wvLo | wvCount | wvDrivers
  deriving DecidableEq, Repr

/-- Keys of the family `veh.out#.connector`. -/
inductive OutKey
  | connector | ppMode | cableMaxA | maxA | maxV | ventilation | protocols | pwmFallback
  | tlsRequired | rcdEnable | rcdChannel | rcdRefChannel | rcdTestChannel | rcdMvPerMa | rcdSupplyLs | imdPeChannel
  | peChannel | peMaxTenths | tempChannels | tempDerateC | tempTripC | backupDriver | shuntTripLs | solarMode
  deriving DecidableEq, Repr

/-- Keys of the family `cont.cd#.economiser`. -/
inductive CdKey
  | economiser | pullMs | holdMa | pullMinMa | mirror | mirrorMs
  deriving DecidableEq, Repr

/-- Keys of the family `ls.#.wire`. -/
inductive LsKey
  | wire | pair | thermal | start | fail
  deriving DecidableEq, Repr

/-- Keys of the family `gp.#.function`. -/
inductive GpKey
  | function | pull | drive | level | wakeEdge
  deriving DecidableEq, Repr

/-- Keys of the family `psp.#.enable`. -/
inductive PspKey
  | enable | lanes | sample | busy | busyByte | readyByte | busyTimeoutUs
  deriving DecidableEq, Repr

/-- Keys of the family `net.eth#.mode`. -/
inductive EthKey
  | mode
  deriving DecidableEq, Repr

/-- Keys of the family `net.#.ipv4`. -/
inductive PortKey
  | ipv4 | gateway | wake
  deriving DecidableEq, Repr

/-- Keys of the family `net.spe#.mode`. -/
inductive SpeKey
  | mode | amplitude | term | plcaId | plcaCount | plcaToBits | plcaBurst | plcaBurstBits
  deriving DecidableEq, Repr

/-- Keys of the family `can.#.role`. -/
inductive CanKey
  | role | arbKbps | dataKbps | term
  deriving DecidableEq, Repr

/-- Keys of the family `pv.str#.enable`. -/
inductive StrKey
  | enable | rsd | pollS | discover | optimisers | vChannel | iChannel
  deriving DecidableEq, Repr

/-- A configuration key. -/
inductive Key
  | gen (k : GenKey)
  | ch (i : Fin 48) (k : ChKey)
  | out (i : Outlet) (k : OutKey)
  | cd (i : Fin 4) (k : CdKey)
  | ls (i : Fin 32) (k : LsKey)
  | gp (i : Fin 64) (k : GpKey)
  | psp (i : Fin 3) (k : PspKey)
  | eth (i : Fin 2) (k : EthKey)
  | port (i : Fin 4) (k : PortKey)
  | spe (i : Fin 2) (k : SpeKey)
  | can (i : Fin 4) (k : CanKey)
  | str (i : Fin 4) (k : StrKey)
  | node (bus : Fin 4) (node : Fin 32)
  | sunDev (k : Fin 8)
  | mac (port : Fin 4)
  deriving DecidableEq, Repr

/-- The value of a key: `none`, a number (booleans are 0 and 1, an enumerated value is its place in the
key's table), a list of numbers, or text. -/
inductive Val
  | none
  | num (n : Int)
  | list (l : List Nat)
  | text (t : Bytes)
  deriving DecidableEq, Repr

/-- The shape and range of a key's value, as its table gives it. -/
inductive KTy
  | bool
  | int (lo hi : Int)
  /-- 0, or a number of the range. -/
  | intZ (lo hi : Int)
  | ints (vs : List Int)
  | optInt (lo hi : Int)
  | optInts (vs : List Nat)
  /-- `off`, or a number of the range. -/
  | optOff (lo hi : Int)
  | words (ws : List String)
  | optWords (ws : List String)
  /-- An n-bit mask as a number. -/
  | mask (n : Nat)
  /-- A mask of items lo to hi, named by `names` where given. -/
  | items (lo hi : Nat) (names : List String)
  /-- A list of at most n numbers of at most hi. -/
  | nums (n hi : Nat)
  /-- An ordered subset of words. -/
  | ordered (ws : List String)
  /-- A number of tenths, with one decimal. -/
  | tenths (lo hi : Int)
  | hexByte
  | hex8
  | gamma
  | text (lo hi : Nat)
  | optText (lo hi : Nat)
  /-- `none`, `dhcp`, or address and prefix. -/
  | ipv4
  /-- Written by nobody. -/
  | fixed
  deriving DecidableEq, Repr

/-- A set of values: the keys that a set gives; every other key has its default (19 R650). -/
abbrev Cfg := List (Key × Val)

end Sys2Proof
end

