-- ==== Sys2Proof/Parts/Vehicle.lean ====
section
/-! DEFINITION. The vehicle interface of an outlet (11): pilots, modem, protocol and session. -/

namespace Sys2Proof

/-- Pilot states (11 Table 11.2), coded as 07 SESSION_STATUS_GET codes them; Invalid has no code. -/
inductive CpState | a | b | c | d | e | f | invalid
  deriving DecidableEq, Repr

/-- What the CP driver drives (11 R390, R396, Table 11.9): constant +12 V, PWM of a duty in 0.1 %,
constant -12 V, or 1 kOhm to GND. -/
inductive CpDrive
  | plus12
  | pwm (duty : Nat)
  | stateF
  | stateE
  deriving DecidableEq, Repr

/-- Proximity pilot (11 Table 11.3). -/
inductive PpState
  | noCable
  | fault
  | cable (amps : Nat)
  deriving DecidableEq, Repr

/-- Session states, in the order of their codes 0 to 10 (07 Table 7.12). -/
inductive SessState
  | idle | plugged | authorising | negotiating | insulation | preCharge | transfer | paused
  | stopping | ended | fault
  deriving DecidableEq, Repr

/-- The reasons the spec names for a session's state (11 Table 11.11, 07, 12, 16, 03). -/
inductive Reason
  | none | vehicleStop | hostStop | operatorStop | applicationStop | unplugged | pilotShort | pilotFault
  | cable | communication | noProtocol | insulation | preCharge | overcurrent | vehicleContactor
  | contactor | controllerRestart | pauseTimeout | handshakeTimeout | directionRefused
  | measurementFault | displayUnverified | holdupFailed | permit | powerFailure | metReset
  | ventilation | seamDegraded | host (code : BitVec 16)
  deriving DecidableEq, Repr

/-- SLAC of an outlet (11 R398). -/
inductive Slac | idle | param | sounded | matched
  deriving DecidableEq, Repr

/-- The link's data layer (11 R399). -/
inductive Sdp | none | tcp | tls
  deriving DecidableEq, Repr

/-- Insulation test of state 4 (11 R404). -/
inductive InsTest | none | waiting | ramping | stable | passed
  deriving DecidableEq, Repr

/-- An outlet's vehicle interface and session (11). -/
structure OutS where
  cp : CpState := .a
  /-- LIFE since which CP reads A. -/
  cpASince : Option Life := none
  /-- LIFE at which CP last left A. -/
  lastA : Option Life := none
  drive : CpDrive := .stateE
  /-- A drive decided and taking effect with the next PWM period (R397). -/
  driveNext : Option CpDrive := none
  /-- The level the power die forces (12 R427): state F for 3 s, then +12 V. -/
  force : Option CpDrive := none
  /-- LIFE at which CP was last forced to state F. -/
  forceSince : Life := 0
  pp : PpState := .noCable
  slac : Slac := .idle
  runId : BitVec 64 := 0
  attenDb : Nat := 0
  /-- Network key of the session, drawn from the random source (R398). -/
  nmk : Bytes := []
  sdp : Sdp := .none
  protocol : Option Protocol := Option.none
  state : SessState := .idle
  reason : Reason := .none
  /-- Session identifier; 0 while no session is open. -/
  id : BitVec 32 := 0
  billed : Bool := false
  idKind : Nat := 0
  identity : Bytes := []
  idSource : Nat := 0
  authorised : Bool := false
  startLife : Life := 0
  /-- Import and export registers of the outlet at the session's start, µWh. -/
  startImp : Nat := 0
  startExp : Nat := 0
  /-- Target in mA, and a power target in W where one is set (R407). -/
  target : Int := 0
  targetW : Option Int := Option.none
  /-- Vehicle's limits and whether the session is bidirectional. -/
  veh : Option VehLimits := Option.none
  bidir : Bool := false
  /-- Delivered limit and present current, mA. -/
  delivered : Int := 0
  presentMa : Int := 0
  outletMv : Nat := 0
  /-- LIFE of the last change of the offered limit, and a change that waits (R410). -/
  lastChange : Option Life := Option.none
  held : Bool := false
  /-- Direction change (R411): LIFE at which the dwell began; renegotiation under way; refused. -/
  dwell : Option Life := Option.none
  reversing : Bool := false
  negotiating : Bool := false
  refused : Bool := false
  vehPaused : Bool := false
  pauseSince : Option Life := Option.none
  /-- LIFE at which the stop began (R415), and LIFE of entry into the state in force. -/
  stopSince : Option Life := Option.none
  since : Life := 0
  insTest : InsTest := .none
  testMv : Nat := 0
  preMv : Option Nat := Option.none
  preReady : Bool := false
  /-- PowerDelivery start received on an AC outlet; the direction in force is export (R411). -/
  started : Bool := false
  exporting : Bool := false
  /-- A pilot or cable fault bars a new session until CP has read A for 2 s (R419). -/
  lockout : Bool := false
  /-- The limit in mA at which a degraded seam check holds the session (12 R460). -/
  seamCap : Option Nat := Option.none
  /-- The set of values in force when the session opened (R413, 12 R453). -/
  snap : Option Cfg := Option.none
  /-- The reservation that SESSION_START named; 0 for none (15 R553). -/
  reservation : Nat := 0
  deriving DecidableEq, Repr

/-- Vehicle interface beside the outlets (11, 07). -/
structure Veh where
  out : Two OutS := ⟨{}, {}⟩
  /-- The next session identifier (log 9, DESIGN CHOICE). -/
  nextId : BitVec 32 := 1
  deriving DecidableEq, Repr

end Sys2Proof
end

