-- ==== Sys2Proof/Parts/Host.lean ====
section
/-! DEFINITION. The host port and the mailboxes (06): their registers, queue and windows. -/

namespace Sys2Proof

/-- What the port drives (06 R213, R214, R216): the status bits of an x1 opcode phase, the pending causes of an x1 address phase, a
busy byte, the ready marker, or a data word. -/
inductive Sent
  | status (b : BitVec 8)
  | pending (w : BitVec 16)
  | busy
  | marker
  | data (w : BitVec 32)
  deriving DecidableEq, Repr

/-- The host port's registers and lands (06 Tables 6.3, 6.4 and 6.9). (log 83, DESIGN CHOICE) -/
structure Hif where
  /-- HIF_STATUS, Table 6.4. -/
  status : BitVec 32 := 0
  /-- HIF_IRQ_EN. -/
  irqEn : BitVec 32 := 0xFF
  /-- HIF_IRQ_PEND.STATE_CHG; its other bits follow from the mailboxes and HIF_STATUS. -/
  stateChg : Bool := false
  /-- HIF_CMD_WIDTH. -/
  cmdWidth : BitVec 2 := 0
  /-- HIF_EVT_LOST. -/
  evtLost : BitVec 16 := 0
  /-- HIF_SCRATCH. -/
  scratch : BitVec 32 := 0
  /-- The HIF_RDY land (R217, R241, R243). -/
  rdy : Bool := false
  /-- HIF_IRQ driven high from save step 4 (R243). -/
  irqForce : Bool := false
  /-- HIF inputs ignored from save step 2 (R243). -/
  ignored : Bool := false
  /-- HIF_STATE.START_STEP. -/
  startStep : BitVec 4 := 0
  /-- HIF_STATE.POWER: 0 RUN, 1 IDLE, 2 waking. -/
  power : BitVec 2 := 0
  fwReady : Bool := false
  bootServed : Bool := false
  legalFault : Bool := false
  trial : Bool := false
  /-- The host is present until the next module power-on or RST_N (R229). -/
  hostPresent : Bool := false
  /-- Words taken into the write buffer and not yet drained (R217): how many. -/
  buffered : Nat := 0
  /-- What the port drove in the last transaction, in order (R211, R213, R214, R218): nothing where it left its lanes high
  impedance. -/
  sent : List Sent := []
  /-- Bits per clock of the data phase of that transaction. -/
  sentBits : Nat := 1
  deriving DecidableEq, Repr

/-- The states of a command mailbox (06 Table 6.6). -/
inductive BoxState | free | pending | running | done
  deriving DecidableEq, Repr

/-- The result kept for the repeat rule (06 R223). -/
structure Kept where
  seq : BitVec 16
  st : BitVec 16
  resp : Bytes
  deriving DecidableEq, Repr

/-- A command mailbox (06 Tables 6.3 and 6.4). -/
structure CmdBox where
  code : BitVec 16 := 0
  seq : BitVec 16 := 0
  len : BitVec 10 := 0
  st : BitVec 16 := 0
  rlen : BitVec 10 := 0
  state : BoxState := .free
  rep : Bool := false
  kept : Option Kept := none
  deriving DecidableEq, Repr

/-- An event mailbox (06 Tables 6.3 and 6.4). -/
structure EvtBox where
  code : BitVec 16 := 0
  seq : BitVec 16 := 0
  len : BitVec 10 := 0
  full : Bool := false
  deriving DecidableEq, Repr

/-- An event with its sequence number and whole payload (06 R225, R226). -/
structure QEvent where
  code : BitVec 16
  seq : BitVec 16
  payload : Bytes
  deriving DecidableEq, Repr

/-- The mailboxes, the event queue and the windows (06). -/
structure Mbx where
  cmd : Vector CmdBox 8 := Vector.replicate 8 {}
  evt : Vector EvtBox 8 := Vector.replicate 8 {}
  /-- Mailboxes rung and not yet taken up, in the order of their doorbells (R224). -/
  order : List Mailbox := []
  /-- Events behind the event mailboxes, oldest first, at most 128 (R228). -/
  queue : List QEvent := []
  /-- The next value of the event sequence (R226). -/
  nextSeq : BitVec 16 := 0
  /-- The EV_POWER_RESTORED payloads kept while no host is present (R229). -/
  kept : List Bytes := []
  /-- The windows at 0x1000 to 0x2FFF: bytes in canonical form, unlisted bytes read 0. -/
  win : List Host.Cell := []
  /-- Window words with an uncorrectable error (R239), by host address. -/
  badWords : List Nat := []
  deriving DecidableEq, Repr

end Sys2Proof
end

