-- ==== Sys2Proof/Parts/Power.lean ====
section
/-! DEFINITION. Supplies, hold-up, power islands (03, 01), the power die's drivers, permits and trip
latches (01, 12) and its load switches (13). -/

namespace Sys2Proof

/-- The power states (01 Table 1.5). -/
inductive PowerState | run | idle | save | watch | off
  deriving DecidableEq, Repr

/-- The outcome of the hold-up self-test (03 Table 3.5; 07 EV_POWER_RESTORED). -/
inductive SelfTest | pending | pass | worn | failed
  deriving DecidableEq, Repr

/-- How the previous power-down ended (03 R122). -/
inductive PowerDown | complete | endedAt | skipped | watchPor
  deriving DecidableEq, Repr

/-- The save record (03 R116, R117, R122). -/
structure SaveRecord where
  outcome : PowerDown := .complete
  step : Nat := 0
  /-- LIFE at the power-fail warning and EPOCH then. -/
  life : Life := 0
  epoch : BitVec 16 := 0
  outstanding : Nat := 0
  deriving DecidableEq, Repr

/-- Supplies, hold-up and module reset (03). -/
structure Pwr where
  state : PowerState := .run
  /-- VAUX as last reported to the model, mV. -/
  vauxMv : Nat := 24000
  ovCut : Bool := false
  /-- VAUX is above the power-fail warning (R98): it came above the start threshold for the debounce, and has not fallen
  below the warning for its filter time since (R108, R109). -/
  vauxUp : Bool := true
  /-- Capacitor voltage, mV, and the charge taken beyond it, in mV µF (R97, R120; log 86, DESIGN CHOICE). -/
  capMv : Nat := 0
  capRem : Nat := 0
  selfTest : SelfTest := .pending
  uF : Nat := 0
  mOhm : Nat := 0
  uA : Nat := 0
  /-- The hold-up is treated as failed until the next start (R104, R115). -/
  holdupFailed : Bool := false
  /-- The module is held in its power-on reset (Table 3.6, before its release). -/
  inReset : Bool := true
  /-- Starts repeated below -25 C (R121). -/
  repeats : Nat := 0
  /-- RST_N is held low (R112). -/
  rstNLow : Bool := false
  /-- LIFE of the rail and REF faults within the last 10 min, newest first (R114). -/
  railFaults : List Life := []
  /-- Control base kept unpowered until RST_N or VAUX (R114). -/
  baseHeldOff : Bool := false
  /-- A rail fault's module power-on reset follows the save (R114). -/
  resetAfterSave : Bool := false
  /-- Application island powered (Table 1.5). -/
  appIsland : Bool := false
  /-- Green PHY modem of each outlet powered. -/
  modem : Two Bool := ⟨false, false⟩
  /-- LIFE since which the conditions of IDLE have held (05 R173). -/
  idleSince : Option Life := none
  /-- An IDLE entry is under way; a wake that fired during it (05 Table 5.5). -/
  idleEntry : Bool := false
  wakeWaits : Bool := false
  /-- Commands PENDING or RUNNING at the latest entry into SAVE (R122; 07 EV_POWER_RESTORED). -/
  saveOutstanding : Nat := 0
  /-- What the save under way still has to write: MET's legal save, the safety core's and the application's (R123;
  log 30, DESIGN CHOICE). -/
  savesMet : Bool := false
  savesSaf : Bool := false
  savesApp : Bool := false
  deriving DecidableEq, Repr

/-- The five permits of a driver, each granted or not (01 R40). -/
structure Permits where
  isl : Bool := false
  wv : Bool := false
  saf : Bool := false
  wch : Bool := false
  app : Bool := false
  deriving DecidableEq, Repr

/-- A driver's trip cause word, as safety MRAM holds it (01 R52, 12 R428, R465). -/
structure TripWord where
  /-- First-cause permits, bits as the permit word. -/
  firstPermits : BitVec 5 := 0
  /-- First-cause codes in the order learned, at most 4. -/
  codes : List (BitVec 16) := []
  life : Life := 0
  followPermits : BitVec 5 := 0
  followLife : Life := 0
  /-- Trips since manufacture (07 TRIP_CAUSE_READ). -/
  count : BitVec 32 := 0
  deriving DecidableEq, Repr

/-- A filter over equal consecutive readings of a land: the candidate and its run (13 R488). -/
structure Filter3 where
  cand : Bool := false
  run : Nat := 0
  deriving DecidableEq, Repr

/-- What CDn does (13): off, pull-in, hold. -/
inductive CoilPhase | off | pullIn | hold
  deriving DecidableEq, Repr

/-- A contactor driver as the power die holds it (01 R40 to R42, 12 R442 to R445, 13 R484 to R488). (log 45, DEDUCED) -/
structure Drv where
  permits : Permits := {}
  /-- The trip latch; every module power-on sets it (12 R465). -/
  latch : Bool := true
  /-- The first-cause window of 2 us is open (01 R52). -/
  window : Bool := false
  /-- EV_TRIP of the latest trip is still to be raised at the window's close. -/
  fresh : Bool := false
  /-- The cause of the latest trip is recorded in safety MRAM (01 R42). -/
  recorded : Bool := true
  phase : CoilPhase := .off
  /-- Coil current as last delivered, mA. -/
  coilMa : Nat := 0
  /-- LIFE at the start of coil drive and at its last removal. -/
  driveStart : Life := 0
  driveEnd : Life := 0
  /-- A switch held off after a shorted switch (R445). -/
  heldOff : Bool := false
  /-- Mirror state as last taken: closed; the candidate and its equal readings (13 R488). -/
  mirrorClosed : Bool := true
  mirrorFilter : Filter3 := {}
  /-- The mirror is awaited after a closing or an opening (13 R488, 12 R444). -/
  mirrorDue : Bool := false
  /-- The weld check is under way; the driver's last weld check failed (12 R444). -/
  weldDue : Bool := false
  weldFailed : Bool := false
  /-- LIFE since which steps 2 and 3 of the weld check have held with the coil off. -/
  weldGoodSince : Option Life := none
  /-- The gate test of the latest re-arm failed (12 R443). -/
  gateFailed : Bool := false
  /-- The last re-arm was refused (01 R54). -/
  rearmRefused : Bool := false
  /-- SAFETY_REARM_REQUEST made since the latch was set (12 R428). -/
  requested : Bool := false
  /-- The mailboxes whose SAFETY_REARM_REQUEST waits for the gate test, in the order taken up. -/
  askers : List (Fin 8) := []
  /-- Causes for which the safety core withholds PERMIT_SAF (12 Table 12.2). -/
  held : List (BitVec 16) := []
  /-- The `cont.*` keys taken at the latest closing (13 Table 13.3). -/
  economiser : Bool := true
  pullMs : Nat := 100
  holdMa : Nat := 400
  pullMinMa : Nat := 200
  deriving DecidableEq, Repr

/-- What a load switch's protection holds it at (07 Table 7.14 states 2 to 4). -/
inductive LsTrip | none | i2t | restart | latched
  deriving DecidableEq, Repr

/-- A load-switch channel as the power die holds it (13 R472 to R481). -/
structure LoadSwitch where
  commanded : Bool := false
  out : Bool := false
  trip : LsTrip := .none
  mA : Nat := 0
  celsius : Nat := 0
  /-- The heat of the wire model in units of 10^-9 (R476; log 21, DESIGN CHOICE). -/
  theta : Nat := 0
  /-- Samples in a row in current limit (R477: 2 ms are 40 samples of 50 us). -/
  limitRun : Nat := 0
  /-- LIFE of the thermal shutdowns of the last 60 s, newest first (R479). -/
  shutdowns : List Life := []
  /-- Pair of an even channel in force (R473). -/
  paired : Bool := false
  /-- LIFE of the last clamp event (R481). -/
  lastClamp : Option Life := none
  deriving DecidableEq, Repr

/-- The power die beside the drivers (01 R58, 13 Table 13.6). -/
structure Pd where
  drv : Vector Drv 4 := Vector.replicate 4 {}
  ls : Vector LoadSwitch 32 := Vector.replicate 32 {}
  /-- The controller link. -/
  linkUp : Bool := true
  /-- The link was lost and the control base has not restarted since (Table 13.6, Table 12.2). -/
  linkHold : Bool := false
  /-- Load switches take their fail states: module safe state (12 R426). -/
  lsFail : Bool := false
  /-- LIFE at which the shunt-trip pulse of each outlet that is under way began (13 R475). -/
  shunt : Two (Option Life) := ⟨none, none⟩
  /-- Load switches as started (13 R497): on from start step 8. -/
  started : Bool := false
  deriving DecidableEq, Repr

/-- Wear counters in safety MRAM (13 R490). -/
structure Wear where
  closings : Vector (BitVec 32) 4 := Vector.replicate 4 0
  openings : Vector (BitVec 32) 4 := Vector.replicate 4 0
  weldFails : Vector (BitVec 32) 4 := Vector.replicate 4 0
  clamps : Vector (BitVec 32) 32 := Vector.replicate 32 0
  switchOns : Vector (BitVec 32) 32 := Vector.replicate 32 0
  deriving DecidableEq, Repr

end Sys2Proof
end

