-- ==== Sys2Proof/Parts/Watch.lean ====
section
/-! DEFINITION. The watch domain's own state (05): kept through every reset but a watch-domain
power-on reset, and the part of it that module power-on clears. -/

namespace Sys2Proof

/-- The sources of the watch domain's supply (05 Table 5.8, 03 R98). -/
inductive WatchSource | vaux | holdup | vbat
  deriving DecidableEq, Repr

/-- The kinds of record in the watch ring (05 R167, R184, R197, R198). -/
inductive WatchKind
  | cover | terminal | crack | theft | theftSusp | watchdog | lostRange
  deriving DecidableEq, Repr

/-- A theft record (05 R176). -/
structure TheftRecord where
  first : Life
  last : Life
  /-- Highest RMS and the sum of the RMS values of all exceeding bursts, in per mille of full scale. -/
  peak : Rat
  sum : Rat
  deriving DecidableEq, Repr

/-- An entry of the watch ring (05 R167). -/
structure WatchRecord where
  kind : WatchKind
  /-- Open (or unverified) 1, close (or verified) 0. -/
  opened : Bool
  life : Life
  epoch : BitVec 16
  /-- A theft record's channel and content. -/
  theft : Option (Nat × TheftRecord) := none
  /-- Crack reading, watchdog status bits, or granule, by kind. -/
  data : Nat := 0
  deriving DecidableEq, Repr

/-- A filter over equal consecutive readings: the reading last seen and how many in a row. -/
structure Filter where
  last : Bool := false
  run : Nat := 0
  deriving DecidableEq, Repr

/-- Theft watch of one channel of the island (05 R176). -/
structure TheftChannel where
  exceed : Nat := 0
  below : Nat := 0
  /-- The record under construction or open. -/
  record : TheftRecord := ⟨0, 0, 0, 0⟩
  isOpen : Bool := false
  deriving DecidableEq, Repr

/-- The watch settings block (05 R202, Table 5.6): the `watch.*` keys, the wake mask and
`power.vbat_fitted`. -/
structure WatchSettings where
  theftIsland : Nat := 0
  theftChannels : BitVec 8 := 0
  theftPeriodS : Nat := 1
  theftPermille : Nat := 5
  tamperCov : Bool := true
  tamperTrm : Bool := true
  vbatFitted : Bool := true
  /-- GP56 to GP63 with function wake, and the edges that wake (17 R609, R616). -/
  wakePins : BitVec 8 := 0
  wakeRising : BitVec 8 := 0
  wakeFalling : BitVec 8 := 0
  wakeEn : BitVec 8 := 0xC1
  deriving DecidableEq, Repr

/-- What the watch domain keeps (05). -/
structure Wch where
  source : WatchSource := .vaux
  covOpen : Bool := false
  covFilter : Filter := {}
  trmOpen : Bool := false
  trmFilter : Filter := {}
  crackOk : Bool := false
  crackOhm : BitVec 14 := 0
  crackBad : Nat := 0
  crackGood : Nat := 0
  vbatLow : Bool := false
  vbatAbsent : Bool := false
  vbatLowRun : Nat := 0
  vbatAbsentRun : Nat := 0
  /-- The last reading below 2.6 V, in mV, waits for VAUX (03 R106). -/
  vbatEvent : Option Nat := none
  theft : Vector TheftChannel 8 := Vector.replicate 8 {}
  theftSusp : Bool := false
  /-- LIFE of the last burst (R175). -/
  theftLast : Option Life := none
  theftFails : Nat := 0
  heartbeat : BitVec 8 := 0
  /-- The PERMIT_WCH logic was refreshed within 2 ms (R196). -/
  refreshed : Bool := false
  /-- WCH_WAKE_EN. -/
  wakeEn : BitVec 8 := 0xC1
  alarmSec : BitVec 33 := 0
  alarmEn : Bool := false
  ring : List WatchRecord := []
  lost : BitVec 16 := 0
  /-- Requested and shown segment patterns (R181), and the unpowered pattern MET stored (R182). -/
  segReq : BitVec 64 := 0
  segShown : BitVec 64 := 0
  segUnpowered : BitVec 64 := 0
  segUpdating : Option (BitVec 64) := none
  segLast : Option Life := none
  /-- The segments that the update drives, its frames, and the latest reading of the AO32 compensation sensor in °C (16 R583). -/
  segDriven : BitVec 64 := 0
  segFrames : Nat := 0
  celsius : Int := 25
  /-- LIFE of the latest re-drive of every segment (16 R583). -/
  segRedriven : Life := 0
  /-- A tamper or crack-loop change waits to be shown (R182, R195). -/
  segUrgent : Bool := false
  settings : WatchSettings := {}
  /-- A settings block written and not yet applied (R202). -/
  settingsNew : Option WatchSettings := none
  /-- The pilots as read in this IDLE (Table 5.1), per outlet: CP out of state A, and PP moved. -/
  cpFilter : Two Filter := ⟨{}, {}⟩
  ppFilter : Two Filter := ⟨{}, {}⟩
  /-- The rinse (R187): granules of each region read in this pass, by region number; AO32 cycles in RUN and IDLE since the
  pass began; passes completed; and errors corrected, by region number. -/
  rinsePos : Vector Nat 14 := Vector.replicate 14 0
  rinseTime : Nat := 0
  rinsePasses : Nat := 0
  rinsed : Vector (BitVec 32) 14 := Vector.replicate 14 0
  /-- The watch SRAM scrub position (R166). -/
  scrubPos : Nat := 0
  /-- The save step under way, written as it begins (03 R116), and LIFE at the warning (03 Table 3.7). -/
  saveStep : Nat := 0
  saveLife : Life := 0
  /-- The copy of the latest save record (03 Table 3.7, step 8). -/
  saveCopy : Option SaveRecord := none
  deriving DecidableEq, Repr

/-- The watch registers that module power-on clears (05 Table 5.7: reset 0). -/
structure WchBase where
  /-- WCH_WAKE_CAUSE. -/
  wakeCause : BitVec 8 := 0
  wdgToken : BitVec 16 := 0
  /-- LIFE of the last accepted service; none until SAF's first (Table 5.6). -/
  wdgLast : Option Life := none
  /-- WCH_WDG_STATUS: EARLY, WRONG, LATE. -/
  wdgStatus : BitVec 3 := 0
  /-- A watchdog fault withholds PERMIT_WCH (R185), and accepted services in a row since. -/
  wdgFaulted : Bool := false
  wdgGood : Nat := 0
  deriving DecidableEq, Repr

end Sys2Proof
end

