-- ==== Sys2Proof/Config.lean ====
section
/-! DEFINITION. The values that the spec leaves open: constants without a body, so that no proof can see
what they are. Each is named in the assumption log. -/

namespace Sys2Proof

/-- Application minor version, 0 to 9, and build number of the running image (07 Table 7.3; log 16, DESIGN CHOICE). -/
opaque Config.appMinor : Fin 10
opaque Config.appBuild : BitVec 16

/-- The u16 code of a session's reason, which the spec names but does not number (log 7, DESIGN CHOICE). -/
opaque Config.reasonCode : Reason → BitVec 16

/-- The u8 code of a proximity pilot state, which the spec does not give (07 Table 7.12; log 7, DESIGN CHOICE). -/
opaque Config.ppCode : PpState → BitVec 8

/-- How many REF edges the AO32 cycle of a draw has beyond the fewest it can have (04 R141, R149), and the REF cycles from an
AO32 cycle to the instant of a draw within it (08 Table 8.6; log 16, DESIGN CHOICE). -/
opaque Config.refSlip : Nat → Fin 17
opaque Config.refPhase : Nat → Fin 1500
/-- Rise of the hold-up capacitor in mV in the AO32 cycle of a draw, while its capacitance is not measured (03 R120;
log 86, DESIGN CHOICE). -/
opaque Config.capRise : Nat → Nat
/-- What an allowed access reads at a draw from a target without a register map (01 R29; log 54, DESIGN CHOICE). -/
opaque Config.busRead : Nat → BitVec 32
/-- The new value of WCH_WDG_TOKEN at a draw (05 R183; log 10, DESIGN CHOICE). -/
opaque Config.wdgToken : Nat → BitVec 16

/-- Whether a turn-off at a draw is a clamp event above 1 mJ (13 R481; log 12, DESIGN CHOICE). -/
opaque Config.clampEvent : Nat → Bool

/-- The coefficients of the filters (08 Tables 8.3 and 8.4, R282; log 5, DESIGN CHOICE): of half-band 1, half-band 2, the
compensation FIR and half-band 3 (1 to 4), by tap; of a resampler by its taps, its phase and the tap; and a fraction of full scale
as a modulator's coefficients correct it (09 R326). -/
opaque Config.firTap : Nat → Nat → Rat
opaque Config.polyTap : Nat → Nat → Nat → Rat
opaque Config.corrected : Coef → Rat → Rat
/-- The descriptor's word of mode, rate, timing and range (08 Table 8.6, field 20; log 5, DESIGN CHOICE). -/
opaque Config.modeWord : ChCfg → BitVec 32

/-- A channel's full scales per unit of its modulator's bit density (08 R286; log 5, DESIGN CHOICE). -/
opaque Config.bitScale : Rat
/-- MET's arithmetic, whose precision the spec bounds but does not give (09 R321, R332; log 6, DESIGN CHOICE): the cosine of
an angle in turns, a square root, the angle of (re, im) in turns, and a value rounded for publication. -/
opaque Config.cosine : Rat → Rat
opaque Config.root : Rat → Rat
opaque Config.arg : Rat → Rat → Rat
opaque Config.publish : Rat → Int

/-- The time from the last valid sample to the synchronisation of a draw, in output periods (09 R335;
log 5, DESIGN CHOICE). -/
opaque Config.bridgeTail : Nat → Rat

/-- Whether a low pulse of RST_N between 1 µs and 10 µs at a draw resets the module (20; log 29, DESIGN CHOICE). -/
opaque Config.rstReset : Nat → Bool

/-- Bytes of the crypto engine's random source at a draw (18 R635; 11 R398; log 5, DESIGN CHOICE), and the lengthening of a
reconnect wait in per mille, at most 250 (15 R539; log 11, DESIGN CHOICE). -/
opaque Config.random : Nat → Nat → Bytes
opaque Config.jitter : Nat → Fin 251

/-- The log kind of a watch record for which Table 10.4 has none (05 R167; log 95, DESIGN CHOICE). -/
opaque Config.watchLogKind : WatchKind → BitVec 16

/-- The minutes that a DST rule's text adds at a UTC second (04 R135, 10 R353; log 14, DESIGN CHOICE). -/
opaque Config.dstMinutes : Bytes → Nat → Int

/-- The current in mA of a string whose channel has an input of so many volts: the spec names no sense
constant for it (14 R513; log 16, DESIGN CHOICE). -/
opaque Config.stringMa : Channel → Rat → Int

/-- A set's body carried from one format into another, or none where a key of it cannot be carried (19 R666,
R667), and the hash by which the operator names a certificate (15 Table 15.1; log 16, DESIGN CHOICE). -/
opaque Config.migrate : Nat → Nat → Bytes → Option Bytes
opaque Config.certHash : Bytes → Bytes

/-- The address of a memory region as the masters of the controller die see it, which the spec does not give (07
Table 7.21; log 16, DESIGN CHOICE). -/
opaque Config.regionBase : MemRegion → BitVec 32

/-- What the granule at an address of a region holds (05 R197; log 16, DESIGN CHOICE): the part of the region, and a number within it. The
spec gives no layout within the regions. -/
opaque Config.granule : MemRegion → BitVec 32 → Nat × Nat

/-- What MET counts on from where neither copy of the registers reads, at a draw (10 R385; log 5, DESIGN CHOICE). -/
opaque Config.lostRegisters : Nat → Sel3 (Vector TariffRegs 8)

/-- The waveform sets and the sealed gamma (16 Table 16.4, R571, R574, R575), which the panel's profile and the image
hold and the spec does not list (log 16, DESIGN CHOICE): the source codes per frame and the frames of the level phase, by the legal
set or not, old state (12 is unknown), new state, temperature band and fast mode; the band of a temperature in 0.1 C;
the sealed gamma of a state; and the codes that MET renders into the legal rows (R578). -/
opaque Config.waveform : Bool → Nat → Nat → Fin 8 → Bool → List (Fin 4) × Nat
opaque Config.tempBand : Bool → Int → Fin 8
opaque Config.legalGamma : Nat → Fin 257
opaque Config.legalPixel : LegalContent → Nat → Fin 16

/-- The 32 bytes of the root secret, which no one knows (18 R619; log 97, DESIGN CHOICE). -/
opaque Config.rootSecret : Fin 32 → Byte

/-- The OCMF fields IL, IF and IT of an identity kind and source, as they stand after their names, which
the spec leaves to OCMF (10 Table 10.5; log 19, DESIGN CHOICE): level, flags (a list, without the identity-hashed flag) and
type. -/
opaque Config.ocmfLevel : Nat → Nat → Bytes
opaque Config.ocmfFlags : Nat → Nat → Bool → Bytes
opaque Config.ocmfType : Nat → Nat → Bytes

end Sys2Proof
end

