-- ==== Sys2Proof/Machine/Filters.lean ====
section
/-! DEFINITION. The sinc filters that the spec defines by order and ratio, on a modulator's bits (05 R175; 08 R279, R281,
R296). -/

namespace Sys2Proof.Machine

/-- A flushed filter of an order: its history is mid-scale zero (08 R290). -/
def sincNew (order : Nat) : Sinc := { acc := List.replicate order 0, dif := List.replicate order 0 }

/-- The integrators after an input, and what the last one holds. -/
def integrate : List Int → Int → List Int × Int
  | [], x => ([], x)
  | a :: as, x =>
    let r := integrate as (a + x)
    ((a + x) :: r.1, r.2)

/-- The combs after a value, and what the last one gives. -/
def comb : List Int → Int → List Int × Int
  | [], x => ([], x)
  | d :: ds, x =>
    let r := comb ds (x - d)
    (x :: r.1, r.2)

/-- A filter of a ratio after one input, and its output where one falls due. -/
def sincStep (ratio : Nat) (x : Int) (f : Sinc) : Sinc × Option Int :=
  let a := integrate f.acc x
  if f.n + 1 < ratio then ({ f with acc := a.1, n := f.n + 1 }, none)
  else
    let c := comb f.dif a.2
    (⟨a.1, c.1, 0⟩, some c.2)

/-- A filter after a run of inputs, and its outputs, oldest first. -/
def sincRun (ratio : Nat) : List Int → Sinc → Sinc × List Int
  | [], f => (f, [])
  | x :: xs, f =>
    let s := sincStep ratio x f
    let r := sincRun ratio xs s.1
    (r.1, s.2.toList ++ r.2)

/-- A modulator bit as a number; a missing bit is mid-scale zero (08 R305). -/
def bitValue (b : Bool) : Int := if b then 1 else -1

/-- An output of a sinc filter of an order and ratio as a fraction of the channel's full scale: the spec does not give the
bit density of full scale (log 5, DESIGN CHOICE). -/
def sincScale (order ratio : Nat) (v : Int) : Rat := (v : Rat) / (ratio ^ order : Nat) * Config.bitScale

/-- The single-cycle ratio of a rate, and 0 for a channel in another mode (08 R281). -/
def quadRatio (c : ChCfg) : Nat := if c.mode = .single then 3072000 / c.rate else 0

/-- A modulator's bit taken by the CIC of a slot and, with a ratio, by its single-cycle filter, whose conversion takes four
times the ratio of bits (08 Table 8.3, R281). -/
def feedSlot (ratio : Nat) (x : Int) (t : ChainSlot) : ChainSlot :=
  let c := sincStep 64 x t.cic
  let t := { t with cic := c.1, cicOut := c.2.getD t.cicOut }
  if ratio = 0 then t
  else
    let q := sincStep ratio x t.quad
    match q.2 with
    | none => { t with quad := q.1 }
    | some y =>
      if t.quadRun = 3 then { t with quad := sincNew 4, quadRun := 0, quadOut := y }
      else { t with quad := q.1, quadRun := t.quadRun + 1 }

/-- A chain flushed as if its history were mid-scale zero (08 R290, R306): its places in the schedules stay. -/
def flushSlot (t : ChainSlot) : ChainSlot :=
  { cic := { sincNew 5 with n := t.cic.n }, quad := { sincNew 4 with n := t.quad.n }, quadRun := t.quadRun }

/-- The output of a filter with given coefficients, from its newest inputs. -/
def firSum (c : Nat → Rat) (xs : List Rat) : Rat := (xs.zipIdx.map (fun x => c x.2 * x.1)).sum

/-- The work of a frame in a slot (08 R279, Table 8.3): an output of the CIC goes into half-band 1 in every frame, one of
half-band 1 into half-band 2 in every second, and the compensation FIR gives an output in every fourth. -/
def advanceSlot (frame : Nat) (t : ChainSlot) : ChainSlot :=
  let h192 := (sincScale 5 64 t.cicOut :: t.h192).take 7
  if frame % 2 ≠ 0 then { t with h192 }
  else
    let h96 := (firSum (Config.firTap 1) h192 :: t.h96).take 11
    if frame % 4 ≠ 0 then { t with h192, h96 }
    else
      let h48 := (firSum (Config.firTap 2) h96 :: t.h48).take 7
      { t with h192, h96, h48, out := firSum (Config.firTap 3) h48 }

/-- The resampler (08 R282): its phase is chosen by the top 8 bits of the accumulator, and the next 16 interpolate linearly
between adjacent phases. -/
def resample (taps acc : Nat) (h : List Rat) : Rat :=
  let y := fun p => firSum (Config.polyTap taps p) (h.take taps)
  let p := acc / 2 ^ 24
  y p + (y (p + 1) - y p) * ((acc / 2 ^ 8 % 2 ^ 16 : Nat) : Rat) / 65536

/-- The taps of the resampler of a mode and rate (08 Table 8.4). -/
def resampleTaps (c : ChCfg) : Nat :=
  if c.mode = .mains then 32 else if c.rate = 16000 then 32 else if c.rate = 8000 then 64 else 128

/-- A sample's value, rounded to the nearest integer (a half upwards) and limited, and whether it reached a limit (08 R286,
R300; log 5, DESIGN CHOICE). -/
def sampleOf (x : Rat) : BitVec 24 × Bool :=
  let n := max (-8388608) (min 8388607 (x * 8388608 + 1 / 2).floor)
  (BitVec.ofInt 24 n, n == -8388608 || n == 8388607)
end Sys2Proof.Machine
end

