-- ==== Sys2Proof/Machine/Bits.lean ====
section
/-! DEFINITION. Bytes and numbers: little-endian fields (00 R14), ASCII text, decimal and hexadecimal
digits (19 R650), and the CRC forms of 00 Table 0.5. -/

namespace Sys2Proof.Machine

/-- The ASCII bytes of a text (07 R250). -/
def str (t : String) : Bytes := t.toList.map (fun c => BitVec.ofNat 8 c.toNat)

/-- `n` bytes, least significant first (00 R14). -/
def leBytes (n v : Nat) : Bytes := (List.range n).map (fun i => BitVec.ofNat 8 (v >>> (8 * i)))

/-- u8, u16, u32, u64 fields (07 R250). -/
def u8 (v : Nat) : Bytes := leBytes 1 v
def u16 (v : Nat) : Bytes := leBytes 2 v
def u32 (v : Nat) : Bytes := leBytes 4 v
def u64 (v : Nat) : Bytes := leBytes 8 v

/-- An i32 field, held within its range (07 R250). -/
def i32 (v : Int) : Bytes :=
  leBytes 4 (BitVec.ofInt 32 (max (-2147483648) (min 2147483647 v))).toNat

/-- An i64 field (07 R250). -/
def i64 (v : Int) : Bytes := leBytes 8 (BitVec.ofInt 64 v).toNat

/-- A bit as a number. -/
def b1 (b : Bool) : Nat := if b then 1 else 0

/-- The integer square root, by its bits from the highest down. -/
def isqrtBits : Nat → Nat → Nat → Nat
  | 0, r, _ => r
  | b + 1, r, n => isqrtBits b (if (r + 2 ^ b) * (r + 2 ^ b) ≤ n then r + 2 ^ b else r) n
def isqrt (n : Nat) : Nat := isqrtBits 32 0 n

/-- A u8 flag (07 R252). -/
def flag (b : Bool) : Bytes := u8 (b1 b)

/-- The number of a little-endian byte string (00 R14). -/
def leNat : Bytes → Nat
  | [] => 0
  | b :: bs => b.toNat + 256 * leNat bs

/-- The number of a byte string, most significant byte first. -/
def beNat (b : Bytes) : Nat := leNat b.reverse

/-- `n` bytes, most significant first. -/
def beBytes (n v : Nat) : Bytes := (leBytes n v).reverse

/-- `n` bytes of a string from an offset, read little-endian; missing bytes read 0. -/
def rd (b : Bytes) (off n : Nat) : Nat := leNat ((b.drop off).take n)

/-- The two's complement reading of an `n`-bit number (07 R250). -/
def signed (n v : Nat) : Int := (BitVec.ofNat n v).toInt

/-- An i32 field at an offset. -/
def rdI32 (b : Bytes) (off : Nat) : Int := signed 32 (rd b off 4)

/-- A byte string cut or filled with zeros to `n` bytes. -/
def padTo (n : Nat) (b : Bytes) : Bytes := (b ++ List.replicate (n - b.length) 0).take n

/-- The decimal digits of a number without separators (19 R650). -/
def dec (n : Nat) : Bytes := str (toString n)

/-- A number in decimal with its sign. -/
def decInt (n : Int) : Bytes := if n < 0 then str "-" ++ dec (-n).toNat else dec n.toNat

/-- One upper-case hexadecimal digit. -/
def hexDigit (n : Nat) : Byte := BitVec.ofNat 8 (if n < 10 then 48 + n else 55 + n)

/-- `n` upper-case hexadecimal digits, most significant first. -/
def hexUpper (v n : Nat) : Bytes :=
  ((List.range n).map (fun i => hexDigit ((v >>> (4 * i)) % 16))).reverse

/-- The bytes in upper-case hexadecimal. -/
def hexBytes (b : Bytes) : Bytes := b.flatMap (fun x => hexUpper x.toNat 2)

/-- The value of a decimal digit. -/
def decDigit? (b : Byte) : Option Nat :=
  if 48 ≤ b.toNat ∧ b.toNat ≤ 57 then some (b.toNat - 48) else none

/-- The value of a hexadecimal digit. -/
def hexDigit? (b : Byte) : Option Nat :=
  if 48 ≤ b.toNat ∧ b.toNat ≤ 57 then some (b.toNat - 48)
  else if 65 ≤ b.toNat ∧ b.toNat ≤ 70 then some (b.toNat - 55)
  else if 97 ≤ b.toNat ∧ b.toNat ≤ 102 then some (b.toNat - 87)
  else none

/-- A number in decimal digits; none for an empty or other text. -/
def parseDec (b : Bytes) : Option Nat :=
  if b.isEmpty then none
  else b.foldl (fun acc d => acc.bind (fun a => (decDigit? d).map (fun x => 10 * a + x))) (some 0)

/-- A number in decimal digits with an optional minus sign. -/
def parseInt (b : Bytes) : Option Int :=
  match b with
  | 0x2D#8 :: r => (parseDec r).map (fun n => -(n : Int))
  | _ => (parseDec b).map (fun n => (n : Int))

/-- A number in hexadecimal digits. -/
def parseHex (b : Bytes) : Option Nat :=
  if b.isEmpty then none
  else b.foldl (fun acc d => acc.bind (fun a => (hexDigit? d).map (fun x => 16 * a + x))) (some 0)

/-- The pieces of a byte string between occurrences of a byte. -/
def splitOn (sep : Byte) : Bytes → List Bytes
  | [] => [[]]
  | b :: bs =>
    if b = sep then [] :: splitOn sep bs
    else
      match splitOn sep bs with
      | [] => [[b]]
      | p :: ps => (b :: p) :: ps

/-- Pieces put together with a byte between them. -/
def joinWith (sep : Byte) : List Bytes → Bytes
  | [] => []
  | [p] => p
  | p :: ps => p ++ sep :: joinWith sep ps

/-- Ascending byte order of byte strings (12 R452). -/
def bytesLe : Bytes → Bytes → Bool
  | [], _ => true
  | _ :: _, [] => false
  | a :: as, b :: bs => if a = b then bytesLe as bs else a.toNat < b.toNat

/-- Every byte is a printable character (07 R250 ASCII). -/
def printable (b : Bytes) : Bool := b.all (fun x => 0x20 ≤ x.toNat && x.toNat ≤ 0x7E)

/-- One step of a CRC that takes the most significant bit first. -/
def crcBit (w : Nat) (poly : BitVec w) (crc : BitVec w) : BitVec w :=
  if crc.msb then (crc <<< 1) ^^^ poly else crc <<< 1

/-- One step of a reflected CRC. -/
def crcBitR (w : Nat) (poly : BitVec w) (crc : BitVec w) : BitVec w :=
  if crc.getLsbD 0 then (crc >>> 1) ^^^ poly else crc >>> 1

/-- CRC-8, polynomial 0x07 (00 Table 0.5). -/
def crc8 (b : Bytes) : BitVec 8 :=
  b.foldl (fun c x => (List.range 8).foldl (fun c _ => crcBit 8 0x07 c) (c ^^^ x)) 0

/-- CRC-16, polynomial 0x1021, initial value 0xFFFF (00 Table 0.5). -/
def crc16 (b : Bytes) : BitVec 16 :=
  b.foldl (fun c x => (List.range 8).foldl (fun c _ => crcBit 16 0x1021 c)
    (c ^^^ ((x.setWidth 16 : BitVec 16) <<< (8 : Nat)))) 0xFFFF

/-- CRC-32, polynomial 0x04C1_1DB7 in its reflected form (00 Table 0.5). -/
def crc32 (b : Bytes) : BitVec 32 :=
  b.foldl (fun c x => (List.range 8).foldl (fun c _ => crcBitR 32 0xEDB88320 c)
    (c ^^^ x.setWidth 32)) 0xFFFFFFFF ^^^ 0xFFFFFFFF

/-- CRC-32C, polynomial 0x1EDC_6F41 in its reflected form (00 Table 0.5). -/
def crc32c (b : Bytes) : BitVec 32 :=
  b.foldl (fun c x => (List.range 8).foldl (fun c _ => crcBitR 32 0x82F63B78 c)
    (c ^^^ x.setWidth 32)) 0xFFFFFFFF ^^^ 0xFFFFFFFF

/-- A counter of `w` bits that rises by `n` and saturates. -/
def satAdd (w : Nat) (c : BitVec w) (n : Nat) : BitVec w :=
  BitVec.ofNat w (min (2 ^ w - 1) (c.toNat + n))

/-- The nearest whole number to `n / d`, halves away from zero. -/
def roundDiv (n : Int) (d : Nat) : Int :=
  if 0 ≤ n then (2 * n + d) / (2 * d) else -((2 * (-n) + d) / (2 * d))

end Sys2Proof.Machine
end

