-- ==== Sys2Proof/Machine/Dates.lean ====
section
/-! DEFINITION. Calendar time of an RTC second (04 R133, R134) and back, and the text of 10 R374. -/

namespace Sys2Proof.Machine

/-- Calendar time. -/
structure Civil where
  year : Nat
  month : Nat
  day : Nat
  hour : Nat
  minute : Nat
  second : Nat
  /-- 0 Monday to 6 Sunday. -/
  weekday : Nat
  deriving DecidableEq, Repr

/-- Days from 0000-03-01 to 2000-01-01 in the Gregorian calendar. -/
def epochDays : Nat := 730425

/-- Gregorian calendar time of a count of seconds since 2000-01-01T00:00:00 (04 R133). -/
def civil (sec : Nat) : Civil :=
  let days := sec / 86400
  let z := days + epochDays
  let era := z / 146097
  let doe := z % 146097
  let yoe := (doe - doe / 1460 + doe / 36524 - doe / 146096) / 365
  let doy := doe - (365 * yoe + yoe / 4 - yoe / 100)
  let mp := (5 * doy + 2) / 153
  let month := if mp < 10 then mp + 3 else mp - 9
  { year := yoe + era * 400 + (if month ≤ 2 then 1 else 0)
    month
    day := doy - (153 * mp + 2) / 5 + 1
    hour := sec % 86400 / 3600
    minute := sec % 3600 / 60
    second := sec % 60
    weekday := (days + 5) % 7 }

/-- Seconds since 2000-01-01T00:00:00 at 00:00:00 of a date. -/
def secondOfDate (year month day : Nat) : Nat :=
  let y := if month ≤ 2 then year - 1 else year
  let era := y / 400
  let yoe := y % 400
  let mp := if month > 2 then month - 3 else month + 9
  let doy := (153 * mp + 2) / 5 + day - 1
  let doe := yoe * 365 + yoe / 4 - yoe / 100 + doy
  (era * 146097 + doe - epochDays) * 86400

/-- `n` decimal digits. -/
def digits (n v : Nat) : Bytes := padLeft n (dec v)
where padLeft (n : Nat) (b : Bytes) : Bytes := List.replicate (n - b.length) 0x30 ++ b

/-- YYYY-MM-DDThh:mm:ss,fff+0000 (10 R374). -/
def dateText (sec sub : Nat) : Bytes :=
  let c := civil sec
  digits 4 c.year ++ str "-" ++ digits 2 c.month ++ str "-" ++ digits 2 c.day ++ str "T" ++
    digits 2 c.hour ++ str ":" ++ digits 2 c.minute ++ str ":" ++ digits 2 c.second ++ str "," ++
    digits 3 (sub * 1000 / 32768) ++ str "+0000"

end Sys2Proof.Machine
end

