-- ==== Sys2Proof/Machine/Crypto.lean ====
section
/-! DEFINITION. The algorithms that 18 and 10 name by their standards: SHA-256 and SHA-384 (R643), HMAC and HKDF (R624), ECDSA with
the nonces of RFC 6979 (R635), and AES-256-GCM (R626). The standards themselves stand outside the spec. (log 97, PRESUMED) -/

namespace Sys2Proof.Machine

/-! ### SHA-256 and SHA-384 -/

/-- The largest number of at most `bits` bits whose `k`-th power is at most `n`. -/
def rootOf (k : Nat) : Nat → Nat → Nat → Nat
  | 0, r, _ => r
  | b + 1, r, n => rootOf k b (if (r + 2 ^ b) ^ k ≤ n then r + 2 ^ b else r) n

/-- The first primes, and the first `w` bits of the fraction of a prime's `k`-th root. -/
def primes : List Nat := (List.range 410).filter (fun n => decide (2 ≤ n) && (List.range n).all (fun d => decide (d < 2) || n % d != 0))
def rootFraction (w k p : Nat) : BitVec w := BitVec.ofNat w (rootOf k (w + 8) 0 (p * 2 ^ (k * w)))

/-- A hash of the family: its word width, its round constants, its initial words, the bytes of its digest, and the rotations of
its four functions. -/
structure Sha where
  w : Nat
  consts : List (BitVec w)
  init : List (BitVec w)
  digest : Nat
  big0 : Nat × Nat × Nat
  big1 : Nat × Nat × Nat
  small0 : Nat × Nat × Nat
  small1 : Nat × Nat × Nat

def sha256Of : Sha where
  w := 32
  consts := (primes.take 64).map (rootFraction 32 3)
  init := (primes.take 8).map (rootFraction 32 2)
  digest := 32
  big0 := (2, 13, 22)
  big1 := (6, 11, 25)
  small0 := (7, 18, 3)
  small1 := (17, 19, 10)

def sha384Of : Sha where
  w := 64
  consts := (primes.take 80).map (rootFraction 64 3)
  init := ((primes.drop 8).take 8).map (rootFraction 64 2)
  digest := 48
  big0 := (28, 34, 39)
  big1 := (14, 18, 41)
  small0 := (1, 8, 7)
  small1 := (19, 61, 6)

/-- Three rotations added without carry; two rotations and a shift. -/
def bigSigma {w : Nat} (r : Nat × Nat × Nat) (x : BitVec w) : BitVec w := x.rotateRight r.1 ^^^ x.rotateRight r.2.1 ^^^ x.rotateRight r.2.2
def smallSigma {w : Nat} (r : Nat × Nat × Nat) (x : BitVec w) : BitVec w := x.rotateRight r.1 ^^^ x.rotateRight r.2.1 ^^^ (x >>> r.2.2)

/-- One round on the eight working words and the sixteen words of the schedule. -/
def shaRound (h : Sha) (v : List (BitVec h.w) × List (BitVec h.w)) (k : BitVec h.w) : List (BitVec h.w) × List (BitVec h.w) :=
  let x := fun (i : Nat) => v.1.getD i 0
  let m := fun (i : Nat) => v.2.getD i 0
  let t1 := x 7 + bigSigma h.big1 (x 4) + ((x 4 &&& x 5) ^^^ (~~~(x 4) &&& x 6)) + k + m 0
  let t2 := bigSigma h.big0 (x 0) + ((x 0 &&& x 1) ^^^ (x 0 &&& x 2) ^^^ (x 1 &&& x 2))
  ([t1 + t2, x 0, x 1, x 2, x 3 + t1, x 4, x 5, x 6],
    v.2.drop 1 ++ [smallSigma h.small1 (m 14) + m 9 + smallSigma h.small0 (m 1) + m 0])

/-- Pieces of `n` bytes of a string. -/
def pieces (n : Nat) (b : Bytes) : List Bytes := (List.range (b.length / n)).map (fun i => (b.drop (n * i)).take n)

/-- The digest of a byte string. -/
def hash (h : Sha) (b : Bytes) : Bytes :=
  let block := 2 * h.w
  let fill := (block - (b.length + 1 + h.w / 4) % block) % block
  let blocks := pieces block (b ++ 0x80 :: List.replicate fill 0 ++ beBytes (h.w / 4) (8 * b.length))
  let out := blocks.foldl (fun s p =>
    let m := (pieces (h.w / 8) p).map (fun x => BitVec.ofNat h.w (beNat x))
    List.zipWith (· + ·) s (h.consts.foldl (shaRound h) (s, m)).1) h.init
  (out.flatMap (fun x => beBytes (h.w / 8) x.toNat)).take h.digest

def sha256 (b : Bytes) : Bytes := hash sha256Of b
def sha384 (b : Bytes) : Bytes := hash sha384Of b

/-! ### HMAC and HKDF -/

def hmac (h : Sha) (key msg : Bytes) : Bytes :=
  let k := padTo (2 * h.w) (if 2 * h.w < key.length then hash h key else key)
  hash h (k.map (· ^^^ 0x5C) ++ hash h (k.map (· ^^^ 0x36) ++ msg))

/-- `n` bytes of HKDF (RFC 5869): the extract step, then the blocks of the expand step. -/
def hkdf (h : Sha) (salt ikm info : Bytes) (n : Nat) : Bytes :=
  let prk := hmac h salt ikm
  let out := (List.range ((n + h.digest - 1) / h.digest)).foldl (fun (t : Bytes × Bytes) i =>
    let x := hmac h prk (t.2 ++ info ++ [BitVec.ofNat 8 (i + 1)])
    (t.1 ++ x, x)) ([], [])
  out.1.take n

/-! ### ECDSA on P-256 with SHA-256, and on P-384 with SHA-384 -/

/-- A curve y² = x³ − 3x + b over the field of p elements, with its base point of order n. -/
structure Curve where
  p : Nat
  n : Nat
  gx : Nat
  gy : Nat
  len : Nat
  sha : Sha

def p256 : Curve where
  p := 2 ^ 256 - 2 ^ 224 + 2 ^ 192 + 2 ^ 96 - 1
  n := 0xFFFFFFFF00000000FFFFFFFFFFFFFFFFBCE6FAADA7179E84F3B9CAC2FC632551
  gx := 0x6B17D1F2E12C4247F8BCE6E563A440F277037D812DEB33A0F4A13945D898C296
  gy := 0x4FE342E2FE1A7F9B8EE7EB4A7C0F9E162BCE33576B315ECECBB6406837BF51F5
  len := 32
  sha := sha256Of

def p384 : Curve where
  p := 2 ^ 384 - 2 ^ 128 - 2 ^ 96 + 2 ^ 32 - 1
  n := 0xFFFFFFFFFFFFFFFFFFFFFFFFFFFFFFFFFFFFFFFFFFFFFFFFC7634D81F4372DDF581A0DB248B0A77AECEC196ACCC52973
  gx := 0xAA87CA22BE8B05378EB1C71EF320AD746E1D3B628BA79B9859F741E082542A385502F25DBF55296C3A545E3872760AB7
  gy := 0x3617DE4A96262C6F5D9E98BF9292DC29F8F41DBD289A147CE9DA3113B5F0B8C00A60B1CE1D7E819D7A431D7C90EA0E5F
  len := 48
  sha := sha384Of

/-- The bits of a number, most significant first. -/
def bitsDown (k n : Nat) : List Bool := (List.range k).reverse.map n.testBit

/-- A power, and an inverse, in the field of a prime below 2^384. -/
def powMod (m b e : Nat) : Nat := (bitsDown 384 e).foldl (fun r t => if t then r * r % m * b % m else r * r % m) (1 % m)
def invMod (m a : Nat) : Nat := powMod m a (m - 2)
def subMod (m a b : Nat) : Nat := (a + m - b) % m

/-- The sum of two points; none is the point at infinity. -/
def addPoint (c : Curve) : Option (Nat × Nat) → Option (Nat × Nat) → Option (Nat × Nat)
  | none, q => q
  | p, none => p
  | some (x1, y1), some (x2, y2) =>
    if x1 = x2 ∧ (y1 + y2) % c.p = 0 then none
    else
      let l := if x1 = x2 then (3 * x1 * x1 + c.p - 3) * invMod c.p (2 * y1) % c.p
        else subMod c.p y2 y1 * invMod c.p (subMod c.p x2 x1) % c.p
      let x3 := subMod c.p (subMod c.p (l * l % c.p) x1) x2
      some (x3, subMod c.p (l * subMod c.p x1 x3 % c.p) y1)

/-- A multiple of a point. -/
def mulPoint (c : Curve) (k : Nat) (q : Option (Nat × Nat)) : Option (Nat × Nat) :=
  (bitsDown 384 k).foldl (fun r t => let d := addPoint c r r; if t then addPoint c d q else d) none

/-- The public key of a private one, uncompressed. -/
def publicKey (c : Curve) (d : Nat) : Bytes :=
  match mulPoint c d (some (c.gx, c.gy)) with
  | none => [0]
  | some (x, y) => 4 :: beBytes c.len x ++ beBytes c.len y

/-- The nonces of RFC 6979, each with the first signature that it gives. -/
def signWith (c : Curve) (d e : Nat) : Nat → Bytes → Bytes → Option (Nat × Nat)
  | 0, _, _ => none
  | n + 1, key, v =>
    let v := hmac c.sha key v
    let k := beNat v
    let r := if 1 ≤ k ∧ k < c.n then ((mulPoint c k (some (c.gx, c.gy))).map (fun p => p.1 % c.n)).getD 0 else 0
    let s := invMod c.n k * (e + r * d) % c.n
    if r ≠ 0 ∧ s ≠ 0 then some (r, s)
    else
      let key := hmac c.sha key (v ++ [0])
      signWith c d e n key (hmac c.sha key v)

/-- The signature of a message under a private key: r and s. -/
def ecdsaSign (c : Curve) (d : Nat) (msg : Bytes) : Option (Nat × Nat) :=
  let e := beNat (hash c.sha msg) % c.n
  let seed := beBytes c.len d ++ beBytes c.len e
  let v := List.replicate c.sha.digest (1 : Byte)
  let k1 := hmac c.sha (List.replicate c.sha.digest 0) (v ++ [0] ++ seed)
  let v1 := hmac c.sha k1 v
  let k2 := hmac c.sha k1 (v1 ++ [1] ++ seed)
  signWith c d e 16 k2 (hmac c.sha k2 v1)

/-- A signature, r then s, verifies with an uncompressed public key. -/
def ecdsaVerify (c : Curve) (key msg sig : Bytes) : Bool :=
  let x := beNat ((key.drop 1).take c.len)
  let y := beNat (key.drop (1 + c.len))
  let r := beNat (sig.take c.len)
  let s := beNat (sig.drop c.len)
  if key.length ≠ 1 + 2 * c.len ∨ sig.length ≠ 2 * c.len ∨ r = 0 ∨ c.n ≤ r ∨ s = 0 ∨ c.n ≤ s then false
  else
    let w := invMod c.n s
    let p := addPoint c (mulPoint c (beNat (hash c.sha msg) * w % c.n) (some (c.gx, c.gy))) (mulPoint c (r * w % c.n) (some (x, y)))
    match p with
    | none => false
    | some q => q.1 % c.n == r

/-- A number as a DER integer, and a signature as DER. -/
def derInt (n : Nat) : Bytes :=
  let b := (beBytes 49 n).dropWhile (· == 0)
  let b := if (b.headD 0).msb || b.isEmpty then 0 :: b else b
  0x02 :: u8 b.length ++ b
def derSignature (s : Nat × Nat) : Bytes :=
  let b := derInt s.1 ++ derInt s.2
  0x30 :: u8 b.length ++ b

/-! ### AES-256-GCM -/

/-- The product of two bytes in the field of AES. -/
def mulByte (a b : Byte) : Byte :=
  ((List.range 8).foldl (fun (t : Byte × Byte) i =>
    (if b.getLsbD i then t.1 ^^^ t.2 else t.1, if t.2.msb then (t.2 <<< 1) ^^^ 0x1B else t.2 <<< 1)) (0, a)).1

/-- The substitution of a byte: its inverse, x^254, then an affine map. -/
def subByte (x : Byte) : Byte :=
  let y := (List.range 7).foldl (fun (t : Byte × Byte) _ => let q := mulByte t.2 t.2; (mulByte t.1 q, q)) (1, x)
  y.1 ^^^ y.1.rotateLeft 1 ^^^ y.1.rotateLeft 2 ^^^ y.1.rotateLeft 3 ^^^ y.1.rotateLeft 4 ^^^ 0x63
def subTable : List Byte := (List.range 256).map (fun i => subByte (BitVec.ofNat 8 i))
def sub (x : Byte) : Byte := subTable.getD x.toNat 0

/-- Bytes added without carry. -/
def xorBytes (a b : Bytes) : Bytes := List.zipWith (· ^^^ ·) a b

/-- The round keys of a 256-bit key: 60 words, newest first while they are made. -/
def roundKeys (key : Bytes) : List Bytes :=
  let words := (List.range 52).foldl (fun (t : List Bytes × Byte) j =>
    let prev := t.1.getD 0 []
    let old := t.1.getD 7 []
    if j % 8 = 0 then
      (xorBytes old (xorBytes ((prev.drop 1 ++ prev.take 1).map sub) [t.2, 0, 0, 0]) :: t.1, mulByte t.2 2)
    else if j % 8 = 4 then (xorBytes old (prev.map sub) :: t.1, t.2)
    else (xorBytes old prev :: t.1, t.2)) ((pieces 4 key).reverse, 1)
  pieces 16 (words.1.reverse.flatten)

/-- A block, column by column: substituted with its rows shifted; its columns mixed. -/
def shiftRows (b : Bytes) : Bytes := (List.range 16).map (fun i => sub (b.getD ((i + 4 * (i % 4)) % 16) 0))
def mixColumns (b : Bytes) : Bytes :=
  (List.range 16).map (fun i =>
    let at_ := fun (k : Nat) => b.getD (4 * (i / 4) + (i + k) % 4) 0
    mulByte (at_ 0) 2 ^^^ mulByte (at_ 1) 3 ^^^ at_ 2 ^^^ at_ 3)

/-- A block encrypted under the round keys. -/
def aesBlock (keys : List Bytes) (b : Bytes) : Bytes :=
  let first := xorBytes b (keys.getD 0 [])
  let middle := ((keys.drop 1).take 13).foldl (fun x k => xorBytes (mixColumns (shiftRows x)) k) first
  xorBytes (shiftRows middle) (keys.getD 14 [])

/-- The product in the field of GHASH, and the hash of a string of whole blocks. -/
def mulGhash (x y : BitVec 128) : BitVec 128 :=
  ((List.range 128).foldl (fun (t : BitVec 128 × BitVec 128) i =>
    (if x.getMsbD i then t.1 ^^^ t.2 else t.1,
      if t.2.getLsbD 0 then (t.2 >>> 1) ^^^ (0xE1#128 <<< 120) else t.2 >>> 1)) (0, y)).1
def ghash (h : BitVec 128) (b : Bytes) : BitVec 128 :=
  (pieces 16 b).foldl (fun y x => mulGhash (y ^^^ BitVec.ofNat 128 (beNat x)) h) 0

/-- A string filled with zeros to whole blocks. -/
def toBlocks (b : Bytes) : Bytes := padTo ((b.length + 15) / 16 * 16) b

/-- The counter mode of GCM from block 2 on, for a 12-byte initialisation vector; and the tag of a ciphertext. -/
def gcmCrypt (keys : List Bytes) (iv b : Bytes) : Bytes :=
  (List.range ((b.length + 15) / 16)).flatMap (fun i => xorBytes ((b.drop (16 * i)).take 16) (aesBlock keys (iv ++ beBytes 4 (i + 2))))
def gcmTag (keys : List Bytes) (iv aad ct : Bytes) : Bytes :=
  let h := BitVec.ofNat 128 (beNat (aesBlock keys (List.replicate 16 0)))
  let s := ghash h (toBlocks aad ++ toBlocks ct ++ beBytes 8 (8 * aad.length) ++ beBytes 8 (8 * ct.length))
  xorBytes (beBytes 16 s.toNat) (aesBlock keys (iv ++ beBytes 4 1))

/-- AES-256-GCM: the ciphertext with its tag; and what a ciphertext with its tag decrypts to, with whether the tag is right. -/
def gcmSeal (key iv aad plain : Bytes) : Bytes :=
  let k := roundKeys key
  let ct := gcmCrypt k iv plain
  ct ++ gcmTag k iv aad ct
def gcmOpen (key iv aad sealed : Bytes) : Bool × Bytes :=
  let k := roundKeys key
  let ct := sealed.take (sealed.length - 16)
  (decide (16 ≤ sealed.length) && gcmTag k iv aad ct == sealed.drop (sealed.length - 16), gcmCrypt k iv ct)

end Sys2Proof.Machine
end

