-- ==== Sys2Proof/Machine/Codes.lean ====
section
/-! DEFINITION. The codes of 07: statuses (Table 7.20), events (Table 7.21) and commands with their marks
and length rules (Tables 7.4 to 7.19). -/

namespace Sys2Proof.Machine

/-- The statuses of Table 7.20. -/
inductive Status
  | ok | argLength | unknownCommand | argRange | state | aborted | memError | fwUnavailable | busy
  | notPermitted | legalFault | rtcRange | timeInvalid | trimClipped | configNoCandidate
  | configInvalid | configKeyUnknown | configValue | configOversize | configOnTrial
  | configNoPrevious | migrationFailed | configFormat | hdrMagic | hdrFamily | hdrHw | hdrFormat
  | hdrLength | hdrSignature | updBlockRange | updIncomplete | updVerifyFailed | updNotVerified
  | updNotOnTrial | updNoFallback | envFormat | envDevice | envCounter | envSignature
  | keySlotFailed | lcRefused | channelOos | harmonicsOff | emptyTable | tariffRange | boundaryPast
  | recordAbsent | logRange | outletBusy | notAuthorised | displayUnverified | seamDegraded
  | holdupFailed | setpointClipped | directionNegotiation | sessionUnknown | outletType
  | rearmRefused | switchLatched | switchOwned | swapCollision | pairAbsent | legalArea
  | displayBusy | pspBusyTimeout | gpOwned
  deriving DecidableEq, Repr

/-- The code of a status (Table 7.20). -/
def Status.code : Status → BitVec 16
  | .ok => 0x0000
  | .argLength => 0x0001
  | .unknownCommand => 0x0002
  | .argRange => 0x0003
  | .state => 0x0004
  | .aborted => 0x0005
  | .memError => 0x0006
  | .fwUnavailable => 0x0007
  | .busy => 0x0008
  | .notPermitted => 0x0009
  | .legalFault => 0x000A
  | .rtcRange => 0x0201
  | .timeInvalid => 0x0202
  | .trimClipped => 0x0203
  | .configNoCandidate => 0x0301
  | .configInvalid => 0x0302
  | .configKeyUnknown => 0x0303
  | .configValue => 0x0304
  | .configOversize => 0x0305
  | .configOnTrial => 0x0306
  | .configNoPrevious => 0x0307
  | .migrationFailed => 0x0308
  | .configFormat => 0x0309
  | .hdrMagic => 0x0401
  | .hdrFamily => 0x0402
  | .hdrHw => 0x0403
  | .hdrFormat => 0x0404
  | .hdrLength => 0x0405
  | .hdrSignature => 0x0406
  | .updBlockRange => 0x0407
  | .updIncomplete => 0x0408
  | .updVerifyFailed => 0x0409
  | .updNotVerified => 0x040A
  | .updNotOnTrial => 0x040B
  | .updNoFallback => 0x040C
  | .envFormat => 0x0501
  | .envDevice => 0x0502
  | .envCounter => 0x0503
  | .envSignature => 0x0504
  | .keySlotFailed => 0x0505
  | .lcRefused => 0x0506
  | .channelOos => 0x0601
  | .harmonicsOff => 0x0701
  | .emptyTable => 0x0801
  | .tariffRange => 0x0802
  | .boundaryPast => 0x0803
  | .recordAbsent => 0x0804
  | .logRange => 0x0805
  | .outletBusy => 0x0901
  | .notAuthorised => 0x0902
  | .displayUnverified => 0x0903
  | .seamDegraded => 0x0904
  | .holdupFailed => 0x0905
  | .setpointClipped => 0x0906
  | .directionNegotiation => 0x0907
  | .sessionUnknown => 0x0908
  | .outletType => 0x0909
  | .rearmRefused => 0x0A01
  | .switchLatched => 0x0B01
  | .switchOwned => 0x0B02
  | .swapCollision => 0x0C01
  | .pairAbsent => 0x0C02
  | .legalArea => 0x0E01
  | .displayBusy => 0x0E02
  | .pspBusyTimeout => 0x0F01
  | .gpOwned => 0x0F02

/-- A command completes with a response when its status has the effect done or adjusted (R256, R265). -/
def Status.responds : Status → Bool
  | .ok | .trimClipped | .configOnTrial | .setpointClipped | .directionNegotiation | .switchLatched => true
  | _ => false

/-- The events of Table 7.21. -/
inductive Ev
  | powerRestored | powerFail | vauxHigh | vauxLow | holdupWorn | holdupFailed | vbatLow
  | firewallBlocked | memUncorrectable | triggerDone | telemetryDropped | clockFault | rtcRangeEnd
  | timeStepped | configCommitted | updateFellBack | updateConfirmed | updateOnTrial
  | keySlotFailed | lifecycleChanged | calDeferred | channelOos | channelReadmitted | syncBridged
  | tariffSwitched | tamper | hem | sessionRecordReady | sessionState | plug | trip | seamPath
  | watchFault | loadSwitchFault | link | pairRole | powerModule | rsdStopped | authResult
  | ocppConnection | displayVerified | displayUpdateDone
  deriving DecidableEq, Repr

/-- The code of an event (Table 7.21). -/
def Ev.code : Ev → BitVec 16
  | .powerRestored => 0x8101
  | .powerFail => 0x8102
  | .vauxHigh => 0x8103
  | .vauxLow => 0x8104
  | .holdupWorn => 0x8105
  | .holdupFailed => 0x8106
  | .vbatLow => 0x8107
  | .firewallBlocked => 0x8108
  | .memUncorrectable => 0x8109
  | .triggerDone => 0x810A
  | .telemetryDropped => 0x810B
  | .clockFault => 0x8201
  | .rtcRangeEnd => 0x8202
  | .timeStepped => 0x8203
  | .configCommitted => 0x8301
  | .updateFellBack => 0x8401
  | .updateConfirmed => 0x8402
  | .updateOnTrial => 0x8403
  | .keySlotFailed => 0x8501
  | .lifecycleChanged => 0x8502
  | .calDeferred => 0x8601
  | .channelOos => 0x8602
  | .channelReadmitted => 0x8603
  | .syncBridged => 0x8701
  | .tariffSwitched => 0x8801
  | .tamper => 0x8802
  | .hem => 0x8803
  | .sessionRecordReady => 0x8804
  | .sessionState => 0x8901
  | .plug => 0x8902
  | .trip => 0x8A01
  | .seamPath => 0x8A02
  | .watchFault => 0x8A03
  | .loadSwitchFault => 0x8B01
  | .link => 0x8C01
  | .pairRole => 0x8C02
  | .powerModule => 0x8C03
  | .rsdStopped => 0x8C04
  | .authResult => 0x8D01
  | .ocppConnection => 0x8D02
  | .displayVerified => 0x8E01
  | .displayUpdateDone => 0x8E02

/-- The events, for the bitmaps of COMMAND_LIST_GET (R259). -/
def Ev.codes : List Nat :=
  [0x8101, 0x8102, 0x8103, 0x8104, 0x8105, 0x8106, 0x8107, 0x8108, 0x8109, 0x810A,
   0x810B, 0x8201, 0x8202, 0x8203, 0x8301, 0x8401, 0x8402, 0x8403, 0x8501, 0x8502,
   0x8601, 0x8602, 0x8603, 0x8701, 0x8801, 0x8802, 0x8803, 0x8804, 0x8901, 0x8902,
   0x8A01, 0x8A02, 0x8A03, 0x8B01, 0x8C01, 0x8C02, 0x8C03, 0x8C04, 0x8D01, 0x8D02,
   0x8E01, 0x8E02]

/-- A command of the catalogue (R248, R254): its code and marks. -/
structure Cmd where
  code : Nat
  noArg : Bool := false
  boot : Bool := false
  serial : Bool := false
  /-- Its length rule (R255): the argument length, and the argument bytes for a formula. -/
  lenOk : Nat → Bytes → Bool := fun n _ => n == 0

/-- MODULE_VERSION_GET. -/
def Cmd.moduleVersionGet : Cmd := { code := 0x0101, noArg := true, boot := true }
/-- COMMAND_LIST_GET. -/
def Cmd.commandListGet : Cmd := { code := 0x0102, boot := true, lenOk := fun n _ => n == 2 }
/-- MODULE_STATUS_GET. -/
def Cmd.moduleStatusGet : Cmd := { code := 0x0103, noArg := true, boot := true }
/-- TIME_GET. -/
def Cmd.timeGet : Cmd := { code := 0x0201, noArg := true }
/-- TIME_SET. -/
def Cmd.timeSet : Cmd := { code := 0x0202, lenOk := fun n _ => n == 8 }
/-- TIME_ADJUST. -/
def Cmd.timeAdjust : Cmd := { code := 0x0203, lenOk := fun n _ => n == 4 }
/-- TIME_TRIM_SET. -/
def Cmd.timeTrimSet : Cmd := { code := 0x0204, lenOk := fun n _ => n == 4 }
/-- CONFIG_CANDIDATE_OPEN. -/
def Cmd.configCandidateOpen : Cmd := { code := 0x0301, lenOk := fun n _ => n == 4 }
/-- CONFIG_CANDIDATE_WRITE. -/
def Cmd.configCandidateWrite : Cmd := { code := 0x0302, lenOk := fun n _ => 5 ≤ n && n ≤ 512 }
/-- CONFIG_KEY_SET. -/
def Cmd.configKeySet : Cmd := { code := 0x0303, lenOk := fun n b => n == 4 + rd b 0 2 + rd b 2 2 }
/-- CONFIG_KEY_GET. -/
def Cmd.configKeyGet : Cmd := { code := 0x0304, lenOk := fun n b => n == 4 + rd b 2 2 }
/-- CONFIG_COMMIT. -/
def Cmd.configCommit : Cmd := { code := 0x0305, noArg := true, serial := true }
/-- CONFIG_REVERT. -/
def Cmd.configRevert : Cmd := { code := 0x0306, noArg := true, serial := true }
/-- CONFIG_INFO_GET. -/
def Cmd.configInfoGet : Cmd := { code := 0x0307, noArg := true }
/-- UPDATE_BEGIN. -/
def Cmd.updateBegin : Cmd := { code := 0x0401, boot := true, serial := true, lenOk := fun n _ => n == 512 }
/-- UPDATE_BLOCK_WRITE. -/
def Cmd.updateBlockWrite : Cmd := { code := 0x0402, boot := true, lenOk := fun n _ => 12 ≤ n && n ≤ 512 && n % 4 == 0 }
/-- UPDATE_STATUS_GET. -/
def Cmd.updateStatusGet : Cmd := { code := 0x0403, noArg := true, boot := true }
/-- UPDATE_VERIFY. -/
def Cmd.updateVerify : Cmd := { code := 0x0404, noArg := true, boot := true, serial := true }
/-- UPDATE_ABORT. -/
def Cmd.updateAbort : Cmd := { code := 0x0405, noArg := true, boot := true, serial := true }
/-- KEY_ENVELOPE_APPLY. -/
def Cmd.keyEnvelopeApply : Cmd := { code := 0x0501, serial := true, lenOk := fun n _ => 64 ≤ n && n ≤ 512 }
/-- KEY_SLOT_STATUS_GET. -/
def Cmd.keySlotStatusGet : Cmd := { code := 0x0502, noArg := true }
/-- LIFECYCLE_GET. -/
def Cmd.lifecycleGet : Cmd := { code := 0x0503, noArg := true, boot := true }
/-- DEVICE_CERT_GET. -/
def Cmd.deviceCertGet : Cmd := { code := 0x0504, boot := true, lenOk := fun n _ => n == 8 }
/-- MEASUREMENT_LOG_GET. -/
def Cmd.measurementLogGet : Cmd := { code := 0x0505, noArg := true, boot := true }
/-- SYNC_TRIGGER. -/
def Cmd.syncTrigger : Cmd := { code := 0x0601, noArg := true }
/-- CHANNEL_STATUS_GET. -/
def Cmd.channelStatusGet : Cmd := { code := 0x0602, noArg := true }
/-- CHANNEL_SAT_CLEAR. -/
def Cmd.channelSatClear : Cmd := { code := 0x0603, lenOk := fun n _ => n == 8 }
/-- SAMPLES_READ. -/
def Cmd.samplesRead : Cmd := { code := 0x0604, lenOk := fun n _ => n == 4 }
/-- CALIBRATION_STATUS_GET. -/
def Cmd.calibrationStatusGet : Cmd := { code := 0x0605, noArg := true }
/-- METER_READ. -/
def Cmd.meterRead : Cmd := { code := 0x0701, lenOk := fun n _ => n == 2 }
/-- HARMONICS_READ. -/
def Cmd.harmonicsRead : Cmd := { code := 0x0702, lenOk := fun n _ => n == 4 }
/-- BILLING_REGISTERS_READ. -/
def Cmd.billingRegistersRead : Cmd := { code := 0x0801, lenOk := fun n _ => n == 2 }
/-- DEMAND_READ. -/
def Cmd.demandRead : Cmd := { code := 0x0802, lenOk := fun n _ => n == 4 }
/-- TARIFF_TABLE_LOAD. -/
def Cmd.tariffTableLoad : Cmd := { code := 0x0803, lenOk := fun n b => n == 4 + 8 * rd b 0 2 }
/-- TARIFF_SWITCH. -/
def Cmd.tariffSwitch : Cmd := { code := 0x0804, lenOk := fun n _ => n == 12 }
/-- LEGAL_LOG_READ. -/
def Cmd.legalLogRead : Cmd := { code := 0x0805, lenOk := fun n _ => n == 8 }
/-- SESSION_RECORD_READ. -/
def Cmd.sessionRecordRead : Cmd := { code := 0x0806, lenOk := fun n _ => n == 8 }
/-- SESSION_START. -/
def Cmd.sessionStart : Cmd := { code := 0x0901, lenOk := fun n b => n == 8 + rd b 3 1 }
/-- SESSION_STOP. -/
def Cmd.sessionStop : Cmd := { code := 0x0902, lenOk := fun n _ => n == 8 }
/-- SESSION_STATUS_GET. -/
def Cmd.sessionStatusGet : Cmd := { code := 0x0903, lenOk := fun n _ => n == 2 }
/-- SETPOINT_SET. -/
def Cmd.setpointSet : Cmd := { code := 0x0904, lenOk := fun n _ => n == 8 }
/-- SAFETY_STATUS_GET. -/
def Cmd.safetyStatusGet : Cmd := { code := 0x0A01, noArg := true }
/-- TRIP_CAUSE_READ. -/
def Cmd.tripCauseRead : Cmd := { code := 0x0A02, lenOk := fun n _ => n == 2 }
/-- SAFETY_REARM_REQUEST. -/
def Cmd.safetyRearmRequest : Cmd := { code := 0x0A03, lenOk := fun n _ => n == 2 }
/-- LOAD_SWITCH_SET. -/
def Cmd.loadSwitchSet : Cmd := { code := 0x0B01, lenOk := fun n _ => n == 8 }
/-- LOAD_SWITCH_STATUS_GET. -/
def Cmd.loadSwitchStatusGet : Cmd := { code := 0x0B02, noArg := true }
/-- LOAD_SWITCH_RESTART. -/
def Cmd.loadSwitchRestart : Cmd := { code := 0x0B03, lenOk := fun n _ => n == 4 }
/-- WEAR_COUNTERS_READ. -/
def Cmd.wearCountersRead : Cmd := { code := 0x0B04, noArg := true }
/-- PORT_STATUS_GET. -/
def Cmd.portStatusGet : Cmd := { code := 0x0C01, noArg := true }
/-- STRING_STATUS_GET. -/
def Cmd.stringStatusGet : Cmd := { code := 0x0C02, lenOk := fun n _ => n == 2 || n == 4 }
/-- RSD_KEEPALIVE_SET. -/
def Cmd.rsdKeepaliveSet : Cmd := { code := 0x0C03, lenOk := fun n _ => n == 2 }
/-- PAIR_ROLE_SWAP_REQUEST. -/
def Cmd.pairRoleSwapRequest : Cmd := { code := 0x0C04, noArg := true }
/-- PAIR_STATUS_GET. -/
def Cmd.pairStatusGet : Cmd := { code := 0x0C05, noArg := true }
/-- POWER_MODULE_STATUS_GET. -/
def Cmd.powerModuleStatusGet : Cmd := { code := 0x0C06, lenOk := fun n _ => n == 2 }
/-- AUTH_IDENTITY_SUBMIT. -/
def Cmd.authIdentitySubmit : Cmd := { code := 0x0D01, lenOk := fun n b => n == 4 + rd b 2 1 }
/-- SOLAR_FOLLOW_SET. -/
def Cmd.solarFollowSet : Cmd := { code := 0x0D02, lenOk := fun n _ => n == 8 }
/-- DISPLAY_REGION_WRITE. -/
def Cmd.displayRegionWrite : Cmd := { code := 0x0E01, lenOk := fun n b => n == 12 + (rd b 4 2 * rd b 6 2 + 1) / 2 }
/-- DISPLAY_UPDATE. -/
def Cmd.displayUpdate : Cmd := { code := 0x0E02, lenOk := fun n _ => n == 12 }
/-- SEGMENT_SET. -/
def Cmd.segmentSet : Cmd := { code := 0x0E03, lenOk := fun n _ => n == 16 }
/-- DISPLAY_STATUS_GET. -/
def Cmd.displayStatusGet : Cmd := { code := 0x0E04, noArg := true }
/-- PSP_TRANSFER. -/
def Cmd.pspTransfer : Cmd := { code := 0x0F01, lenOk := fun n b => n == 12 + rd b 4 2 }
/-- GPIO_SET. -/
def Cmd.gpioSet : Cmd := { code := 0x0F02, lenOk := fun n _ => n == 16 }
/-- GPIO_GET. -/
def Cmd.gpioGet : Cmd := { code := 0x0F03, noArg := true }
/-- WATCH_STATUS_GET. -/
def Cmd.watchStatusGet : Cmd := { code := 0x1001, noArg := true }

/-- The commands of Tables 7.4 to 7.19. -/
def Cmd.all : List Cmd :=
  [.moduleVersionGet, .commandListGet, .moduleStatusGet, .timeGet, .timeSet,
   .timeAdjust, .timeTrimSet, .configCandidateOpen, .configCandidateWrite, .configKeySet,
   .configKeyGet, .configCommit, .configRevert, .configInfoGet, .updateBegin,
   .updateBlockWrite, .updateStatusGet, .updateVerify, .updateAbort, .keyEnvelopeApply,
   .keySlotStatusGet, .lifecycleGet, .deviceCertGet, .measurementLogGet, .syncTrigger,
   .channelStatusGet, .channelSatClear, .samplesRead, .calibrationStatusGet, .meterRead,
   .harmonicsRead, .billingRegistersRead, .demandRead, .tariffTableLoad, .tariffSwitch,
   .legalLogRead, .sessionRecordRead, .sessionStart, .sessionStop, .sessionStatusGet,
   .setpointSet, .safetyStatusGet, .tripCauseRead, .safetyRearmRequest, .loadSwitchSet,
   .loadSwitchStatusGet, .loadSwitchRestart, .wearCountersRead, .portStatusGet, .stringStatusGet,
   .rsdKeepaliveSet, .pairRoleSwapRequest, .pairStatusGet, .powerModuleStatusGet, .authIdentitySubmit,
   .solarFollowSet, .displayRegionWrite, .displayUpdate, .segmentSet, .displayStatusGet,
   .pspTransfer, .gpioSet, .gpioGet, .watchStatusGet]

/-- The command of a code. -/
def Cmd.find? (code : Nat) : Option Cmd := Cmd.all.find? (fun c => c.code == code)

end Sys2Proof.Machine
end

