-- ==== Sys2Proof/Parts/Fab.lean ====
section
/-! DEFINITION. What manufacture fixes and no step changes: fuses and sealed legal data (02, 09, 18). -/

namespace Sys2Proof

/-- The ordering variants (02 R66, 07 Table 7.3). -/
inductive Variant | ad | dd | aa
  deriving DecidableEq, Repr

/-- Fuses and sealed data (02, 06 Table 6.3, 09 R314, 14 R502, 16, 18). -/
structure Fab where
  deviceId : BitVec 64 := 0
  variant : Variant := .ad
  /-- The -E suffix (02 R68). -/
  minusE : Bool := false
  profile : Profile := {}
  /-- The lowest of the four MAC addresses (14 R502). -/
  mac : BitVec 48 := 0
  /-- Certificates in DER: device, legal signing, issuing authority (18, 07 DEVICE_CERT_GET). -/
  certs : List Bytes := []
  /-- SHA-384 of the metrology image (18 R643). -/
  metrologyDigest : Bytes := []
  /-- The legal signing key's public part as recorded at manufacture (18 R621, 01 R56). -/
  legalPublic : Bytes := []
  bootRomVersion : BitVec 32 := 0
  /-- The display profile (16 R565). -/
  disp : DispProfile := {}
  deriving DecidableEq, Repr

/-- Whether an outlet is DC (02 R66: AD has A AC and B DC, DD both DC, AA both AC). -/
def Fab.isDc (f : Fab) : Outlet → Bool
  | .a => f.variant == .dd
  | .b => f.variant != .aa

end Sys2Proof
end

