-- ==== Sys2Proof/Machine/KeyTable.lean ====
section
/-! DEFINITION. The configuration key tables: the name, the type and the default of every key
(03 Table 3.10, 05, 06 R229, 08 Table 8.7, 09 Table 9.6, 10 Table 10.1, 11 Table 11.8, 12 Table 12.5,
13 Table 13.3, 14 Table 14.6, 15 Table 15.4, 16, 17 Table 17.3, 18, 19 R657). -/

namespace Sys2Proof.Machine

/-- The name of a key without an index. -/
def genName : GenKey → String
  | .vbatFitted => "power.vbat_fitted"
  | .idleAfterS => "power.idle_after_s"
  | .utcOffset => "time.utc_offset_min"
  | .dstRule => "time.dst_rule"
  | .ntpServer => "time.ntp_server"
  | .hostPresent => "hif.host_present"
  | .theftIsland => "watch.theft_island"
  | .theftChannels => "watch.theft_channels"
  | .theftPeriodS => "watch.theft_period_s"
  | .theftPermille => "watch.theft_threshold_permille"
  | .tamperCov => "watch.tamper_cov_en"
  | .tamperTrm => "watch.tamper_trm_en"
  | .rinsePassH => "mem.rinse_pass_h"
  | .mainsRef => "meas.mains_ref_channel"
  | .mainsHz => "meas.mains_nominal_hz"
  | .calInterval => "meas.cal_interval_min"
  | .orderMax => "metro.harmonic_order_max"
  | .testGp => "metro.test_pulse_gp"
  | .testSelector => "metro.test_pulse_selector"
  | .testQuantity => "metro.test_pulse_quantity"
  | .demandMin => "bill.demand_interval_min"
  | .slidingSub => "bill.sliding_sub_min"
  | .slidingCount => "bill.sliding_count"
  | .resetDay => "bill.demand_reset_day"
  | .adjustLimit => "bill.adjust_limit_s"
  | .slacAtten => "veh.slac_atten_max_db"
  | .slewUp => "veh.dc_slew_up_a_per_s"
  | .slewDown => "veh.dc_slew_down_a_per_s"
  | .bptDwell => "veh.bpt_dwell_ms"
  | .stopTimeout => "veh.stop_timeout_s"
  | .penEnable => "safety.pen_enable"
  | .penV => "safety.pen_n_pe_v"
  | .penMs => "safety.pen_time_ms"
  | .estopA => "safety.estop_gp_a"
  | .estopB => "safety.estop_gp_b"
  | .seamA => "safety.seam.path_a"
  | .seamB => "safety.seam.path_b"
  | .companions => "safety.seam.companions"
  | .seamOutlets => "safety.seam.outlets"
  | .rsdOnTrip => "safety.rsd_on_trip"
  | .configCrc => "safety.config_crc"
  | .pmCycle => "pm.cycle_ms"
  | .pvDiscover => "pv.discover_s"
  | .sunPort => "pv.sunspec.port"
  | .sunS => "pv.sunspec_s"
  | .pairPort => "pair.port"
  | .pairPriority => "pair.priority"
  | .pairBudget => "pair.budget_w"
  | .soloShare => "pair.solo_share_w"
  | .dns => "net.dns"
  | .ocppVersion => "ocpp.version"
  | .ocppUrl => "ocpp.url"
  | .ocppPort => "ocpp.port"
  | .secProfile => "ocpp.security_profile"
  | .csId => "ocpp.cs_id"
  | .heartbeatS => "ocpp.heartbeat_s"
  | .meterIntervalS => "ocpp.meter_interval_s"
  | .messageTimeoutS => "ocpp.message_timeout_s"
  | .retryMaxS => "ocpp.retry_max_s"
  | .idleMode => "ocpp.idle_mode"
  | .idleWakeS => "ocpp.idle_wake_s"
  | .localPreAuthorize => "auth.local_pre_authorize"
  | .localOffline => "auth.local_offline"
  | .offlineUnknown => "auth.offline_unknown"
  | .cacheEnable => "auth.cache_enable"
  | .authTimeoutS => "auth.timeout_s"
  | .readerPort => "auth.reader_port"
  | .readerSelect => "auth.reader_select_gp"
  | .readerPollMs => "auth.reader_poll_ms"
  | .solarStrings => "solar.strings"
  | .solarSunspec => "solar.sunspec"
  | .solarBaseLoad => "solar.base_load_w"
  | .solarReserve => "solar.reserve_w"
  | .solarFilterS => "solar.filter_s"
  | .solarUpdateS => "solar.update_s"
  | .solarStartS => "solar.start_s"
  | .solarStopS => "solar.stop_s"
  | .solarDcMin => "solar.dc_min_w"
  | .freeTariffs => "solar.free_tariffs"
  | .dispEnable => "disp.enable"
  | .tempChannel => "disp.temp_channel"
  | .ageing => "disp.ageing"
  | .ageCoeff => "disp.age_coeff_ppb"
  | .gammaNeutral => "disp.gamma.neutral"
  | .gammaRed => "disp.gamma.red"
  | .gammaYellow => "disp.gamma.yellow"
  | .ocppClientSlot => "keys.ocpp_client_slot"
  | .ocppPasswordSlot => "keys.ocpp_password_slot"
  | .seccSlot => "keys.secc_slot"
  | .ownerSlot => "upd.owner_slot"

/-- The type of a key without an index. -/
def genType : GenKey → KTy
  | .vbatFitted => .bool
  | .idleAfterS => (.intZ 1 3600)
  | .utcOffset => (.int (-720) 840)
  | .dstRule => (.optText 1 64)
  | .ntpServer => (.optText 1 255)
  | .hostPresent => .bool
  | .theftIsland => (.int (0) 5)
  | .theftChannels => (.mask 8)
  | .theftPeriodS => (.int (1) 10)
  | .theftPermille => (.int (1) 100)
  | .tamperCov => .bool
  | .tamperTrm => .bool
  | .rinsePassH => (.int (1) 24)
  | .mainsRef => (.int (0) 47)
  | .mainsHz => (.ints [50, 60])
  | .calInterval => (.int (5) 60)
  | .orderMax => (.int (0) 63)
  | .testGp => (.optInt 0 63)
  | .testSelector => (.int (0) 2)
  | .testQuantity => (.words ["active import", "active export", "reactive lagging", "reactive leading"])
  | .demandMin => (.ints [1, 2, 3, 4, 5, 6, 10, 12, 15, 20, 30, 60])
  | .slidingSub => (.ints [1, 2, 3, 4, 5, 6, 10, 12, 15, 20, 30, 60])
  | .slidingCount => (.int (1) 12)
  | .resetDay => (.int (1) 28)
  | .adjustLimit => (.int (1) 60)
  | .slacAtten => (.int (10) 60)
  | .slewUp => (.int (1) 1000)
  | .slewDown => (.int (1) 1000)
  | .bptDwell => (.int (500) 10000)
  | .stopTimeout => (.int (3) 10)
  | .penEnable => .bool
  | .penV => (.int (25) 70)
  | .penMs => (.int (40) 5000)
  | .estopA => (.optInt 0 63)
  | .estopB => (.optInt 0 63)
  | .seamA => (.optWords ["ETH0", "ETH1", "SPE0", "SPE1", "CAN0", "CAN1", "CAN2", "CAN3"])
  | .seamB => (.optWords ["ETH0", "ETH1", "SPE0", "SPE1", "CAN0", "CAN1", "CAN2", "CAN3"])
  | .companions => (.nums 16 65534)
  | .seamOutlets => (.items 0 1 ["a", "b"])
  | .rsdOnTrip => .bool
  | .configCrc => .hex8
  | .pmCycle => (.int (20) 200)
  | .pvDiscover => (.int (60) 3600)
  | .sunPort => (.optWords ["eth0", "eth1", "spe0", "spe1"])
  | .sunS => (.int (1) 60)
  | .pairPort => (.optWords ["eth0", "eth1", "spe0", "spe1"])
  | .pairPriority => (.int (0) 65535)
  | .pairBudget => (.int (1000) 2000000)
  | .soloShare => (.int (0) 2000000)
  | .dns => (.optText 7 15)
  | .ocppVersion => (.optWords ["1.6j", "2.0.1"])
  | .ocppUrl => (.text 0 255)
  | .ocppPort => (.words ["eth0", "eth1", "spe0", "spe1"])
  | .secProfile => (.int (2) 3)
  | .csId => (.text 1 48)
  | .heartbeatS => (.int (30) 86400)
  | .meterIntervalS => (.intZ 10 3600)
  | .messageTimeoutS => (.int (5) 120)
  | .retryMaxS => (.int (30) 3600)
  | .idleMode => (.words ["stay", "periodic"])
  | .idleWakeS => (.int (60) 3600)
  | .localPreAuthorize => .bool
  | .localOffline => .bool
  | .offlineUnknown => .bool
  | .cacheEnable => .bool
  | .authTimeoutS => (.int (10) 300)
  | .readerPort => (.optInt 0 2)
  | .readerSelect => (.int (0) 63)
  | .readerPollMs => (.int (100) 2000)
  | .solarStrings => (.items 0 3 [])
  | .solarSunspec => .bool
  | .solarBaseLoad => (.int (0) 100000)
  | .solarReserve => (.int (0) 100000)
  | .solarFilterS => (.int (1) 60)
  | .solarUpdateS => (.int (5) 60)
  | .solarStartS => (.int (0) 600)
  | .solarStopS => (.int (0) 600)
  | .solarDcMin => (.int (1000) 50000)
  | .freeTariffs => (.items 0 7 [])
  | .dispEnable => .bool
  | .tempChannel => (.optInt 36 47)
  | .ageing => (.words ["counters", "sensing", "off"])
  | .ageCoeff => (.int (0) 1000)
  | .gammaNeutral => .gamma
  | .gammaRed => .gamma
  | .gammaYellow => .gamma
  | .ocppClientSlot => (.optInts (1 :: List.range' 8 56))
  | .ocppPasswordSlot => (.optInt 8 63)
  | .seccSlot => (.optInt 8 63)
  | .ownerSlot => (.optInt 8 63)

/-- The parts of a key's name before and after its index. -/
def chKeyName : ChKey → String × String
  | .mode => ("meas.ch", ".mode")
  | .rate => ("meas.ch", ".rate_sps")
  | .range => ("meas.ch", ".range")
  | .timing => ("meas.ch", ".timing")
  | .excite => ("meas.ch", ".excite_ua")
  | .visible => ("meas.ch", ".app_visible")
  | .cmpHi => ("safety.cmp.ch", ".hi")
  | .cmpLo => ("safety.cmp.ch", ".lo")
  | .cmpCount => ("safety.cmp.ch", ".count")
  | .cmpDrivers => ("safety.cmp.ch", ".drivers")
  | .wvHi => ("safety.wv.ch", ".hi")
  | .wvLo => ("safety.wv.ch", ".lo")
  | .wvCount => ("safety.wv.ch", ".count")
  | .wvDrivers => ("safety.wv.ch", ".drivers")

/-- The type of a key of the family. -/
def chKeyType : ChKey → KTy
  | .mode => (.words ["fixed", "mains", "single"])
  | .rate => (.ints [48000, 24000, 16000, 8000, 4000, 1000, 500, 250, 100, 50, 20, 10])
  | .range => (.words ["mv31", "mv250", "v2_5", "divider"])
  | .timing => (.words ["aligned", "woven"])
  | .excite => (.ints [0, 10, 100, 1000])
  | .visible => .bool
  | .cmpHi => (.int (-32768) 32767)
  | .cmpLo => (.int (-32768) 32767)
  | .cmpCount => (.int (1) 3)
  | .cmpDrivers => (.mask 4)
  | .wvHi => (.int (-8388608) 8388607)
  | .wvLo => (.int (-8388608) 8388607)
  | .wvCount => (.int (1) 16)
  | .wvDrivers => (.mask 4)

/-- The parts of a key's name before and after its index. -/
def outKeyName : OutKey → String × String
  | .connector => ("veh.out", ".connector")
  | .ppMode => ("veh.out", ".pp_mode")
  | .cableMaxA => ("veh.out", ".cable_max_a")
  | .maxA => ("veh.out", ".max_a")
  | .maxV => ("veh.out", ".max_v")
  | .ventilation => ("veh.out", ".ventilation")
  | .protocols => ("veh.out", ".protocols")
  | .pwmFallback => ("veh.out", ".pwm_fallback")
  | .tlsRequired => ("veh.out", ".tls_required")
  | .rcdEnable => ("safety.out", ".rcd_enable")
  | .rcdChannel => ("safety.out", ".rcd_channel")
  | .rcdRefChannel => ("safety.out", ".rcd_ref_channel")
  | .rcdTestChannel => ("safety.out", ".rcd_test_channel")
  | .rcdMvPerMa => ("safety.out", ".rcd_mv_per_ma")
  | .rcdSupplyLs => ("safety.out", ".rcd_supply_ls")
  | .imdPeChannel => ("safety.out", ".imd_pe_channel")
  | .peChannel => ("safety.out", ".pe_channel")
  | .peMaxTenths => ("safety.out", ".pe_max_ohm")
  | .tempChannels => ("safety.out", ".temp_channels")
  | .tempDerateC => ("safety.out", ".temp_derate_c")
  | .tempTripC => ("safety.out", ".temp_trip_c")
  | .backupDriver => ("safety.out", ".backup_driver")
  | .shuntTripLs => ("safety.out", ".shunt_trip_ls")
  | .solarMode => ("solar.out", ".mode")

/-- The type of a key of the family. -/
def outKeyType : OutKey → KTy
  | .connector => (.words ["type2", "type1", "ccs2", "ccs1", "j3400"])
  | .ppMode => (.optWords ["type2"])
  | .cableMaxA => (.int (6) 500)
  | .maxA => (.int (1) 500)
  | .maxV => (.int (150) 1000)
  | .ventilation => .bool
  | .protocols => (.ordered ["iso20", "iso2", "din"])
  | .pwmFallback => .bool
  | .tlsRequired => .bool
  | .rcdEnable => .bool
  | .rcdChannel => (.int (12) 47)
  | .rcdRefChannel => (.int (12) 47)
  | .rcdTestChannel => (.int (12) 47)
  | .rcdMvPerMa => (.int (2) 12)
  | .rcdSupplyLs => (.optInt 0 31)
  | .imdPeChannel => (.optInt 0 11)
  | .peChannel => (.optInt 12 47)
  | .peMaxTenths => (.tenths 5 50)
  | .tempChannels => (.items 12 47 [])
  | .tempDerateC => (.int (40) 120)
  | .tempTripC => (.int (40) 120)
  | .backupDriver => (.optWords ["cd1", "cd3"])
  | .shuntTripLs => (.optInt 0 31)
  | .solarMode => (.int (0) 2)

/-- The parts of a key's name before and after its index. -/
def cdKeyName : CdKey → String × String
  | .economiser => ("cont.cd", ".economiser")
  | .pullMs => ("cont.cd", ".pull_ms")
  | .holdMa => ("cont.cd", ".hold_ma")
  | .pullMinMa => ("cont.cd", ".pull_min_ma")
  | .mirror => ("safety.cd", ".mirror")
  | .mirrorMs => ("safety.cd", ".mirror_ms")

/-- The type of a key of the family. -/
def cdKeyType : CdKey → KTy
  | .economiser => (.words ["off", "on"])
  | .pullMs => (.int (20) 500)
  | .holdMa => (.int (100) 2000)
  | .pullMinMa => (.int (50) 4000)
  | .mirror => (.words ["nc", "no"])
  | .mirrorMs => (.int (10) 200)

/-- The parts of a key's name before and after its index. -/
def lsKeyName : LsKey → String × String
  | .wire => ("ls.", ".wire")
  | .pair => ("ls.", ".pair")
  | .thermal => ("ls.", ".thermal")
  | .start => ("ls.", ".start")
  | .fail => ("ls.", ".fail")

/-- The type of a key of the family. -/
def lsKeyType : LsKey → KTy
  | .wire => (.words ["0.25", "0.5", "0.75", "1.0", "1.5"])
  | .pair => .bool
  | .thermal => (.words ["restart", "latch"])
  | .start => (.words ["off", "on"])
  | .fail => (.words ["off", "on", "hold"])

/-- The parts of a key's name before and after its index. -/
def gpKeyName : GpKey → String × String
  | .function => ("gp.", ".function")
  | .pull => ("gp.", ".pull")
  | .drive => ("gp.", ".drive")
  | .level => ("gp.", ".level")
  | .wakeEdge => ("gp.", ".wake_edge")

/-- The type of a key of the family. -/
def gpKeyType : GpKey → KTy
  | .function => (.words ["in", "out", "od", "select", "wake"])
  | .pull => (.words ["none", "up", "down"])
  | .drive => (.ints [2, 8])
  | .level => (.int (0) 1)
  | .wakeEdge => (.words ["rising", "falling", "both"])

/-- The parts of a key's name before and after its index. -/
def pspKeyName : PspKey → String × String
  | .enable => ("psp.", ".enable")
  | .lanes => ("psp.", ".lanes")
  | .sample => ("psp.", ".sample")
  | .busy => ("psp.", ".busy")
  | .busyByte => ("psp.", ".busy_byte")
  | .readyByte => ("psp.", ".ready_byte")
  | .busyTimeoutUs => ("psp.", ".busy_timeout_us")

/-- The type of a key of the family. -/
def pspKeyType : PspKey → KTy
  | .enable => .bool
  | .lanes => (.ints [1, 2, 4, 8])
  | .sample => (.words ["rising", "late"])
  | .busy => (.words ["off", "marker"])
  | .busyByte => .hexByte
  | .readyByte => .hexByte
  | .busyTimeoutUs => (.int (1) 10000)

/-- The parts of a key's name before and after its index. -/
def ethKeyName : EthKey → String × String
  | .mode => ("net.eth", ".mode")

/-- The type of a key of the family. -/
def ethKeyType : EthKey → KTy
  | .mode => (.words ["auto", "1000", "100", "10", "off"])

/-- The parts of a key's name before and after its index. -/
def portKeyName : PortKey → String × String
  | .ipv4 => ("net.", ".ipv4")
  | .gateway => ("net.", ".gateway")
  | .wake => ("net.", ".wake")

/-- The type of a key of the family. -/
def portKeyType : PortKey → KTy
  | .ipv4 => .ipv4
  | .gateway => (.optText 7 15)
  | .wake => (.optWords ["unicast", "magic", "pair"])

/-- The parts of a key's name before and after its index. -/
def speKeyName : SpeKey → String × String
  | .mode => ("net.spe", ".mode")
  | .amplitude => ("net.spe", ".t1l_amplitude")
  | .term => ("net.spe", ".term")
  | .plcaId => ("net.spe", ".plca_id")
  | .plcaCount => ("net.spe", ".plca_count")
  | .plcaToBits => ("net.spe", ".plca_to_bits")
  | .plcaBurst => ("net.spe", ".plca_burst")
  | .plcaBurstBits => ("net.spe", ".plca_burst_bits")

/-- The type of a key of the family. -/
def speKeyType : SpeKey → KTy
  | .mode => (.words ["t1l", "t1s", "off"])
  | .amplitude => (.words ["1.0", "2.4"])
  | .term => .bool
  | .plcaId => (.optOff 0 254)
  | .plcaCount => (.int (1) 255)
  | .plcaToBits => (.int (20) 255)
  | .plcaBurst => (.int (0) 255)
  | .plcaBurstBits => (.int (0) 255)

/-- The parts of a key's name before and after its index. -/
def canKeyName : CanKey → String × String
  | .role => ("can.", ".role")
  | .arbKbps => ("can.", ".arb_kbps")
  | .dataKbps => ("can.", ".data_kbps")
  | .term => ("can.", ".term")

/-- The type of a key of the family. -/
def canKeyType : CanKey → KTy
  | .role => (.words ["power", "off"])
  | .arbKbps => .ints [125, 250, 500, 1000]
  | .dataKbps => .ints [1000, 2000, 4000, 5000]
  | .term => .bool

/-- The parts of a key's name before and after its index. -/
def strKeyName : StrKey → String × String
  | .enable => ("pv.str", ".enable")
  | .rsd => ("pv.str", ".rsd")
  | .pollS => ("pv.str", ".poll_s")
  | .discover => ("pv.str", ".discover")
  | .optimisers => ("pv.str", ".optimisers")
  | .vChannel => ("pv.str", ".v_channel")
  | .iChannel => ("pv.str", ".i_channel")

/-- The type of a key of the family. -/
def strKeyType : StrKey → KTy
  | .enable => .bool
  | .rsd => (.words ["stop", "send"])
  | .pollS => (.int (1) 60)
  | .discover => .bool
  | .optimisers => (.nums 31 4294967295)
  | .vChannel => (.optInt 0 47)
  | .iChannel => (.optInt 0 47)

/-- Two decimal digits, as the key names write NN. -/
def nn (i : Nat) : Bytes := [BitVec.ofNat 8 (48 + i / 10), BitVec.ofNat 8 (48 + i % 10)]

/-- One decimal digit. -/
def digit (i : Nat) : Bytes := [BitVec.ofNat 8 (48 + i)]

/-- The outlet's letter in key names. -/
def outLetter : Outlet → Bytes
  | .a => str "a"
  | .b => str "b"

/-- The port names of 14 Table 14.6. -/
def netPort (p : Fin 4) : Bytes := str (["eth0", "eth1", "spe0", "spe1"].getD p.val "")

/-- A name put together from its parts and its index. -/
def named (p : String × String) (ix : Bytes) : Bytes := str p.1 ++ ix ++ str p.2

/-- The key's name (19 R650). -/
def keyName : Key → Bytes
  | .gen k => str (genName k)
  | .ch i k => named (chKeyName k) (nn i)
  | .out i k => named (outKeyName k) (outLetter i)
  | .cd i k => named (cdKeyName k) (digit i)
  | .ls i k => named (lsKeyName k) (nn i)
  | .gp i k => named (gpKeyName k) (nn i)
  | .psp i k => named (pspKeyName k) (digit i)
  | .eth i k => named (ethKeyName k) (digit i)
  | .port i k => named (portKeyName k) (netPort i)
  | .spe i k => named (speKeyName k) (digit i)
  | .can i k => named (canKeyName k) (digit i)
  | .str i k => named (strKeyName k) (digit i)
  | .node b m => str "pm.bus" ++ digit b ++ str ".node" ++ dec m.val ++ str ".outlet"
  | .sunDev k => str "pv.sunspec.dev" ++ digit k
  | .mac p => str "net." ++ netPort p ++ str ".mac"

/-- The key's type. The vehicle current is ranged by the outlet's type (11 Table 11.8), the divider
option exists on channels 00 to 11 only (08 Table 8.1). -/
def keyType (f : Fab) : Key → KTy
  | .gen k => genType k
  | .out i .maxA => if f.isDc i then .int 1 500 else .int 6 80
  | .ch i .range => .words (if i.val < 12 then ["mv31", "mv250", "v2_5", "divider"] else ["mv31", "mv250", "v2_5"])
  | .out i .backupDriver => .optWords (match i with | .a => ["cd1"] | .b => ["cd3"])
  | .ch _ k => chKeyType k
  | .out _ k => outKeyType k
  | .cd _ k => cdKeyType k
  | .ls _ k => lsKeyType k
  | .gp _ k => gpKeyType k
  | .psp _ k => pspKeyType k
  | .eth _ k => ethKeyType k
  | .port _ k => portKeyType k
  | .spe _ k => speKeyType k
  | .can _ k => canKeyType k
  | .str _ k => strKeyType k
  | .node _ _ => .optWords ["a", "b"]
  | .sunDev _ => .optText 11 32
  | .mac _ => .fixed

/-- Every key, family by family. -/
def allKeys : List Key :=
  (List.map Key.gen [.vbatFitted, .idleAfterS, .utcOffset, .dstRule, .ntpServer, .hostPresent, .theftIsland, .theftChannels, .theftPeriodS, .theftPermille, .tamperCov, .tamperTrm, .rinsePassH, .mainsRef, .mainsHz, .calInterval, .orderMax, .testGp, .testSelector, .testQuantity, .demandMin, .slidingSub, .slidingCount, .resetDay, .adjustLimit, .slacAtten, .slewUp, .slewDown, .bptDwell, .stopTimeout, .penEnable, .penV, .penMs, .estopA, .estopB, .seamA, .seamB, .companions, .seamOutlets, .rsdOnTrip, .configCrc, .pmCycle, .pvDiscover, .sunPort, .sunS, .pairPort, .pairPriority, .pairBudget, .soloShare, .dns, .ocppVersion, .ocppUrl, .ocppPort, .secProfile, .csId, .heartbeatS, .meterIntervalS, .messageTimeoutS, .retryMaxS, .idleMode, .idleWakeS, .localPreAuthorize, .localOffline, .offlineUnknown, .cacheEnable, .authTimeoutS, .readerPort, .readerSelect, .readerPollMs, .solarStrings, .solarSunspec, .solarBaseLoad, .solarReserve, .solarFilterS, .solarUpdateS, .solarStartS, .solarStopS, .solarDcMin, .freeTariffs, .dispEnable, .tempChannel, .ageing, .ageCoeff, .gammaNeutral, .gammaRed, .gammaYellow, .ocppClientSlot, .ocppPasswordSlot, .seccSlot, .ownerSlot]) ++
  (List.finRange 48).flatMap (fun i => List.map (Key.ch i) [.mode, .rate, .range, .timing, .excite, .visible, .cmpHi, .cmpLo, .cmpCount, .cmpDrivers, .wvHi, .wvLo, .wvCount, .wvDrivers]) ++
  Outlet.all.flatMap (fun i => List.map (Key.out i) [.connector, .ppMode, .cableMaxA, .maxA, .maxV, .ventilation, .protocols, .pwmFallback, .tlsRequired, .rcdEnable, .rcdChannel, .rcdRefChannel, .rcdTestChannel, .rcdMvPerMa, .rcdSupplyLs, .imdPeChannel, .peChannel, .peMaxTenths, .tempChannels, .tempDerateC, .tempTripC, .backupDriver, .shuntTripLs, .solarMode]) ++
  (List.finRange 4).flatMap (fun i => List.map (Key.cd i) [.economiser, .pullMs, .holdMa, .pullMinMa, .mirror, .mirrorMs]) ++
  (List.finRange 32).flatMap (fun i => List.map (Key.ls i) [.wire, .pair, .thermal, .start, .fail]) ++
  (List.finRange 64).flatMap (fun i => List.map (Key.gp i) [.function, .pull, .drive, .level, .wakeEdge]) ++
  (List.finRange 3).flatMap (fun i => List.map (Key.psp i) [.enable, .lanes, .sample, .busy, .busyByte, .readyByte, .busyTimeoutUs]) ++
  (List.finRange 2).flatMap (fun i => List.map (Key.eth i) [.mode]) ++
  (List.finRange 4).flatMap (fun i => List.map (Key.port i) [.ipv4, .gateway, .wake]) ++
  (List.finRange 2).flatMap (fun i => List.map (Key.spe i) [.mode, .amplitude, .term, .plcaId, .plcaCount, .plcaToBits, .plcaBurst, .plcaBurstBits]) ++
  (List.finRange 4).flatMap (fun i => List.map (Key.can i) [.role, .arbKbps, .dataKbps, .term]) ++
  (List.finRange 4).flatMap (fun i => List.map (Key.str i) [.enable, .rsd, .pollS, .discover, .optimisers, .vChannel, .iChannel]) ++
  (List.finRange 4).flatMap (fun b => ((List.finRange 32).filter (fun m => m.val != 0)).map (Key.node b)) ++
  (List.finRange 8).map Key.sunDev ++
  (List.finRange 4).map Key.mac

/-- Defaults that the key tables give as plain values. -/
def plainDefault : Key → Val
  | .gen k => match k with
    | .vbatFitted => (.num 1)
    | .idleAfterS => (.num 60)
    | .utcOffset => (.num 0)
    | .dstRule => .none
    | .ntpServer => .none
    | .hostPresent => (.num 0)
    | .theftIsland => (.num 0)
    | .theftChannels => (.num 0)
    | .theftPeriodS => (.num 1)
    | .theftPermille => (.num 5)
    | .tamperCov => (.num 1)
    | .tamperTrm => (.num 1)
    | .rinsePassH => (.num 12)
    | .mainsRef => (.num 0)
    | .mainsHz => (.num 50)
    | .calInterval => (.num 15)
    | .orderMax => (.num 63)
    | .testGp => .none
    | .testSelector => (.num 0)
    | .testQuantity => (.num 0)
    | .demandMin => (.num 15)
    | .slidingSub => (.num 5)
    | .slidingCount => (.num 3)
    | .resetDay => (.num 1)
    | .adjustLimit => (.num 10)
    | .slacAtten => (.num 40)
    | .slewUp => (.num 50)
    | .slewDown => (.num 200)
    | .bptDwell => (.num 500)
    | .stopTimeout => (.num 6)
    | .penV => (.num 50)
    | .penMs => (.num 500)
    | .estopA => .none
    | .estopB => .none
    | .seamA => .none
    | .seamB => .none
    | .companions => (.list [])
    | .seamOutlets => (.list [0, 1])
    | .rsdOnTrip => (.num 1)
    | .configCrc => (.num 0)
    | .pmCycle => (.num 50)
    | .pvDiscover => (.num 300)
    | .sunPort => .none
    | .sunS => (.num 5)
    | .pairPort => .none
    | .pairPriority => (.num 100)
    | .pairBudget => (.num 100000)
    | .soloShare => (.num 50000)
    | .dns => .none
    | .ocppVersion => .none
    | .ocppUrl => (.text [])
    | .ocppPort => (.num 0)
    | .secProfile => (.num 3)
    | .heartbeatS => (.num 300)
    | .meterIntervalS => (.num 60)
    | .messageTimeoutS => (.num 30)
    | .retryMaxS => (.num 300)
    | .idleMode => (.num 0)
    | .idleWakeS => (.num 900)
    | .localPreAuthorize => (.num 1)
    | .localOffline => (.num 1)
    | .offlineUnknown => (.num 0)
    | .cacheEnable => (.num 1)
    | .authTimeoutS => (.num 60)
    | .readerPort => .none
    | .readerSelect => (.num 0)
    | .readerPollMs => (.num 250)
    | .solarStrings => (.list [])
    | .solarSunspec => (.num 0)
    | .solarBaseLoad => (.num 0)
    | .solarReserve => (.num 200)
    | .solarFilterS => (.num 10)
    | .solarUpdateS => (.num 10)
    | .solarStartS => (.num 60)
    | .solarStopS => (.num 120)
    | .solarDcMin => (.num 2000)
    | .freeTariffs => (.list [])
    | .dispEnable => (.num 1)
    | .tempChannel => .none
    | .ageing => (.num 0)
    | .ageCoeff => (.num 40)
    | .gammaNeutral => (.list [64, 128, 192, 256])
    | .gammaRed => (.list [64, 128, 192, 256])
    | .gammaYellow => (.list [64, 128, 192, 256])
    | .ocppClientSlot => .none
    | .ocppPasswordSlot => .none
    | .seccSlot => .none
    | .ownerSlot => .none
    | .penEnable | .csId => .none
  | .ch _ k => match k with
    | .visible => (.num 1)
    | .cmpHi => (.num 32767)
    | .cmpLo => (.num (-32768))
    | .cmpCount => (.num 1)
    | .cmpDrivers => (.num 0)
    | .wvLo => (.num (-8388608))
    | .wvCount => (.num 1)
    | .mode | .rate | .range | .timing | .excite | .wvHi | .wvDrivers => .none
  | .out _ k => match k with
    | .maxV => (.num 1000)
    | .ventilation => (.num 0)
    | .pwmFallback => (.num 1)
    | .tlsRequired => (.num 0)
    | .rcdMvPerMa => (.num 10)
    | .rcdSupplyLs => .none
    | .imdPeChannel => .none
    | .peMaxTenths => (.num 20)
    | .tempDerateC => (.num 70)
    | .tempTripC => (.num 90)
    | .backupDriver => .none
    | .shuntTripLs => .none
    | .solarMode => (.num 0)
    | .connector | .ppMode | .cableMaxA | .maxA | .protocols | .rcdEnable | .rcdChannel | .rcdRefChannel | .rcdTestChannel | .peChannel | .tempChannels => .none
  | .cd _ k => match k with
    | .economiser => (.num 1)
    | .pullMs => (.num 100)
    | .holdMa => (.num 400)
    | .pullMinMa => (.num 200)
    | .mirror => (.num 0)
    | .mirrorMs => (.num 50)
  | .ls _ k => match k with
    | .wire => (.num 1)
    | .pair => (.num 0)
    | .thermal => (.num 0)
    | .start => (.num 0)
    | .fail => (.num 0)
  | .gp _ k => match k with
    | .function => (.num 0)
    | .pull => (.num 2)
    | .drive => (.num 2)
    | .level => (.num 0)
    | .wakeEdge => (.num 1)
  | .psp _ k => match k with
    | .enable => (.num 0)
    | .lanes => (.num 1)
    | .sample => (.num 0)
    | .busy => (.num 0)
    | .busyByte => (.num 90)
    | .readyByte => (.num 195)
    | .busyTimeoutUs => (.num 100)
  | .eth _ k => match k with
    | .mode => (.num 0)
  | .port _ k => match k with
    | .gateway => .none
    | .ipv4 | .wake => .none
  | .spe _ k => match k with
    | .mode => (.num 2)
    | .amplitude => (.num 1)
    | .term => (.num 1)
    | .plcaId => .none
    | .plcaCount => (.num 8)
    | .plcaToBits => (.num 32)
    | .plcaBurst => (.num 0)
    | .plcaBurstBits => (.num 128)
  | .can _ k => match k with
    | .role => (.num 1)
    | .arbKbps => (.num 500)
    | .dataKbps => (.num 2000)
    | .term => (.num 0)
  | .str _ k => match k with
    | .enable => (.num 0)
    | .rsd => (.num 1)
    | .pollS => (.num 5)
    | .discover => (.num 1)
    | .optimisers => (.list [])
    | .vChannel => .none
    | .iChannel => .none
  | .node _ _ | .sunDev _ | .mac _ => .none

/-- The value that the set gives the key, if it gives one. -/
def cfgGiven (c : Cfg) (k : Key) : Option Val := (c.find? (fun p => p.1 == k)).map Prod.snd

/-- The mode of a channel in the set (08 Table 8.7): mains for 00 to 35, single for 36 to 47. -/
def chModeOf (c : Cfg) (i : Channel) : Int :=
  match cfgGiven c (.ch i .mode) with
  | some (.num m) => m
  | _ => if i.val < 36 then 1 else 2

/-- The rate of a channel in the set (08 Table 8.7): 4000 for fixed, 10 for single. -/
def chRateOf (c : Cfg) (i : Channel) : Int :=
  match cfgGiven c (.ch i .rate) with
  | some (.num r) => r
  | _ => if chModeOf c i = 2 then 10 else 4000

/-- The DC+ channel of a DC outlet (12 R437, 09 Table 9.2). -/
def dcPlus (f : Fab) (o : Outlet) : Option Channel :=
  if f.isDc o then
    (match o with | .a => f.profile.sel.a | .b => f.profile.sel.b).volts.head?
  else none

/-- Defaults that depend on the variant, the profile or another key (08 Table 8.7, 11 Table 11.8,
12 Table 12.5 and R437, 14 Table 14.6, 15 Table 15.4, 17 Table 17.3). -/
def keyDefault (f : Fab) (c : Cfg) : Key → Val
  | .gen .penEnable =>
    .num (if f.profile.sel.supply.wiring = .w1p2w ∨ f.profile.sel.supply.wiring = .w3p4w then 1 else 0)
  | .gen .csId => .text (hexUpper f.deviceId.toNat 16)
  | .ch i .mode => .num (if i.val < 36 then 1 else 2)
  | .ch i .rate => .num (chRateOf c i)
  | .ch i .range => .num (if i.val < 12 then 3 else if i.val < 32 then 1 else 2)
  | .ch i .timing => .num (if chModeOf c i = 0 ∧ chRateOf c i > 16000 then 1 else 0)
  | .ch i .excite => .num (if 36 ≤ i.val ∧ i.val ≤ 39 then 100 else 0)
  | .ch i .wvHi =>
    .num (if dcPlus f .a = some i ∨ dcPlus f .b = some i then 4613734 else 8388607)
  | .ch i .wvDrivers =>
    .num (if dcPlus f .a = some i then 3 else if dcPlus f .b = some i then 12 else 0)
  | .out o .connector => .num (if f.isDc o then 2 else 0)
  | .out o .ppMode => if f.isDc o then .none else .num 0
  | .out o .cableMaxA => .num (if f.isDc o then 200 else 32)
  | .out o .maxA => .num (if f.isDc o then 200 else 32)
  | .out o .protocols => .list (if f.isDc o then [0, 1, 2] else [0, 1])
  | .out o .rcdEnable => .num (if f.isDc o then 0 else 1)
  | .out o .rcdChannel => .num (32 + o.num)
  | .out o .rcdRefChannel => .num (34 + o.num)
  | .out o .rcdTestChannel => .num (40 + o.num)
  | .out o .peChannel => .num (44 + o.num)
  | .out o .tempChannels => .list [36 + 2 * o.num, 37 + 2 * o.num]
  | .gp i .level => .num (if cfgGiven c (.gp i .function) = some (.num 3) then 1 else 0)
  | .port p .ipv4 => if p = 0 then .text (str "dhcp") else .none
  | .port p .wake => if p = 0 then .num 0 else .none
  | .mac p => .text (hexUpper (f.mac.toNat + p.val) 12)
  | k => plainDefault k

/-- The value of the key in the set: as given, or the default (19 R650). -/
def cfgVal (c : Cfg) (f : Fab) (k : Key) : Val := (cfgGiven c k).getD (keyDefault f c k)

/-- The value as a number: 0 where the key holds none. -/
def cfgInt (c : Cfg) (f : Fab) (k : Key) : Int :=
  match cfgVal c f k with
  | .num n => n
  | _ => 0

/-- The value as a natural number. -/
def cfgNat (c : Cfg) (f : Fab) (k : Key) : Nat := (cfgInt c f k).toNat

/-- The value as a truth value. -/
def cfgBool (c : Cfg) (f : Fab) (k : Key) : Bool := cfgInt c f k != 0

/-- The value of a key that may be `none`. -/
def cfgOpt (c : Cfg) (f : Fab) (k : Key) : Option Nat :=
  match cfgVal c f k with
  | .num n => some n.toNat
  | _ => none

/-- The items of a list or of an item mask. -/
def cfgItems (c : Cfg) (f : Fab) (k : Key) : List Nat :=
  match cfgVal c f k with
  | .list l => l
  | _ => []

/-- The text of a key. -/
def cfgText (c : Cfg) (f : Fab) (k : Key) : Bytes :=
  match cfgVal c f k with
  | .text t => t
  | _ => []

end Sys2Proof.Machine
end

