-- ==== Sys2Proof/Parts/Clock.lean ====
section
/-! DEFINITION. The TIME block (04): LIFE, the RTC and the part kept in the watch domain, and the
timers and monitors of the control base. -/

namespace Sys2Proof

/-- What the adjustments written in one AO32 cycle have made (04 R155): whether an absolute set stands
among them, the offset in AO32 cycles since, and the mailboxes whose commands wait for the cycle. -/
structure RtcWrite where
  absolute : Bool
  offset : Int
  deriving DecidableEq, Repr

/-- A report of the TIME block to MET (04 R139): a step or the start of a slew. -/
structure TimeReport where
  step : Bool
  /-- RTC seconds before and after, and the offset in AO32 cycles. -/
  before : Nat
  after : Nat
  offset : Int
  /-- LIFE at the report, and RTC_STATUS.VALID before it. -/
  life : Life
  wasValid : Bool
  deriving DecidableEq, Repr

/-- The part of the TIME block that the watch domain keeps (04 Tables 4.2, 4.3: kept). -/
structure Time where
  life : Life := 0
  /-- RTC_SEC, 33 bits. -/
  rtcSec : BitVec 33 := 0
  /-- RTC_SUB, 15 bits. -/
  rtcSub : BitVec 15 := 0
  valid : Bool := false
  slewing : Bool := false
  holdover : Bool := false
  rangeEnd : Bool := false
  lifeRestart : Bool := true
  adjRefused : Bool := false
  trimClipped : Bool := false
  /-- RTC_TRIM.TRIM, in 0.1 ppm. -/
  trim : BitVec 10 := 0
  /-- The offset not yet absorbed by a slew, in AO32 cycles (R137). -/
  slewLeft : Int := 0
  /-- AO32 cycles since the slew last added or omitted a count (R137). -/
  slewPhase : Nat := 0
  /-- The trim's fraction of a count, in 0.1 ppm of a cycle (R140). -/
  trimAcc : Int := 0
  /-- The adjustments that take effect in the next AO32 cycle (R155). -/
  write : Option RtcWrite := none
  /-- The adjustment limit in seconds, set by MET (R137, R360). -/
  adjLimit : Nat := 10
  /-- The AOF lock: AOF faulted (Table 4.7). -/
  aofFault : Bool := false
  deriving DecidableEq, Repr

/-- A general timer (04 R141 to R144). (log 36, DESIGN CHOICE) -/
structure Timer where
  count : BitVec 32 := 0
  period : BitVec 32 := 0
  /-- The period running now; 0 when the period function is stopped. -/
  running : BitVec 32 := 0
  /-- REF cycles from the last AO32 cycle to the running period's next event (R142). -/
  due : Int := 0
  evt : Bool := false
  periodRefused : Bool := false
  overrun : Bool := false
  irqEn : Bool := false
  /-- The interrupt of the last period event is raised to the owner (R142). -/
  irq : Bool := false
  deriving DecidableEq, Repr

/-- The part of the TIME block and its monitors that module power-on clears (04 Table 4.2). -/
structure TimeBase where
  timers : Vector Timer 16 := Vector.replicate 16 {}
  /-- RTC_SET_HI. -/
  setHi : BitVec 1 := 0
  /-- CLK_FAULT, one bit for each code of Table 4.1. -/
  clkFault : BitVec 32 := 0
  /-- Domains faulted and not readmitted (R160). -/
  faulted : List Domain := []
  /-- PLL domains left off until the next module power-on (Table 4.7). -/
  off : List Domain := []
  /-- LIFE of the last fault of each PLL domain that has faulted (Table 4.7: within 10 min). -/
  lastPll : List (Domain × Life) := []
  /-- Reports that wait for MET (R139), oldest first. -/
  reports : List TimeReport := []
  /-- TIME_SET and TIME_ADJUST commands that complete with the AO32 cycle (R155). -/
  waiting : List Mailbox := []
  deriving DecidableEq, Repr

end Sys2Proof
end

