-- ==== Sys2Proof/Parts/Keys.lean ====
section
/-! DEFINITION. Key store, lifecycle, debug port, crypto engine and boot measurements (18). -/

namespace Sys2Proof

/-- Slot states (07 KEY_SLOT_STATUS_GET). -/
inductive KeyState | empty | valid | orphaned | failed
  deriving DecidableEq, Repr

/-- A slot record (18 R620): parent 0xFF is the root; `derived` slots hold a context, written ones their
material. -/
structure KeySlot where
  state : KeyState := .empty
  kind : Nat := 0
  usage : BitVec 8 := 0
  derived : Bool := false
  parent : Nat := 0xFF
  binding : Nat := 0
  data : Bytes := []
  deriving DecidableEq, Repr

/-- Key store and lifecycle fuses (18 R620, R631). -/
structure KeyStore where
  slots : Vector KeySlot 64 := Vector.replicate 64 {}
  counter : BitVec 32 := 0
  /-- Readable copies of the envelope counter (R640). -/
  counterA : Bool := true
  counterB : Bool := true
  /-- The root's check matches (R640). -/
  rootOk : Bool := true
  /-- The two fuse bits of PROVISIONED, FIELD and RETIRED. -/
  provisioned : BitVec 2 := 0
  field : BitVec 2 := 0
  retired : BitVec 2 := 0
  deriving DecidableEq, Repr

/-- A copy of the envelope counter reads (18 R640). -/
def KeyStore.counterOk (k : KeyStore) : Bool := k.counterA || k.counterB

/-- The measurement log and the bank's CRC-32C (18 R643, R644). -/
structure BootLog where
  metrology : Bytes := []
  safety : Bytes := []
  application : Bytes := []
  crc : BitVec 32 := 0
  deriving DecidableEq, Repr

/-- An operation taken by the crypto engine (18; 01 R32, R49). (log 69, DESIGN CHOICE) -/
structure CryptoJob where
  req : CryptoReq
  /-- The slot and its key as they stood when the operation began (Table 18.8). -/
  slot : KeySlot
  key : Bytes := []
  deriving DecidableEq, Repr

/-- A result given back to a requester: channel, done or refused, and the bytes. -/
structure CryptoResult where
  channel : Nat
  ok : Bool
  result : Bytes
  deriving DecidableEq, Repr

/-- The volatile part: crypto engine, lifecycle authorisation and debug port (18). -/
structure KeyRun where
  jobs : List CryptoJob := []
  results : List CryptoResult := []
  /-- Lifecycle authorisation of operation 4: target code and LIFE (R628, R632). -/
  auth : Option (Nat × Life) := none
  rngOk : Bool := true
  /-- A debug session is open; the challenge read; signatures failed since the reset (R634). -/
  debugOpen : Bool := false
  challenge : Option Bytes := none
  debugFails : Nat := 0
  boot : BootLog := {}
  /-- Slots whose failure was reported since the start (R639). -/
  reported : List (Fin 64) := []
  deriving DecidableEq, Repr

end Sys2Proof
end

