-- ==== Sys2Proof/Parts/Net.lean ====
section
/-! DEFINITION. Networks, solar strings, SunSpec devices, power modules and the pair link (14), and the
egress queues of the ports (05). -/

namespace Sys2Proof

/-- The classes of egress frames, highest first (05 R193). -/
inductive Egress | safety | session | telemetry
  deriving DecidableEq, Repr

/-- A network port: ETH0, ETH1, SPE0, SPE1, CAN0 to CAN3 in this order (07 Table 7.15). -/
structure Port where
  up : Bool := false
  kbps : Nat := 0
  errors : BitVec 16 := 0
  /-- The link runs at 2.4 V (R506). -/
  high : Bool := false
  busOff : Bool := false
  /-- The frame being transmitted, with its class (05 R193). -/
  sending : Option (Egress × Bytes) := none
  safety : List Bytes := []
  session : List Bytes := []
  telemetry : List Bytes := []
  /-- Telemetry frames dropped since start (05 R194). -/
  dropped : BitVec 32 := 0
  /-- Line time in ns of the safety frames of the last 100 ms with the LIFE of their start, newest first, and LIFE since
  which queued telemetry has had no frame (05 R186, R193). -/
  safetySent : List (Life × Nat) := []
  telemetrySince : Life := 0
  /-- Frames held while the application is unpowered (05 R171). -/
  held : List Bytes := []
  /-- Frames that the application took from the hold after its latest wake (05 R171). -/
  taken : List Bytes := []
  /-- ARP replies sent by the MAC in IDLE (R504). -/
  arpReplies : Nat := 0
  deriving DecidableEq, Repr

/-- A known optimiser (R511, R512) with its latest STATUS (Table 14.3). -/
structure Optimiser where
  addr : BitVec 32
  /-- Named by `pv.strJ.optimisers`; enrolled by discovery. -/
  named : Bool := false
  enrolled : Bool := false
  missed : Nat := 0
  silent : Bool := false
  lastAnswer : Life := 0
  /-- LIFE at which its latest poll began (R511). -/
  polledAt : Option Life := none
  mv : Int := 0
  ma : Int := 0
  deciK : BitVec 16 := 0
  flags : BitVec 16 := 0
  deriving DecidableEq, Repr

/-- The poll under way: address, sequence and attempts made, and whether the latest attempt waits for its
reply (R510, R511). -/
structure Attempt where
  addr : BitVec 32
  seq : BitVec 8
  tries : Nat
  waits : Bool := true
  /-- LIFE at which the attempt began. -/
  at_ : Life := 0
  deriving DecidableEq, Repr

/-- A PV string (R508 to R515). -/
structure Str where
  known : List Optimiser := []
  seq : BitVec 8 := 0
  attempt : Option Attempt := none
  /-- Discovery round number, and rounds made in the present discovery (R512). -/
  round : BitVec 16 := 0
  rounds : Nat := 0
  /-- The last frame sent on the string, and its bits on the line (Table 14.2). -/
  sent : Bytes := []
  line : List Bool := []
  /-- LIFE from which the next request may be sent (R510), and LIFE at which the latest discovery began (R512). -/
  freeAt : Life := 0
  discoverAt : Option Life := none
  /-- Keep-alive: the application's request, the safety core's enable, sending, and LIFE since it is
  silent (R515). -/
  request : Bool := false
  enable : Bool := false
  sending : Bool := false
  silentSince : Option Life := none
  deriving DecidableEq, Repr

/-- A SunSpec device's points as scaled (R517): mV, mA, mW and 0.1 K. -/
structure SunRecord where
  voltageMv : Int
  currentMa : Int
  powerMw : Int
  deciK : Nat
  deriving DecidableEq, Repr

/-- A SunSpec device (R516, R517). -/
structure SunDev where
  record : Option SunRecord := none
  /-- Repeats of the request under way, and periods in a row that failed. -/
  repeats : Nat := 0
  failed : Nat := 0
  /-- LIFE at which its latest period began (R516). -/
  readAt : Option Life := none
  deriving DecidableEq, Repr

/-- A power module (R518 to R520, Tables 14.4, 14.5). -/
structure Module where
  /-- 0 absent, 1 readmitting at zero, 2 in budget. -/
  state : Nat := 0
  /-- Sequence of the latest SETPOINT to the node, and that frame. -/
  seq : BitVec 8 := 0
  sent : Bytes := []
  /-- A first valid STATUS with state 1 has arrived; the cycle after it has begun (R520). -/
  firstGood : Bool := false
  cycleBegun : Bool := false
  /-- Cycles in a row without a valid STATUS (R520). -/
  quiet : Nat := 0
  mv : Int := 0
  ma : Int := 0
  availW : Nat := 0
  deciK : BitVec 16 := 0
  identity : BitVec 64 := 0
  ratedW : Nat := 0
  maxMv : Int := 0
  maxMa : Int := 0
  minMa : Int := 0
  deriving DecidableEq, Repr

/-- Roles on the pair link (Table 14.7). -/
inductive PairRole | leader | follower | alone
  deriving DecidableEq, Repr

/-- A swap command that waits: mailbox, and the link frame that carried it (R525, R530). -/
structure SwapWait where
  mb : Mailbox
  sentIn : Option (BitVec 32) := none
  deriving DecidableEq, Repr

/-- The pair link (R522 to R526). -/
structure Pair where
  role : PairRole := .alone
  peer : Option (BitVec 64) := none
  /-- The peer's device identity as learned, kept while the peer is lost (R527). -/
  known : Option (BitVec 64) := none
  /-- Number of the last frame sent, and of the last valid frame received with its LIFE. -/
  frame : BitVec 32 := 0
  lastFrame : Option (BitVec 32) := none
  lastLife : Life := 0
  sent : Bytes := []
  /-- The peer's frame last taken: priority, claimed role, flags, request, consumption, solo share. -/
  peerPriority : Nat := 0
  peerClaims : PairRole := .alone
  peerRequest : Nat := 0
  peerConsumption : Nat := 0
  peerSolo : Nat := 0
  peerIdle : Bool := false
  /-- The link frame in which the peer, and in which the module, last asked for a swap (R530). -/
  peerAsked : Option (BitVec 32) := none
  askedIn : Option (BitVec 32) := none
  /-- The leader owns the whole budget (R524). -/
  owns : Bool := false
  /-- Handover frame named; a swap request to be sent; commands that wait. -/
  handover : Option (BitVec 32) := none
  /-- The old leader has its frame H to send (R525). -/
  ceding : Bool := false
  swapAsked : Bool := false
  waiting : List SwapWait := []
  /-- The first frame in which the loser of a collision may ask again (R530). -/
  retryFrame : Option (BitVec 32) := none
  ownShare : Nat := 0
  peerShare : Nat := 0
  budget : Nat := 0
  /-- A reduction is pending (R525), and it is protective (R523). -/
  reduction : Bool := false
  protective : Bool := false
  /-- LIFE at which the peer was lost, for a leader that may raise its share (R532). -/
  lostAt : Option Life := none
  /-- The pair keys in force: they act at the next alone state or start (Table 14.6). -/
  priority : Nat := 100
  budgetKey : Nat := 100000
  soloShare : Nat := 50000
  deriving DecidableEq, Repr

/-- Networks and energy links (14). -/
structure Net where
  port : Vector Port 8 := Vector.replicate 8 {}
  str : Vector Str 4 := Vector.replicate 4 {}
  sun : Vector SunDev 8 := Vector.replicate 8 {}
  /-- Power modules by bus and node; node 0 is the T48 and unused. -/
  pm : Vector (Vector Module 32) 4 := Vector.replicate 4 (Vector.replicate 32 {})
  pair : Pair := {}
  /-- LIFE of each power bus's latest SETPOINT cycle (R518). -/
  pmAt : Vector (Option Life) 4 := Vector.replicate 4 none
  /-- The ports of the queued telemetry frames, oldest frame first (05 R194). -/
  telOrder : List (Fin 8) := []
  deriving DecidableEq, Repr

end Sys2Proof
end

