-- ==== Sys2Proof/Parts/Ports.lean ====
section
/-! DEFINITION. Peripheral serial ports and general-purpose pins (17). -/

namespace Sys2Proof

/-- A transfer taken up (17 R601 to R603; 07 Table 7.18), with its mailbox. -/
structure Transfer where
  host : Mailbox
  /-- The order in which the ports took transfers up (R606, Table 17.5). -/
  ticket : Nat
  select : Option (Fin 64)
  active : Bool
  /-- Bits per clock of the transmit and of the receive phase. -/
  txBits : Nat
  rxBits : Nat
  fdx : Bool
  firstX1 : Bool
  receive : Nat
  /-- The divisor k of 400,000 kHz (R599). -/
  k : Nat
  data : Bytes
  deriving DecidableEq, Repr

/-- The keys of a port in force (17 Table 17.3). -/
structure PspKeys where
  enable : Bool := false
  lanes : Nat := 1
  late : Bool := false
  marker : Bool := false
  busyByte : Nat := 0x5A
  readyByte : Nat := 0xC3
  timeoutUs : Nat := 100
  deriving DecidableEq, Repr

/-- A peripheral serial port. -/
structure Psp where
  keys : PspKeys := {}
  /-- Transfers taken up, oldest first; the first one runs (R606). -/
  queue : List Transfer := []
  /-- The divisor, the clocks and the time in ps of the last transfer run (R599, R602, R606), and the lanes that it drove, clock by
  clock (R597). -/
  lastK : Nat := 0
  lastClocks : Nat := 0
  lastPs : Nat := 0
  lastLanes : List (List (Nat × Bool)) := []
  deriving DecidableEq, Repr

/-- Functions of a pin (17 Table 17.2). -/
inductive PinFn | input | out | od | select | wake
  deriving DecidableEq, Repr

/-- Port and pin state (17). -/
structure Pins where
  psp : Vector Psp 3 := Vector.replicate 3 {}
  /-- The function and the idle level of each pin in force (R608, R616). -/
  fn : Vector PinFn 64 := Vector.replicate 64 .input
  level : BitVec 64 := 0
  /-- Levels that the outputs hold (R617), one bit for each pin. -/
  out : BitVec 64 := 0
  tickets : Nat := 0
  deriving DecidableEq, Repr

end Sys2Proof
end

