-- ==== Sys2Proof/Parts/Safety.lean ====
section
/-! DEFINITION. The safety core (12) and the safety part of MRAM. -/

namespace Sys2Proof

/-- Residual direct current of an AC outlet (12 R430, R431). (log 39, DESIGN CHOICE) -/
structure Rcd where
  tier1 : Nat := 0
  tier2 : Nat := 0
  tier3 : Nat := 0
  meanUa : Int := 0
  rmsUa : Nat := 0
  refOut : Bool := false
  /-- LIFE of the last passed sensor test; the last test failed. -/
  passed : Option Life := none
  failed : Bool := false
  deriving DecidableEq, Repr

/-- Insulation monitoring of a DC outlet (12 R432, R433). -/
structure Imd where
  plusOhm : Nat := 0
  minusOhm : Nat := 0
  badRun : Nat := 0
  /-- LIFE of the last passed test-leg check; the last one failed. -/
  checked : Option Life := none
  checkFailed : Bool := false
  deriving DecidableEq, Repr

/-- Last readings of a temperature sensor (12 R436). -/
structure TempSensor where
  sensor : Nat
  deciC : Int
  overRun : Nat := 0
  faultRun : Nat := 0
  deriving DecidableEq, Repr

/-- Supervision of one outlet by the safety core (12). -/
structure SafOut where
  rcd : Rcd := {}
  imd : Imd := {}
  /-- PE loop: last reading, in fault, and LIFE since it is within its limit (R434, Table 12.2). -/
  loopMilliohm : Nat := 0
  peFault : Bool := false
  peGood : Option Life := none
  temps : List TempSensor := []
  /-- Derating of the outlet's limit in per mille (R436). -/
  derate : Nat := 1000
  /-- Last outlet voltage, mV (R437, R438). -/
  outletMv : Nat := 0
  dischargeDue : Bool := false
  deriving DecidableEq, Repr

/-- One path of the seam check (12 R448, R449). -/
structure SeamSide where
  /-- 0 absent, 1 probation, 2 in service. -/
  state : Nat := 0
  /-- Sequence, sender timestamp and own LIFE of the last accepted frame, and the frame. -/
  seq : Option (BitVec 32) := none
  stamp : Life := 0
  at_ : Life := 0
  frame : Bytes := []
  /-- Consecutive accepted frames on probation. -/
  run : Nat := 0
  deriving DecidableEq, Repr

/-- A companion of the seam check (12 R446 to R449): its two paths, and its state as acted on. -/
structure SeamPeer where
  node : Nat
  a : SeamSide := {}
  b : SeamSide := {}
  enabled : Bool := false
  stopped : Bool := false
  fault : BitVec 32 := 0
  /-- Sequence of the last mismatch (R448). -/
  mismatch : Option (BitVec 32) := none
  deriving DecidableEq, Repr

/-- The seam check (12 R446 to R450, R460). -/
structure Seam where
  peers : List SeamPeer := []
  /-- The T48's own sequence, and its last frame sent on both paths. -/
  ownSeq : BitVec 32 := 0
  sent : Bytes := []
  /-- LIFE since which one path only is in service (R460). -/
  degradedSince : Option Life := none
  deriving DecidableEq, Repr

/-- The temperature of a die (20 R701): it was too hot, and LIFE since which it has stayed 10 K below its limit. -/
structure Die where
  hot : Bool := false
  cool : Option Life := none
  deriving DecidableEq, Repr

/-- The safety core's volatile state (12). (log 41, DEDUCED) -/
structure Saf where
  running : Bool := false
  /-- The safety image as copied from the chosen bank into safety SRAM (01 R39). -/
  image : Bytes := []
  /-- Start diagnostics passed since the last restart (R464, Table 12.2). -/
  diagPassed : Bool := false
  /-- PERMIT_SAF stays withdrawn until the next module power-on or RST_N (R461). -/
  locked : Bool := false
  out : Two SafOut := ⟨{}, {}⟩
  /-- PEN: in fault, LIFE since which it is within its limit, automatic re-arms in the last hour. -/
  penFault : Bool := false
  penGood : Option Life := none
  penRearms : List Life := []
  /-- Emergency stop: inputs as last read, tripped. -/
  estopA : Bool := false
  estopB : Bool := false
  estop : Bool := false
  /-- Channels unavailable and LIFE since which they are available again (R440). -/
  lost : List Channel := []
  lostGood : List (Channel × Life) := []
  /-- Outlets whose divider check fails (R441). -/
  divider : Two Bool := ⟨false, false⟩
  dividerGood : Two (Option Life) := ⟨none, none⟩
  /-- LIFE since which a latched comparator's or weave threshold's input is back (Table 12.2). -/
  inputGood : Vector (Option Life) 4 := Vector.replicate 4 none
  /-- LIFE since which a driver's permit lines toggle correctly (Table 12.2). -/
  lineGood : Vector (Option Life) 4 := Vector.replicate 4 none
  /-- Heartbeat reads (05 R196): last value, reads unchanged, fault, LIFE since it advances. -/
  hbLast : Option (BitVec 8) := none
  hbStale : Nat := 0
  hbFault : Bool := false
  hbGood : Option Life := none
  seam : Seam := {}
  /-- The controller die and the power die (20 R701). -/
  ctlDie : Die := {}
  pwrDie : Die := {}
  /-- Module safe state in force (R426). -/
  moduleSafe : Bool := false
  /-- PERMIT_SAF may be granted: start step 9 passed (R119, R465). -/
  step9 : Bool := false
  deriving DecidableEq, Repr

/-- An entry of the safety fault log (12). -/
structure FaultEntry where
  life : Life
  code : BitVec 16
  data : Nat := 0
  deriving DecidableEq, Repr

/-- Safety MRAM (01 Table 1.7, 12, 13). -/
structure SafStore where
  trips : Vector TripWord 4 := Vector.replicate 4 {}
  wear : Wear := {}
  /-- Increments made since the last save are in `wear`; the fault log, newest first. -/
  faultLog : List FaultEntry := []
  /-- LIFE of the internal faults of the last 24 h, newest first (R461). -/
  internalFaults : List Life := []
  /-- Hold-up self-test results recorded (03 R103). -/
  holdup : Option (Nat × Nat × Nat) := none
  deriving DecidableEq, Repr

end Sys2Proof
end

