-- ==== Sys2Proof/Parts/Services.lean ====
section
/-! DEFINITION. Charging services (15), the certificate store (18) and the operator's update (19). -/

namespace Sys2Proof

/-- Kinds of operator message (15 R542 to R544, R558, R561 to R563). -/
inductive MsgKind
  | boot | heartbeat | status | authorize | meter | txStart | txUpdate | txEnd | record | security | firmware
  | csr
  deriving DecidableEq, Repr

/-- A message for the back office: kind, outlet, and its numbers (session, record, energy in Wh, code). -/
structure OpMsg where
  kind : MsgKind
  outlet : Option Outlet := none
  nums : List Int := []
  text : Bytes := []
  deriving DecidableEq, Repr

/-- An identity that waits at the back office (15 R547), with what the list or the cache said. -/
structure AuthWait where
  outlet : Option Outlet
  kind : Nat
  id : Bytes
  /-- The local list or the cache holds it as Accepted. -/
  locally : Bool
  /-- Its source there: 0 the local list, 1 the cache. -/
  source : Nat
  /-- The mailbox command or service that asked: true where EV_AUTH_RESULT follows. -/
  event : Bool
  /-- LIFE at which the back office was asked. -/
  asked : Life := 0
  deriving DecidableEq, Repr

/-- An identity held for the first outlet plugged (15 R551). -/
structure HeldId where
  outlet : Option Outlet
  kind : Nat
  id : Bytes
  source : Nat
  life : Life
  deriving DecidableEq, Repr

/-- A reservation (15 R553). -/
structure Reservation where
  number : Nat
  outlet : Option Outlet
  id : Bytes
  parent : Bytes
  expiry : Nat
  /-- It expired while its identity was being authorised (Table 15.5). -/
  ended : Bool := false
  deriving DecidableEq, Repr

/-- Solar following of an outlet (15 R554 to R557). -/
structure Solar where
  mode : Nat := 0
  minMa : Nat := 0
  /-- The outlet's share in µW as last computed. -/
  share : Nat := 0
  /-- LIFE since which the share is below the minimum, or at or above it from the pause. -/
  below : Option Life := none
  above : Option Life := none
  paused : Bool := false
  deriving DecidableEq, Repr

/-- What application data MRAM holds of the services (15 R548, R558, 18 R636; 01 Table 1.7). -/
structure AppStore where
  list : List ListEntry := []
  listVersion : Nat := 0
  /-- Most recently used first, at most 2,000. -/
  cache : List ListEntry := []
  /-- Oldest first (R558). -/
  queue : List OpMsg := []
  /-- Certificates: kind and DER (18 R636). -/
  certs : List (Nat × Bytes) := []
  /-- LIFE of the latest IDLE checkpoint (05 R173). -/
  idleCheckpoint : Option Life := none
  /-- First granule of the session journal's ring and of the message queue's ring within the region (05 R189). -/
  journalAt : Nat := 0
  queueAt : Nat := 0
  deriving DecidableEq, Repr

/-- The volatile state of the services (15). -/
structure Svc where
  connected : Bool := false
  /-- Reconnect waits made since the loss, and the wait in force in ms (R539). -/
  retries : Nat := 0
  waitMs : Nat := 0
  /-- LIFE at which that wait, the last heartbeat interval and the last interval of meter values of each outlet began. -/
  waitAt : Life := 0
  beatAt : Life := 0
  meterAt : Two Life := ⟨0, 0⟩
  /-- BootNotification accepted; it is answered Pending or Rejected, and the retry interval (R561). -/
  booted : Bool := false
  held : Bool := false
  retryS : Nat := 60
  /-- LIFE of the last Heartbeat time applied (R540). -/
  lastTime : Option Life := none
  /-- Messages sent and not yet answered, oldest first; the message last sent; and the answer last given to
  a request of the back office. -/
  sent : List OpMsg := []
  last : Option OpMsg := none
  answer : Bytes := []
  waiting : List AuthWait := []
  /-- Accepted identities held for a plug-in, oldest first (R551). -/
  heldIds : List HeldId := []
  reservations : List Reservation := []
  /-- Reader: failed polls in a row, marked absent, last UID, LIFE since which no card is reported. -/
  readerFails : Nat := 0
  readerAbsent : Bool := false
  readerUid : Option Bytes := none
  /-- LIFE of the reader's latest poll (R550), of the latest production (R554), and of the latest solar update (R555). -/
  polledAt : Option Life := none
  producedAt : Option Life := none
  solarAt : Option Life := none
  noCardSince : Option Life := none
  profiles : Two (List ChargingProfile) := ⟨[], []⟩
  /-- Limit of the charging schedule in force: mA and W. -/
  schedMa : Two (Option Nat) := ⟨none, none⟩
  schedW : Two (Option Nat) := ⟨none, none⟩
  solar : Two Solar := ⟨{}, {}⟩
  /-- Production of the last seconds in µW, newest first, at most 60, and the surplus in µW (R554). -/
  production : List Nat := []
  surplus : Nat := 0
  /-- Operator update: install second; a verified bank waits for it (19 R671). -/
  install : Option Nat := none
  updateWaits : Bool := false
  /-- LIFE at the start of the 60 s window of periodic IDLE (R564). -/
  window : Option Life := none
  deriving DecidableEq, Repr

end Sys2Proof
end

