-- ==== Sys2Proof/Parts/Store.lean ====
section
/-! DEFINITION. The configuration store, the application banks and update control (19). -/

namespace Sys2Proof

/-- State byte of a set header (19 Table 19.1). -/
inductive SlotState | empty | candidate | committed | migration
  deriving DecidableEq, Repr

/-- A slot of the configuration store (19 R648, Table 19.1). (log 56, DESIGN CHOICE) -/
structure Slot where
  state : SlotState := .empty
  incomplete : Bool := false
  format : BitVec 16 := 0
  seq : BitVec 32 := 0
  commit : BitVec 32 := 0
  body : Bytes := []
  /-- Migration copy: CRC-32C of the trial image's header. -/
  tag : BitVec 32 := 0
  /-- The slot's body and header read without an uncorrectable error (R677). -/
  readable : Bool := true
  deriving DecidableEq, Repr

/-- The application banks (19 R655). -/
inductive Bank | a | b
  deriving DecidableEq, Repr

/-- The other bank. -/
def Bank.other : Bank → Bank
  | .a => .b
  | .b => .a

/-- The bank's number (07 Table 7.3). -/
def Bank.num : Bank → Nat
  | .a => 0
  | .b => 1

/-- What a bank holds (19 R655, R659). -/
structure BankMem where
  header : Bytes := []
  /-- Blocks written, by number. -/
  blocks : List (Nat × Bytes) := []
  /-- The bank holds an image that was confirmed once and is superseded (R664). -/
  superseded : Bool := false
  /-- The bank holds an image that has been verified (R660, R675). -/
  verified : Bool := false
  deriving DecidableEq, Repr

/-- A staged block (19 R659): its number and the words arrived, by offset. -/
structure Staged where
  block : Nat
  words : List (Nat × Bytes) := []
  deriving DecidableEq, Repr

/-- State of a boot selector record (19 Table 19.4). -/
inductive SelState | stable | armed | trial
  deriving DecidableEq, Repr

/-- A copy of the boot selector record (19 Table 19.4). -/
structure BootSel where
  seq : BitVec 32 := 0
  state : SelState := .stable
  confirmed : Bank := .a
  trial : Option Bank := none
  attempts : Nat := 0
  headerCrc : BitVec 32 := 0
  /-- The copy's CRC is right (R661, R676). -/
  valid : Bool := true
  deriving DecidableEq, Repr

/-- Who holds the one download (19 R673). -/
inductive Downloader | host | operator
  deriving DecidableEq, Repr

/-- Update control and the banks (19). -/
structure Upd where
  stage : Nat := 0
  holder : Downloader := .host
  header : Bytes := []
  /-- Confirmed blocks (the block map). -/
  confirmed : List Nat := []
  target : Bank := .b
  lastStatus : BitVec 16 := 0
  bankA : BankMem := {}
  bankB : BankMem := {}
  sel0 : BootSel := {}
  sel1 : BootSel := { seq := 1 }
  /-- Fallback to be reported at start step 8 with its reason (R665). -/
  fellBack : Option (BitVec 16) := none
  /-- The candidate was opened under a trial (R665). -/
  trialCandidate : Bool := false
  deriving DecidableEq, Repr

/-- The volatile part of update and boot (19, 18). -/
structure UpdRun where
  /-- Blocks staged in application SRAM, longest without a write first (R659). -/
  staging : List Staged := []
  /-- The running bank; none while no bank runs. -/
  running : Option Bank := none
  /-- Healthy time of the attempt, in LIFE cycles (R664), and LIFE up to which it is counted. -/
  healthy : Nat := 0
  /-- SAF recorded an internal fault, and the back office accepted BootNotification, in the attempt. -/
  safFault : Bool := false
  booted : Bool := false
  /-- Migration of settings complete (R664, R666). -/
  migrated : Bool := false
  /-- A restart with the effect of RST_N follows once RUNNING commands complete (07 Table 7.23). -/
  restartDue : Bool := false
  deriving DecidableEq, Repr

end Sys2Proof
end

