-- ==== Sys2Proof/Machine/State.lean ====
section
/-! DEFINITION. The state of the module: every register, queue, record and pin that the spec gives it,
grouped by what clears it (01 Table 1.11), and the queue of the commands that wait. -/

namespace Sys2Proof.Machine

/-- A firewall record (01 R55). -/
structure Blocked where
  master : Master
  addr : BitVec 32
  write : Bool
  life : Life
  deriving DecidableEq, Repr

/-- What the interconnect answered to the latest access that the firewall checked (01 R55): a bus error, and read data. -/
structure BusAnswer where
  master : Master
  error : Bool
  data : Word32
  deriving DecidableEq, Repr

/-- The state of the module. Every default value below is the value after State.reset. (log 2, DESIGN CHOICE) -/
structure State where
  /-- Commands that wait, first in, first out. -/
  pending : List Instr := []
  /-- The model's own counter of free values drawn (log 5, DESIGN CHOICE). -/
  nd : Nat := 0
  /-- Fuses and sealed data, changed by no step. -/
  fab : Fab := {}
  -- Kept in the watch domain (cleared by a watch-domain power-on reset only).
  time : Time := {}
  wch : Wch := {}
  -- Kept in MRAM (cleared by no reset).
  legal : Legal := {}
  safStore : SafStore := {}
  slots : Vector Slot 4 := Vector.replicate 4 {}
  upd : Upd := {}
  save : SaveRecord := {}
  app : AppStore := {}
  dispStore : DispStore := {}
  -- Key store in MRAM and lifecycle fuses.
  keys : KeyStore := {}
  -- Supplies and the power die.
  pwr : Pwr := {}
  pd : Pd := {}
  -- The control base (cleared by module power-on and RST_N).
  hif : Hif := {}
  mbx : Mbx := {}
  tb : TimeBase := {}
  wb : WchBase := {}
  ch : Vector Chan 48 := Vector.replicate 48 {}
  isl : Vector Isl 6 := Vector.replicate 6 {}
  weave : Weave := {}
  met : Met := {}
  bill : Bill := {}
  saf : Saf := {}
  blocked : List Blocked := []
  bus : Option BusAnswer := none
  disp : Disp := {}
  pins : Pins := {}
  key : KeyRun := {}
  -- The application partition's volatile state (cleared by its core reset as well).
  veh : Veh := {}
  run : UpdRun := {}
  net : Net := {}
  svc : Svc := {}
  /-- The set in force (19 R651): the keys it gives. -/
  cfg : Cfg := []
  deriving DecidableEq, Repr

/-- Why a command stops the machine. -/
inductive Fault
  /-- Raised by a meaning whose operand does not spell the command at all: a frame, a list or an
  opcode of a shape that its row cannot have (`Instr.wellFormed` fails). Safe: the command stands for
  no event of the module. -/
  | illFormed
  deriving DecidableEq, Repr

/-- Why a command has no meaning. -/
inductive Refusal
  /-- The arm of `exec` gives the command no meaning; raised by `exec` alone. Safe. -/
  | notModelled (mnemonic : String)
  deriving DecidableEq, Repr

/-- The key store as a module leaves Iskeco: slots 0 to 4 filled as 18 Table 18.1 gives them, in
PROVISIONED (18 R631). The usage bytes are those that their users in that table need (log 20, DESIGN CHOICE). -/
def deliveredKeys : KeyStore :=
  { slots := Vector.ofFn (fun i : Fin 64 =>
      if i = 0 then { state := .valid, kind := 3, usage := 0x01, derived := true, binding := 1 }
      else if i = 1 then { state := .valid, kind := 4, usage := 0x03, derived := true }
      else if i = 2 then { state := .valid, kind := 2, usage := 0x00 }
      else if i = 3 then { state := .valid, kind := 6, usage := 0x10 }
      else if i = 4 then { state := .valid, kind := 6, usage := 0x20 }
      else {})
    provisioned := 3 }

/-- The module right after reset: held in its internal power-on reset after a watch-domain power-on
reset, every kept field at the value of 04 Table 4.3 and 05 Table 5.6, memory as manufactured (logs 1
and 17). -/
def State.reset : State := { keys := deliveredKeys }

end Sys2Proof.Machine
end

