-- ==== Sys2Proof/Machine/Flags.lean ====
section
/-! DEFINITION. Status words and interrupt lines computed from the state: HIF_STATE, HIF_STATUS's bits, HIF_IRQ_PEND and
the HIF_IRQ land, CMB_STATUSn (06 Table 6.4), and RTC_STATUS (04 Table 4.3). -/

namespace Sys2Proof.Machine

/-- The bits of HIF_STATUS (06 Table 6.4). -/
def stBadOpcode : Nat := 0
def stUnaligned : Nat := 1
def stBusyTimeout : Nat := 2
def stWriteIgnored : Nat := 3
def stPartial : Nat := 4
def stPartialDiscard : Nat := 5
def stShort : Nat := 6
def stDoorbellBusy : Nat := 7
def stKeyRefused : Nat := 8
def stEvtLost : Nat := 9
def stNotReady : Nat := 10

/-- HIF_STATE (06 Table 6.4). -/
def hifStateWord (h : Hif) : Word32 :=
  BitVec.ofNat 32 (h.startStep.toNat + h.power.toNat <<< 4 + b1 h.fwReady <<< 8 + b1 h.bootServed <<< 9
    + b1 h.legalFault <<< 10 + b1 h.trial <<< 11)

/-- A host is present (06 R229). -/
def hostPresent (s : State) : Bool := s.hif.hostPresent || cfgBool s.cfg s.fab (.gen .hostPresent)

/-- HIF_IRQ_PEND (06 Table 6.4). -/
def irqPend (s : State) : Nat :=
  (List.finRange 8).foldl (fun n i => n + b1 s.mbx.evt[i].full <<< i.val
    + b1 (s.mbx.cmd[i].state == .done) <<< (8 + i.val)) 0
    + b1 (s.hif.status != 0) <<< 16 + b1 s.hif.stateChg <<< 17

/-- The status that HIF_D1 carries in an x1 opcode phase, and in an x1 address phase (06 R213). -/
def d1Opcode (s : State) : BitVec 8 := s.hif.status.setWidth 8
def d1Address (s : State) : BitVec 16 := BitVec.ofNat 16 (irqPend s)

/-- The HIF_IRQ land (06 R220, R229, R243). -/
def hifIrq (s : State) : Bool :=
  s.hif.irqForce || (hostPresent s && irqPend s &&& s.hif.irqEn.toNat != 0)

/-- CMB_STATUSn (06 Table 6.4). -/
def boxStateNum : BoxState → Nat
  | .free => 0
  | .pending => 1
  | .running => 2
  | .done => 3

def cmbStatus (b : CmdBox) : Nat :=
  b.st.toNat + b.rlen.toNat <<< 16 + boxStateNum b.state <<< 28 + b1 b.rep <<< 31

/-- RTC_STATUS (04 Table 4.3). -/
def rtcStatus (t : Time) : Nat :=
  b1 t.valid + 2 * b1 t.slewing + 4 * b1 t.holdover + 8 * b1 t.rangeEnd + 16 * b1 t.lifeRestart
    + 32 * b1 t.adjRefused + 64 * b1 t.trimClipped

end Sys2Proof.Machine
end

