-- ==== Sys2Proof/Machine/Ops.lean ====
section
/-! DEFINITION. The shared operations: window memory, HIF registers, events, and the life of a mailbox
command (06, 07). -/

namespace Sys2Proof.Machine

/-- The outcome of a command. -/
abbrev Out := Host.Outcome State Fault Refusal

/-- The command as an event of the module: it stops the machine only where its operands spell no
such event (log 3, DESIGN CHOICE). -/
def when_ (shape : Bool) (t : State) : Out := if shape then .next t else .fault .illFormed

/-- The byte at an address of the windows; an unlisted byte reads 0 (06 Table 6.3). -/
def Memory.read : List Host.Cell → Nat → Byte
  | [], _ => 0
  | (b, w) :: m, a => if b = a then w else Memory.read m a

/-- The windows with one byte written, in canonical form. -/
def Memory.write : List Host.Cell → Nat → Byte → List Host.Cell
  | [], a, v => if v = 0 then [] else [(a, v)]
  | (b, w) :: m, a, v =>
    if a < b then (if v = 0 then (b, w) :: m else (a, v) :: (b, w) :: m)
    else if a = b then (if v = 0 then m else (a, v) :: m)
    else (b, w) :: Memory.write m a v

/-- The canonical form: addresses strictly rising from `lo`, and no byte 0 listed. -/
def Memory.wfFrom : Nat → List Host.Cell → Bool
  | _, [] => true
  | lo, (a, v) :: m => decide (lo ≤ a) && v != 0 && Memory.wfFrom (a + 1) m

/-- The canonical form of the windows. -/
def Memory.wf (m : List Host.Cell) : Bool := Memory.wfFrom 0 m

/-- Consecutive bytes written from an address. -/
def Memory.writeBytes : List Host.Cell → Nat → Bytes → List Host.Cell
  | m, _, [] => m
  | m, a, v :: vs => Memory.writeBytes (Memory.write m a v) (a + 1) vs

/-- `n` consecutive bytes from an address. -/
def Memory.readBytes (m : List Host.Cell) (a n : Nat) : Bytes :=
  (List.range n).map (fun i => Memory.read m (a + i))

/-- The addresses of the command and the event windows (06 Table 6.3). -/
def cmdWindow (mb : Mailbox) : Nat := 0x1000 + 0x200 * mb.val
def evtWindow (mb : Mailbox) : Nat := 0x2000 + 0x200 * mb.val

/-- A window written whole: the bytes given, and zeros beyond them (06 Table 6.6). -/
def writeWindow (m : List Host.Cell) (base : Nat) (b : Bytes) : List Host.Cell :=
  Memory.writeBytes m base (padTo 512 b)

/-- A bit of HIF_STATUS set (06 Table 6.4; R237). -/
def setStatus (bit : Nat) (s : State) : State :=
  { s with hif := { s.hif with status := s.hif.status ||| (1 <<< bit) } }

/-- A change of HIF_STATE's fields, which sets STATE_CHG (06 R241). -/
def changeState (f : Hif → Hif) (s : State) : State :=
  let h := f s.hif
  { s with hif := { h with stateChg := h.stateChg || hifStateWord s.hif != hifStateWord h } }

/-- A free value drawn: the counter advances (log 5, DESIGN CHOICE). -/
def draw (s : State) : State := { s with nd := s.nd + 1 }

/-- RTC second as the catalogue reports it: 0 while VALID is 0 (07 R262). -/
def rtcReport (s : State) : Nat := if s.time.valid then s.time.rtcSec.toNat else 0

/-- The header of an event payload (07 R262). -/
def eventHeader (s : State) : Bytes :=
  u64 s.time.life.toNat ++ u64 (rtcReport s) ++ u16 s.legal.epoch.toNat ++ u16 0

/-- The lowest-numbered empty event mailbox (06 R225). -/
def emptyEvt (m : Mbx) : Option Mailbox := (List.finRange 8).find? (fun i => !m.evt[i].full)

/-- A window written whole by the mailbox unit, which ends the errors in it (06 R239). -/
def putWindow (base : Nat) (b : Bytes) (m : Mbx) : Mbx :=
  { m with win := writeWindow m.win base b, badWords := m.badWords.filter (fun a => !(base ≤ a && a < base + 512)) }

/-- An event put into an event mailbox (06 R225): the window's bytes beyond the payload are zeroed (log 90, DESIGN CHOICE). -/
def fillEvt (i : Mailbox) (e : QEvent) (m : Mbx) : Mbx :=
  putWindow (evtWindow i) e.payload
    { m with evt := m.evt.set i { code := e.code, seq := e.seq, len := BitVec.ofNat 10 e.payload.length, full := true } }

/-- Events dropped: the counter rises, saturating, and EVT_LOST is set (06 R228). -/
def loseEvents (n : Nat) (s : State) : State :=
  if n = 0 then s
  else setStatus stEvtLost { s with hif := { s.hif with evtLost := satAdd 16 s.hif.evtLost n } }

/-- An event with its sequence number and payload placed in a mailbox or the queue (06 R225 to R228). -/
def placeEvent (code : BitVec 16) (payload : Bytes) (s : State) : State :=
  let e : QEvent := ⟨code, s.mbx.nextSeq, payload⟩
  let m := { s.mbx with nextSeq := s.mbx.nextSeq + 1 }
  match emptyEvt m with
  | some i => { s with mbx := fillEvt i e m }
  | none =>
    if m.queue.length < 128 then { s with mbx := { m with queue := m.queue ++ [e] } }
    else loseEvents 1 { s with mbx := { m with queue := m.queue.drop 1 ++ [e] } }

/-- An event raised with the bytes of its own fields (06 R225 to R229, 07 R262). Without a host only
EV_POWER_RESTORED is kept. Before the mailbox unit runs there is nobody to raise one. -/
def raiseCode (code : BitVec 16) (fields : Bytes) (s : State) : State :=
  if s.hif.startStep = 0 then s
  else if hostPresent s then placeEvent code (eventHeader s ++ fields) s
  else if code = Ev.powerRestored.code ∧ s.mbx.kept.length < 2 then
    { s with mbx := { s.mbx with kept := s.mbx.kept ++ [eventHeader s ++ fields] } }
  else s

/-- An event of Table 7.21 raised. -/
def raise (e : Ev) (fields : Bytes) (s : State) : State := raiseCode e.code fields s

/-- The effect `f` if the condition holds. -/
def ifDo (c : Bool) (f : State → State) (s : State) : State := if c then f s else s

/-- The effect of each element of a list in order. -/
def forEach {α : Type} (l : List α) (f : α → State → State) (s : State) : State :=
  l.foldl (fun s a => f a s) s

/-- The argument bytes of a command mailbox. -/
def argBytes (s : State) (mb : Mailbox) : Bytes :=
  Memory.readBytes s.mbx.win (cmdWindow mb) s.mbx.cmd[mb].len.toNat

/-- A window word of the mailbox within its argument has an uncorrectable error (06 R239). -/
def argsBad (s : State) (mb : Mailbox) : Bool :=
  s.mbx.badWords.any (fun a => cmdWindow mb ≤ a && a < cmdWindow mb + s.mbx.cmd[mb].len.toNat)

/-- A command mailbox completes (06 Table 6.6): response and zeros in the window, ST and RLEN, state
DONE, and the result kept for the repeat rule unless it is ST_ABORTED (R223, 07 R272). (log 15, DESIGN CHOICE) -/
def complete (mb : Mailbox) (st : Status) (resp : Bytes) (s : State) : State :=
  let r := resp.take 512
  let b := s.mbx.cmd[mb]
  let kept := if st = .aborted then b.kept else some ⟨b.seq, st.code, r⟩
  { s with mbx := putWindow (cmdWindow mb) r { s.mbx with
      cmd := s.mbx.cmd.set mb { b with st := st.code, rlen := BitVec.ofNat 10 r.length, state := .done, rep := false, kept := kept } } }

/-- A command completed from its running state, if it is running. -/
def completeRunning (st : Status) (resp : Bytes) (mb : Mailbox) (s : State) : State :=
  if s.mbx.cmd[mb].state = .running then complete mb st resp s else s

/-- The kept result presented again (06 R223). -/
def presentKept (mb : Mailbox) (k : Kept) (s : State) : State :=
  { s with mbx := putWindow (cmdWindow mb) k.resp { s.mbx with
      cmd := s.mbx.cmd.set mb { s.mbx.cmd[mb] with st := k.st, rlen := BitVec.ofNat 10 k.resp.length, state := .done, rep := true } } }

/-- The present server takes up a command of this code now (06 R240, 07 R254). -/
def servesNow (s : State) (code : Nat) : Bool :=
  if s.pwr.state != .run || s.pwr.inReset || s.run.restartDue then false
  else if s.hif.fwReady then s.hif.power == 0
  else if s.hif.bootServed then true
  else
    decide (3 ≤ s.hif.startStep.toNat) &&
      match Cmd.find? code with
      | some c => c.boot && (code / 256 == 1 || code / 256 == 5)
      | none => false

/-- The code of a mailbox as a number. -/
def boxCode (s : State) (mb : Mailbox) : Nat := s.mbx.cmd[mb].code.toNat

/-- A code of a serialising command (07 R254). -/
def isSerial (code : Nat) : Bool := ((Cmd.find? code).map Cmd.serial).getD false

/-- Some command runs. -/
def someRunning (s : State) : Bool := s.mbx.cmd.toList.any (fun b => b.state == .running)

/-- A serialising command runs. -/
def serialRunning (s : State) : Bool :=
  s.mbx.cmd.toList.any (fun b => b.state == .running && isSerial b.code.toNat)

/-- The mailbox's command may be taken up now: it waits, the server serves it, every command rung
earlier is passed over by the server and not serialising, and a serialising command runs alone
(06 R224). -/
def mayTake (s : State) (mb : Mailbox) : Bool :=
  let earlier := s.mbx.order.takeWhile (fun m => m != mb)
  let serial := isSerial (boxCode s mb)
  s.mbx.cmd[mb].state == .pending && s.mbx.order.contains mb && servesNow s (boxCode s mb) &&
    earlier.all (fun m => !servesNow s (boxCode s m) && !isSerial (boxCode s m)) &&
    !serialRunning s && !(serial && (!earlier.isEmpty || someRunning s))

/-- The mailbox taken up: RUNNING, and out of the doorbell order (06 Table 6.6). -/
def takeUp (mb : Mailbox) (s : State) : State :=
  { s with mbx := { s.mbx with
      cmd := s.mbx.cmd.set mb { s.mbx.cmd[mb] with state := .running },
      order := s.mbx.order.filter (fun m => m != mb) } }

/-- What executing a command answers: a completion, or a command that goes on running. -/
inductive Reply
  | done (st : Status) (resp : Bytes) (s : State)
  | defer (s : State)

/-- A completion without effect. -/
def refuse (st : Status) (s : State) : Reply := .done st [] s

/-- A completion with ST_OK. -/
def ok (resp : Bytes) (s : State) : Reply := .done .ok resp s

/-- The first of a command's checks that fails completes it (07 R256). -/
def guards (checks : List (Bool × Status)) (s : State) (k : Reply) : Reply :=
  match checks.find? (fun c => c.1) with
  | some c => refuse c.2 s
  | none => k

/-- The reply as the state of the mailbox. -/
def Reply.apply (mb : Mailbox) : Reply → State
  | .done st resp s => complete mb st resp s
  | .defer s => s

/-- The checks of R222 and R240 for a command of code `c`, in order; the status of the first that
fails. -/
def headerFails (s : State) (mb : Mailbox) (c : Cmd) : Option Status :=
  let n := s.mbx.cmd[mb].len.toNat
  if 512 < n then some .argLength
  else if s.hif.bootServed && !c.boot then some .fwUnavailable
  else if !(if c.noArg then n == 0 else n != 0 && c.lenOk n (argBytes s mb)) then some .argLength
  else if argsBad s mb then some .memError
  else none

/-- The row of command `c` on mailbox `mb`: the command is taken up and executed (06 R221 to R224). A
mailbox whose code the catalogue does not know is completed by whichever row takes it up (log 18, DESIGN CHOICE). -/
def runCommand (c : Cmd) (mb : Mailbox) (body : Bytes → State → Reply) (s : State) : State :=
  let code := boxCode s mb
  let known := (Cmd.find? code).isSome
  if !mayTake s mb || !(code == c.code || !known) then s
  else
    let t := takeUp mb s
    match s.mbx.cmd[mb].kept with
    | some k =>
      if k.seq = s.mbx.cmd[mb].seq then presentKept mb k t else fresh code known t
    | none => fresh code known t
where
  fresh (_code : Nat) (known : Bool) (t : State) : State :=
    if !known then
      complete mb (if 512 < t.mbx.cmd[mb].len.toNat then .argLength
        else if t.hif.bootServed then .fwUnavailable else .unknownCommand) [] t
    else
      match headerFails t mb c with
      | some st => complete mb st [] t
      | none => (body (argBytes t mb) t).apply mb

/-- The MET services a lifecycle state forbids, and general conditions of 07 R255 used by several
families: RTC not valid for a billed session (04 R154). -/
def timeInvalid (s : State) : Bool := !s.time.valid || s.time.holdover

/-- The control base has its supply and is out of its reset: in RUN, IDLE and SAVE (01 Table 1.5). -/
def basePowered (s : State) : Bool := (s.pwr.state == .run || s.pwr.state == .idle || s.pwr.state == .save) && !s.pwr.inReset

/-- At least `n` AO32 cycles of LIFE have passed since an instant. -/
def passedSince (s : State) (l : Option Life) (n : Nat) : Bool :=
  match l with
  | none => false
  | some x => decide (n ≤ (s.time.life - x).toNat)

/-- Seconds in AO32 cycles (00 R18). -/
def secs (n : Nat) : Nat := n * 32768

/-- Milliseconds in AO32 cycles, rounded up. -/
def msecs (n : Nat) : Nat := (n * 32768 + 999) / 1000
end Sys2Proof.Machine
end

