-- ==== Sys2Proof/Machine/SlotKeys.lean ====
section
/-! DEFINITION. The keys of the key store's slots (18 R619, R624): written material, and derivation from the root and from parents. -/

namespace Sys2Proof.Machine

/-- The root secret, which never leaves the crypto engine (18 R619). (log 97, DESIGN CHOICE) -/
def rootSecret : Bytes := (List.finRange 32).map Config.rootSecret

/-- The salt of a binding (18 R624): empty, the measurement of the metrology image, or that of the running application image. -/
def slotSalt (s : State) (binding : Nat) : Bytes :=
  match binding with
  | 0 => []
  | 1 => s.fab.metrologyDigest
  | _ => s.key.boot.application

/-- The output of a derivation for a kind (18 R624). -/
def derivedKey (kind : Nat) (salt ikm info : Bytes) : Bytes :=
  let out := hkdf sha384Of salt ikm info
  match kind with
  | 3 => beBytes 32 (beNat (out 48) % (p256.n - 1) + 1)
  | 4 => beBytes 48 (beNat (out 64) % (p384.n - 1) + 1)
  | _ => out 32

/-- The key of a slot, through at most so many levels of derivation (18 R624, Table 18.7). -/
def slotKeyAt (s : State) : Nat → Fin 64 → Bytes
  | 0, _ => []
  | n + 1, i =>
    let r := s.keys.slots[i]
    if !r.derived then r.data
    else
      let ikm := if r.parent < 64 then slotKeyAt s n (Fin.ofNat 64 r.parent) else rootSecret
      derivedKey r.kind (slotSalt s r.binding) ikm (str "IKEV" ++ u8 i.val ++ u8 r.kind ++ r.data)

/-- The key of a slot. -/
def slotKey (s : State) (i : Fin 64) : Bytes := slotKeyAt s 9 i

/-- The curve of a slot's kind (18 Table 18.2). -/
def curveOf (kind : Nat) : Curve := if kind = 3 ∨ kind = 5 then p256 else p384

/-- A signature, r then s, verifies with the public key in a slot (18 R623). -/
def slotVerifies (s : State) (i : Fin 64) (msg sig : Bytes) : Bool := ecdsaVerify (curveOf s.keys.slots[i].kind) (slotKey s i) msg sig

/-- The legal signing key's public part (18 R625), and a record's signature in DER (10 R375). -/
def legalPublic (s : State) : Bytes := publicKey p256 (beNat (slotKey s 0))
def legalSignature (s : State) (payload : Bytes) : Option Bytes := (ecdsaSign p256 (beNat (slotKey s 0)) payload).map derSignature

end Sys2Proof.Machine
end

