-- ==== Sys2Proof/Machine/Trips.lean ====
section
/-! DEFINITION. Permits, trips and coil drive of the contactor drivers as the power die holds them
(01 R40 to R42, R52, 12 R426 to R428, 13 R484). -/

namespace Sys2Proof

/-- The stages in the order of the permit word (07 R252). -/
def Stage.all : List Stage := [.isl, .wv, .saf, .wch, .app]

/-- The stage's bit in a driver's permits (07 R252). -/
def Stage.bit : Stage → Nat
  | .isl => 0
  | .wv => 1
  | .saf => 2
  | .wch => 3
  | .app => 4

/-- A stage's permit. -/
def Permits.get (p : Permits) : Stage → Bool
  | .isl => p.isl
  | .wv => p.wv
  | .saf => p.saf
  | .wch => p.wch
  | .app => p.app

/-- A stage's permit changed. -/
def Permits.set (p : Permits) (v : Bool) : Stage → Permits
  | .isl => { p with isl := v }
  | .wv => { p with wv := v }
  | .saf => { p with saf := v }
  | .wch => { p with wch := v }
  | .app => { p with app := v }

/-- Every permit is granted (01 R40). -/
def Permits.all (p : Permits) : Bool := p.isl && p.wv && p.saf && p.wch && p.app

end Sys2Proof

namespace Sys2Proof.Machine

/-- The bits of a list of stages. -/
def stageBits (l : List Stage) : BitVec 5 :=
  l.foldl (fun w st => w ||| BitVec.ofNat 5 (2 ^ st.bit)) 0

/-- The permits of a driver as five bits (07 R252). -/
def permitBits (p : Permits) : BitVec 5 := stageBits (Stage.all.filter p.get)

/-- The permit word: driver n at bits 5n + 4 to 5n (07 R252). -/
def permitWord (s : State) : Nat :=
  (List.finRange 4).foldl (fun w d => w + (permitBits s.pd.drv[d].permits).toNat <<< (5 * d.val)) 0

/-- The trip latches, bits 3:0 (07 Table 7.4). -/
def latchBits (s : State) : Nat :=
  (List.finRange 4).foldl (fun w d => w + b1 s.pd.drv[d].latch <<< d.val) 0

/-- The outlet that a driver serves, and the drivers of an outlet, the first one first (11 R388). -/
def outletOf (d : Driver) : Outlet := if d.val < 2 then .a else .b
def driversOf : Outlet → List Driver
  | .a => [0, 1]
  | .b => [2, 3]
def firstDriver : Outlet → Driver
  | .a => 0
  | .b => 2
def secondDriver : Outlet → Driver
  | .a => 1
  | .b => 3

/-- A driver's record changed. -/
def modDrv (d : Driver) (f : Drv → Drv) (s : State) : State :=
  { s with pd := { s.pd with drv := vmod s.pd.drv d f } }

/-- A driver's trip cause word changed. -/
def modTrip (d : Driver) (f : TripWord → TripWord) (s : State) : State :=
  { s with safStore := { s.safStore with trips := vmod s.safStore.trips d f } }

/-- The wear counters changed. -/
def modWear (f : Wear → Wear) (s : State) : State :=
  { s with safStore := { s.safStore with wear := f s.safStore.wear } }

/-- An outlet's vehicle interface changed. -/
def modOut (o : Outlet) (f : OutS → OutS) (s : State) : State :=
  { s with veh := { s.veh with out := s.veh.out.modify o f } }

/-- An outlet's supervision by the safety core changed. -/
def modSaf (o : Outlet) (f : SafOut → SafOut) (s : State) : State :=
  { s with saf := { s.saf with out := s.saf.out.modify o f } }

/-- The set of values that acts on an outlet: the one in force when its session opened while a session is
open on it (11 R413, 12 R453), else the one in force. -/
def outCfg (s : State) (o : Outlet) : Cfg := ((s.veh.out.get o).snap).getD s.cfg

/-- A key of an outlet, as it acts on the outlet. -/
def outNat (s : State) (o : Outlet) (k : OutKey) : Nat := cfgNat (outCfg s o) s.fab (.out o k)
def outBool (s : State) (o : Outlet) (k : OutKey) : Bool := cfgBool (outCfg s o) s.fab (.out o k)
def outOpt (s : State) (o : Outlet) (k : OutKey) : Option Nat := cfgOpt (outCfg s o) s.fab (.out o k)

/-- The outlet is a DC outlet. -/
def isDc (s : State) (o : Outlet) : Bool := s.fab.isDc o

/-- The outlet's backup driver is named (12 R444). -/
def hasBackup (s : State) (o : Outlet) : Bool := (outOpt s o .backupDriver).isSome

/-- The drivers that the outlet uses (11 R388, 13 R489). -/
def usedDrivers (s : State) (o : Outlet) : List Driver :=
  if isDc s o || hasBackup s o then driversOf o else [firstDriver o]

/-- An entry in the safety fault log (12). -/
def faultLog (code : BitVec 16) (data : Nat) (s : State) : State :=
  { s with safStore := { s.safStore with faultLog := ⟨s.time.life, code, data⟩ :: s.safStore.faultLog } }

/-- A saturating count of one entry of a vector raised. -/
def bump {n : Nat} (v : Vector (BitVec 32) n) (i : Fin n) : Vector (BitVec 32) n :=
  vmod v i (fun c => satAdd 32 c 1)

/-- Cause codes (12 Table 12.2). -/
def causePowerFail : BitVec 16 := 0x0001
def causeVauxOv : BitVec 16 := 0x0002
def causeRail : BitVec 16 := 0x0003
def causeClock : BitVec 16 := 0x0004
def causeWatchdog : BitVec 16 := 0x0005
def causeHeartbeat : BitVec 16 := 0x0006
def causeInternal : BitVec 16 := 0x0007
def causeHoldup : BitVec 16 := 0x0008
def causeIslandLink : BitVec 16 := 0x0010
def causeComparator : BitVec 16 := 0x0011
def causeWeave : BitVec 16 := 0x0012
def causeSelfTest : BitVec 16 := 0x0013
def causeInput : BitVec 16 := 0x0014
def causeResidual : BitVec 16 := 0x0020
def causeRcdSensor : BitVec 16 := 0x0021
def causeInsulation : BitVec 16 := 0x0022
def causePe : BitVec 16 := 0x0023
def causePen : BitVec 16 := 0x0024
def causePilotShort : BitVec 16 := 0x0025
def causePilotFault : BitVec 16 := 0x0026
def causeCable : BitVec 16 := 0x0027
def causeOvervoltage : BitVec 16 := 0x0028
def causeOvertemp : BitVec 16 := 0x0029
def causeDischarge : BitVec 16 := 0x002A
def causeWeld : BitVec 16 := 0x002B
def causeGate : BitVec 16 := 0x002C
def causeEstop : BitVec 16 := 0x002D
def causeSeamLost : BitVec 16 := 0x0030
def causeSeamMismatch : BitVec 16 := 0x0031
def causeSeamStop : BitVec 16 := 0x0032
def causeCoilDriver : BitVec 16 := 0x0033
def causeSession : BitVec 16 := 0x0040
def causeLine : BitVec 16 := 0x0041
def causeLink : BitVec 16 := 0x0042

/-- Coil drive removed (13 R486): the phase ends, an opening above 5 A counts (13 R490), and the checks
after an opening fall due (12 R438, R444). -/
def coilOff (d : Driver) (s : State) : State :=
  if s.pd.drv[d].phase = .off then s
  else
    let o := outletOf d
    s |> ifDo (decide (5000 < (s.veh.out.get o).presentMa.natAbs))
          (modWear (fun w => { w with openings := bump w.openings d }))
      |> modDrv d (fun r => { r with phase := .off, driveEnd := s.time.life, mirrorDue := true, weldDue := true, weldGoodSince := none })
      |> ifDo (isDc s o) (modSaf o (fun x => { x with dischargeDue := true }))

/-- Coil drive begins once the last permit is granted with the latch clear (13 R484, R485): a pull-in is
counted, and the `cont.*` keys are taken (13 Table 13.3). -/
def coilOn (d : Driver) (s : State) : State :=
  let r := s.pd.drv[d]
  if r.permits.all && !r.latch && !r.heldOff && s.pd.linkUp && r.phase == .off && !s.pwr.ovCut then
    s |> modDrv d (fun r => { r with
            phase := .pullIn, driveStart := s.time.life, mirrorDue := true, weldDue := false
            economiser := cfgInt s.cfg s.fab (.cd d .economiser) == 1
            pullMs := cfgNat s.cfg s.fab (.cd d .pullMs)
            holdMa := cfgNat s.cfg s.fab (.cd d .holdMa)
            pullMinMa := cfgNat s.cfg s.fab (.cd d .pullMinMa) })
      |> modWear (fun w => { w with closings := bump w.closings d })
  else s

/-- A first-cause code added to a trip cause word: a fifth or later one is kept in the safety fault log
only (01 R52). -/
def addCode (d : Driver) (code : BitVec 16) (s : State) : State :=
  let w := s.safStore.trips[d]
  if w.codes.contains code then s
  else if w.codes.length < 4 then modTrip d (fun w => { w with codes := w.codes ++ [code] }) s
  else faultLog code d.val s

/-- CP of the first driver's outlet after a trip (12 R427): forced to state F, or state E after a power
failure; nothing after PERMIT_APP alone. -/
def forceCp (d : Driver) (code : BitVec 16) (appAlone : Bool) (s : State) : State :=
  if d.val % 2 = 1 ∨ appAlone then s
  else if code = causePowerFail then
    modOut (outletOf d) (fun x => { x with force := none, drive := .stateE, driveNext := none }) s
  else modOut (outletOf d) (fun x => { x with force := some .stateF, forceSince := s.time.life }) s

/-- Permits of driver `d` withdrawn by `stages` with a cause (01 R42, R52). The list is empty where the
power die itself removes the drive. With the latch clear this is a trip and its first-cause window opens;
inside the window it adds a first cause; after it, a following cause. A withdrawal of what is withdrawn
already is none. -/
def trip (d : Driver) (stages : List Stage) (code : BitVec 16) (s : State) : State :=
  let r := s.pd.drv[d]
  let newly := stages.filter r.permits.get
  let bits := if code = causeLink then stageBits stages else stageBits newly
  let t := modDrv d (fun r => { r with permits := stages.foldl (fun p st => p.set false st) r.permits }) s
  if !r.latch then
    if stages.isEmpty || !newly.isEmpty then
      t |> modTrip d (fun w => { firstPermits := bits, codes := [code], life := s.time.life, count := w.count })
        |> modDrv d (fun r => { r with latch := true, window := true, fresh := true, recorded := false, requested := false })
        |> coilOff d
        |> forceCp d code (bits == stageBits [.app])
    else t
  else if r.window then
    if stages.isEmpty || !newly.isEmpty || stages.any (fun st => (s.safStore.trips[d]).firstPermits.getLsbD st.bit) then
      t |> modTrip d (fun w => { w with firstPermits := w.firstPermits ||| bits })
        |> addCode d code
        |> forceCp d code (((s.safStore.trips[d]).firstPermits ||| bits) == stageBits [.app])
    else t
  else if newly.isEmpty then t
  else t |> modTrip d (fun w => { w with followPermits := w.followPermits ||| bits, followLife := s.time.life })

/-- A permit granted (01 R40). -/
def grant (d : Driver) (st : Stage) (s : State) : State :=
  s |> modDrv d (fun r => { r with permits := r.permits.set true st }) |> coilOn d

/-- The main contacts of a driver's contactor are open as the mirror reports them (13 R488): a closed
mirror means open for `nc`, closed for `no`. -/
def mainOpen (s : State) (d : Driver) : Bool :=
  let c := outCfg s (outletOf d)
  if cfgInt c s.fab (.cd d .mirror) = 0 then s.pd.drv[d].mirrorClosed else !s.pd.drv[d].mirrorClosed

/-- The contactors of an outlet are open: no drive, and every mirror reports open. -/
def contactorsOpen (s : State) (o : Outlet) : Bool :=
  (usedDrivers s o).all (fun d => s.pd.drv[d].phase == .off && mainOpen s d)

/-- The contactors of an outlet are closed. -/
def contactorsClosed (s : State) (o : Outlet) : Bool :=
  (usedDrivers s o).all (fun d => s.pd.drv[d].phase != .off)

end Sys2Proof.Machine
end

