-- ==== Sys2Proof/Machine/LegalOps.lean ====
section
/-! DEFINITION. MET's shared operations over the legal partition (10): the log, checkpoints, session
records, tamper records and the legal partition fault. -/

namespace Sys2Proof.Machine

/-- MET's working state changed. -/
def modBill (f : Bill → Bill) (s : State) : State := { s with bill := f s.bill }

/-- Legal MRAM changed. -/
def modLegal (f : Legal → Legal) (s : State) : State := { s with legal := f s.legal }

/-- A log entry put among those that wait, in the order of LIFE, then of learning (10 R370). -/
def insertEntry (e : LogEntry) : List LogEntry → List LogEntry
  | [] => [e]
  | x :: xs => if x.life.toNat ≤ e.life.toNat then x :: insertEntry e xs else e :: x :: xs

/-- The oldest waiting entry written into the ring under the next number (10 R368): the newest 16,128
stay readable. -/
def writeOldest (s : State) : State :=
  match s.bill.logWait with
  | [] => s
  | e :: rest =>
    { s with
      bill := { s.bill with logWait := rest }
      legal := { s.legal with
        log := ({ e with number := s.legal.nextEntry } :: s.legal.log).take 16128
        nextEntry := s.legal.nextEntry + 1 } }

/-- An entry put among those that wait (10 R369, R370); 64 entries may wait (Table 10.7). -/
def putEntry (e : LogEntry) (s : State) : State :=
  let t := if s.bill.logWait.length < 64 then s else writeOldest s
  { t with bill := { t.bill with logWait := insertEntry e t.bill.logWait } }

/-- An entry of the legal event log at a LIFE and EPOCH of its own (10 R369, R370). -/
def logAt (kind subject : Nat) (data : Bytes) (life : Life) (epoch : BitVec 16) (continued : Bool)
    (s : State) : State :=
  putEntry {
    kind := BitVec.ofNat 16 kind, epoch, life, rtc := s.time.rtcSec, rtcValid := s.time.valid
    continued, subject := BitVec.ofNat 8 subject, data := padTo 10 data } s

/-- An entry of the legal event log now (10 R369). -/
def log (kind subject : Nat) (data : Bytes) (s : State) : State :=
  logAt kind subject data s.time.life s.legal.epoch false s

/-- The subject of an entry without one (10 Table 10.3). -/
def noSubject : Nat := 0xFF

/-- MET's legal state copied into legal MRAM (10 R363). (log 65, DEDUCED) -/
def checkpoint (s : State) : State :=
  { s with legal := { s.legal with cp := {
      life := s.time.life, regs := s.bill.regs, demand := s.bill.demand, tariff := s.bill.tariff
      table := s.bill.table, nextTable := s.bill.nextTable, remote := s.bill.remote
      held := s.bill.held, coef := s.met.coef, running := s.bill.running } } }

/-- Active total over all tariffs of a register set, in µWh. -/
def activeTotal (v : Vector TariffRegs 8) (exp : Bool) : Nat :=
  v.toList.foldl (fun n r => n + (if exp then r.exp.active else r.imp.active)) 0

/-- The register set of an outlet. -/
def outletRegs (s : State) (o : Outlet) : Vector TariffRegs 8 :=
  match o with
  | .a => s.bill.regs.a
  | .b => s.bill.regs.b

/-- A reading of a record now (10 R374). -/
def takeReading (kind : ReadingKind) (o : Outlet) (r : Record) (s : State) : Reading :=
  { kind, rtc := s.time.rtcSec, sub := s.time.rtcSub, sync := s.time.valid && !s.time.holdover
    imp := activeTotal (outletRegs s o) false, exp := activeTotal (outletRegs s o) true
    bidirectional := r.bidirectional, tamper := !s.bill.tamper.isEmpty, stepped := r.stepped, gap := r.gap }

/-- The running record of an outlet changed. -/
def modRecord (o : Outlet) (f : Record → Record) (s : State) : State :=
  modBill (fun b => { b with running := b.running.modify o (Option.map f) }) s

/-- A record opened with its begin reading (10 R371, 09 Table 9.11), for a billed session that has none
yet. No record is opened under a legal partition fault (09 R343). -/
def openRecord (o : Outlet) (s : State) : State :=
  let x := s.veh.out.get o
  if !x.billed || s.legal.fault.isSome || (s.bill.running.get o).isSome then s
  else
    let r : Record := {
      number := s.legal.nextRecord, outlet := o, session := x.id, idKind := x.idKind
      identity := x.identity, idSource := x.idSource, readings := [], bidirectional := x.bidir }
    let r := { r with readings := [takeReading .beginR o r s] }
    s |> modLegal (fun l => { l with nextRecord := l.nextRecord + 1 })
      |> modBill (fun b => { b with running := b.running.modify o (fun _ => some r) })
      |> checkpoint

/-- The number of readable closed records (10 R376). -/
def recordsKept : Nat := 632

/-- A record closed with its end reading and put among the closed ones, which wait for their signature
(10 R371); an overwritten record is logged first (R376). -/
def storeRecord (r : Record) (s : State) : State :=
  s |> ifDo (decide (recordsKept ≤ s.legal.records.length))
        (log 0x0061 noSubject (u32 ((s.legal.records.getLast?.map Record.number).getD 0)))
    |> modLegal (fun l => { l with records := ({ r with closed := true } :: l.records).take recordsKept })

/-- The running record of an outlet closed by an end reading of a kind (10 R371, R374). -/
def closeRecord (o : Outlet) (kind : ReadingKind) (s : State) : State :=
  match s.bill.running.get o with
  | none => s
  | some r =>
    s |> modBill (fun b => { b with running := b.running.modify o (fun _ => none) })
      |> storeRecord { r with readings := r.readings ++ [takeReading kind o r s] }
      |> checkpoint

/-- The end reading of the running record falls due (09 Table 9.11); the first kind given holds. -/
def endRecord (o : Outlet) (kind : ReadingKind) (s : State) : State :=
  modRecord o (fun r => { r with ending := some (r.ending.getD kind) }) s

/-- A tariff-change reading in every running record, at most 10 each (10 R374). -/
def tariffReadings (s : State) : State :=
  forEach Outlet.all (fun o s => modRecord o (fun r =>
    if r.ending.isNone && decide (r.changes < 10) then
      { r with changes := r.changes + 1, readings := r.readings ++ [takeReading .tariff o r s] }
    else r) s) s

/-- The legal partition fault declared with its cause (01 R56, 10 Table 10.4), once. (log 59, DEDUCED) -/
def declareFault (cause : Nat) (s : State) : State :=
  if s.legal.fault.isSome then s
  else s |> modLegal (fun l => { l with fault := some cause })
    |> log 0x0051 noSubject (u8 cause)
    |> changeState (fun h => { h with legalFault := true })

/-- A tamper record opened (10 R366): a log entry at the LIFE of the event, the event, and the open
kind. -/
def openTamper (kind subject : Nat) (life : Life) (epoch : BitVec 16) (s : State) : State :=
  s |> logAt (0x0040 + kind) subject (u8 1) life epoch false
    |> modBill (fun b => { b with tamper := b.tamper ++ [(kind, BitVec.ofNat 8 subject)] })
    |> raise .tamper (u8 kind ++ u8 1 ++ u16 0 ++ u64 life.toNat)

/-- A tamper record closed (10 R366). -/
def closeTamper (kind subject : Nat) (life : Life) (epoch : BitVec 16) (s : State) : State :=
  s |> logAt (0x0040 + kind) subject (u8 0) life epoch false
    |> modBill (fun b => { b with tamper := b.tamper.filter (fun t => t != (kind, BitVec.ofNat 8 subject)) })
    |> raise .tamper (u8 kind ++ u8 0 ++ u16 0 ++ u64 life.toNat)

/-! ### The OCMF text of a record (10 R372 to R375; log 19, DESIGN CHOICE) -/

/-- A byte string in quotation marks. -/
def quoted (b : Bytes) : Bytes := 0x22 :: b ++ [0x22]

/-- A field of a JSON object. -/
def field (name : String) (v : Bytes) : Bytes := quoted (str name) ++ str ":" ++ v

/-- A JSON object, and a JSON array. -/
def object (fs : List Bytes) : Bytes := 0x7B :: joinWith 0x2C fs ++ [0x7D]
def array (es : List Bytes) : Bytes := 0x5B :: joinWith 0x2C es ++ [0x5D]

/-- A register in kWh with three decimals, truncated to the watt-hour (10 R374). -/
def kwh (microWh : Nat) : Bytes :=
  let wh := microWh / 1000000
  dec (wh / 1000) ++ str "." ++ digits 3 (wh % 1000)

/-- A text of an identity is carried as it stands up to 64 characters, a binary one up to 32 bytes in
upper-case hex, any longer one as the hex of its SHA-256 (10 R373). -/
def identityText (kind : Nat) (b : Bytes) : Bytes × Bool :=
  if kind = 1 then (if b.length ≤ 32 then (hexBytes b, false) else (hexBytes (sha256 b), true))
  else if b.length ≤ 64 then (b, false) else (hexBytes (sha256 b), true)

/-- The letter of a reading's kind (10 R374). -/
def readingLetter : ReadingKind → String
  | .beginR => "B"
  | .tariff => "T"
  | .normal => "E"
  | .requested => "R"
  | .fault => "A"
  | .power => "P"

/-- One reading of a direction (10 R374). -/
def readingText (dc exp : Bool) (r : Reading) : Bytes :=
  object [
    field "TM" (quoted (dateText r.rtc.toNat r.sub.toNat ++ str (if r.sync then " S" else " I"))),
    field "TX" (quoted (str (readingLetter r.kind))),
    field "RV" (kwh (if exp then r.exp else r.imp)),
    field "RI" (quoted (str (if exp then "1-b:2.8.0" else "1-b:1.8.0"))),
    field "RU" (quoted (str "kWh")),
    field "RT" (quoted (str (if dc then "DC" else "AC"))),
    field "EF" (quoted (str ((if r.stepped then "t" else "") ++ (if r.gap then "E" else "")))),
    field "ST" (quoted (str (if r.tamper then "T" else "G")))]

/-- The ordering code (02 R66, R68). -/
def orderingCode (f : Fab) : String :=
  (match f.variant with
    | .ad => "RNT48-AD"
    | .dd => "RNT48-DD"
    | .aa => "RNT48-AA") ++ (if f.minusE then "-E" else "")

/-- The device identity in hexadecimal. -/
def deviceHex (f : Fab) : Bytes := hexUpper f.deviceId.toNat 16

/-- The cable resistance of the outlet's profile in mΩ with three decimals (10 Table 10.5). -/
def cableText (f : Fab) (o : Outlet) : Bytes :=
  let rc := (match o with | .a => f.profile.sel.a | .b => f.profile.sel.b).rcUohm
  dec (rc / 1000) ++ str "." ++ digits 3 (rc % 1000)

/-- The payload object of a record (10 Table 10.5). -/
def payloadText (f : Fab) (r : Record) : Bytes :=
  let dc := f.isDc r.outlet
  let id := identityText r.idKind r.identity
  object (
    [field "FV" (quoted (str "1.0")), field "GI" (quoted (str "ISKECO RINARNA T48")),
     field "GS" (quoted (deviceHex f)), field "GV" (quoted (str "4." ++ dec Config.appMinor.val)),
     field "PG" (quoted (str "T" ++ dec r.number)), field "MV" (quoted (str "ISKECO")),
     field "MM" (quoted (str (orderingCode f))), field "MS" (quoted (deviceHex f)),
     field "MF" (quoted (str "LM2.1")), field "IS" (str (if r.idKind = 0 then "false" else "true")),
     field "IL" (Config.ocmfLevel r.idKind r.idSource), field "IF" (Config.ocmfFlags r.idKind r.idSource id.2),
     field "IT" (Config.ocmfType r.idKind r.idSource), field "ID" (quoted id.1),
     field "CT" (quoted (str "EVSE")), field "CI" (quoted (str (match r.outlet with | .a => "A" | .b => "B")))] ++
    (if dc then [field "LC" (object [field "LN" (quoted (str "cable")), field "LR" (cableText f r.outlet),
        field "LU" (quoted (str "mOhm"))])] else []) ++
    [field "RD" (array (r.readings.flatMap (fun x =>
      if r.bidirectional then [readingText dc false x, readingText dc true x] else [readingText dc false x])))])

/-- The whole record with its signature, or with an empty signature object (10 R375, R385). -/
def recordText (f : Fab) (r : Record) (signature : Option Bytes) : Bytes :=
  str "OCMF|" ++ payloadText f r ++ str "|" ++
    (match signature with
      | some sig => object [field "SA" (quoted (str "ECDSA-secp256r1-SHA256")), field "SE" (quoted (str "hex")),
          field "SM" (quoted (str "application/x-der")), field "SD" (quoted (hexBytes sig))]
      | none => object [])

/-- The energy of a closed record in Wh. -/
def recordWh (r : Record) : Nat :=
  match r.readings.head?, r.readings.getLast? with
  | some a, some b => (b.imp - a.imp) / 1000000
  | _, _ => 0

end Sys2Proof.Machine
end

