-- ==== Sys2Proof/Machine/MsgOps.lean ====
section
/-! DEFINITION. The operator's message queue and what leaves it (15 R542, R544, R558, R561), and whether an
outlet is out of service (12 R463). -/

namespace Sys2Proof.Machine

/-- The services changed; what application data MRAM holds of them changed. -/
def modSvc (f : Svc → Svc) (s : State) : State := { s with svc := f s.svc }
def modApp (f : AppStore → AppStore) (s : State) : State := { s with app := f s.app }

/-- The answer to a request of the back office (15). -/
def answer (accepted : Bool) : State → State :=
  modSvc (fun v => { v with answer := str (if accepted then "Accepted" else "Rejected") })

/-- The OCPP version in force: 0 is 1.6J, 1 is 2.0.1 (15 Table 15.4). -/
def ocppVersion (s : State) : Option Nat := cfgOpt s.cfg s.fab (.gen .ocppVersion)

/-- Messages that the queue never drops (15 R558). -/
def undroppable (m : OpMsg) : Bool := m.kind == .txStart || m.kind == .txEnd || m.kind == .record || m.kind == .security

/-- Bytes of the queue's messages (log 26, DESIGN CHOICE). -/
def queueBytes (l : List OpMsg) : Nat := (l.map (fun m => m.text.length)).sum

/-- The first message of a kind taken out of a list. -/
def dropFirst (p : OpMsg → Bool) : List OpMsg → List OpMsg
  | [] => []
  | m :: ms => if p m then ms else m :: dropFirst p ms

/-- The queue brought within 2,000 messages and 1 MiB (15 R558): the oldest meter value goes first, then
the oldest message that may be dropped. -/
def trimQueue : Nat → List OpMsg → List OpMsg
  | 0, l => l
  | n + 1, l =>
    if l.length ≤ 2000 ∧ queueBytes l ≤ 1048576 then l
    else if l.any (fun m => m.kind == .meter) then trimQueue n (dropFirst (fun m => m.kind == .meter) l)
    else trimQueue n (dropFirst (fun m => !undroppable m) l)

/-- Messages that the back office answers with a row of its own. -/
def awaitsAnswer (m : OpMsg) : Bool :=
  [MsgKind.boot, .heartbeat, .authorize, .txStart, .txEnd, .record].contains m.kind

/-- A message sent on the connection. -/
def sendNow (m : OpMsg) (s : State) : State :=
  modSvc (fun v => { v with last := some m, sent := if awaitsAnswer m then v.sent ++ [m] else v.sent }) s

/-- A message that carries a signed record: it alone is not held by a BootNotification answered Pending or
Rejected (15 R561). -/
def carriesRecord (m : OpMsg) : Bool := m.kind == .record || (m.kind == .txEnd && !m.text.isEmpty)

/-- A message may leave the queue now (15 R561). -/
def maySend (s : State) (m : OpMsg) : Bool :=
  s.svc.connected && (s.svc.booted || (s.svc.held && carriesRecord m))

/-- The queue sent in order, as far as it may be (15 R558, R561). -/
def flush (s : State) : State :=
  let out := s.app.queue.filter (maySend s)
  s |> modApp (fun a => { a with queue := a.queue.filter (fun m => !maySend s m) })
    |> fun t => out.foldl (fun t m => sendNow m t) t

/-- A message put into the queue (15 R558). -/
def putMsg (m : OpMsg) (s : State) : State :=
  if (ocppVersion s).isNone then s
  else s |> modApp (fun a => { a with queue := trimQueue (a.queue.length + 1) (a.queue ++ [m]) }) |> flush

/-- Messages of which the delivery is repeated go back to the queue's front when the connection or the
cores that sent them are lost (15 R544, R558). -/
def requeue (s : State) : State :=
  s |> modApp (fun a => { a with queue := s.svc.sent.filter undroppable ++ a.queue })
    |> modSvc (fun v => { v with sent := [] })

/-- A message put before the transactions that wait to be started: the ends of sessions that a power failure cut go first
(15 R563). -/
def putFirst (m : OpMsg) (s : State) : State :=
  if (ocppVersion s).isNone then s
  else
    let p := fun (x : OpMsg) => x.kind != .txStart
    let put := fun (l : List OpMsg) => trimQueue (l.length + 1) (l.takeWhile p ++ m :: l.dropWhile p)
    s |> modApp (fun a => { a with queue := put a.queue }) |> flush

/-- The record that a message carries or belongs to. -/
def msgRecord (m : OpMsg) : Option Int :=
  match m.kind with
  | .txEnd => m.nums[2]?
  | .record => m.nums[1]?
  | _ => none

/-- A security event for the back office (15 R562, 18 R634). -/
def securityMsg (what : String) : State → State := putMsg { kind := .security, text := str what }

/-- The time set for an operator's installation has come (19 R671): no new session starts until the restart. -/
def installDue (s : State) : Bool :=
  s.svc.updateWaits && s.time.valid && ((s.svc.install).map (fun n => decide (n ≤ s.time.rtcSec.toNat))).getD false

/-- The connection's state reported (15 R539). -/
def connectionEvent (s : State) : State :=
  raise .ocppConnection (flag s.svc.connected ++ u8 ((ocppVersion s).map (· + 1) |>.getD 0)) s

/-- The next reconnect wait in ms (15 R539): 1 s doubled for each wait made, at most `ocpp.retry_max_s`,
lengthened by up to a quarter (log 11, DESIGN CHOICE). -/
def nextWait (s : State) : Nat :=
  let base := min (2 ^ (min s.svc.retries 12)) (cfgNat s.cfg s.fab (.gen .retryMaxS)) * 1000
  base + base * (Config.jitter s.nd).val / 1000

/-- The reconnect wait starts. -/
def startWait (s : State) : State :=
  s |> modSvc (fun v => { v with waitMs := nextWait s, retries := v.retries + 1, waitAt := s.time.life }) |> draw

/-- The connection is lost (15 R561). -/
def loseConnection (s : State) : State :=
  if s.svc.connected then
    s |> requeue
      |> modSvc (fun v => { v with connected := false, booted := false, held := false, retries := 0 })
      |> startWait
      |> connectionEvent
  else s

/-- The outlet is out of service (11 R419, 12 R438, R443, R463): a driver in use is held by a failed test, a
weld, a discharge or a driver fault, or a pilot short persists. -/
def outOfService (s : State) (o : Outlet) : Bool :=
  let codes := [causeRcdSensor, causePe, causeWeld, causeDischarge, causeGate, causeCoilDriver]
  let x := s.veh.out.get o
  (usedDrivers s o).any (fun d =>
    let r := s.pd.drv[d]
    r.latch && (r.gateFailed || r.held.any (fun c => codes.contains c ||
      (c == causeInsulation && (s.saf.out.get o).imd.checkFailed)))) ||
    (x.state == .fault && x.reason == .pilotShort && x.cp == .e)

/-- A reservation holds the outlet, by name or through its number 0 (15 R553). -/
def reservedFor (s : State) (o : Outlet) : Option Reservation :=
  s.svc.reservations.find? (fun r => !r.ended && r.outlet == some o)

/-- The status that the outlet reports to the back office (15 Table 15.2). -/
def statusText (s : State) (o : Outlet) : String :=
  let x := s.veh.out.get o
  let v16 := ocppVersion s == some 0
  if outOfService s o then "Unavailable"
  else
    match x.state with
    | .idle => if (reservedFor s o).isSome || x.reservation != 0 then "Reserved" else "Available"
    | .fault => "Faulted"
    | .transfer => if v16 then "Charging" else "Occupied"
    | .paused => if !v16 then "Occupied" else if x.vehPaused then "SuspendedEV" else "SuspendedEVSE"
    | .stopping | .ended => if v16 then "Finishing" else "Occupied"
    | _ => if v16 then "Preparing" else "Occupied"

/-- StatusNotification for each outlet whose status has changed from what `before` gave (15 R542). -/
def reportStatus (before : State) (s : State) : State :=
  forEach Outlet.all (fun o s =>
    if statusText before o = statusText s o then s
    else putMsg { kind := .status, outlet := some o, text := str (statusText s o) } s) s

end Sys2Proof.Machine
end

