-- ==== Sys2Proof/Machine/Sessions.lean ====
section
/-! DEFINITION. The shared operations of a session: its states, PERMIT_APP, the stop sequence, its end, and
what a trip does to it (11 R402, R403, R415, R418). -/

namespace Sys2Proof.Machine

/-- The number of a session state (07 Table 7.12). -/
def stateNum : SessState → Nat
  | .idle => 0
  | .plugged => 1
  | .authorising => 2
  | .negotiating => 3
  | .insulation => 4
  | .preCharge => 5
  | .transfer => 6
  | .paused => 7
  | .stopping => 8
  | .ended => 9
  | .fault => 10

/-- The u16 reason of EV_SESSION_STATE (log 7, DESIGN CHOICE): 0 for none, the host's own reason as it gave it. -/
def reasonWord : Reason → BitVec 16
  | .none => 0
  | .host c => c
  | r => Config.reasonCode r

/-- The session state entered, which EV_SESSION_STATE and StatusNotification report (11 R402, 15 R542). -/
def enter (o : Outlet) (st : SessState) (r : Reason) (s : State) : State :=
  let x := s.veh.out.get o
  if x.state = st ∧ x.reason = r then s
  else s |> modOut o (fun x => { x with state := st, reason := r, since := s.time.life })
    |> raise .sessionState (u32 x.id.toNat ++ u8 o.num ++ u8 (stateNum st) ++ u16 (reasonWord r).toNat)
    |> reportStatus s

/-- A session is open on the outlet (log 9, DESIGN CHOICE). -/
def sessionOpen (s : State) (o : Outlet) : Bool := (s.veh.out.get o).id != 0

/-- A session is open on either outlet. -/
def anySession (s : State) : Bool := sessionOpen s .a || sessionOpen s .b

/-- The session's state has one of the numbers. -/
def stateIn (s : State) (o : Outlet) (l : List SessState) : Bool := l.contains (s.veh.out.get o).state

/-- PERMIT_APP withdrawn from the outlet's drivers with cause SESSION (11 R403, 12 R428). -/
def withdrawApp (o : Outlet) (s : State) : State :=
  forEach (driversOf o) (fun d => trip d [.app] causeSession) s

/-- StartTransaction under 1.6J once a record has opened (15 Table 15.3): session and meterStart in Wh. -/
def startTransaction (before : State) (o : Outlet) (s : State) : State :=
  let x := s.veh.out.get o
  if (before.bill.running.get o).isNone && (s.bill.running.get o).isSome && ocppVersion s == some 0 then
    putMsg { kind := .txStart, outlet := some o, nums := [x.id.toNat, activeTotal (outletRegs s o) false / 1000000], text := x.identity } s
  else s

/-- PERMIT_APP granted to the outlet's drivers (11 R403, 13 R489): on a DC outlet the DC- driver first, and
the DC+ driver once the DC- mirror reports closed. A record opens before the closing (09 Table 9.11). -/
def grantApp (o : Outlet) (s : State) : State :=
  let t := startTransaction s o (openRecord o s)
  if isDc s o then grant (secondDriver o) .app t
  else t |> grant (firstDriver o) .app |> ifDo (hasBackup s o) (grant (secondDriver o) .app)

/-- A drive of the control pilot decided; it takes effect with the next PWM period (11 R397). -/
def setDrive (o : Outlet) (d : CpDrive) : State → State := modOut o (fun x => { x with driveNext := some d })

/-- The vehicle's part of a session cleared at its end. -/
def clearSession (x : OutS) : OutS :=
  { x with
    id := 0, billed := false, idKind := 0, identity := [], idSource := 0, authorised := false, slac := .idle
    runId := 0, attenDb := 0, nmk := [], sdp := .none, protocol := none, target := 0, targetW := none
    veh := none, bidir := false, delivered := 0, held := false, dwell := none, reversing := false
    negotiating := false, refused := false, vehPaused := false, pauseSince := none, stopSince := none
    insTest := .none, testMv := 0, preMv := none, preReady := false, started := false, exporting := false
    snap := none, seamCap := none, reservation := 0 }

/-- TransactionEvent Ended under 2.0.1 for a billed session of which no record was opened (15 Table 15.3). -/
def endTransaction (o : Outlet) (s : State) : State :=
  let x := s.veh.out.get o
  if x.billed && x.state != .idle && ocppVersion s == some 1 && (s.bill.running.get o).isNone &&
      !s.legal.records.any (fun r => r.outlet == o && r.session == x.id) then
    putMsg { kind := .txEnd, outlet := some o, nums := [x.id.toNat] } s
  else s

/-- The session ended: state 9, PERMIT_APP withdrawn, the pilot at +12 V, and the session closed; state 0
follows once CP reads A (11 R402, R403). The end of a session is a checkpoint (10 R363). -/
def enterEnded (o : Outlet) (r : Reason) (s : State) : State :=
  s |> withdrawApp o
    |> endRecord o .normal
    |> endTransaction o
    |> ifDo (sessionOpen s o && s.met.running) checkpoint
    |> enter o .ended r
    |> modOut o (fun x => clearSession x)
    |> setDrive o .plus12
    |> fun t => if (t.veh.out.get o).cp = .a then enter o .idle .none t else t

/-- A trip's window is still open on a driver of the outlet, or its cause is not yet recorded. -/
def tripPending (s : State) (o : Outlet) : Bool :=
  (usedDrivers s o).any (fun d => s.pd.drv[d].window || !s.pd.drv[d].recorded)

/-- The session leaves state 8 once the contactors are open and, on DC, the output is discharged and
welding detection is done, and state 10 once the contactors are open and the fault is recorded, unless a
pilot short persists (11 R402, R419). -/
def settle (o : Outlet) (s : State) : State :=
  let x := s.veh.out.get o
  if x.state = .stopping ∧ contactorsOpen s o ∧
      (isDc s o → (x.outletMv < 60000 ∧ (usedDrivers s o).all (fun d => !s.pd.drv[d].weldDue))) then
    enterEnded o x.reason s
  else if x.state = .fault ∧ contactorsOpen s o ∧ !tripPending s o ∧ !(x.reason = .pilotShort ∧ x.cp = .e) then
    enterEnded o x.reason s
  else s

/-- State 10 with a reason (11 R418): PERMIT_APP withdrawn, the end reading due as forced by a fault. -/
def enterFault (o : Outlet) (r : Reason) (s : State) : State :=
  if stateIn s o [.idle, .ended, .fault] then s
  else s |> endRecord o .fault
    |> withdrawApp o
    |> enter o .fault r
    |> modOut o (fun x => { x with lockout := x.lockout || r == .pilotFault || r == .cable })
    |> settle o

/-- The contactor opening of a stop (11 R415). -/
def openForStop (o : Outlet) (s : State) : State := s |> withdrawApp o |> settle o

/-- The stop sequence begins (11 R402, R415): state 8. AC: CP at +12 V. DC: the limit ramps to zero. In a
state without coil drive the session ends at once. -/
def stopSession (o : Outlet) (r : Reason) (kind : ReadingKind) (s : State) : State :=
  if stateIn s o [.idle, .stopping, .ended, .fault] then s
  else
    let t := s |> endRecord o kind |> enter o .stopping r
      |> modOut o (fun x => { x with
          target := 0, targetW := none, slac := .idle, dwell := none, reversing := false
          negotiating := false, insTest := .none, preMv := none, stopSince := some s.time.life })
      |> ifDo (!isDc s o) (setDrive o .plus12)
    if (usedDrivers t o).all (fun d => t.pd.drv[d].phase == .off) then openForStop o t
    else if isDc t o ∧ (t.veh.out.get o).presentMa.natAbs < 5000 then openForStop o t
    else t

/-- The reason a session carries after a trip (11 Table 11.11). -/
def reasonOf (code : BitVec 16) : Reason :=
  if code = causePilotShort then .pilotShort
  else if code = causePilotFault then .pilotFault
  else if code = causeCable then .cable
  else if code = causeInsulation then .insulation
  else if code = causePowerFail then .powerFailure
  else .permit

/-- What a trip of a driver in use does to the outlet's session (11 Table 11.10): with coil drive in use,
state 10; in state 8 the opening. -/
def tripReact (o : Outlet) (r : Reason) (s : State) : State :=
  if stateIn s o [.insulation, .preCharge, .transfer, .paused] then enterFault o r s
  else if stateIn s o [.stopping] then settle o s
  else s

/-- Permits withdrawn from several drivers with one cause, and the sessions' reaction. -/
def withdraw (ds : List Driver) (stages : List Stage) (code : BitVec 16) (s : State) : State :=
  let t := forEach ds (fun d => trip d stages code) s
  forEach (Outlet.all.filter (fun o => (usedDrivers s o).any (fun d => ds.contains d && t.pd.drv[d].latch && !s.pd.drv[d].latch)))
    (fun o => tripReact o (reasonOf code)) t

/-- All four drivers. -/
def allDrivers : List Driver := [0, 1, 2, 3]

/-- PERMIT_SAF withdrawn by the safety core, which holds it for the cause until its condition is met
(12 Table 12.2). -/
def safTrip (ds : List Driver) (code : BitVec 16) (s : State) : State :=
  s |> forEach ds (fun d => modDrv d (fun r => { r with held := if r.held.contains code then r.held else r.held ++ [code] }))
    |> withdraw ds [.saf] code
    |> reportStatus s

/-- A session's energy so far in Wh. -/
def sessionWh (s : State) (o : Outlet) : Nat :=
  (activeTotal (outletRegs s o) false - (s.veh.out.get o).startImp) / 1000000

end Sys2Proof.Machine
end

