-- ==== Sys2Proof/Machine/LsOps.lean ====
section
/-! DEFINITION. The load switches' operations (13 R472 to R481, R494). -/

namespace Sys2Proof.Machine

/-- The power die's state changed; a load switch changed. -/
def modPd (f : Pd → Pd) (s : State) : State := { s with pd := f s.pd }
def modLs (n : Fin 32) (f : LoadSwitch → LoadSwitch) : State → State :=
  modPd (fun p => { p with ls := vmod p.ls n f })

/-- The channel whose bit and keys govern channel `n`: the even one of a pair (R473). -/
def lsGov (s : State) (n : Fin 32) : Fin 32 :=
  let e := Fin.ofNat 32 (n.val - n.val % 2)
  if s.pd.ls[e].paired then e else n

/-- The channels that channel `n` governs (R473). -/
def lsMembers (s : State) (n : Fin 32) : List (Fin 32) :=
  if lsGov s n ≠ n then []
  else if n.val % 2 = 0 ∧ s.pd.ls[n].paired then [n, Fin.ofNat 32 (n.val + 1)] else [n]

/-- A key of a channel. -/
def lsKey (s : State) (n : Fin 32) (k : LsKey) : Nat := cfgNat s.cfg s.fab (.ls n k)

/-- The state that the owner of a channel gives it; none for a channel without an owner (R475). -/
def lsOwner (s : State) (n : Fin 32) : Option Bool :=
  Outlet.all.findSome? (fun o =>
    if outOpt s o .rcdSupplyLs = some n.val then some true
    else if outOpt s o .shuntTripLs = some n.val then some (s.pd.shunt.get o).isSome
    else none)

/-- The fail state of a channel (Table 13.3, Table 13.6): off, on, or the commanded state. -/
def lsFailState (s : State) (n : Fin 32) : Bool :=
  match lsKey s n .fail with
  | 0 => false
  | 1 => true
  | _ => s.pd.ls[n].commanded

/-- The output of a governing channel (R474, R475, Table 13.6, R497, R498). -/
def lsTarget (s : State) (n : Fin 32) : Bool :=
  let c := s.pd.ls[n]
  if !s.pd.started || s.pwr.state == .save || s.pwr.state == .watch || s.pwr.state == .off then false
  else if c.trip != .none || s.pwr.ovCut then false
  else if !s.pd.linkUp || s.pd.linkHold then (if (lsOwner s n).isSome then false else lsFailState s n)
  else
    match lsOwner s n with
    | some b => b
    | none => if s.pd.lsFail then lsFailState s n else c.commanded

/-- A channel's output taken to a state: a switch-on counts (R490); a turn-off under current may be a clamp
event above 1 mJ, which counts (R481). -/
def lsSetOut (n : Fin 32) (on : Bool) (clamp : Option Bool) (s : State) : State :=
  let c := s.pd.ls[n]
  if c.out = on then s
  else if on then
    s |> modLs n (fun c => { c with out := true }) |> modWear (fun w => { w with switchOns := bump w.switchOns n })
  else
    let t := modLs n (fun c => { c with out := false }) s
    let big := clamp.getD (c.mA != 0 && Config.clampEvent s.nd)
    (if clamp.isNone ∧ c.mA ≠ 0 then draw t else t)
      |> ifDo big (fun s => s
          |> modWear (fun w => { w with clamps := bump w.clamps n })
          |> modLs n (fun c => { c with lastClamp := some s.time.life }))

/-- Every output as its target says; `clamp` says of a turn-off whether it was a clamp event above 1 mJ,
where that is known. -/
def applyLsWith (clamp : Fin 32 → Option Bool) (s : State) : State :=
  forEach (List.finRange 32) (fun n t => lsSetOut n (lsTarget s (lsGov s n)) (clamp n) t) s

/-- Every output as its target says. -/
def applyLs (s : State) : State := applyLsWith (fun _ => none) s

/-- Rated current in mA and time constant in s of a wire (Table 13.1). -/
def wireMa : Nat → Nat
  | 0 => 1000
  | 1 => 2000
  | 2 => 3000
  | 3 => 4000
  | _ => 6000
def wireTau : Nat → Nat
  | 0 => 10
  | 1 => 15
  | 2 => 20
  | 3 => 25
  | _ => 30

/-- The trip level and the restart level of the heat (R476, R478), in 10^-9. -/
def heatTrip : Nat := 1210000000
def heatRestart : Nat := 605000000

/-- The heat after 50 µs of a current (R476; log 21, DESIGN CHOICE): it follows (I / I_r)² with the wire's time
constant. -/
def heatStep (wire mA theta : Nat) : Nat :=
  let level := mA * mA * 1000000000 / (wireMa wire * wireMa wire)
  let d := 20000 * wireTau wire
  if theta ≤ level then theta + (level - theta) / d else theta - (theta - level + d - 1) / d

/-- A channel's state as LOAD_SWITCH_STATUS_GET codes it (07 Table 7.14). -/
def lsStateCode (c : LoadSwitch) : Nat :=
  match c.trip with
  | .i2t => 2
  | .restart => 3
  | .latched => 4
  | .none => b1 c.out

/-- The outputs as a mask. -/
def lsWord (s : State) : Nat := (List.finRange 32).foldl (fun n i => n + b1 s.pd.ls[i].out <<< i.val) 0

/-- A channel tripped, with its event (07 EV_LOAD_SWITCH_FAULT kinds 1 to 3). -/
def lsTrip (n : Fin 32) (t : LsTrip) (kind : Nat) (clamp : Option Bool) (s : State) : State :=
  s |> forEach (lsMembers s n) (fun m => modLs m (fun c => { c with trip := t }))
    |> applyLsWith (fun m => if m = n then clamp else none)
    |> raise .loadSwitchFault (u8 n.val ++ u8 kind)

/-- The shunt-trip pulse of an outlet after a WELD trip (R475); it restarts if it runs (Table 13.5). -/
def shuntPulse (o : Outlet) (s : State) : State :=
  if (outOpt s o .shuntTripLs).isSome then
    s |> modPd (fun p => { p with shunt := p.shunt.modify o (fun _ => some s.time.life) }) |> applyLs
  else s

end Sys2Proof.Machine
end

