-- ==== Sys2Proof/Machine/TimeOps.lean ====
section
/-! DEFINITION. The TIME block's operations (04): adjustments, the count of an AO32 cycle, and the timers. -/

namespace Sys2Proof.Machine

/-- The kept part of the TIME block changed. -/
def modTime (f : Time → Time) (s : State) : State := { s with time := f s.time }

/-- The part of the TIME block in the control base changed. -/
def modTb (f : TimeBase → TimeBase) (s : State) : State := { s with tb := f s.tb }

/-- The RTC as a count of AO32 cycles since 2000-01-01T00:00:00 (04 R133). -/
def rtcCount (t : Time) : Int := t.rtcSec.toNat * 32768 + t.rtcSub.toNat

/-- The highest RTC second, and the last count (04 R152, R153). -/
def rtcMaxSec : Nat := 8078572799
def rtcMaxCount : Int := 8078572799 * 32768 + 32767

/-- The RTC set to a count. -/
def setRtc (n : Int) (t : Time) : Time :=
  { t with rtcSec := BitVec.ofNat 33 (n.toNat / 32768), rtcSub := BitVec.ofNat 15 (n.toNat % 32768) }

/-- An offset in milliseconds as AO32 cycles, and back (04 R136). -/
def msToCycles (ms : Int) : Int := roundDiv (ms * 4096) 125
def cyclesToMs (n : Int) : Int := roundDiv (n * 125) 4096

/-- The offset of the adjustments written in this AO32 cycle together with an unabsorbed slew (04 R155). -/
def writtenOffset (t : Time) : Int :=
  match t.write with
  | none => t.slewLeft
  | some w => if w.absolute then w.offset else t.slewLeft + w.offset

/-- A result lies in the RTC's range (04 R152). -/
def rtcInRange (n : Int) : Bool := 0 ≤ n && n ≤ rtcMaxCount

/-- A write of a relative offset in milliseconds (04 R136, R155); the flag says that it was refused
(R152). -/
def adjustMs (ms : Int) (s : State) : Bool × State :=
  let t := s.time
  let c := msToCycles ms
  if rtcInRange (rtcCount t + writtenOffset t + c) then
    let w : RtcWrite :=
      match t.write with
      | none => ⟨false, c⟩
      | some w => ⟨w.absolute, w.offset + c⟩
    (false, modTime (fun t => { t with write := some w }) s)
  else (true, modTime (fun t => { t with adjRefused := true }) s)

/-- A write of an absolute second (04 R136): it discards the offsets before it. -/
def setSecond (sec : Nat) (s : State) : Bool × State :=
  if sec ≤ rtcMaxSec then
    (false, modTime (fun t => { t with write := some ⟨true, sec * 32768 - rtcCount t⟩ }) s)
  else (true, modTime (fun t => { t with adjRefused := true }) s)

/-- The trim written: held at ±500 (04 R140, Table 4.3). -/
def clipTrim (v : Int) : Int := max (-500) (min 500 v)
def setTrim (v : Int) (s : State) : State :=
  modTime (fun t => { t with trim := BitVec.ofInt 10 (clipTrim v), trimClipped := t.trimClipped || clipTrim v != v }) s

/-- The slew's part of one cycle: one count per 1,000 cycles (04 R137). (log 35, DEDUCED) -/
def slewStep (t : Time) : Int × Time :=
  if t.slewLeft = 0 then (0, { t with slewPhase := 0 })
  else if t.slewPhase + 1 < 1000 then (0, { t with slewPhase := t.slewPhase + 1 })
  else
    let d : Int := if 0 < t.slewLeft then 1 else -1
    (d, { t with slewPhase := 0, slewLeft := t.slewLeft - d })

/-- The trim's part of one cycle (04 R140), in 0.1 ppm of a count; a count is never omitted twice. -/
def trimStep (slew : Int) (t : Time) : Int × Time :=
  let a := t.trimAcc + t.trim.toInt
  if 10000000 ≤ a then (1, { t with trimAcc := a - 10000000 })
  else if a ≤ -10000000 ∧ 0 ≤ slew then (-1, { t with trimAcc := a + 10000000 })
  else (0, { t with trimAcc := a })

/-- The RTC's count of one AO32 cycle (04 R133, R137, R140); it stops at its range end (R153). -/
def rtcTick (t : Time) : Time :=
  if t.rangeEnd then t
  else
    let (d1, t1) := slewStep t
    let (d2, t2) := trimStep d1 t1
    setRtc (min rtcMaxCount (rtcCount t2 + 1 + d1 + d2)) t2

/-- A report for MET (04 R139). -/
def report (step : Bool) (before after : Int) (offset : Int) (wasValid : Bool) (s : State) : State :=
  modTb (fun b => { b with reports := b.reports ++ [⟨step, before.toNat / 32768, after.toNat / 32768, offset, s.time.life, wasValid⟩] }) s

/-- The adjustments of the cycle take effect after the rollover (04 R137, R138, R155, R156), and the
commands that wait for them complete (R155). A step accepted at the very end of the range stops there (R152, R153; log 67,
DEDUCED). -/
def applyWrite (s : State) : State :=
  match s.time.write with
  | none => s
  | some _ =>
    let t := s.time
    let sum := writtenOffset t
    let now := rtcCount t
    let slew := t.valid && decide (sum.natAbs ≤ t.adjLimit * 32768)
    let s1 :=
      if slew then
        s |> modTime (fun t => { t with write := none, slewLeft := sum, slewPhase := 0, slewing := sum != 0 })
          |> ifDo (sum != 0) (report false now (now + sum) sum t.valid)
      else
        let to_ := max 0 (min rtcMaxCount (now + sum))
        s |> modTime (fun t => setRtc to_ { t with
              write := none, slewLeft := 0, slewPhase := 0, slewing := false, valid := true, rangeEnd := false })
          |> report true now to_ sum t.valid
    let resp := i64 (cyclesToMs sum) ++ u32 (b1 (!slew))
    s1 |> forEach s.tb.waiting (completeRunning .ok resp) |> modTb (fun b => { b with waiting := [] })

/-- REF cycles of the AO32 cycle of a draw: 1,500 (01 Table 1.4), at most one off within the errors of 04 R149, and at most
8 off in holdover (log 16, DESIGN CHOICE). -/
def refCycles (holdover : Bool) (n : Nat) : Nat :=
  if holdover then 1492 + (Config.refSlip n).val else 1499 + (Config.refSlip n).val % 3

/-- The timers advance by the REF cycles of an AO32 cycle (04 R141, R164). -/
def timersTick (s : State) : State :=
  ifDo (basePowered s) (fun s =>
    let n := refCycles s.time.holdover s.nd
    s |> draw
      |> modTb (fun b => { b with timers := b.timers.map (fun t =>
          { t with count := t.count + BitVec.ofNat 32 n, due := if t.running = 0 then 0 else t.due - n }) })) s

/-- The master that owns a timer (04 R144). -/
def ownsTimer (m : Master) (n : Fin 16) : Bool :=
  if n.val < 12 then m == .app0 || m == .app1 else if n.val < 14 then m == .met else m == .saf

/-- The owner of a timer runs (04 R144: an application timer's event is held while IDLE). -/
def ownerRuns (s : State) (n : Fin 16) : Bool :=
  if n.val < 12 then s.pwr.appIsland && s.pwr.state != .idle else if n.val < 14 then s.met.running else s.saf.running

/-- A timer changed. -/
def modTimer (n : Fin 16) (f : Timer → Timer) : State → State := modTb (fun b => { b with timers := vmod b.timers n f })

/-- A write to TMRn_PERIOD by the timer's owner (04 R142 to R144): its period counts from the write. -/
def setPeriod (p : Word32) (t : Timer) : Timer :=
  if p = 0 then { t with period := 0, running := 0, due := 0, evt := false, irq := false }
  else if p.toNat < 64 then { t with periodRefused := true }
  else if t.running = 0 then { t with period := p, running := p, due := p.toNat }
  else { t with period := p }

/-- A write to TMRn_STATUS (04 Table 4.3): each written 1 clears its bit; with EVT the interrupt of the event goes. -/
def clearTimer (w : Word32) (t : Timer) : Timer :=
  { t with
    evt := t.evt && !w.getLsbD 0, periodRefused := t.periodRefused && !w.getLsbD 1
    overrun := t.overrun && !w.getLsbD 2, irq := t.irq && !w.getLsbD 0 }

/-- The application's timer events held in EVT interrupt it once it runs again (04 R144). -/
def raiseHeldTimers : State → State :=
  modTb (fun b => { b with timers := Vector.ofFn (fun i : Fin 16 =>
    let t := b.timers[i]
    { t with irq := t.irq || (decide (i.val < 12) && t.evt && t.irqEn) }) })

/-- TMRn_STATUS as read (04 Table 4.3). -/
def timerStatus (t : Timer) : Nat := b1 t.evt + 2 * b1 t.periodRefused + 4 * b1 t.overrun

/-- CAL_DATE and CAL_TIME (04 R133, Table 4.3). -/
def calDate (t : Time) : Nat :=
  let c := civil t.rtcSec.toNat
  c.day + c.month <<< 8 + (c.year - 2000) <<< 16 + (c.weekday + 1) <<< 24
def calTime (t : Time) : Nat :=
  let c := civil t.rtcSec.toNat
  c.second + c.minute <<< 8 + c.hour <<< 16

/-- A register of the TIME block as read, by its offset (04 Table 4.2); an offset without one, and a register that is only
written, read 0. -/
def timeReg (s : State) (off : Nat) : Nat :=
  if off = 0x00 then s.time.life.toNat % 2 ^ 32
  else if off = 0x04 then s.time.life.toNat / 2 ^ 32
  else if off = 0x08 then s.time.rtcSec.toNat % 2 ^ 32
  else if off = 0x0C then s.time.rtcSec.toNat / 2 ^ 32
  else if off = 0x10 then s.time.rtcSub.toNat
  else if off = 0x14 then calDate s.time
  else if off = 0x18 then calTime s.time
  else if off = 0x1C then rtcStatus s.time
  else if off = 0x20 then s.time.trim.toNat
  else if off = 0x28 then s.tb.setHi.toNat
  else if off = 0x30 then s.legal.epoch.toNat
  else if off = 0x34 then s.tb.clkFault.toNat
  else if 0x100 ≤ off ∧ off < 0x200 then
    let t := s.tb.timers[Fin.ofNat 16 ((off - 0x100) / 16)]
    match off % 16 with
    | 0 => t.count.toNat
    | 4 => t.period.toNat
    | 8 => timerStatus t
    | 12 => b1 t.irqEn
    | _ => 0
  else 0

/-- A domain's fault recorded and reported (04 R159). -/
def domainCode : Domain → Nat
  | .ao32 => 0
  | .aof => 1
  | .ref => 2
  | .app => 3
  | .met => 4
  | .saf => 5
  | .mod => 6
  | .flt => 7
  | .gph => 8
  | .net => 9
  | .spe => 10
  | .dsp => 11
  | .hif => 12
  | .per => 13

def clockFault (d : Domain) (s : State) : State :=
  s |> modTb (fun b => { b with
          clkFault := b.clkFault ||| BitVec.ofNat 32 (2 ^ domainCode d)
          faulted := if b.faulted.contains d then b.faulted else b.faulted ++ [d] })
    |> raise .clockFault (u8 (domainCode d) ++ u8 0)

/-- The domain has faulted and is not readmitted (04 R160). -/
def domainOut (s : State) (d : Domain) : Bool := s.tb.faulted.contains d

/-- The clock domain runs (04 Table 4.1; log 87, DEDUCED): APP follows the application island; MOD to PER stop at save
step 3, which SAVE_ENTRY makes. -/
def domainOn (s : State) (d : Domain) : Bool :=
  let base := s.pwr.state == .run || s.pwr.state == .idle
  match d with
  | .ao32 | .aof => s.pwr.state != .off
  | .ref | .met | .saf => base || s.pwr.state == .save
  | .app => (base || s.pwr.state == .save) && s.pwr.appIsland
  | .mod | .flt | .net | .spe | .per => base
  | .gph | .dsp => s.pwr.state == .run
  | .hif => false

end Sys2Proof.Machine
end

