-- ==== Sys2Proof/Machine/PinOps.lean ====
section
/-! DEFINITION. Pins and ports as the configuration gives them (17 R608, R613, R616). -/

namespace Sys2Proof.Machine

/-- Port and pin state changed; a port changed. -/
def modPins (f : Pins → Pins) (s : State) : State := { s with pins := f s.pins }
def modPsp (p : Fin 3) (f : Psp → Psp) : State → State := modPins (fun x => { x with psp := vmod x.psp p f })

/-- The pin that a key names. -/
def pinKey (c : Cfg) (f : Fab) (k : GenKey) : Option Nat := cfgOpt c f (.gen k)

/-- The pins that module-function keys name, with their keys (17 Table 17.2). -/
def modulePins (c : Cfg) (f : Fab) : List (GenKey × Nat) :=
  let one := fun (k : GenKey) => (pinKey c f k).toList.map (fun n => (k, n))
  one .estopA ++ one .estopB ++ one .testGp ++ (if (pinKey c f .readerPort).isSome then one .readerSelect else [])

/-- A module function owns the pin (17 R608). -/
def pinOwned (s : State) (i : Fin 64) : Bool := (modulePins s.cfg s.fab).any (fun p => p.2 == i.val)

/-- The function of a code of `gp.NN.function` (17 Table 17.3). -/
def pinFnOf : Nat → PinFn
  | 1 => .out
  | 2 => .od
  | 3 => .select
  | 4 => .wake
  | _ => .input

/-- The pin's function and level in a set. -/
def cfgFn (s : State) (i : Fin 64) : PinFn := pinFnOf (cfgNat s.cfg s.fab (.gp i .function))
def cfgLevel (s : State) (i : Fin 64) : Bool := cfgBool s.cfg s.fab (.gp i .level)

/-- One bit of a word of pins changed. -/
def setPin (w : BitVec 64) (i : Fin 64) (v : Bool) : BitVec 64 :=
  if v then w ||| BitVec.ofNat 64 (2 ^ i.val) else w &&& ~~~BitVec.ofNat 64 (2 ^ i.val)

/-- The transfer that runs on a port. -/
def runningTransfer (s : State) (p : Fin 3) : Option Transfer := (s.pins.psp[p]).queue.head?

/-- The select asserted at the start of the transfer that runs, and released at its end (R603). -/
def driveSelect (t : Transfer) (on : Bool) (s : State) : State :=
  match t.select with
  | none => s
  | some i => modPins (fun x => { x with out := setPin x.out i (t.active == on) }) s

/-- The ports are held (17 R612): clocks stop, each select returns to its idle level, and no command completes. -/
def holdPorts (s : State) : State :=
  s |> forEach (List.finRange 3) (fun p s => match runningTransfer s p with
        | none => s
        | some t => driveSelect t false s)
    |> modPins (fun x => { x with psp := x.psp.map (fun p => { p with queue := [] }) })

/-- A running transfer uses the pin as its select. -/
def selectBusy (s : State) (i : Fin 64) : Bool :=
  (List.finRange 3).any (fun p => ((runningTransfer s p).map (fun t => t.select == some i)).getD false)

/-- A pin takes its function and level from the set in force (17 R616, Table 17.3): it takes its level where
either has changed, and not while a transfer uses it as its select (Table 17.5). -/
def applyPin (i : Fin 64) (s : State) : State :=
  if selectBusy s i || (s.pins.fn[i] == cfgFn s i && s.pins.level.getLsbD i.val == cfgLevel s i) then s
  else modPins (fun x => { x with
    fn := x.fn.set i (cfgFn s i), level := setPin x.level i (cfgLevel s i), out := setPin x.out i (cfgLevel s i) }) s

/-- The keys of a port in the set. -/
def cfgPsp (s : State) (p : Fin 3) : PspKeys :=
  let n := fun k => cfgNat s.cfg s.fab (.psp p k)
  { enable := n .enable != 0, lanes := n .lanes, late := n .sample == 1, marker := n .busy == 1
    busyByte := n .busyByte, readyByte := n .readyByte, timeoutUs := n .busyTimeoutUs }

/-- A port takes its keys, and not while a transfer runs on it (17 Table 17.5). -/
def applyPsp (p : Fin 3) (s : State) : State :=
  if (runningTransfer s p).isSome then s else modPsp p (fun x => { x with keys := cfgPsp s p }) s

/-- Every pin and port takes its keys (17 R616). -/
def applyPins (s : State) : State :=
  s |> forEach (List.finRange 64) applyPin |> forEach (List.finRange 3) applyPsp

/-- The watch domain's wake pins: the pins of function wake, and those that wake on an edge of a kind
(17 R609). -/
def wakeMask (s : State) (p : Fin 64 → Bool) : BitVec 8 :=
  (List.range 8).foldl (fun w i =>
    let pin : Fin 64 := Fin.ofNat 64 (56 + i)
    if cfgFn s pin == .wake && !pinOwned s pin && p pin then w ||| BitVec.ofNat 8 (2 ^ i) else w) 0

/-- The edge key of a pin. -/
def cfgEdge (s : State) (i : Fin 64) : Nat := cfgNat s.cfg s.fab (.gp i .wakeEdge)

end Sys2Proof.Machine
end

