-- ==== Sys2Proof/Machine/WatchOps.lean ====
section
/-! DEFINITION. The watch domain's operations (05): records, wakes, filters and the theft watch. -/

namespace Sys2Proof.Machine

/-- The watch domain's state changed. -/
def modWch (f : Wch → Wch) (s : State) : State := { s with wch := f s.wch }

/-- Its part that module power-on clears changed. -/
def modWb (f : WchBase → WchBase) (s : State) : State := { s with wb := f s.wb }

/-- Supplies changed. -/
def modPwr (f : Pwr → Pwr) (s : State) : State := { s with pwr := f s.pwr }

/-- The controller runs: the control base is powered and out of its reset (01 Table 1.5). -/
def baseRuns (s : State) : Bool := (s.pwr.state == .run || s.pwr.state == .idle) && !s.pwr.inReset

/-- The application runs on its cores (R168, 06 Table 6.4). -/
def appRuns (s : State) : Bool := s.pwr.state == .run && !s.pwr.inReset && s.hif.fwReady

/-- The watch domain has a supply (01 Table 1.5). -/
def watchOn (s : State) : Bool := s.pwr.state != .off

/-- The order of records made in the same AO32 cycle (05 Table 5.5): tamper, crack, theft, fault. -/
def recordRank : WatchKind → Nat
  | .cover | .terminal => 0
  | .crack => 1
  | .theft | .theftSusp => 2
  | .watchdog | .lostRange => 3

/-- A record put behind those made before it. -/
def insertRecord (r : WatchRecord) : List WatchRecord → List WatchRecord
  | [] => [r]
  | x :: xs => if x.life = r.life ∧ recordRank r.kind < recordRank x.kind then r :: x :: xs else x :: insertRecord r xs

/-- A record in the watch ring (R167): the 64th entry holds only the latest record. -/
def ringRecord (kind : WatchKind) (opened : Bool) (theft : Option (Nat × TheftRecord)) (data : Nat) (s : State) : State :=
  let r : WatchRecord := ⟨kind, opened, s.time.life, s.legal.epoch, theft, data⟩
  modWch (fun w =>
    if w.ring.length < 64 then { w with ring := insertRecord r w.ring }
    else { w with ring := w.ring.take 63 ++ [r], lost := satAdd 16 w.lost 1 }) s

/-- The wake begins (R169, R170): the power die powers the application island. -/
def startWake (s : State) : State :=
  s |> modPwr (fun p => { p with appIsland := true }) |> changeState (fun h => { h with power := 2 })

/-- A wake source fires (R168, R172): its cause bit is set; in IDLE it wakes the application where its
enable bit is 1; during the entry into IDLE the wake follows the entry (Table 5.5). -/
def fireWake (bit : Nat) (s : State) : State :=
  let t := modWb (fun b => { b with wakeCause := b.wakeCause ||| BitVec.ofNat 8 (2 ^ bit) }) s
  if !s.wch.wakeEn.getLsbD bit then t
  else if s.pwr.idleEntry then modPwr (fun p => { p with wakeWaits := true }) t
  else if s.pwr.state = .idle ∧ s.hif.power = 1 then startWake t
  else t

/-- A filter after a reading (Table 5.1: equal consecutive readings). -/
def filterNext (f : Filter) (reading : Bool) : Filter :=
  if f.last = reading then { f with run := f.run + 1 } else ⟨reading, 1⟩

/-- The reading of a tamper loop (R178, R200): closed below 2 kΩ, open above 10 kΩ, open where its sense fails; in between
it reads as the state in force (log 88, DEDUCED). -/
def tamperReading (ohm : Option Nat) (state : Bool) : Bool :=
  match ohm with
  | none => true
  | some r => if r < 2000 then false else if 10000 < r then true else state

/-- A tamper input as sampled: its filter and, after 2 equal readings, its state (Table 5.1). -/
def tamperNext (f : Filter) (isOpen : Bool) (ohm : Option Nat) : Filter × Bool :=
  let r := tamperReading ohm isOpen
  let g := filterNext f r
  (g, if 2 ≤ g.run then r else isOpen)

/-- The requested pattern with the bits of a mask replaced (R181). -/
def putSegments (mask pattern : BitVec 64) : State → State :=
  modWch (fun w => { w with segReq := (w.segReq &&& ~~~mask) ||| (pattern &&& mask) })

/-- The frames of the sealed segment waveform at a temperature (16 R583), and the AO32 cycles of a frame. -/
def segWaveFrames (celsius : Int) : Nat := if 40 < celsius then 8 else if celsius < 10 then 16 else 12
def segFrameCycles : Nat := 655

/-- A segment update begun (05 R181; 16 R583): a pattern, and the segments that it drives. -/
def beginSegments (p mask : BitVec 64) (life : Life) (w : Wch) : Wch :=
  { w with segUpdating := some p, segDriven := mask, segFrames := segWaveFrames w.celsius, segUrgent := false, segLast := some life }

/-- A legal segment set or cleared (16 Table 16.5). (log 58, DESIGN CHOICE) -/
def putSegment (n : Nat) (on : Bool) : State → State :=
  let bit := BitVec.ofNat 64 (2 ^ n)
  putSegments bit (if on then bit else 0)

/-- A tamper input changes (R179): the record, the wake on an opening, and the strip (R182; 16 Table 16.5). -/
def tamperChange (kind : WatchKind) (was now : Bool) (s : State) : State :=
  if was = now then s
  else s |> ringRecord kind now none 0
    |> ifDo now (fun s => s |> fireWake 3 |> putSegment 2 true)
    |> modWch (fun w => { w with segUrgent := true })

/-- A run of readings that differ from a state, and the state after it: it flips after `n` (Table 5.1). -/
def flipAfter (n : Nat) (state : Bool) (run : Nat) (reading : Bool) : Bool × Nat :=
  if reading = state then (state, 0)
  else if n ≤ run + 1 then (reading, 0)
  else (state, run + 1)

/-- The mean square of a burst in square per mille of full scale (R175): the modulator's bits through a sinc³ filter of ratio
256, without the 66 outputs of the first 4 ms. -/
def burstSquare (bits : List Bool) : Rat :=
  let v := ((sincRun 256 (bits.map bitValue) (sincNew 3)).2.drop 66).map (fun x => 1000 * sincScale 3 256 x)
  (v.map (fun x => x * x)).sum / (max 1 v.length : Nat)

/-- A channel of the theft watch after a burst with its mean square (R176): the RMS exceeds the limit in per mille where its
square exceeds the limit's. -/
def theftNext (life : Life) (limit : Nat) (square : Rat) (c : TheftChannel) : TheftChannel :=
  if (limit * limit : Nat) < square then
    let rms := Config.root square
    let r : TheftRecord :=
      if c.exceed = 0 ∧ !c.isOpen then ⟨life, life, rms, rms⟩
      else { c.record with last := life, peak := max c.record.peak rms, sum := c.record.sum + rms }
    { c with exceed := c.exceed + 1, below := 0, record := r, isOpen := c.isOpen || decide (3 ≤ c.exceed + 1) }
  else { c with exceed := 0, below := c.below + 1, isOpen := c.isOpen && decide (c.below + 1 < 3) }

/-- The burst of one channel with its record (R176); an opening is shown at once (Worked case 5.1). -/
def theftBurst (i : Fin 8) (bits : List Bool) (s : State) : State :=
  if !s.wch.settings.theftChannels.getLsbD i.val then s
  else
    let c := s.wch.theft[i]
    let d := theftNext s.time.life s.wch.settings.theftPermille (burstSquare bits) c
    let t := modWch (fun w => { w with theft := vmod w.theft i (fun _ => d) }) s
    if c.isOpen = d.isOpen then t
    else t |> ringRecord .theft d.isOpen (some (8 * s.wch.settings.theftIsland + i.val, d.record)) 0
      |> ifDo d.isOpen (putSegment 2 true)
      |> modWch (fun w => { w with segUrgent := true })

/-- A burst falls due (R175): once per `watch.theft_period_s`. -/
def theftDue (s : State) : Bool :=
  match s.wch.theftLast with
  | none => true
  | some l => decide (s.wch.settings.theftPeriodS * 32768 ≤ (s.time.life - l).toNat)

/-- Open theft records closed with the LIFE of their last exceeding burst (R176). -/
def closeTheft (s : State) : State :=
  forEach (List.finRange 8) (fun i s =>
    let c := s.wch.theft[i]
    if c.isOpen then
      s |> modWch (fun w => { w with theft := vmod w.theft i (fun _ => {}) })
        |> ringRecord .theft false (some (8 * s.wch.settings.theftIsland + i.val, c.record)) 0
    else s) s

/-- WCH_STATUS (Table 5.8). -/
def watchSourceCode : WatchSource → Nat
  | .vaux => 0
  | .holdup => 1
  | .vbat => 2

def theftFlag (w : Wch) : Bool :=
  w.theft.toList.any (fun c => c.isOpen) || w.ring.any (fun r => r.kind == .theft)

def wchStatus (w : Wch) : Nat :=
  watchSourceCode w.source + 4 * b1 w.covOpen + 8 * b1 w.trmOpen + 16 * b1 w.crackOk + 32 * b1 w.vbatLow
    + 64 * b1 (theftFlag w) + 128 * b1 w.theftSusp + 256 * w.heartbeat.toNat

/-- The wake mask that the application writes (R202; log 27, DEDUCED): the fixed bits and the host's; a network's and
the alarm's where a key names such a wake, the tamper inputs' where one is sensed, the pins' where one has
function wake (17 R609). -/
def wakeMaskOf (s : State) : BitVec 8 :=
  let c := s.cfg
  let net := (List.finRange 4).any (fun p => (cfgOpt c s.fab (.port p .wake)).isSome)
  let tamper := cfgBool c s.fab (.gen .tamperCov) || cfgBool c s.fab (.gen .tamperTrm)
  let alarm := (cfgOpt c s.fab (.gen .ocppVersion)).isSome && cfgNat c s.fab (.gen .idleMode) == 1
  let pins := wakeMask s (fun _ => true) != 0
  BitVec.ofNat 8 (0xC5 + 2 * b1 net + 8 * b1 tamper + 16 * b1 alarm + 32 * b1 pins)

/-- The watch settings block of a configuration (R202). -/
def settingsOf (s : State) : WatchSettings :=
  let n := fun k => cfgNat s.cfg s.fab (.gen k)
  let b := fun k => cfgBool s.cfg s.fab (.gen k)
  { theftIsland := n .theftIsland, theftChannels := BitVec.ofNat 8 (n .theftChannels)
    theftPeriodS := n .theftPeriodS, theftPermille := n .theftPermille
    tamperCov := b .tamperCov, tamperTrm := b .tamperTrm, vbatFitted := b .vbatFitted
    wakePins := wakeMask s (fun _ => true)
    wakeRising := wakeMask s (fun i => cfgEdge s i != 1), wakeFalling := wakeMask s (fun i => cfgEdge s i != 0)
    wakeEn := wakeMaskOf s }

/-- The application writes the settings block (R202). -/
def writeSettings (s : State) : State := modWch (fun w => { w with settingsNew := some (settingsOf s) }) s

/-- A register of the WCH block as read by a master (05 Table 5.7): only SAF reads WCH_WDG_TOKEN; what is not read, 0. -/
def wchReg (s : State) (m : Master) (off : Nat) : Nat :=
  if off = 0x00 then wchStatus s.wch
  else if off = 0x04 then s.wb.wakeCause.toNat
  else if off = 0x08 then s.wch.wakeEn.toNat
  else if off = 0x0C then s.wch.alarmSec.toNat % 2 ^ 32
  else if off = 0x10 then s.wch.alarmSec.toNat / 2 ^ 32 + 2 * b1 s.wch.alarmEn
  else if off = 0x14 then s.wch.crackOhm.toNat
  else if off = 0x18 then (if m = .saf then s.wb.wdgToken.toNat else 0)
  else if off = 0x20 then s.wb.wdgStatus.toNat
  else if off = 0x24 then s.wch.ring.length + s.wch.lost.toNat <<< 16
  else 0

end Sys2Proof.Machine
end

