-- ==== Sys2Proof/Machine/ResetOps.lean ====
section
/-! DEFINITION. The module's power-on reset and what has its effect (01 Table 1.11, 04 R160, 12 R465). -/

namespace Sys2Proof.Machine

/-- Domains whose fault outlasts the reset of the control base (04 R160); the others are stable or off once it is
released (R162). -/
def keptFault : Domain → Bool
  | .ref | .met | .saf | .ao32 | .aof => true
  | _ => false

/-- A driver after the reset (12 R465): permits withdrawn, the latch set, and no new trip. -/
def resetDrv (r : Drv) : Drv := { mirrorClosed := r.mirrorClosed, mirrorFilter := r.mirrorFilter, driveEnd := r.driveEnd }

/-- What the operator's update holds until its install time outlasts a restart (19 R671). -/
def resetSvc (v : Svc) : Svc := { install := v.install, updateWaits := v.updateWaits }

/-- Module power-on reset, and RST_N: every block but the watch domain is cleared (01 Table 1.11). The module is
held in the reset until MODULE_POWER_ON. -/
def resetBase (s : State) : State :=
  let t := s |> requeue |> forEach allDrivers coilOff |> modPd (fun p => { p with started := false }) |> applyLs
  { t with
    hif := {}, mbx := {}, tb := { faulted := t.tb.faulted.filter keptFault }, wb := {}, wch := { t.wch with heartbeat := 0 }
    ch := Vector.replicate 48 {}, isl := Vector.replicate 6 {}, weave := {}, met := {}, bill := {}, saf := {}
    blocked := [], bus := none, disp := {}, pins := {}, key := {}
    veh := { nextId := t.veh.nextId }, run := {}, net := {}, svc := resetSvc t.svc, cfg := []
    pd := { drv := t.pd.drv.map resetDrv, linkUp := t.pd.linkUp, linkHold := t.pd.linkHold && !t.pd.linkUp }
    pwr := { t.pwr with
      inReset := true, selfTest := .pending, uF := 0, mOhm := 0, uA := 0, holdupFailed := false
      appIsland := false, modem := ⟨false, false⟩, idleEntry := false, wakeWaits := false, resetAfterSave := false
      idleSince := none, savesMet := false, savesSaf := false, savesApp := false } }

end Sys2Proof.Machine
end

