-- ==== Sys2Proof/Machine/SafetyOps.lean ====
section
/-! DEFINITION. The safety core's operations (12): safe states, internal faults, its core reset, the re-arm
conditions of Table 12.2, and the seam check. -/

namespace Sys2Proof.Machine

/-- The safety core's volatile state changed. -/
def modSafCore (f : Saf → Saf) (s : State) : State := { s with saf := f s.saf }

/-- The module safe state (R426, SF16): all drivers trip, every load switch takes its fail state, and the
safety core's keep-alive enables fall where `safety.rsd_on_trip` is true (14 R515). -/
def moduleSafe (code : BitVec 16) (s : State) : State :=
  s |> safTrip allDrivers code
    |> modSafCore (fun c => { c with moduleSafe := true })
    |> modPd (fun p => { p with lsFail := true })
    |> applyLs
    |> ifDo (cfgBool s.cfg s.fab (.gen .rsdOnTrip))
        (fun s => { s with net := { s.net with str := s.net.str.map (fun x => { x with enable := false }) } })

/-- What the requests of a driver answer once its re-arm is decided (07 Table 7.13, R271). -/
def answerAskers (d : Driver) (st : Status) (s : State) : State :=
  s |> modDrv d (fun r => { r with askers := [] }) |> forEach s.pd.drv[d].askers (completeRunning st [])

/-- The safety core's core reset (01 R48, Table 1.11): its volatile state is lost, PERMIT_SAF falls with the
cause of the reset, and the watchdog window is armed again by its first service (05 Table 5.6). Requests that wait for it
fail (07 R271). What R461 and R426 keep in force stays, and the loader copies the same image again (01 R39). Under a trial it
is carried out as RST_N (19 R663). (log 37, DEDUCED) -/
def safReset (code : BitVec 16) (s : State) : State :=
  if s.hif.trial then resetBase s
  else s |> withdraw allDrivers [.saf] code
    |> modSafCore (fun c => { locked := c.locked, moduleSafe := c.moduleSafe, ctlDie := c.ctlDie, pwrDie := c.pwrDie, step9 := c.step9, running := baseRuns s, image := c.image })
    |> (fun s => { s with ch := s.ch.map (fun c => { c with safPort := {} }) })
    |> modWb (fun b => { b with wdgLast := none, wdgGood := 0 })
    |> forEach allDrivers (fun d => answerAskers d .rearmRefused)

/-- Internal faults of the last 24 h of LIFE (R461). -/
def recentFaults (s : State) : List Life :=
  s.safStore.internalFaults.filter (fun l => (s.time.life - l).toNat ≤ secs 86400)

/-- An internal fault counted (R461): the third within 24 h keeps PERMIT_SAF withdrawn. -/
def countInternal (code : BitVec 16) (s : State) : State :=
  let l := s.time.life :: recentFaults s
  s |> faultLog code 0
    |> (fun s => { s with safStore := { s.safStore with internalFaults := l }, run := { s.run with safFault := true } })
    |> ifDo (decide (3 ≤ l.length)) (modSafCore (fun c => { c with locked := true }))

/-- An internal fault found by the safety core (R461). -/
def internalFault (s : State) : State :=
  s |> safTrip allDrivers causeInternal |> countInternal causeInternal |> safReset causeInternal

/-- A watchdog fault (05 R184, R185): bits of WCH_WDG_STATUS. -/
def watchdogFault (bits : BitVec 3) (s : State) : State :=
  s |> modWb (fun b => { b with wdgStatus := b.wdgStatus ||| bits, wdgFaulted := true, wdgGood := 0 })
    |> ringRecord .watchdog true none bits.toNat
    |> withdraw allDrivers [.wch] causeWatchdog
    |> countInternal causeWatchdog
    |> safReset causeWatchdog

/-- A channel is named by a mask key of its comparator or of its weave threshold for a driver (08). -/
def chMapped (s : State) (k : ChKey) (i : Channel) (d : Driver) : Bool :=
  (cfgNat s.cfg s.fab (.ch i k)).testBit d.val

/-- The channels mapped to a driver by a mask key. -/
def mappedChannels (s : State) (k : ChKey) (d : Driver) : List Channel :=
  (List.finRange 48).filter (fun i => chMapped s k i d)

/-- The island of a channel (01 R27). -/
def islandOf (i : Channel) : Island := Fin.ofNat 6 (i.val / 8)

/-- CP of the driver's outlet has read A since its latest trip (Table 12.2). -/
def cpReadA (s : State) (d : Driver) : Bool :=
  let x := s.veh.out.get (outletOf d)
  x.cp == .a || match x.lastA with
    | none => false
    | some l => decide ((s.safStore.trips[d]).life.toNat ≤ l.toNat)

/-- The sensor test passed after CP read A, or after the trip (Table 12.2). -/
def testPassed (s : State) (d : Driver) (afterA : Bool) : Bool :=
  match (s.saf.out.get (outletOf d)).rcd.passed with
  | none => false
  | some p =>
    decide ((s.safStore.trips[d]).life.toNat ≤ p.toNat) &&
      (!afterA || match (s.veh.out.get (outletOf d)).lastA with
        | none => true
        | some l => decide (l.toNat ≤ p.toNat))

/-- The set whose module-wide safety keys act: that of the first open session, or the one in force (R453). -/
def safCfg (s : State) : Cfg := ((Outlet.all.filterMap (fun o => (s.veh.out.get o).snap)).head?).getD s.cfg

/-- The seam check exists (R446). -/
def seamExists (s : State) : Bool := (cfgOpt (safCfg s) s.fab (.gen .seamA)).isSome

/-- The configured companions, each with what is known of it. -/
def seamPeers (s : State) : List SeamPeer :=
  (cfgItems (safCfg s) s.fab (.gen .companions)).map (fun n =>
    (s.saf.seam.peers.find? (fun p => p.node == n)).getD { node := n })

/-- A side of a companion. -/
def seamSide (p : SeamPeer) : SeamPath → SeamSide
  | .a => p.a
  | .b => p.b

/-- The state of a path, as SAFETY_STATUS_GET reports it: the least over the companions (R449). -/
def seamPathState (s : State) (path : SeamPath) : Nat :=
  match (seamPeers s).map (fun p => (seamSide p path).state) with
  | [] => 0
  | x :: xs => xs.foldl min x

/-- Every companion has a path in service (R449). -/
def seamInService (s : State) : Bool := (seamPeers s).all (fun p => p.a.state == 2 || p.b.state == 2)

/-- A path of a companion is not in service (R460, 07 ST_SEAM_DEGRADED). -/
def seamDegraded (s : State) : Bool :=
  seamExists s && (seamPeers s).any (fun p => p.a.state != 2 || p.b.state != 2)

/-- The outlets that depend on the companions (R446). -/
def seamOutlets (s : State) : List Outlet :=
  if seamExists s then Outlet.all.filter (fun o => (cfgItems (safCfg s) s.fab (.gen .seamOutlets)).contains o.num) else []

/-- No monitored domain whose fault trips is out (04 R160). -/
def clocksGood (s : State) : Bool := [Domain.ref, .met, .saf, .flt, .mod].all (fun d => !domainOut s d)

/-- SF01 and SF02 serve the outlet (R429, Table 12.5). -/
def hasRcd (s : State) (o : Outlet) : Bool := !isDc s o && outBool s o .rcdEnable

/-- SF05 runs (R435). -/
def penRuns (s : State) : Bool :=
  cfgBool (safCfg s) s.fab (.gen .penEnable) &&
    (s.fab.profile.sel.supply.wiring == .w1p2w || s.fab.profile.sel.supply.wiring == .w3p4w)

/-- A safety function of the outlet uses the channel (R429 to R444). -/
def usesChannel (s : State) (o : Outlet) (ch : Channel) : Bool :=
  let sel := match o with
    | .a => s.fab.profile.sel.a
    | .b => s.fab.profile.sel.b
  (hasRcd s o && (outNat s o .rcdChannel == ch.val || outNat s o .rcdRefChannel == ch.val)) ||
    sel.volts.contains ch || (isDc s o && outOpt s o .imdPeChannel == some ch.val) ||
    outOpt s o .peChannel == some ch.val ||
    (cfgItems (outCfg s o) s.fab (.out o .tempChannels)).contains ch.val ||
    (penRuns s && s.fab.profile.sel.supply.volts.contains ch)

/-- The inputs of a driver's functions have been available for 1 s (Table 12.2 INPUT_UNAVAILABLE): the channels that its outlet
uses, the divider check, and the outputs of the channels whose weave thresholds are mapped to it (08 R306). -/
def inputsAvailable (s : State) (d : Driver) : Bool :=
  let o := outletOf d
  (s.saf.lost.filter (usesChannel s o)).isEmpty &&
    (s.saf.lostGood.filter (fun p => usesChannel s o p.1)).all (fun p => passedSince s (some p.2) (secs 1)) &&
    !s.saf.divider.get o && ((s.saf.dividerGood.get o).isNone || passedSince s (s.saf.dividerGood.get o) (secs 1)) &&
    (mappedChannels s .wvDrivers d).all (fun i =>
      !s.ch[i].wvOut && (s.ch[i].wvBack.isNone || passedSince s s.ch[i].wvBack (secs 1)))

/-- The re-arm condition of a cause for a driver (Table 12.2). `start` is true at start step 9, where the
condition "next module power-on reset or RST_N" counts as met (R465). -/
def rearmMet (s : State) (start : Bool) (d : Driver) (code : BitVec 16) : Bool :=
  let r := s.pd.drv[d]
  let o := outletOf d
  let x := s.veh.out.get o
  let f := s.saf.out.get o
  if code = causePowerFail then s.saf.step9 || start
  else if code = causeVauxOv then !s.pwr.ovCut
  else if code = causeRail then true
  else if code = causeClock then clocksGood s
  else if code = causeWatchdog then !s.wb.wdgFaulted
  else if code = causeHeartbeat then !s.saf.hbFault
  else if code = causeInternal then
    s.saf.running && s.saf.diagPassed && !s.saf.locked && [s.saf.ctlDie, s.saf.pwrDie].all (fun d => !d.hot || passedSince s d.cool (secs 60))
  else if code = causeHoldup then (s.pwr.selfTest == .pass || s.pwr.selfTest == .worn) && !s.pwr.holdupFailed
  else if code = causeIslandLink then
    (mappedChannels s .cmpDrivers d).all (fun i => s.isl[islandOf i].linkUp && s.ch[i].service == .inService)
  else if code = causeComparator ∨ code = causeWeave then
    !(List.finRange 48).any (fun i =>
      (s.ch[i].cmpTrip && chMapped s .cmpDrivers i d) || (s.ch[i].wvTrip && chMapped s .wvDrivers i d))
  else if code = causeSelfTest then (mappedChannels s .cmpDrivers d).all (fun i => !s.isl[islandOf i].selfTestFailed)
  else if code = causeInput then inputsAvailable s d
  else if code = causeResidual then cpReadA s d && testPassed s d true
  else if code = causeRcdSensor then !f.rcd.refOut && !f.rcd.failed && testPassed s d false
  else if code = causeInsulation then cpReadA s d
  else if code = causePe then !f.peFault && passedSince s f.peGood (secs 10) && cpReadA s d
  else if code = causePen then
    !s.saf.penFault && passedSince s s.saf.penGood (secs 60) &&
      (r.requested || decide ((s.saf.penRearms.filter (fun l => (s.time.life - l).toNat ≤ secs 3600)).length < 3))
  else if code = causePilotShort then x.cp != .e
  else if code = causePilotFault ∨ code = causeCable then !x.lockout
  else if code = causeOvervoltage then cpReadA s d && r.requested
  else if code = causeOvertemp then
    f.temps.all (fun t => decide (t.deciC ≤ 10 * ((outNat s o .tempTripC : Int) - 10)) && decide (-500 ≤ t.deciC))
  else if code = causeDischarge then decide (f.outletMv < 60000) && r.requested
  else if code = causeWeld then passedSince s r.weldGoodSince (secs 10) && r.requested
  else if code = causeGate ∨ code = causeCoilDriver then start
  else if code = causeEstop then !s.saf.estopA && !s.saf.estopB && r.requested
  else if code = causeSeamLost ∨ code = causeSeamMismatch then seamInService s
  else if code = causeSeamStop then (seamPeers s).all (fun p => p.enabled && !p.stopped)
  else if code = causeSession then !stateIn s o [.stopping, .fault]
  else if code = causeLine then passedSince s s.saf.lineGood[d] (secs 1)
  else if code = causeLink then s.pd.linkUp && !s.pd.linkHold
  else true

/-- Every first cause of the driver's latest trip meets its condition (R428). -/
def causesMet (s : State) (start : Bool) (d : Driver) : Bool :=
  (s.safStore.trips[d]).codes.all (rearmMet s start d)

/-- The safety core may grant PERMIT_SAF to a driver (01 R48, R104, R461, R465, Table 12.2). -/
def safMayGrant (s : State) (start : Bool) (d : Driver) : Bool :=
  s.saf.running && s.saf.diagPassed && !s.saf.locked && (start || s.saf.step9) && !s.pwr.holdupFailed &&
    (s.pwr.selfTest == .pass || s.pwr.selfTest == .worn) && (s.pd.drv[d]).held.all (rearmMet s start d)

/-- PERMIT_SAF granted, and the causes for which it was held dropped. -/
def grantSaf (d : Driver) (s : State) : State :=
  s |> modDrv d (fun r => { r with held := [] }) |> grant d .saf

/-- The permits that a re-arm needs (01 R42, R54). -/
def rearmPermits (p : Permits) : Bool := p.isl && p.wv && p.saf && p.wch

/-- The gate test passes (R443): each element read open, and each whose permit is granted read closed again. -/
def gatePasses (p : Permits) (t : GateTest) : Bool := t.opened == 31 && t.closed &&& permitBits p == permitBits p

/-- The safety core re-arms a driver (01 R42, R54; R428, R443): the gate test, and the latch cleared. A re-arm that meets a
withdrawn permit is refused in the driver's status (R54). -/
def rearm (start : Bool) (d : Driver) (gate : GateTest) (s : State) : State :=
  let r := s.pd.drv[d]
  if !r.latch || !s.saf.running || !s.saf.diagPassed then s
  else if !rearmPermits r.permits then
    s |> modDrv d (fun r => { r with rearmRefused := true }) |> answerAskers d .rearmRefused
  else if !r.recorded || r.gateFailed || !causesMet s start d then answerAskers d .rearmRefused s
  else if !gatePasses r.permits gate then
    s |> modDrv d (fun r => { r with gateFailed := true, requested := false })
      |> addCode d causeGate
      |> faultLog causeGate d.val
      |> answerAskers d .rearmRefused
      |> reportStatus s
  else
    let pen := (s.safStore.trips[d]).codes.contains causePen && !r.requested
    s |> modDrv d (fun r => { r with latch := false, requested := false, rearmRefused := false })
      |> ifDo pen (modSafCore (fun c => { c with penRearms := s.time.life :: c.penRearms.take 16 }))
      |> ifDo s.saf.moduleSafe (fun s => { s with net := { s.net with str := s.net.str.map (fun x => { x with enable := true }) } })
      |> modSafCore (fun c => { c with moduleSafe := false })
      |> modPd (fun p => { p with lsFail := false })
      |> applyLs
      |> ifDo (d.val % 2 == 0) (modOut (outletOf d) (fun x => { x with force := none }))
      |> coilOn d
      |> answerAskers d .ok
      |> reportStatus s

/-- An outlet trips with WELD (R444; 13 R475): a backup driver is held open with it. -/
def weldTrip (o : Outlet) (s : State) : State :=
  s |> safTrip (driversOf o) causeWeld |> shuntPulse o

end Sys2Proof.Machine
end

