-- ==== Sys2Proof/Machine/ChainOps.lean ====
section
/-! DEFINITION. The measurement chain's operations (08): settings, service, darning and synchronisation. -/

namespace Sys2Proof.Machine

/-- A channel changed; an island changed; the weave changed. -/
def modCh (i : Channel) (f : Chan → Chan) (s : State) : State := { s with ch := vmod s.ch i f }
def modIsl (k : Island) (f : Isl → Isl) (s : State) : State := { s with isl := vmod s.isl k f }
def modWeave (f : Weave → Weave) (s : State) : State := { s with weave := f s.weave }

/-- The channels of an island, and the channel of one of its modulators (01 R27). -/
def channelOf (k : Island) (m : Nat) : Channel := Fin.ofNat 48 (8 * k.val + m % 8)
def channelsOf (k : Island) : List Channel := (List.range 8).map (channelOf k)

/-- Every selector's profile. -/
def selectors (f : Fab) : List SelProfile := [f.profile.sel.supply, f.profile.sel.a, f.profile.sel.b]

/-- The selector profile that names a channel (08 R276, 09 R314), and whether as a voltage channel. -/
def profileOf (f : Fab) (i : Channel) : Option (SelProfile × Bool) :=
  (selectors f).findSome? (fun p =>
    if p.volts.contains i then some (p, true)
    else if p.amps.contains i || p.comparison == some i then some (p, false)
    else none)

/-- Modes and ranges from their keys' places (08 Table 8.7). -/
def modeOf : Nat → ChMode
  | 0 => .fixed
  | 1 => .mains
  | _ => .single
def rangeOf : Nat → ChRange
  | 0 => .mv31
  | 1 => .mv250
  | 2 => .v25
  | _ => .divider

/-- The settings of a channel: MET's from the metering profile (08 R276; AC mains-synchronous, DC 16 kS/s or
48 kS/s woven, R316),
the safety core's for a PE channel (12 R434), or its keys (08 Table 8.7). -/
def chSettings (s : State) (i : Channel) : ChCfg :=
  let k := fun (x : ChKey) => cfgNat s.cfg s.fab (.ch i x)
  match profileOf s.fab i with
  | some (p, volt) =>
    { mode := if p.wiring = .dc then .fixed else .mains, rate := if p.wiring ≠ .dc then 4000 else if p.woven then 48000 else 16000
      range := if volt then .divider else p.range, woven := p.woven, exciteUa := 0 }
  | none =>
    if Outlet.all.any (fun o => outOpt s o .peChannel == some i.val) then
      { mode := .single, rate := 100, range := .mv31, woven := false, exciteUa := 1000 }
    else
      { mode := modeOf (k .mode), rate := k .rate, range := rangeOf (k .range), woven := k .timing == 1, exciteUa := k .excite }

/-- Drivers of a mask key of a channel. -/
def driversMapped (s : State) (k : ChKey) (i : Channel) : List Driver := allDrivers.filter (chMapped s k i)

/-- A channel is out of service. -/
def isOut (c : Chan) : Bool :=
  match c.service with
  | .out _ => true
  | _ => false

/-- A channel taken out of service (R306): the event, and PERMIT_WV of its mapped drivers with cause
INPUT_UNAVAILABLE. One that is out already has a further reason to stay so (01 R57). -/
def takeOut (i : Channel) (reason : Nat) (s : State) : State :=
  let report := raise .channelOos (u8 i.val ++ u8 reason)
  match s.ch[i].service with
  | .out r =>
    if r = reason ∨ s.ch[i].oosAlso.contains reason then s
    else s |> modCh i (fun c => { c with oosAlso := c.oosAlso ++ [reason] }) |> report
  | _ =>
    s |> modCh i (fun c => { c with
            service := .out reason, oosAlso := [], staleFrames := 0, stale48 := 0, flushDue := false, settle := 0, wvOut := true
            lostSince := c.lostSince.orElse (fun _ => some s.time.life) })
      |> report
      |> withdraw (driversMapped s .wvDrivers i) [.wv] causeInput

/-- A channel begins to return (R306 step 1): 256 MOD cycles are 4 weave frames. -/
def startReturn (i : Channel) (s : State) : State :=
  modCh i (fun c => { c with service := .returning, staleFrames := 4, stale48 := 4, flushDue := true }) s

/-- A reason for which a channel is out ends: it begins to return once none remains. -/
def returnFrom (reason : Nat) (i : Channel) (s : State) : State :=
  match s.ch[i].service with
  | .out r =>
    if r = reason then
      match s.ch[i].oosAlso with
      | [] => startReturn i s
      | q :: qs => modCh i (fun c => { c with service := .out q, oosAlso := qs }) s
    else modCh i (fun c => { c with oosAlso := c.oosAlso.filter (fun q => q != reason) }) s
  | _ => s

/-- A reason for which channels are out ends. -/
def returnAll (l : List Channel) (reason : Nat) (s : State) : State := forEach l (returnFrom reason) s

/-- Output period in weave frames of the fixed and single-cycle rates (08 Table 8.4); 0 for none. -/
def framePeriod (c : ChCfg) : Nat := if c.rate = 0 then 0 else 192000 / c.rate

/-- The span of an output in weave frames, rounded up (08 Table 8.4). -/
def spanFrames (c : ChCfg) : Nat :=
  match c.mode with
  | .mains => 183
  | .single => framePeriod c
  | .fixed =>
    match c.rate with
    | 48000 => 55
    | 24000 => 111
    | 16000 => 183
    | 8000 => 311
    | _ => 567

/-- SETTLING outputs after a flush (R290, R291). -/
def settleCount (c : ChCfg) : Nat := if c.mode = .single then 0 else 16

/-- A modulator's bits missing or failed: outputs whose span includes them carry STALE (R305, R307). -/
def markStale (i : Channel) : State → State :=
  modCh i (fun c => if isOut c then c else { c with staleFrames := max c.staleFrames (spanFrames c.cfg), stale48 := max c.stale48 55 })

/-- A handover abandoned (05 Table 5.5, 08 Table 8.10): the channel returns to Mn, and M8 is idle. -/
def abandonDarning (k : Island) (s : State) : State :=
  match (s.isl[k]).darning with
  | none => s
  | some d => modIsl k (fun x => { x with darning := none, spare := if x.spare = .covering d.m then .idle else x.spare }) s

/-- The weight of M8 in the channel of a modulator, in 64ths (Table 8.8, R294, R307): of a channel that it covers for good, all. -/
def spareWeight (x : Isl) (m : Fin 8) : Nat :=
  if x.spare = .covering m then
    match x.darning with
    | some d => if d.m = m then d.weight else 0
    | none => 64
  else 0

/-- The comparator pair of the channel stands on M8's fast path: from the blend's midpoint on (Table 8.8, steps 4 and 8), and
the standby pair in a self-test (R298). -/
def onSpare (x : Isl) (m : Fin 8) : Bool :=
  decide (32 ≤ spareWeight x m) || (x.selfTest.map (fun t => t.under && t.m == m)).getD false

/-- The channels that a modulator carries: its own, unless M8 carries it alone, and the one in which M8 has a part. -/
def carriedBy (k : Island) (x : Isl) (m : Fin 9) : List Channel :=
  if m = 8 then ((List.finRange 8).filter (fun n => spareWeight x n != 0)).map (fun n => channelOf k n.val)
  else if spareWeight x (Fin.ofNat 8 m.val) = 64 then []
  else [channelOf k m.val]

/-- The slots of a channel, of an island's spare, and of its modulator under calibration (01 R45; 05 R192). -/
def slotOf (i : Channel) : Fin 60 := Fin.ofNat 60 i.val
def spareSlot (k : Island) : Fin 60 := Fin.ofNat 60 (48 + k.val)
def calSlot (k : Island) : Fin 60 := Fin.ofNat 60 (54 + k.val)

/-- A chain changed. -/
def modSlotChain (j : Fin 60) (f : ChainSlot → ChainSlot) : State → State := modWeave (fun w => { w with slots := vmod w.slots j f })

/-- The chain of a channel flushed, and the spare's where it carries the channel (R290, R306). -/
def flushChain (i : Channel) (s : State) : State :=
  let k := islandOf i
  s |> modSlotChain (slotOf i) flushSlot
    |> ifDo (spareWeight (s.isl[k]) (Fin.ofNat 8 i.val) != 0) (modSlotChain (spareSlot k) flushSlot)
    |> modCh i (fun c => { c with h := [] })

/-- A synchronisation (R290, Table 8.6). -/
def synchronise (refCycles : Word32) (s : State) : State :=
  s |> forEach (List.finRange 6) abandonDarning
    |> (fun s => { s with ch := s.ch.map (fun c => { c with
          count := 0, wvRun := 0, h := [], settle := if c.service = .inService then settleCount c.cfg else c.settle }) })
    |> modWeave (fun w => { w with
          frame := 0, syncNo := w.syncNo + 1, syncLife := s.time.life, syncRef := refCycles, syncDue := false
          slots := Vector.replicate 60 {}, phase := 0, wraps := 0, cycles := 0, cycleRef := 0 })
    |> (fun s => { s with met := { s.met with acc :=
          ⟨{ s.met.acc.supply with synced := true }, { s.met.acc.a with synced := true }, { s.met.acc.b with synced := true }⟩ } })

/-- A channel's settings as changed by a commit (08 R289): a change of mode, rate, range, timing or
excitation takes it out with reason 4, and its return begins. -/
def applyChannel (i : Channel) (s : State) : State :=
  let c := chSettings s i
  if s.ch[i].cfg = c then s
  else
    let k := islandOf i
    let s1 := match (s.isl[k]).darning with
      | some d => if channelOf k d.m.val = i then abandonDarning k s else s
      | none => s
    s1 |> takeOut i 4
      |> modCh i (fun x => { x with cfg := c })
      |> returnFrom 4 i

/-- A comparator trip latched (R296, R297): PERMIT_ISL of the mapped drivers falls. -/
def comparatorTrip (i : Channel) (high : Bool) (s : State) : State :=
  s |> modCh i (fun c => if high then { c with cmpHigh := true } else { c with cmpLow := true })
    |> withdraw (driversMapped s .cmpDrivers i) [.isl] causeComparator

/-- What is latched or missing of a channel acts on the drivers that a commit maps to it (R297, R299, R306). -/
def applyMasks (i : Channel) (s : State) : State :=
  s |> ifDo s.ch[i].cmpTrip (withdraw (driversMapped s .cmpDrivers i) [.isl] causeComparator)
    |> ifDo s.ch[i].wvTrip (withdraw (driversMapped s .wvDrivers i) [.wv] causeWeave)
    |> ifDo s.ch[i].wvOut (withdraw (driversMapped s .wvDrivers i) [.wv] causeInput)

/-- The increment of the resampler's accumulator per weave frame for a mains frequency: 256 outputs per
cycle (R282, R283). -/
def mainsIncrement (milliHz : Nat) : BitVec 32 := BitVec.ofNat 32 (milliHz * 4294967296 / 750000)

/-- A sample word (08 Table 8.5). -/
def sampleWord (value : BitVec 24) (sat settling stale spare oos : Bool) (seq : BitVec 32) : Word32 :=
  BitVec.ofNat 32 ((if oos then 0 else value.toNat) * 256 + 128 * b1 sat + 64 * b1 settling + 32 * b1 stale
    + 16 * b1 spare + 8 * b1 oos + seq.toNat % 8)

/-- A word written into a delivery port (R288): first the ring, at the descriptor's count, then the descriptor. -/
def portWrite (w : Word32) (d : Desc) (p : Delivery) : Delivery :=
  let n := (d.count - 1).toNat % 256
  { ring := (p.ring ++ List.replicate (n + 1 - p.ring.length) 0).set n w, desc := d }

/-- The word of a ring `back` outputs before the newest; the newest words, oldest first. -/
def portWord (p : Delivery) (back : Nat) : Word32 := p.ring.getD ((p.desc.count - 1 - BitVec.ofNat 32 back).toNat % 256) 0
def portWords (p : Delivery) (n : Nat) : List Word32 := (List.range n).reverse.map (portWord p)

/-- The bytes of a descriptor (Table 8.6). -/
def descBytes (d : Desc) : Bytes :=
  u32 d.count.toNat ++ u32 d.syncNo.toNat ++ u64 d.syncLife.toNat ++ u32 d.syncRef.toNat ++ u32 (Config.modeWord d.cfg).toNat
    ++ u32 d.cycleRef.toNat ++ u32 d.cycleLen.toNat

end Sys2Proof.Machine
end

