-- ==== Sys2Proof/Machine/MetOps.lean ====
section
/-! DEFINITION. MET's computations (09 R318 to R323, R334): samples in SI units, quantities of a period,
energies, and their booking (10 R348, R349). -/

namespace Sys2Proof.Machine

/-- MET's state changed; the accumulator of a selector changed. -/
def modMet (f : Met → Met) (s : State) : State := { s with met := f s.met }
def modAcc (sel : Selector) (f : SelAcc → SelAcc) : State → State :=
  modMet (fun m => { m with acc := m.acc.modify sel f })

/-- The selectors, the outlet of a selector and its number (07 R252). -/
def allSelectors : List Selector := [.supply, .a, .b]
def selNum : Selector → Nat
  | .supply => 0
  | .a => 1
  | .b => 2
def outletOfSel : Selector → Option Outlet
  | .supply => none
  | .a => some .a
  | .b => some .b
def selOfOutlet : Outlet → Selector
  | .a => .a
  | .b => .b

/-- The metering profile of a selector. -/
def selProfile (s : State) (sel : Selector) : SelProfile := s.fab.profile.sel.get sel

/-- A selector is wired by the profile. -/
def isWired (p : SelProfile) : Bool := p.wiring != .none

/-- Every channel that a selector meters. -/
def selChannels (p : SelProfile) : List Channel := p.volts ++ p.amps ++ p.comparison.toList

/-- The value of a sample word (08 Table 8.5), and its flags STALE, SETTLING or OOS, SETTLING alone, and
SAT. -/
def wordValue (w : Word32) : Int := ((w >>> 8).setWidth 24).toInt
def wordBad (w : Word32) : Bool := w.getLsbD 6 || w.getLsbD 5 || w.getLsbD 3
def wordSettling (w : Word32) : Bool := w.getLsbD 6 && !w.getLsbD 5 && !w.getLsbD 3
def wordSat (w : Word32) : Bool := w.getLsbD 7

/-- Full scale of an input option in volts (08 Table 8.1; the divider takes 800 to 1, 09 worked case 9.1). -/
def fullScale : ChRange → Rat
  | .mv31 => 1 / 32
  | .mv250 => 1 / 4
  | .v25 => 5 / 2
  | .divider => 2000

/-- A voltage sample in V, and a current sample in A through the sense constant in nΩ (09 R321). -/
def voltsOf (v : Int) : Rat := v * 2000 / 8388608
def ampsOf (r : ChRange) (k : Nat) (v : Int) : Rat :=
  if k = 0 then 0 else v * fullScale r * 1000000000 / (8388608 * (k : Rat))

/-- The newest words of a selector's channels. -/
def newest (s : State) (i : Channel) : Word32 := (let p := s.ch[i].metPort; if p.desc.count = 0 then 0x08 else portWord p 0)

/-- The newest samples of a selector as a row. -/
def newRow (s : State) (p : SelProfile) : Row :=
  { volts := p.volts.map (fun i => voltsOf (wordValue (newest s i)))
    amps := (p.amps.zip p.k).map (fun x => ampsOf p.range x.2 (wordValue (newest s x.1)))
    comp := match p.comparison with
      | none => 0
      | some i => ampsOf p.range (p.k.getLastD 0) (wordValue (newest s i)) }

/-- The output period of a selector in REF cycles (08 Table 8.4): AC takes 256 of a mains cycle. -/
def outputPeriod (s : State) (p : SelProfile) : Rat :=
  if p.wiring = .dc then (if p.woven then 1024 else 3072) else (s.weave.cycleLen.toNat : Rat) / 65536

/-- REF cycles per second (09 R320: 983,040 are 20 ms). -/
def refHz : Rat := 49152000

/-- Phases of a wiring. -/
def phaseCount : Wiring → Nat
  | .none => 0
  | .w1p2w => 1
  | .w3p3w => 3
  | .w3p4w => 3
  | .dc => 1

/-- Voltage of phase `p` in a row (Table 9.3). -/
def phaseV (w : Wiring) (p : Nat) (r : Row) : Rat :=
  let v := fun i => r.volts.getD i 0
  match w with
  | .none => 0
  | .w1p2w => v 0 - v 1
  | .w3p4w => v p - v 3
  | .w3p3w => v p - (v 0 + v 1 + v 2) / 3
  | .dc => v 0 - v 1

/-- Current of phase `p` in a row. -/
def phaseI (p : Nat) (r : Row) : Rat := r.amps.getD p 0

/-- The sum and the mean of a list; the mean of an empty list is 0. -/
def sumR (l : List Rat) : Rat := l.foldl (· + ·) 0
def meanR (l : List Rat) : Rat := if l.isEmpty then 0 else sumR l / (l.length : Rat)

/-- Root of the mean of the squares (Table 9.3). -/
def rmsR (l : List Rat) : Rat := Config.root (meanR (l.map (fun x => x * x)))

/-- Spectral component of order h of a cycle's samples, oldest first (R320). -/
def spectral (xs : List Rat) (h : Nat) : Rat × Rat :=
  if h = 0 then (meanR xs, 0)
  else
    let n := xs.length
    let turn := fun i : Nat => ((h * i : Nat) : Rat) / ((max 1 n : Nat) : Rat)
    let z := xs.zipIdx
    let c := Config.root 2
    (c * meanR (z.map (fun x => x.1 * Config.cosine (turn x.2))),
     -(c * meanR (z.map (fun x => x.1 * Config.cosine (turn x.2 - 1 / 4)))))

/-- Product of a component with the conjugate of another. -/
def conjMul (a b : Rat × Rat) : Rat × Rat := (a.1 * b.1 + a.2 * b.2, a.2 * b.1 - a.1 * b.2)

/-- Magnitude and argument in turns of a component. -/
def magR (a : Rat × Rat) : Rat := Config.root (a.1 * a.1 + a.2 * a.2)
def argR (a : Rat × Rat) : Rat := Config.arg a.1 a.2

/-- An angle in turns brought above -1/2 and to at most 1/2 (Table 9.3). -/
def foldTurn (x : Rat) : Rat := if 1 / 2 < x then x - 1 else if x ≤ -(1 / 2) then x + 1 else x

/-- The voltages of a woven DC selector interpolated to the instants of its currents (R319): by a part of
the output period that the channels' indices give. -/
def deskew (p : SelProfile) (rows : List Row) : List Row :=
  if p.wiring = .dc ∧ p.woven then
    let shift := fun (vi : Nat) => ((((p.amps.headD 0).val : Int) - (((p.volts.getD vi 0).val : Nat) : Int) : Int) : Rat) / 48
    (rows.zip (rows.head?.toList ++ rows)).zip (rows.drop 1 ++ rows.getLast?.toList) |>.map (fun x =>
      let (r, before, after) := (x.1.1, x.1.2, x.2)
      { r with volts := r.volts.zipIdx.map (fun v =>
          let d := shift v.2
          if 0 ≤ d then v.1 + d * (after.volts.getD v.2 0 - v.1) else v.1 + d * (v.1 - before.volts.getD v.2 0)) })
  else rows

/-- The quantities of one phase over rows, oldest first (Table 9.3): Vrms, Irms, P, P1, Q1, Qt, S, S1, angle
and arg V1 in turns. `h` is the order limit. -/
structure PhaseQ where
  vrms : Rat
  irms : Rat
  p : Rat
  p1 : Rat
  q1 : Rat
  qt : Rat
  s : Rat
  s1 : Rat
  angle : Rat
  argV : Rat
  deriving DecidableEq, Repr

/-- A phase below 0.0005 In contributes nothing (R334). -/
def noPower (q : PhaseQ) : PhaseQ := { q with p := 0, p1 := 0, q1 := 0, qt := 0, s := 0, s1 := 0 }

/-- The quantities of a phase of an AC selector (Table 9.3, R334). -/
def phaseQ (prof : SelProfile) (h : Nat) (rows : List Row) (ph : Nat) : PhaseQ :=
  let vs := rows.map (phaseV prof.wiring ph)
  let is_ := rows.map (phaseI ph)
  let v1 := spectral vs 1
  let i1 := spectral is_ 1
  let c1 := conjMul v1 i1
  let q : PhaseQ := {
    vrms := rmsR vs, irms := rmsR is_, p := meanR ((vs.zip is_).map (fun x => x.1 * x.2)), p1 := c1.1, q1 := c1.2
    qt := sumR ((List.range (max 1 h)).map (fun n => (conjMul (spectral vs (n + 1)) (spectral is_ (n + 1))).2))
    s := rmsR vs * rmsR is_, s1 := magR v1 * magR i1, angle := foldTurn (argR v1 - argR i1), argV := argR v1 }
  if q.irms < (prof.inMa : Rat) / 2000000 then noPower q else q

/-- DC voltage, current and power over rows (Table 9.3, R334). -/
def dcQ (prof : SelProfile) (rows : List Row) : Rat × Rat × Rat :=
  let i := meanR (rows.map (phaseI 0))
  let pw := meanR (rows.map (fun r => phaseV .dc 0 r * phaseI 0 r))
    - meanR (rows.map (fun r => phaseI 0 r * phaseI 0 r)) * ((prof.rcUohm : Rat) / 1000000)
  (meanR (rows.map (phaseV .dc 0)), i, if |i| < (prof.inMa : Rat) / 1000000 then 0 else pw)

/-- Powers of a stretch of rows, oldest first: active total, fundamental, reactive, apparent and DC. -/
structure Powers where
  active : Rat := 0
  fund : Rat := 0
  reactive : Rat := 0
  apparent : Rat := 0
  dc : Rat := 0
  deriving DecidableEq, Repr

def powersOf (prof : SelProfile) (rows : List Row) : Powers :=
  let rows := deskew prof rows
  match prof.wiring with
  | .none => {}
  | .dc =>
    let p := (dcQ prof rows).2.2
    { active := p, dc := p }
  | w =>
    let qs := (List.range (phaseCount w)).map (phaseQ prof 1 rows)
    { active := sumR (qs.map (·.p)), fund := sumR (qs.map (·.p1)), reactive := sumR (qs.map (·.q1)), apparent := sumR (qs.map (·.s)) }

/-- An energy with its remainder: whole µWh, and what is carried forward (R322). -/
def carry (rem x : Rat) : Nat × Rat :=
  let t := rem + x
  (t.floor.toNat, t - (t.floor : Rat))

/-- A power in W over REF cycles as µWh. -/
def microWh (p ref : Rat) : Rat := p * ref / refHz * 1000000 / 3600

/-- Energies added to one direction with their remainders (R322, 10 R349). -/
def addEnergies (w : Powers) (ref : Rat) (e : Energies) (r : Remainders) : Energies × Remainders :=
  let abs := fun x : Rat => |x|
  let a := carry r.active (microWh (abs w.active) ref)
  let f := carry r.fund (microWh (abs w.fund) ref)
  let g := if 0 ≤ w.reactive then carry r.lag (microWh w.reactive ref) else (0, r.lag)
  let l := if 0 ≤ w.reactive then (0, r.lead) else carry r.lead (microWh (-w.reactive) ref)
  let p := carry r.apparent (microWh w.apparent ref)
  let d := carry r.dc (microWh (abs w.dc) ref)
  ({ active := e.active + a.1, fund := e.fund + f.1, lag := e.lag + g.1, lead := e.lead + l.1
     apparent := e.apparent + p.1, dc := e.dc + d.1 },
   { active := a.2, fund := f.2, lag := g.2, lead := l.2, apparent := p.2, dc := d.2 })

/-- The register set of a selector changed at a tariff. -/
def modRegs (sel : Selector) (tariff : Nat) (f : TariffRegs → TariffRegs) : State → State :=
  modBill (fun b => { b with regs := b.regs.modify sel (fun v => vmod v (Fin.ofNat 8 tariff) f) })

/-- Active energy booked to the post set enters the running fixed interval and sub-interval (10 R356, R357);
no demand is computed while the RTC is not valid (R381). -/
def addDemand (imp : Bool) (uWh : Nat) (s : State) : State :=
  if !s.time.valid then s
  else
    let f := fun (i : Interval) => if imp then { i with imp := i.imp + uWh } else { i with exp := i.exp + uWh }
    modBill (fun b => { b with demand := { b.demand with fixed := f b.demand.fixed, sub := f b.demand.sub } }) s

/-- A stretch of rows booked (R322, 10 R349): the sign of its total active power chooses the direction. -/
def bookRows (sel : Selector) (ref : Rat) (rows : List Row) (s : State) : State :=
  let w := powersOf (selProfile s sel) rows
  if w.active = 0 then s
  else
    let imp := decide (0 < w.active)
    let acc := s.met.acc.get sel
    let t := (s.bill.regs.get sel)[Fin.ofNat 8 s.bill.tariff]
    let (e, r) := addEnergies w ref (if imp then t.imp else t.exp) (if imp then acc.rem else acc.remExp)
    let was := if imp then t.imp.active else t.exp.active
    s |> modRegs sel s.bill.tariff (fun t => if imp then { t with imp := e } else { t with exp := e })
      |> modAcc sel (fun a => if imp then { a with rem := r } else { a with remExp := r })
      |> ifDo (sel != .supply) (addDemand imp (e.active - was))

/-- The rows of a selector not yet booked, oldest first. -/
def openRows (a : SelAcc) : List Row := (a.rows.take (a.rows.length - a.booked)).reverse

/-- What a selector has accumulated and not yet booked is booked (Table 9.11: a split; the end of a period). -/
def bookOpen (sel : Selector) (s : State) : State :=
  let a := s.met.acc.get sel
  let rows := openRows a
  s |> bookRows sel ((rows.length : Rat) * outputPeriod s (selProfile s sel)) rows
    |> modAcc sel (fun a => { a with booked := a.rows.length })

/-- The open period split at a boundary (Table 9.11): what came before it is booked. -/
def splitPeriod (s : State) : State := forEach allSelectors bookOpen s

end Sys2Proof.Machine
end

