-- ==== Sys2Proof/Machine/BillOps.lean ====
section
/-! DEFINITION. Billing operations (10): the tariff in force, demand, the hem, and MET's core reset. -/

namespace Sys2Proof.Machine

/-- The local time of an RTC second in minutes since 2000-01-01 (04 R135, 10 R353). -/
def localMinute (s : State) (sec : Nat) : Nat :=
  ((sec / 60 : Nat) + s.bill.utcOffsetMin + (if s.bill.dstRule.isEmpty then 0 else Config.dstMinutes s.bill.dstRule sec)).toNat

/-- The latest local minute reached at an RTC second (10 R353): in a repeated span the local clock adds nothing to it, so that an
entry takes effect at its first occurrence only. A change of the clock is at most 3 h (log 14, DESIGN CHOICE). -/
def reachedMinute (s : State) (sec : Nat) : Nat :=
  ((List.range 181).map (fun k => localMinute s (sec - 60 * k))).foldl max 0

/-- Minutes since Monday 00:00 of a local minute (2000-01-01 was a Saturday). -/
def weekMinute (m : Nat) : Nat := (m + 5 * 1440) % 10080

/-- How long ago an entry last started, in minutes, at a minute of the week (10 R352). -/
def entryAge (now : Nat) (e : TableEntry) : Option Nat :=
  let ages := ((List.range 7).filter (fun d => e.days.getLsbD d)).map (fun d => (now + 10080 - (1440 * d + e.minute)) % 10080)
  match ages with
  | [] => none
  | a :: as => some (as.foldl min a)

/-- The tariff of the table entry in force (10 R351, R352): the entry that started last. -/
def entryTariff (s : State) : Nat :=
  let now := weekMinute (reachedMinute s s.time.rtcSec.toNat)
  let l := s.bill.table.entries.filterMap (fun e => (entryAge now e).map (fun a => (a, e.tariff)))
  match l with
  | [] => 0
  | x :: xs => (xs.foldl (fun b y => if y.1 < b.1 then y else b) x).2

/-- A table entry starts at the present RTC second (10 R353): the local clock reaches its minute, or skips it. -/
def entryStarts (s : State) (e : TableEntry) : Bool :=
  let sec := s.time.rtcSec.toNat
  let now := reachedMinute s sec
  match entryAge (weekMinute now) e with
  | some a => sec % 60 == 0 && decide (a + reachedMinute s (sec - 60) < now)
  | none => false

/-- The tariff in force that R351 gives. -/
def tariffDue (s : State) : Nat :=
  if !s.time.valid then 0
  else
    match s.bill.held with
    | some r => r.tariff
    | none => entryTariff s

/-- The tariff in force changed with a cause (10 Table 10.4: 0 table, 1 remote, 2 time invalid, 3 time
valid): the period is split, the change is logged, running records take a reading, and MET checkpoints. -/
def setTariff (new cause : Nat) (s : State) : State :=
  if new = s.bill.tariff then s
  else s |> splitPeriod
    |> log 0x0020 noSubject (u8 s.bill.tariff ++ u8 new ++ u8 cause ++ u32 s.bill.table.version.toNat)
    |> modBill (fun b => { b with tariff := new })
    |> tariffReadings
    |> checkpoint

/-- The tariff in force evaluated again (10 R351, R362, R381, R386). -/
def reevaluate (cause : Nat) (s : State) : State := setTariff (tariffDue s) cause s

/-- A pending remote switch takes effect (10 R355): a change raises EV_TARIFF_SWITCHED. -/
def remoteEffect (s : State) : State :=
  match s.bill.remote with
  | none => s
  | some r =>
    let old := s.bill.tariff
    s |> modBill (fun b => { b with remote := none, held := some ⟨r.tariff, s.time.rtcSec.toNat⟩ })
      |> setTariff r.tariff 1
      |> ifDo (old != r.tariff) (raise .tariffSwitched (u8 old ++ u8 r.tariff))

/-- A pending remote switch whose second has come (10 R362). -/
def remoteDue (s : State) : Bool :=
  s.time.valid && match s.bill.remote with
    | none => false
    | some r => decide (r.second ≤ s.time.rtcSec.toNat)

/-- A tariff table is acceptable (10 R352, R256): the status of the first check that fails. -/
def tableFails (entries : List (Nat × BitVec 8 × Nat)) : Option Status :=
  let clash := fun (a b : Nat × BitVec 8 × Nat) => a.2.2 == b.2.2 && (a.2.1 &&& b.2.1 != 0)
  let rec dup : List (Nat × BitVec 8 × Nat) → Bool
    | [] => false
    | e :: es => es.any (clash e) || dup es
  if 63 < entries.length then some .argRange
  else if entries.any (fun e => e.2.1 == 0 || e.2.1.getLsbD 7 || decide (1439 < e.2.2)) || dup entries then some .argRange
  else if entries.isEmpty then some .emptyTable
  else if entries.any (fun e => decide (7 < e.1)) then some .tariffRange
  else none

/-- The version of the newest table (10 R352). -/
def tableVersion (s : State) : BitVec 32 := (s.bill.nextTable.getD s.bill.table).version

/-- An acceptable table taken (10 R352): it gets the next version, is kept, and takes effect at the next
demand-interval boundary. -/
def acceptTable (entries : List (Nat × BitVec 8 × Nat)) (s : State) : State :=
  let v := tableVersion s + 1
  s |> modBill (fun b => { b with nextTable := some ⟨v, entries.map (fun e => ⟨e.1, e.2.1, e.2.2⟩)⟩ })
    |> modLegal (fun l => { l with cp := { l.cp with nextTable := some ⟨v, entries.map (fun e => ⟨e.1, e.2.1, e.2.2⟩)⟩ } })
    |> log 0x0021 noSubject (u32 v.toNat ++ u16 entries.length)

/-- The local-time keys passed with each table and at each commit (10 R353). -/
def passLocalTime (s : State) : State :=
  modBill (fun b => { b with utcOffsetMin := cfgInt s.cfg s.fab (.gen .utcOffset), dstRule := cfgText s.cfg s.fab (.gen .dstRule) }) s

/-- The fixed interval in force in seconds (10 R356), and the next boundary after a second. -/
def intervalSec (s : State) : Nat := 60 * s.bill.demand.keys.intervalMin
def nextBoundary (s : State) (sec : Nat) : Nat := (sec / intervalSec s + 1) * intervalSec s

/-- The second of effect of a remote switch (10 R354). -/
def switchSecond (s : State) (boundary second : Nat) : Nat :=
  if boundary = 0 then nextBoundary s s.time.rtcSec.toNat else second

/-- 400 days in seconds (10 R354). -/
def switchHorizon : Nat := 400 * 86400

/-- A remote switch is acceptable (10 R354, R381, R256): the status of the first check that fails. -/
def switchFails (s : State) (tariff boundary second : Nat) : Option Status :=
  if 1 < boundary ∨ (boundary = 1 ∧ s.time.valid ∧ s.time.rtcSec.toNat + switchHorizon < second) then some .argRange
  else if 7 < tariff then some .tariffRange
  else if !s.time.valid then some .timeInvalid
  else if boundary = 1 ∧ second ≤ s.time.rtcSec.toNat then some .boundaryPast
  else none

/-- A remote switch taken; it replaces one that waits (07 Table 7.23). -/
def acceptSwitch (tariff boundary second : Nat) (s : State) : State :=
  modBill (fun b => { b with remote := some ⟨tariff, switchSecond s boundary second⟩ }) s

/-! ### Demand (10 R356 to R359) -/

/-- The demand state changed. -/
def modDemand (f : Demand → Demand) : State → State := modBill (fun b => { b with demand := f b.demand })

/-- The latest 00:00:00 UTC of the reset day at or before an RTC second, and the first one after it (10 R358). -/
def lastReset (day sec : Nat) : Nat :=
  (((List.range 32).map (fun k => (sec / 86400 - k) * 86400)).find? (fun t => (civil t).day == day)).getD 0
def nextReset (day sec : Nat) : Nat :=
  (((List.range 32).map (fun k => (sec / 86400 + 1 + k) * 86400)).find? (fun t => (civil t).day == day)).getD 0

/-- Demand in W of an energy in µWh over AO32 cycles of LIFE, to the nearest watt, held in 32 bits
(10 R356, R379). -/
def demandW (uWh cycles : Nat) : Nat :=
  if cycles = 0 then 0 else min 4294967295 (roundDiv ((uWh : Int) * 3600 * 32768) (1000000 * cycles)).toNat

/-- A demand competes for a period's maxima (10 R358). -/
def compete (imp exp second : Nat) (p : DemandPeriod) : DemandPeriod :=
  let p := if p.impMax < imp then { p with impMax := imp, impSecond := second } else p
  if p.expMax < exp then { p with expMax := exp, expSecond := second } else p

/-- Period 0 of a list changed. -/
def modPeriod0 (f : DemandPeriod → DemandPeriod) : List DemandPeriod → List DemandPeriod
  | [] => [f {}]
  | p :: ps => f p :: ps

/-- The running fixed interval closed at a LIFE, its end being an RTC second; a part of a split interval
competes when it lasted at least half the length (10 R356, R362). -/
def closeFixed (split : Bool) (life : Life) (second : Nat) (s : State) : State :=
  let d := s.bill.demand
  let n := (life - d.fixed.startLife).toNat
  let half := !(split || d.splitFixed) || decide (intervalSec s * 32768 ≤ 2 * n)
  modDemand (fun d =>
    { d with
      fixedPeriods := if n = 0 ∨ !half then d.fixedPeriods
        else modPeriod0 (compete (demandW d.fixed.imp n) (demandW d.fixed.exp n) second) d.fixedPeriods
      fixed := { start := second, startLife := life }, splitFixed := false }) s

/-- The running sub-interval closed, and the sliding demand over the last sub-intervals (10 R357, R362). -/
def closeSub (split : Bool) (life : Life) (second : Nat) (s : State) : State :=
  let d := s.bill.demand
  let n := (life - d.sub.startLife).toNat
  let half := !(split || d.splitSub) || decide (60 * d.keys.subMin * 32768 ≤ 2 * n)
  let subs := if n = 0 ∨ !half then d.subs else (⟨d.sub.imp, d.sub.exp, n⟩ :: d.subs).take d.keys.subCount
  let full := subs.length == d.keys.subCount && n != 0 && half
  let total := fun (f : SubInterval → Nat) => (subs.map f).foldl (· + ·) 0
  modDemand (fun d =>
    { d with
      slidingPeriods := if full then
          modPeriod0 (compete (demandW (total (·.imp)) (total (·.life))) (demandW (total (·.exp)) (total (·.life))) second) d.slidingPeriods
        else d.slidingPeriods
      subs, sub := { start := second, startLife := life }, splitSub := false }) s

/-- The hem (10 R362): both running intervals close at the LIFE of the step, and new ones open at the stepped
time, to be judged by their length. -/
def hem (life : Life) (before after : Nat) (s : State) : State :=
  s |> closeFixed true life before
    |> closeSub true life before
    |> modDemand (fun d => { d with
          fixed := { start := after, startLife := life }, sub := { start := after, startLife := life }
          splitFixed := true, splitSub := true, subs := [] })

/-- New intervals open now, to be judged by R362 (10 R381, R382). -/
def openIntervals (s : State) : State :=
  modDemand (fun d => { d with
    fixed := { start := s.time.rtcSec.toNat, startLife := s.time.life }
    sub := { start := s.time.rtcSec.toNat, startLife := s.time.life }
    splitFixed := true, splitSub := true, subs := [] }) s

/-- A step of the clock (10 R361, R362, R381). -/
def stepReport (r : TimeReport) (s : State) : State :=
  let start := s.bill.demand.fixed.start
  s |> splitPeriod
    |> putEntry {
          kind := 0x0010, epoch := s.legal.epoch, life := r.life, rtc := BitVec.ofNat 33 r.after, rtcValid := true
          subject := BitVec.ofNat 8 noSubject, data := padTo 10 (u64 r.before) }
    |> ifDo r.wasValid (hem r.life r.before r.after)
    |> ifDo (!r.wasValid) openIntervals
    |> logAt 0x0023 noSubject (u64 start) r.life s.legal.epoch false
    |> (fun s => forEach Outlet.all (fun o => modRecord o (fun x => { x with stepped := true })) s)
    |> raise .hem (u64 r.before ++ u64 start)
    |> raise .timeStepped (u64 r.before ++ u64 r.after)
    |> (fun s => ifDo (remoteDue s) remoteEffect s)
    |> reevaluate (if r.wasValid then 0 else 3)
    |> checkpoint

/-- The start of a slew (10 R361). -/
def slewReport (r : TimeReport) (s : State) : State :=
  logAt 0x0011 noSubject (i32 (roundDiv (r.offset * 125) 4096)) r.life s.legal.epoch false s

/-- The adjustment limit as MET holds it (10 R360). -/
def setAdjustLimit (n : Nat) (s : State) : State :=
  if n = s.legal.adjLimit ∨ n = 0 ∨ 60 < n then s
  else s |> log 0x0012 noSubject (u16 s.legal.adjLimit ++ u16 n)
    |> modLegal (fun l => { l with adjLimit := n })
    |> (fun s => { s with time := { s.time with adjLimit := n } })

/-! ### MET's core reset (09 R341) -/

/-- MET's volatile state after a restart, with the running coefficients of the checkpoint: the window reads zero until MET
publishes its first period. -/
def metFresh (s : State) : Met :=
  { running := true, coef := s.legal.cp.coef
    h := cfgNat s.cfg s.fab (.gen .orderMax), hNext := cfgNat s.cfg s.fab (.gen .orderMax)
    testPin := (cfgOpt s.cfg s.fab (.gen .testGp)).map (Fin.ofNat 64)
    testSel := match cfgNat s.cfg s.fab (.gen .testSelector) with
      | 0 => .supply
      | 1 => .a
      | _ => .b
    testQuantity := cfgNat s.cfg s.fab (.gen .testQuantity) }

/-- The legal working state of the last checkpoint; the tamper kinds of the watch domain stay open (10 R364),
and what waited in metrology SRAM is lost. -/
def billOfCheckpoint (s : State) : Bill :=
  let c := s.legal.cp
  { regs := c.regs, demand := c.demand, tariff := c.tariff, table := c.table, nextTable := c.nextTable
    remote := c.remote, held := c.held, utcOffsetMin := s.bill.utcOffsetMin, dstRule := s.bill.dstRule
    tamper := s.bill.tamper.filter (fun t => decide (4 ≤ t.1)), running := c.running }

/-- A reading of a running record as at the checkpoint of a LIFE (09 R341). -/
def readingAt (life : Life) (kind : ReadingKind) (o : Outlet) (r : Record) (s : State) : Reading :=
  let n := s.time.rtcSec.toNat * 32768 + s.time.rtcSub.toNat - (s.time.life - life).toNat
  { takeReading kind o r s with rtc := BitVec.ofNat 33 (n / 32768), sub := BitVec.ofNat 15 (n % 32768) }

/-- A running record closed by a reading as at the checkpoint. -/
def closeRecordAt (life : Life) (kind : ReadingKind) (o : Outlet) (s : State) : State :=
  match s.bill.running.get o with
  | none => s
  | some r =>
    s |> modBill (fun b => { b with running := b.running.modify o (fun _ => none) })
      |> storeRecord { r with readings := r.readings ++ [readingAt life kind o r s] }
      |> checkpoint

/-- MET's core reset (09 R341, 10 R383): it accumulates from the next period on, and what passes until then is a gap without a
valid power. -/
def metReset (s : State) : State :=
  let life := s.legal.cp.life
  let open_ := Outlet.all.filter (fun o => sessionOpen s o && (s.veh.out.get o).billed)
  s |> (fun s => { s with bill := billOfCheckpoint s })
    |> (fun s =>
        let acc : SelAcc := { gapSince := some s.time.life }
        { s with met := { metFresh s with waitPeriod := true, acc := ⟨acc, acc, acc⟩ } })
    |> log 0x0033 noSubject (u64 life.toNat)
    |> forEach Outlet.all (fun o s => s
        |> modRecord o (fun r => { r with gap := true })
        |> closeRecordAt life .fault o)
    |> openIntervals
    |> forEach open_ (fun o => stopSession o .metReset .fault)

end Sys2Proof.Machine
end

