-- ==== Sys2Proof/Machine/Metrology.lean ====
section
/-! DEFINITION. The rows of metrology (09): accumulation, periods and windows, bridges and gaps, MET's
requests, and METER_READ and HARMONICS_READ. -/

namespace Sys2Proof.Machine

/-- The active energy of a sample of a selector (R331), in µWh: import counts as positive. -/
def sampleEnergy (s : State) (sel : Selector) (r : Row) : Rat :=
  let p := selProfile s sel
  let w := sumR ((List.range (phaseCount p.wiring)).map (fun i => phaseV p.wiring i r * phaseI i r))
  let loss := if p.wiring = .dc then phaseI 0 r * phaseI 0 r * ((p.rcUohm : Rat) / 1000000) else 0
  microWh (w - loss) (outputPeriod s p)

/-- The test output's quantity over a period of its selector (R331), in µWh or µvarh. -/
def periodEnergy (s : State) : Rat :=
  let p := selProfile s s.met.testSel
  let rows := (s.met.acc.get s.met.testSel).rows.reverse
  let w := powersOf p rows
  let e := fun (x : Rat) => max 0 (microWh x ((rows.length : Rat) * outputPeriod s p))
  match s.met.testQuantity with
  | 0 => e w.active
  | 1 => e (-w.active)
  | 2 => e w.reactive
  | _ => e (-w.reactive)

/-- A pulse starts as the accumulated energy crosses a step of the meter constant (R331). -/
def testPulse (energy : Rat) (m : Met) (k : Nat) : Met :=
  let step : Rat := 1000000000 / (k : Rat)
  if step ≤ energy then { m with testAcc := m.testAcc - step, testHigh := true } else m

/-- The test output at a sample: the open period counts with its sign so far, as R322 will book it. -/
def testSample (sel : Selector) (row : Row) (s : State) : State :=
  let k := (selProfile s sel).impKwh
  if s.met.testPin.isNone ∨ s.met.testSel ≠ sel ∨ k = 0 ∨ 2 ≤ s.met.testQuantity then s
  else
    let e := sampleEnergy s sel row
    modMet (fun m =>
      let x := m.testOpen + (if m.testQuantity = 0 then e else -e)
      testPulse (m.testAcc + max 0 x) { m with testOpen := x } k) s

/-- The test output at the end of a period. -/
def testPeriod (s : State) : State :=
  let k := (selProfile s s.met.testSel).impKwh
  if s.met.testPin.isNone ∨ k = 0 then s
  else
    let e := periodEnergy s
    modMet (fun m => testPulse (m.testAcc + e) { m with testAcc := m.testAcc + e, testOpen := 0 } k) s

/-- A sample of a selector accumulated (R318). -/
def accumulate (sel : Selector) (row : Row) (sat : Bool) (s : State) : State :=
  s |> modAcc sel (fun a => { a with
          rows := row :: a.rows, last := some row, sat := a.sat || sat
          gap := a.gap || a.gapSince.isSome, gapSince := none, skipped := 0, broken := false, synced := false
          overload := if sat then some ((a.overload.map (·.1)).getD s.time.life, s.time.life) else a.overload })
    |> testSample sel row

/-- An overload episode ends after 1 s without SAT (R318). -/
def endOverload (sel : Selector) (s : State) : State :=
  match (s.met.acc.get sel).overload with
  | none => s
  | some (start, last) =>
    if (s.time.life - last).toNat < secs 1 then s
    else s |> logAt 0x0031 (selNum sel) (u32 ((last - start).toNat * 1000 / 32768)) start s.legal.epoch false
      |> modAcc sel (fun a => { a with overload := none })

/-- MET takes the newest sample of each channel of a selector (R318, Table 9.11). -/
def execMetSampleAccumulate (sel : Selector) (s : State) : Out :=
  let p := selProfile s sel
  let ws := (selChannels p).map (newest s)
  let out := (selChannels p).any (fun i => s.ch[i].service != .inService)
  let a := s.met.acc.get sel
  .next (ifDo (s.met.running && !s.met.waitPeriod && isWired p) (fun s =>
    if ws.any wordBad || out || a.held then
      modAcc sel (fun a => { a with
        held := a.held || out, gapSince := a.gapSince.orElse (fun _ => some s.time.life)
        skipped := if ws.any wordBad && ws.all (fun w => !wordBad w || wordSettling w) then a.skipped + 1 else a.skipped
        broken := a.broken || out || a.held || ws.any (fun w => wordBad w && !wordSettling w) }) s
    else s |> accumulate sel (newRow s p) (ws.any wordSat) |> endOverload sel) s)

/-- The test pulse ends (R331). -/
def execTestPulseEnd (s : State) : Out := .next (modMet (fun m => { m with testHigh := false }) s)

/-! ### The end of a period -/

/-- The wiring's code (Table 9.5). -/
def wiringCode : Wiring → BitVec 2
  | .w1p2w => 0
  | .w3p3w => 1
  | .w3p4w => 2
  | _ => 3

/-- THD of a channel as last published. -/
def thdOf (s : State) (i : Channel) : Int :=
  ((s.met.win.harmonics.find? (fun h => h.1 == i)).map (fun h => (h.2.2 : Int))).getD 0

/-- Powers and times of ten in the units of Table 9.5, and angles in 0.01°. -/
def deci (x : Rat) : Int := Config.publish (10 * x)
def milli (x : Rat) : Int := Config.publish (1000 * x)
def centiDeg (turn : Rat) : Int := Config.publish (36000 * turn)

/-- A phase record (Table 9.5). -/
def phaseRecord (s : State) (p : SelProfile) (argV1 : Rat) (i : Nat) (q : PhaseQ) : PhaseRecord :=
  [milli q.vrms, milli q.irms, deci q.p, deci q.p1, deci q.q1, deci q.qt, deci q.s, deci q.s1, centiDeg q.angle,
   centiDeg (foldTurn (q.argV - argV1)), thdOf s (p.volts.getD i 0), thdOf s (p.amps.getD i 0)]

/-- The published frequency (Table 9.3): from the cycle length, corrected by the change in arg V1. -/
def frequencyOf (s : State) (before : Option Rat) (argV : Rat) : Nat :=
  let n : Rat := (s.weave.cycleLen.toNat : Rat) / 256
  if n = 0 then 0
  else
    let f := refHz / n
    let turn := foldTurn (argV - before.getD argV)
    (Config.publish (1000 * (f + turn * f))).toNat

/-- A modulator of a selector, M8 where it carries a channel of it, has passed its age (R342). -/
def usesModulator (s : State) (p : SelProfile) (k : Island) (m : Fin 9) : Bool :=
  (carriedBy k s.isl[k] m).any (fun i => (selChannels p).contains i)
def selAged (s : State) (p : SelProfile) : Bool := s.met.aged.any (fun a => usesModulator s p a.1 a.2)

/-- Every island that runs has completed its start-up rotation (R344). -/
def rotationDone (s : State) : Bool := (List.finRange 6).all (fun i => !s.isl[i].powered || s.isl[i].rotated)

/-- A period of a selector may be valid (R328). -/
def selValid (s : State) (p : SelProfile) (a : SelAcc) : Bool :=
  !a.rows.isEmpty && !a.gap && a.gapSince.isNone && !a.held && (p.wiring == .dc || s.weave.locked) &&
    rotationDone s && !selAged s p && !a.bridged && !a.synced

/-- The record that a selector's period publishes (Table 9.5, R334, R335); values of a bridged period stay as
they were. -/
def selRecord (s : State) (sel : Selector) : SelRecord :=
  let p := selProfile s sel
  let a := s.met.acc.get sel
  let old := s.met.win.sel.get sel
  if !isWired p then {}
  else
    let rows := deskew p a.rows.reverse
    let qs := if p.wiring = .dc then [] else (List.range (phaseCount p.wiring)).map (phaseQ p s.met.h rows)
    let d := if p.wiring = .dc then dcQ p rows else (0, 0, 0)
    let w := powersOf p a.rows.reverse
    let ref := (a.rows.length : Rat) * outputPeriod s p
    let argV1 := (qs.head?.map (·.argV)).getD 0
    let keep := a.bridged || a.synced
    let flags : SelRecord := { old with
      valid := selValid s p a, harmonicsOff := s.met.h == 0, sat := a.sat, bridged := a.bridged
      gap := a.gap || a.gapSince.isSome, wired := true, wiring := wiringCode p.wiring
      phaseAbsent := !a.absent.isEmpty
      active := Config.publish (microWh w.active ref), reactive := Config.publish (microWh w.reactive ref) }
    if keep then flags
    else { flags with
      noLoad := if p.wiring = .dc then d.2.2 == 0 else qs.all (fun q => decide (q.irms < (p.inMa : Rat) / 2000000))
      phases := qs.zipIdx.map (fun x => phaseRecord s p argV1 x.2 x.1)
      totals := if p.wiring = .dc then [] else
        [deci (sumR (qs.map (·.p))), deci (sumR (qs.map (·.p1))), deci (sumR (qs.map (·.q1))),
         deci (sumR (qs.map (·.qt))), deci (sumR (qs.map (·.s))), deci (sumR (qs.map (·.s1)))]
      milliHz := if p.wiring = .dc then 0 else frequencyOf s a.lastArg argV1
      dcMv := milli d.1, dcMa := milli d.2.1, dcP := deci d.2.2 }

/-- Phases whose Vrms stayed below 0.1 Un over the period (R340). -/
def absentNow (p : SelProfile) (rows : List Row) : List Nat :=
  if p.wiring = .dc ∨ rows.isEmpty then []
  else (List.range (phaseCount p.wiring)).filter (fun i =>
    decide (rmsR (rows.map (phaseV p.wiring i)) < (p.unMv : Rat) / 10000))

/-- Absent phases logged as they begin and end (R340). -/
def judgeAbsent (sel : Selector) (s : State) : State :=
  let a := s.met.acc.get sel
  let now := if a.rows.isEmpty then a.absent else absentNow (selProfile s sel) a.rows
  s |> forEach (now.filter (fun i => !a.absent.contains i)) (fun i => log 0x0032 (selNum sel) (u8 i ++ u8 0))
    |> forEach (a.absent.filter (fun i => !now.contains i)) (fun i => log 0x0032 (selNum sel) (u8 i ++ u8 1))
    |> modAcc sel (fun a => { a with absent := now })

/-- A bidirectional session on the selector's outlet permits export (10 Table 10.2). -/
def exportPermitted (s : State) (sel : Selector) : Bool :=
  match outletOfSel sel with
  | none => false
  | some o => sessionOpen s o && (s.veh.out.get o).bidir

/-- The condition of tamper kind 1 (10 Table 10.2). -/
def tamper1 (s : State) (sel : Selector) : Bool :=
  let p := selProfile s sel
  let rows := (s.met.acc.get sel).rows.reverse
  let in_ : Rat := (p.inMa : Rat) / 1000
  if sel = .supply then false
  else if p.wiring = .dc then
    let d := dcQ p rows
    decide (d.2.2 < 0) && decide (in_ / 100 < |d.2.1|) && !exportPermitted s sel
  else
    let qs := (List.range (phaseCount p.wiring)).map (phaseQ p 1 rows)
    let total := sumR (qs.map (·.p))
    (decide (total < 0) && qs.any (fun q => decide (in_ / 100 < q.irms)) && !exportPermitted s sel) ||
      (decide (0 < total) && qs.any (fun q => decide (q.p < 0) && decide (in_ / 20 < q.irms)))

/-- The condition of tamper kind 2 (10 Table 10.2). -/
def tamper2 (s : State) (sel : Selector) : Bool :=
  let p := selProfile s sel
  let rows := (s.met.acc.get sel).rows.reverse
  let in_ : Rat := (p.inMa : Rat) / 1000
  if sel = .supply then false
  else if p.wiring = .dc then
    let i := meanR (rows.map (phaseI 0))
    p.comparison.isSome && decide (|i| / 50 + in_ / 100 < |i - meanR (rows.map (·.comp))|)
  else
    let is_ := (List.range (phaseCount p.wiring)).map (fun i => rows.map (phaseI i))
    let rms := is_.map rmsR
    let sum := is_.foldl (fun (a : Rat × Rat) x => (a.1 + (spectral x 1).1, a.2 + (spectral x 1).2)) (0, 0)
    let n := spectral (rows.map (·.comp)) 1
    let sup := selProfile s .supply
    let srows := (s.met.acc.get .supply).rows.reverse
    (p.comparison.isSome && decide (rms.foldl max 0 / 50 + in_ / 100 < magR (n.1 - sum.1, n.2 - sum.2))) ||
      (isWired sup && sup.wiring != .dc && !srows.isEmpty &&
        rms.zipIdx.any (fun x => decide (x.2 < phaseCount sup.wiring) &&
          decide (x.1 / 50 + in_ / 100 < x.1 - rmsR (srows.map (phaseI x.2)))))

/-- The condition of tamper kind 3 (10 Table 10.2). -/
def tamper3 (s : State) (sel : Selector) : Bool :=
  let p := selProfile s sel
  let rows := (s.met.acc.get sel).rows.reverse
  match p.wiring with
  | .w1p2w => decide ((p.unMv : Rat) / 5000 < magR (spectral (rows.map (fun r => r.volts.getD 1 0)) 1))
  | .w3p4w => decide ((p.unMv : Rat) / 5000 < magR (spectral (rows.map (fun r => r.volts.getD 3 0)) 1))
  | _ => false

/-- A tamper kind of a selector judged on one period (10 R364): 10 periods in a row open or close it. -/
def judgeTamper (sel : Selector) (k : Fin 3) (cond : Bool) (s : State) : State :=
  let a := s.met.acc.get sel
  let kind := k.val + 1
  let isOpen := s.bill.tamper.contains (kind, BitVec.ofNat 8 (selNum sel))
  let on := if cond then a.tamperOn[k] + 1 else 0
  let off := if cond then 0 else a.tamperOff[k] + 1
  let t := modAcc sel (fun a => { a with tamperOn := vmod a.tamperOn k (fun _ => on), tamperOff := vmod a.tamperOff k (fun _ => off) }) s
  if !isOpen ∧ 10 ≤ on then t |> openTamper kind (selNum sel) t.time.life t.legal.epoch |> fireWake 6
  else if isOpen ∧ 10 ≤ off then closeTamper kind (selNum sel) t.time.life t.legal.epoch t
  else t

/-- The tamper kinds 1 to 3 judged on a selector whose valid bit is 1 (10 R364). -/
def judgeTampers (sel : Selector) (s : State) : State :=
  if !(s.met.win.sel.get sel).valid then s
  else s |> judgeTamper sel 0 (tamper1 s sel) |> judgeTamper sel 1 (tamper2 s sel) |> judgeTamper sel 2 (tamper3 s sel)

/-- An end reading that is due is taken once the contactors are open (Table 9.11). -/
def endReading (o : Outlet) (s : State) : State :=
  match (s.bill.running.get o).bind (·.ending) with
  | some k => if contactorsOpen s o then closeRecord o k s else s
  | none => s

/-- Spectral components of a mains-synchronous channel over the cycle just ended (R323), orders 0 to 63. -/
def cycleSpectrum (s : State) (i : Channel) : List (Rat × Rat) :=
  let xs := (portWords s.ch[i].metPort 256).map (fun w => ((wordValue w : Int) : Rat))
  (List.range 64).map (fun h => if s.met.h = 0 ∧ 1 < h then (0, 0) else spectral xs h)

/-- Channels in mains-synchronous mode. -/
def mainsChannels (s : State) : List Channel := (List.finRange 48).filter (fun i => s.ch[i].cfg.mode == .mains && s.ch[i].metPort.desc.count != 0)

/-- The cycle's components added to those of the running window (R323); a synchronisation starts the windows
anew. -/
def addSpectrum (restart : Bool) (s : State) : State :=
  if restart then modMet (fun m => { m with spectrum := [], windowCycles := 0 }) s
  else
    let add := fun (i : Channel) =>
      let old := ((s.met.spectrum.find? (fun x => x.1 == i)).map (·.2)).getD (List.replicate 64 (0, 0))
      (i, (old.zip (cycleSpectrum s i)).map (fun x => (x.1.1 + x.2.1, x.1.2 + x.2.2)))
    modMet (fun m => { m with spectrum := (mainsChannels s).map add, windowCycles := m.windowCycles + 1 }) s

/-- Channel records (Table 9.4). -/
def channelRecords (s : State) : List (Channel × List Int) :=
  ((List.finRange 48).filter (fun i => s.ch[i].metPort.desc.count != 0)).map (fun i =>
    let xs := (portWords s.ch[i].metPort 256).map (fun w => ((wordValue w : Int) : Rat))
    let x1 := spectral xs 1
    (i, [Config.publish (rmsR xs), Config.publish (meanR xs), Config.publish (magR x1), Config.publish (4294967296 * argR x1)]))

/-- The window after a period (R327, R50, R335, Table 9.4; 07 R261, R268). -/
def publishWindow (s : State) : State :=
  modMet (fun m => { m with win := { m.win with
    seq := m.win.seq + 2, locked := s.weave.locked, rotated := rotationDone s, harmonicsOff := m.h == 0, legalFault := s.legal.fault.isSome
    life := s.time.life, periods := m.win.periods + 1, h := m.h, profile := s.fab.profile.number
    sel := ⟨selRecord s .supply, selRecord s .a, selRecord s .b⟩, channels := channelRecords s
    post := { a := s.bill.regs.a, b := s.bill.regs.b, tariff := s.bill.tariff
              fixedPeriods := s.bill.demand.fixedPeriods, slidingPeriods := s.bill.demand.slidingPeriods } } }) s

/-- The accumulator of a selector for the next period. -/
def nextAcc (s : State) (sel : Selector) (a : SelAcc) : SelAcc :=
  let p := selProfile s sel
  let w := powersOf p a.rows.reverse
  let v := spectral (a.rows.reverse.map (phaseV p.wiring 0)) 1
  { a with
    rows := [], booked := 0, sat := false, bridged := false, gap := false
    held := a.held && (selChannels p).any (fun i => s.ch[i].service != .inService)
    lastPower := if selValid s p a then w.active else a.lastPower
    lastArg := if a.rows.isEmpty || p.wiring == .dc then a.lastArg else some (argR v) }

/-- An integration period ends (R320, R327): bookings, publication, tamper checks and readings. -/
def execIntegrationPeriodEnd (s : State) : Out :=
  let restart := allSelectors.any (fun x => (s.met.acc.get x).synced || (s.met.acc.get x).bridged)
  .next (
    if !s.met.running then s
    else if s.met.waitPeriod then modMet (fun m => { m with waitPeriod := false }) s
    else s
      |> forEach allSelectors judgeAbsent
      |> splitPeriod
      |> testPeriod
      |> publishWindow
      |> addSpectrum restart
      |> forEach allSelectors judgeTampers
      |> forEach Outlet.all endReading
      |> (fun s => modMet (fun m => { m with acc := ⟨nextAcc s .supply m.acc.supply, nextAcc s .a m.acc.a, nextAcc s .b m.acc.b⟩ }) s))

/-! ### Harmonics -/

/-- A magnitude of order h in a channel's harmonic entry: e in bits 15:12, m in bits 11:0, for
m × 2^e × FS / 2^26 (Table 9.4). `x` is in sample units. -/
def harmonicCode (x : Rat) : Nat :=
  let y := x * 8
  let e := ((List.range 15).find? (fun e => decide (y < 4096 * (2 : Rat) ^ e))).getD 15
  e * 4096 + min 4095 (Config.publish (y / (2 : Rat) ^ e)).toNat

/-- The cycles of a harmonic window (R323). -/
def windowLength (s : State) : Nat := if cfgNat s.cfg s.fab (.gen .mainsHz) = 50 then 10 else 12

/-- A harmonic window ends (R323, R324). -/
def execHarmonicWindowEnd (s : State) : Out :=
  let n : Rat := (max 1 s.met.windowCycles : Nat)
  let refCh : Channel := Fin.ofNat 48 (cfgNat s.cfg s.fab (.gen .mainsRef))
  let avg := s.met.spectrum.map (fun x => (x.1, x.2.map (fun c => (c.1 / n, c.2 / n))))
  let ref1 := argR (((avg.find? (fun x => x.1 == refCh)).bind (fun x => x.2[1]?)).getD (1, 0))
  let one := fun (x : Channel × List (Rat × Rat)) =>
    let mags := x.2.map magR
    let x1 := mags.getD 1 0
    let orders := x.2.zipIdx.map (fun c =>
      if s.met.h < c.2 ∧ 1 < c.2 then ((0, 0) : Nat × Int)
      else (harmonicCode (magR c.1), Config.publish (65536 * foldTurn (argR c.1 - (c.2 : Rat) * ref1))))
    let thd := if s.met.h = 0 ∨ x1 = 0 then 0
      else (Config.publish (10000 * Config.root (sumR (((mags.take (s.met.h + 1)).drop 2).map (fun m => m * m))) / x1)).toNat
    (x.1, orders, thd)
  .next (ifDo (s.met.running && decide (windowLength s ≤ s.met.windowCycles)) (modMet (fun m => { m with
    win := { m.win with seq := m.win.seq + 2, windows := m.win.windows + 1, harmonics := avg.map one, h := m.h, harmonicsOff := m.h == 0 }
    spectrum := [], windowCycles := 0, h := m.hNext })) s)

/-! ### Bridges and gaps -/

/-- A billed session is open that makes MET bridge the selector's gap (R335). -/
def bridges (s : State) (sel : Selector) : Bool :=
  match outletOfSel sel with
  | some o => sessionOpen s o && (s.veh.out.get o).billed
  | none => Outlet.all.any (fun o => sessionOpen s o && (s.veh.out.get o).billed)

/-- A row between two rows, at a part of the way (R335). -/
def between (a b : Row) (t : Rat) : Row :=
  let mix := fun (x y : Rat) => x + t * (y - x)
  { volts := (a.volts.zip b.volts).map (fun v => mix v.1 v.2), amps := (a.amps.zip b.amps).map (fun v => mix v.1 v.2), comp := mix a.comp b.comp }

/-- The first valid sample after a synchronisation (R335): the span from the last valid sample is interpolated
and booked. The tail before the synchronisation is a free value (log 5, DESIGN CHOICE). -/
def execSyncBridge (sel : Selector) (s : State) : Out :=
  let p := selProfile s sel
  let a := s.met.acc.get sel
  let ws := (selChannels p).map (newest s)
  .next (
    match a.last with
    | none => s
    | some l =>
      if !s.met.running || s.met.waitPeriod || !isWired p || !a.synced || a.skipped == 0 || a.broken || a.held ||
          ws.any wordBad || !bridges s sel then s
      else
        let first := newRow s p
        let n := a.skipped
        let tail := max 0 (Config.bridgeTail s.nd)
        let mid := (List.range n).map (fun k => between l first ((tail + (k + 1 : Nat)) / (tail + (n + 1 : Nat))))
        let span := (tail + (n + 1 : Nat)) * outputPeriod s p
        s |> draw
          |> bookRows sel span mid
          |> modAcc sel (fun a => { a with gapSince := none, skipped := 0, synced := false, bridged := true })
          |> accumulate sel first (ws.any wordSat)
          |> (fun s => match outletOfSel sel with
              | some o => raise .syncBridged (u32 (s.veh.out.get o).id.toNat ++ u16 n ++ u8 o.num) s
              | none => s))

/-- A measurement gap ends (R338): samples passed over that no bridge took. -/
def execMeasurementGap (sel : Selector) (ms : Nat) (s : State) : Out :=
  let a := s.met.acc.get sel
  let start : Life := s.time.life - BitVec.ofNat 64 (ms * 32768 / 1000)
  .next (ifDo (s.met.running && isWired (selProfile s sel) && (a.gap || a.gapSince.isSome)) (fun s => s
    |> logAt 0x0030 (selNum sel) (u32 ms ++ i32 (Config.publish (a.lastPower * (ms : Rat) / 3600))) start s.legal.epoch false
    |> modAcc sel (fun a => { a with gap := true, gapSince := none, skipped := 0, broken := false, synced := false })
    |> (fun s => match outletOfSel sel with
        | some o => modRecord o (fun r => { r with gap := true }) s
        | none => s)) s)

/-- A metered channel of a billed session has delivered nothing accumulable for more than 1 s (R338, 10 R383). -/
def execGapSessionEnd (o : Outlet) (s : State) : Out :=
  let long := match (s.met.acc.get (selOfOutlet o)).gapSince with
    | some t => decide (secs 1 < (s.time.life - t).toNat)
    | none => false
  .next (ifDo (sessionOpen s o && (s.veh.out.get o).billed && long) (fun s => s
    |> modRecord o (fun r => { r with gap := true })
    |> stopSession o .measurementFault .fault) s)

/-- MET has a core reset (R341). -/
def execMetCoreReset (s : State) : Out := .next (ifDo (baseRuns s) metReset s)

/-- A metered modulator passes the age that R302 assumes, four calibration intervals (R342). -/
def execCalibrationAgeExceeded (k : Island) (m : Fin 9) (s : State) : Out :=
  let metered := allSelectors.any (fun x => usesModulator s (selProfile s x) k m)
  let old := decide (secs (240 * cfgNat s.cfg s.fab (.gen .calInterval)) < (s.time.life - (s.isl[k]).calLife[m]).toNat)
  .next (ifDo (s.met.running && metered && old && !s.met.aged.contains (k, m)) (fun s => s
    |> modMet (fun x => { x with aged := x.aged ++ [(k, m)] })
    |> log 0x0034 k.val (u8 m.val)) s)

/-- An island's start-up rotation completes (R344); the window shows it with the next period. -/
def execStartupRotationComplete (k : Island) (s : State) : Out := .next (modIsl k (fun x => { x with rotated := true }) s)

/-! ### The request port -/

/-- A request that MET judges (R330). -/
def metRequest (req : MetRequest) (s : State) : State :=
  match req with
  | .orderLimit h => ifDo (decide (h ≤ 63)) (modMet (fun m => { m with hNext := h })) s
  | .testOutput pin sel q =>
    ifDo (decide (q ≤ 3)) (modMet (fun m => { m with testPin := pin, testSel := sel, testQuantity := q, testAcc := 0, testOpen := 0, testHigh := false })) s
  | .tariffTable entries off dst =>
    ifDo (tableFails entries).isNone (fun s => s
      |> modBill (fun b => { b with utcOffsetMin := off, dstRule := dst })
      |> acceptTable entries) s
  | .tariffSwitch t b sec => ifDo (switchFails s t b sec).isNone (acceptSwitch t b sec) s
  | .localTime off dst => modBill (fun b => { b with utcOffsetMin := off, dstRule := dst }) s
  | .demandKeys i sm sc d =>
    ifDo (i != 0 && sm != 0 && sc != 0 && d != 0) (modDemand (fun x => { x with next := ⟨i, sm, sc, d⟩ })) s
  | .adjustLimit n => setAdjustLimit n s

/-- MET takes the requests that wait in the port's queue, oldest first, and judges each (R330). -/
def takeRequests (s : State) : State :=
  s.met.requests.foldl (fun t r => metRequest r t) (modMet (fun m => { m with requests := [] }) s)

/-- A write to the MET request port (R330): only the application cores have a path to its queue of 16,
which MET empties while it runs. A write into the full queue is lost (log 85, DESIGN CHOICE). -/
def execMetRequestWrite (m : Master) (req : MetRequest) (s : State) : Out :=
  .next (ifDo (m == .app0 || m == .app1) (fun s => s
    |> ifDo (decide (s.met.requests.length < 16)) (modMet (fun m => { m with requests := m.requests ++ [req] }))
    |> (fun s => ifDo s.met.running takeRequests s)) s)

/-- The keys of 09 Table 9.6 and 10 Table 10.1 passed to MET at a commit (R331, 10 Table 10.1, R353). -/
def passKeys (s : State) : State :=
  let n := fun k => cfgNat s.cfg s.fab (.gen k)
  let pin : Option (Fin 64) := (cfgOpt s.cfg s.fab (.gen .testGp)).map (Fin.ofNat 64)
  let sel : Selector := match n .testSelector with
    | 0 => .supply
    | 1 => .a
    | _ => .b
  if !s.met.running then s
  else s |> metRequest (.orderLimit (n .orderMax))
    |> (fun s => if s.met.testPin = pin ∧ s.met.testSel = sel ∧ s.met.testQuantity = n .testQuantity then s
        else metRequest (.testOutput pin sel (n .testQuantity)) s)
    |> passLocalTime
    |> metRequest (.demandKeys (n .demandMin) (n .slidingSub) (n .slidingCount) (n .resetDay))
    |> metRequest (.adjustLimit (n .adjustLimit))

/-! ### Reads of the window -/

/-- A phase record as METER_READ gives it (07 Table 7.10, R327). -/
def meterPhase (r : SelRecord) (i : Nat) : Bytes :=
  let p := r.phases.getD i []
  let v := fun k => i32 (p.getD k 0)
  v 0 ++ v 1 ++ v 2 ++ v 4 ++ v 6 ++ v 8

/-- METER_READ (07 Table 7.10). -/
def execMeterRead (mb : Mailbox) (s : State) : Out :=
  .next (runCommand .meterRead mb (fun b s =>
    let n := rd b 0 2
    let r := s.met.win.sel.get (match n with
      | 0 => .supply
      | 1 => .a
      | _ => .b)
    guards [(decide (2 < n), .argRange)] s <|
      ok (u32 s.met.win.seq.toNat ++ u32 (b1 r.valid + 2 * b1 r.harmonicsOff) ++ meterPhase r 0 ++ meterPhase r 1
        ++ meterPhase r 2 ++ i32 (r.totals.getD 0 0) ++ i32 (r.totals.getD 2 0) ++ i32 (r.totals.getD 4 0)
        ++ u32 r.milliHz ++ i32 r.dcMv ++ i32 r.dcMa ++ i32 r.dcP) s) s)

/-- The full scale of a channel in V, or in A where the profile names its sense constant (07 Table 7.10). -/
def channelScale (s : State) (i : Channel) : Rat :=
  let r := s.ch[i].cfg.range
  let k : Nat := (((selectors s.fab).findSome? (fun p => ((p.amps ++ p.comparison.toList).zip p.k).find? (fun x => x.1 == i))).map (·.2)).getD 0
  if k = 0 then fullScale r else fullScale r * 1000000000 / (k : Rat)

/-- HARMONICS_READ (07 Table 7.10; R324): before the first harmonic window is published every entry reads zero (log 91, DESIGN
CHOICE). -/
def execHarmonicsRead (mb : Mailbox) (s : State) : Out :=
  .next (runCommand .harmonicsRead mb (fun b s =>
    let n := rd b 0 1
    let first := rd b 1 1
    let count := rd b 2 1
    let ph := rd b 3 1
    let i : Channel := Fin.ofNat 48 n
    guards [(decide (n < 48) && s.ch[i].cfg.mode != .mains, .state), (decide (47 < n), .argRange), (decide (63 < first), .argRange),
        (count == 0 || decide ((if ph = 1 then 63 else 64) < count) || decide (64 < first + count), .argRange),
        (decide (1 < ph), .argRange), (s.met.h == 0, .harmonicsOff)] s <|
      let rec_ := (s.met.win.harmonics.find? (fun h => h.1 == i)).map (·.2)
      let orders := (rec_.map (·.1)).getD []
      let entry := fun h =>
        let e := orders.getD h (0, 0)
        let mag := ((e.1 % 4096 : Nat) : Rat) * (2 : Rat) ^ (e.1 / 4096) / 67108864 * channelScale s i * 1000000
        u32 (Config.publish mag).toNat ++ (if ph = 1 then i32 (Config.publish ((e.2 : Rat) * 360000 / 65536)) else [])
      ok (u32 s.met.win.seq.toNat ++ u16 ((rec_.map (·.2)).getD 0) ++ u16 count
        ++ ((List.range count).map (· + first)).flatMap entry) s) s)

end Sys2Proof.Machine
end

