-- ==== Sys2Proof/Machine/Billing.lean ====
section
/-! DEFINITION. The rows of billing (10): the tariff, demand, clock reports, checkpoints, the log, records, the
watch ring, and the commands of group 0x08. -/

namespace Sys2Proof.Machine

/-- MET takes the oldest report of the TIME block (R361). -/
def execMetTimeReport (s : State) : Out :=
  .next (
    match s.tb.reports with
    | [] => s
    | r :: rest =>
      ifDo s.met.running (fun s => s
        |> modTb (fun b => { b with reports := rest })
        |> (if r.step then stepReport r else slewReport r)) s)

/-- A checkpoint (R363). -/
def execCheckpoint (s : State) : Out := .next (ifDo s.met.running checkpoint s)

/-- A table entry starts (R351, R353, R355, Table 10.8). -/
def execTariffEntryStart (entry : Nat) (s : State) : Out :=
  .next (ifDo (s.met.running && s.time.valid) (fun s =>
    match s.bill.table.entries[entry]? with
    | none => s
    | some e =>
      if remoteDue s then remoteEffect s
      else if !entryStarts s e ∨ (s.bill.held.map (·.second)) = some s.time.rtcSec.toNat then s
      else s |> modBill (fun b => { b with held := none }) |> setTariff e.tariff 0) s)

/-- A remote switch reaches its boundary (R355). -/
def execRemoteSwitchEffect (s : State) : Out := .next (ifDo (s.met.running && remoteDue s) remoteEffect s)

/-- A table that waits takes effect (R352). -/
def takeTable (s : State) : State :=
  match s.bill.nextTable with
  | none => s
  | some t => s |> modBill (fun b => { b with table := t, nextTable := none }) |> reevaluate 0

/-- A fixed interval ends, at a whole multiple of its length (R356, R352, R363): a remote switch of the same second takes effect before a table
(Table 10.8). (log 64, DEDUCED) -/
def execDemandIntervalEnd (s : State) : Out :=
  .next (ifDo (s.met.running && s.time.valid && s.time.rtcSec.toNat % intervalSec s == 0) (fun s => s
    |> splitPeriod
    |> closeFixed false s.time.life s.time.rtcSec.toNat
    |> (fun s => ifDo (remoteDue s) remoteEffect s)
    |> takeTable
    |> checkpoint) s)

/-- A sub-interval ends, at a whole multiple of its length (R357). -/
def execSlidingSubEnd (s : State) : Out :=
  .next (ifDo (s.met.running && s.time.valid && s.time.rtcSec.toNat % (60 * s.bill.demand.keys.subMin) == 0) (fun s => s
    |> splitPeriod
    |> closeSub false s.time.life s.time.rtcSec.toNat) s)

/-- A list of demand periods with period 0 closed at an instant and a new one opened, which ends on the next reset day (R358). The
sub-interval count of a period of the fixed kind is 1 (log 91, DESIGN CHOICE). -/
def turnPeriod (at_ day interval subs : Nat) (l : List DemandPeriod) : List DemandPeriod :=
  ({ start := at_, stop := nextReset day at_, intervalMin := interval, subs } :: modPeriod0 (fun p => { p with stop := at_ }) l).take 12

/-- The running demand period has reached its reset instant (R358). -/
def periodOver (s : State) : Bool :=
  let d := s.bill.demand
  decide ((d.fixedPeriods.headD {}).start < lastReset d.keys.resetDay s.time.rtcSec.toNat)

/-- A demand period closes (R358, R359, R363, Table 10.8): what ends with it competes in it. -/
def execDemandPeriodClose (s : State) : Out :=
  let now := s.time.rtcSec.toNat
  let at_ := lastReset s.bill.demand.keys.resetDay now
  .next (ifDo (s.met.running && s.time.valid && periodOver s) (fun s => s
    |> splitPeriod
    |> closeFixed false s.time.life now
    |> closeSub false s.time.life now
    |> (fun s => log 0x0022 noSubject (u32 ((s.bill.demand.fixedPeriods.head?.map (·.impMax)).getD 0)
          ++ u32 ((s.bill.demand.fixedPeriods.head?.map (·.expMax)).getD 0)) s)
    |> modDemand (fun d => { d with
          keys := d.next, subs := []
          fixedPeriods := turnPeriod at_ d.next.resetDay d.next.intervalMin 1 d.fixedPeriods
          slidingPeriods := turnPeriod at_ d.next.resetDay d.next.subMin d.next.subCount d.slidingPeriods })
    |> checkpoint) s)

/-- A waiting entry is written into the ring (R368). -/
def execLogEntryWrite (s : State) : Out := .next (ifDo s.met.running writeOldest s)

/-- The oldest closed record of an outlet that waits for its signature. -/
def unsignedRecord (s : State) (o : Outlet) : Option Record :=
  s.legal.records.reverse.find? (fun r => r.outlet == o && !r.signed && r.text.isEmpty)

/-- A closed record changed. -/
def modClosed (n : Nat) (f : Record → Record) : State → State :=
  modLegal (fun l => { l with records := l.records.map (fun r => if r.number = n then f r else r) })

/-- The end of a billed session for the operator, with its record (15 R544, R563, Table 15.3): session, meter stop in Wh and
record number. A signed record goes in it; under 2.0.1 one longer than 1,875 bytes follows in a message of its own. -/
def endMessages (r : Record) (text : Bytes) (s : State) : State :=
  let stop := ((r.readings.getLast?.map Reading.imp).getD 0) / 1000000
  let apart := ocppVersion s == some 1 && decide (1875 < text.length)
  let cut := r.ending == some .power
  let e : OpMsg := { kind := .txEnd, outlet := some r.outlet, nums := [r.session.toNat, stop, r.number], text := if apart then [] else text }
  let m : OpMsg := { kind := .record, outlet := some r.outlet, nums := [r.session.toNat, r.number], text }
  s |> (if cut then putFirst e else putMsg e)
    |> ifDo apart (if cut then putFirst m else putMsg m)

/-- A record signed on crypto channel 0 with the legal signing key (R371, R375), not signed (R385), or stored without a signature
under a legal partition fault (01 R56). -/
def execSessionRecordSigned (o : Outlet) (ok : Bool) (s : State) : Out :=
  .next (
    match unsignedRecord s o with
    | none => s
    | some r =>
      if !s.met.running then s
      else if s.legal.fault.isSome then modClosed r.number (fun r => { r with text := recordText s.fab r none }) s |> endMessages r []
      else
        match if ok then legalSignature s (payloadText s.fab r) else none with
        | some signature =>
          let text := recordText s.fab r (some signature)
          s |> modClosed r.number (fun r => { r with signed := true, text })
            |> log 0x0060 o.num (u32 r.number ++ u32 (recordWh r))
            |> raise .sessionRecordReady (u32 r.number ++ u32 text.length)
            |> endMessages r text
        | none =>
          if r.failures = 0 then modClosed r.number (fun r => { r with failures := 1 }) s
          else s |> modClosed r.number (fun r => { r with failures := 2, text := recordText s.fab r none }) |> declareFault 3 |> endMessages r [])

/-! ### The watch ring -/

/-- The sense constant and the full scale of a theft-watch channel in A (09 R346). -/
def theftScale (s : State) (ch : Nat) : Rat := channelScale s (Fin.ofNat 48 ch)

/-- Data of a theft record (09 R346), over two entries: LIFE at its end; peak current in mA and charge in mAh
(log 22, DESIGN CHOICE). -/
def theftEntries (s : State) (ch : Nat) (r : TheftRecord) : Bytes × Bytes :=
  let fs := theftScale s ch
  (u8 0 ++ u64 r.last.toNat,
   u8 0 ++ u32 (Config.publish (r.peak * fs)).toNat
     ++ u32 (Config.publish (r.sum * fs * (s.wch.settings.theftPeriodS : Rat) / 3600)).toNat)

/-- A ring entry carried into the log (R364, R366, 09 R346; 05 R167). Suspensions, watch faults and lost ranges have no kind of
their own in Table 10.4: their entry's kind is a free value (log 95, DESIGN CHOICE). -/
def carryEntry (e : WatchRecord) (s : State) : State :=
  let tamper := fun (kind : Nat) =>
    s |> (if e.opened then openTamper kind noSubject e.life e.epoch else closeTamper kind noSubject e.life e.epoch)
      |> ifDo e.opened (fireWake 6)
  match e.kind with
  | .cover => tamper 4
  | .terminal => tamper 5
  | .crack => tamper 7
  | .theft =>
    match e.theft with
    | none => s
    | some (ch, r) =>
      if e.opened then openTamper 6 noSubject e.life e.epoch s
      else
        let d := theftEntries s ch r
        s |> logAt 0x0046 noSubject d.1 r.first e.epoch true
          |> logAt 0x0046 noSubject d.2 r.first e.epoch false
          |> modBill (fun b => { b with tamper := b.tamper.filter (fun t => t.1 != 6) })
          |> raise .tamper (u8 6 ++ u8 0 ++ u16 0 ++ u64 e.life.toNat)
  | k => logAt (Config.watchLogKind k).toNat noSubject (u8 (b1 e.opened) ++ u32 e.data) e.life e.epoch false s

/-- The ring and the LOST count carried, and the read index advanced (05 R167; R370). -/
def carryRing (s : State) : State :=
  s |> forEach s.wch.ring carryEntry
    |> ifDo (s.wch.lost != 0) (log 0x0053 noSubject (u16 s.wch.lost.toNat))
    |> modWch (fun w => { w with ring := [], lost := 0 })

/-- MET carries the ring (05 R167, R364). -/
def execMetCarryRing (s : State) : Out := .next (ifDo s.met.running carryRing s)

/-! ### Commands of group 0x08 -/

/-- The six energies of a direction in units of 10^-3 (07 Table 7.11; R348, R350): the sum of the outlet sets as the window holds
them, truncated. -/
def postEnergies (s : State) (tariff : Nat) (exp : Bool) : Bytes :=
  let e := fun (v : Vector TariffRegs 8) => let t := v[Fin.ofNat 8 tariff]; if exp then t.exp else t.imp
  let x := e s.met.win.post.a
  let y := e s.met.win.post.b
  let one := fun (f : Energies → Nat) => u64 ((f x + f y) / 1000)
  one (·.active) ++ one (·.fund) ++ one (·.lag) ++ one (·.lead) ++ one (·.apparent) ++ one (·.dc)

/-- BILLING_REGISTERS_READ (07 Table 7.11, R261, R268). -/
def execBillingRegistersRead (mb : Mailbox) (s : State) : Out :=
  .next (runCommand .billingRegistersRead mb (fun b s =>
    let t := rd b 0 2
    guards [(decide (7 < t), .argRange)] s <|
      ok (u32 s.met.win.seq.toNat ++ u8 s.met.win.post.tariff ++ padTo 3 [] ++ postEnergies s t false ++ postEnergies s t true) s) s)

/-- DEMAND_READ (07 Table 7.11, R261, R268; R358). -/
def execDemandRead (mb : Mailbox) (s : State) : Out :=
  .next (runCommand .demandRead mb (fun b s =>
    let kind := rd b 0 2
    let n := rd b 2 2
    let p := ((if kind = 0 then s.met.win.post.fixedPeriods else s.met.win.post.slidingPeriods)[n]?).getD { intervalMin := 0, subs := 0 }
    guards [(decide (1 < kind), .argRange), (decide (11 < n), .argRange)] s <|
      ok (u32 s.met.win.seq.toNat ++ u16 p.intervalMin ++ u16 p.subs ++ u32 p.impMax ++ u32 0 ++ u64 p.impSecond
        ++ u32 p.expMax ++ u32 0 ++ u64 p.expSecond ++ u64 p.start ++ u64 p.stop) s) s)

/-- The entries of a table's argument (07 Table 7.11; R352). -/
def tableArgs (b : Bytes) : List (Nat × BitVec 8 × Nat) :=
  (List.range (rd b 0 2)).map (fun i => (rd b (4 + 8 * i) 1, BitVec.ofNat 8 (rd b (5 + 8 * i) 1), rd b (6 + 8 * i) 2))

/-- TARIFF_TABLE_LOAD (07 Table 7.11; R352). -/
def execTariffTableLoad (mb : Mailbox) (s : State) : Out :=
  .next (runCommand .tariffTableLoad mb (fun b s =>
    match tableFails (tableArgs b) with
    | some st => refuse st s
    | none =>
      let t := s |> passLocalTime |> acceptTable (tableArgs b)
      ok (u32 (tableVersion t).toNat) t) s)

/-- TARIFF_SWITCH (07 Table 7.11; R354). -/
def execTariffSwitch (mb : Mailbox) (s : State) : Out :=
  .next (runCommand .tariffSwitch mb (fun b s =>
    let t := rd b 0 1
    let k := rd b 1 1
    let sec := rd b 4 8
    match switchFails s t k sec with
    | some st => refuse st s
    | none => ok (u64 (switchSecond s k sec)) (acceptSwitch t k sec s)) s)

/-- A log entry's 32 bytes (Table 10.3). -/
def entryBytes (e : LogEntry) : Bytes :=
  u32 e.number ++ u16 e.kind.toNat ++ u16 e.epoch.toNat ++ u64 e.life.toNat ++ u32 e.rtc.toNat
    ++ u8 (e.rtc.toNat / 4294967296 + 2 * b1 e.rtcValid + 4 * b1 e.continued) ++ u8 e.subject.toNat ++ padTo 10 e.data

/-- A number lies in one of the damaged ranges (R384). -/
def damaged (l : List (Nat × Nat)) (n : Nat) : Bool := l.any (fun r => r.1 ≤ n && n ≤ r.2)

/-- LEGAL_LOG_READ (07 Table 7.11; R368, R384). -/
def execLegalLogRead (mb : Mailbox) (s : State) : Out :=
  .next (runCommand .legalLogRead mb (fun b s =>
    let first := rd b 0 4
    let count := rd b 4 2
    let found := ((List.range count).map (· + first)).map (fun n =>
      if damaged s.legal.badEntries n then none else s.legal.log.find? (fun e => e.number == n))
    guards [(count == 0 || decide (15 < count), .argRange), (found.any Option.isNone, .logRange)] s <|
      ok (u32 first ++ u32 (s.legal.nextEntry - 1) ++ found.flatMap (fun e => (e.map entryBytes).getD [])) s) s)

/-- SESSION_RECORD_READ (07 Table 7.11, R267; R376, R384). -/
def execSessionRecordRead (mb : Mailbox) (s : State) : Out :=
  .next (runCommand .sessionRecordRead mb (fun b s =>
    let n := rd b 0 4
    let off := rd b 4 4
    match s.legal.records.find? (fun r => r.number == n && !r.text.isEmpty) with
    | none => refuse .recordAbsent s
    | some r =>
      guards [(damaged s.legal.badRecords n, .recordAbsent), (decide (r.text.length < off), .argRange)] s <|
        ok (u32 r.text.length ++ u32 off ++ (r.text.drop off).take 504) s) s)

end Sys2Proof.Machine
end

