-- ==== Sys2Proof/Machine/DispOps.lean ====
section
/-! DEFINITION. The display engine's operations (16): planes, updates, compensation, the legal content and
verification. -/

namespace Sys2Proof.Machine

/-- The display changed; what MRAM holds of it changed. -/
def modDisp (f : Disp → Disp) (s : State) : State := { s with disp := f s.disp }
def modDispStore (f : DispStore → DispStore) (s : State) : State := { s with dispStore := f s.dispStore }

/-- The number of a pixel in the planes (R568), and its place. (log 81, DESIGN CHOICE) -/
def pixelAt (x y : Nat) : Nat := y * 960 + x
def pixelX (n : Nat) : Nat := n % 960
def pixelY (n : Nat) : Nat := n / 960

/-- The first row of the legal band (R566). -/
def legalTop (f : Fab) : Nat := f.disp.height - f.disp.legalRows

/-- The code that the target plane holds of a pixel: in the legal rows what MET has rendered (R568, R578). -/
def targetCode (s : State) (n : Nat) : Nat :=
  if legalTop s.fab ≤ pixelY n then (Config.legalPixel s.disp.legal n).val else (Memory.read s.disp.target n).toNat % 16

/-- The state that a pixel shows; 12 is "unknown" (R569, R571). -/
def shownState (s : State) (n : Nat) : Nat :=
  match (Memory.read s.disp.current n).toNat with
  | 0 => 12
  | k + 1 => k

/-- The tile of a pixel, column by column of a row (R576), and the pixels of a tile. -/
def tileOf (f : Fab) (n : Nat) : Fin 256 := Fin.ofNat 256 (16 * (16 * pixelY n / f.disp.height) + 16 * pixelX n / f.disp.width)
def tilePixels (f : Fab) : Nat := (f.disp.width / 16) * (f.disp.height / 16)

/-- A factor held from 256 to 384. -/
def clampFactor (x : Rat) : Rat := max 256 (min 384 x)

/-- The ageing factor of a tile by the counters (R577). -/
def counterFactor (s : State) (t : Fin 256) : Rat :=
  clampFactor (256 * (1 + (cfgNat s.cfg s.fab (.gen .ageCoeff) : Rat) / 1000000000 * ((s.disp.stress[t]).toNat : Rat) / 16))

/-- The ageing factor of a tile (R577, Table 16.9). -/
def ageFactor (s : State) (t : Fin 256) : Rat :=
  match cfgNat s.cfg s.fab (.gen .ageing) with
  | 0 => counterFactor s t
  | 1 => if s.disp.testRowFault then counterFactor s t
    else (s.disp.sensed[(Fin.ofNat 16 (t.val % 16) : Fin 16)]).getD (counterFactor s t)
  | _ => 256

/-- The gamma value of a state (R575). -/
def gammaOf (s : State) (legal : Bool) (state : Nat) : Nat :=
  if legal then (Config.legalGamma state).val
  else
    let k : GenKey := match state / 4 with
      | 0 => .gammaNeutral
      | 1 => .gammaRed
      | _ => .gammaYellow
    (cfgItems s.cfg s.fab (.gen k)).getD (state % 4) 0

/-- A number rounded to the nearest whole one. -/
def roundRat (x : Rat) : Nat := (x + 1 / 2).floor.toNat

/-- What drives a pixel of an update (R571 to R575): none where it keeps its state, or where its row's gate is faulty
(Table 16.9). -/
def pixelWave (s : State) (fast : Bool) (deciC : Int) (n : Nat) : Option PixWave :=
  let code := targetCode s n
  let legal := decide (legalTop s.fab ≤ pixelY n)
  if 12 ≤ code || s.disp.badRows.contains (pixelY n) then none
  else
    let old := shownState s n
    let entry := Config.waveform legal old code (Config.tempBand legal deciC) (fast && decide (old < 4) && decide (code < 4))
    let codes := (entry.1.take 64).map Fin.val
    let p := min entry.2 codes.length
    let k := min p (roundRat ((p : Rat) * (gammaOf s legal code : Rat) * ageFactor s (tileOf s.fab n) / 65536))
    if codes.isEmpty then none
    else some { pixel := n, new := code, codes := codes.take (codes.length - p + k) ++ List.replicate (p - k) 0 }

/-- The pixels of a rectangle, row by row. -/
def rectPixels (x y w h : Nat) : List Nat := (List.range h).flatMap (fun j => (List.range w).map (fun i => pixelAt (x + i) (y + j)))

/-- The die is powered and free of faults, and `disp.enable` is true (R585, R591). -/
def dieGood (s : State) : Bool := s.disp.powered && !s.disp.dieFault && cfgBool s.cfg s.fab (.gen .dispEnable)

/-- The display can be driven now: its clock domain runs too. -/
def dispDrives (s : State) : Bool := dieGood s && !domainOut s .dsp

/-- An update of a slot. -/
def updateIn (s : State) (i : Fin 8) : Option DispUpdate := s.disp.slots[i]
def setUpdate (i : Fin 8) (u : Option DispUpdate) : State → State := modDisp (fun d => { d with slots := d.slots.set i u })

/-- Some update waits or runs. -/
def anyUpdate (s : State) : Bool := s.disp.slots.toList.any Option.isSome

/-- An update overlaps a rectangle. -/
def overlaps (x y w h : Nat) (u : DispUpdate) : Bool :=
  decide (u.x < x + w) && decide (x < u.x + u.w) && decide (u.y < y + h) && decide (y < u.y + u.h)

/-- EV_DISPLAY_UPDATE_DONE (07 Table 7.21): a legal update has no identifier and is not reported. -/
def updateDone (i : Fin 8) (u : DispUpdate) (st : Status) (s : State) : State :=
  if i = 7 then s
  else s |> modDisp (fun d => { d with lastIdent := u.ident })
    |> raise .displayUpdateDone (u16 u.ident.toNat ++ u16 st.code.toNat)

/-! ### The legal band (R577 to R580; 10 Table 10.6) -/

/-- The session that the band shows of an outlet. -/
def legalSession (s : State) (o : Outlet) : Option LegalSession :=
  let tail := fun (b : Bytes) => b.drop (b.length - 8)
  let show_ := fun (r : Record) (imp now duration : Nat) (sync : Bool) =>
    let start := ((r.readings.head?.map Reading.imp).getD 0, ((r.readings.head?.map Reading.rtc).getD 0).toNat)
    { record := r.number, wh := (imp - start.1) / 1000000, beginSec := start.2
      duration := if duration = 0 then (now - start.2) * 32768 else duration
      tariff := s.bill.tariff, ident := tail r.identity, synchronised := sync : LegalSession }
  match s.bill.running.get o with
  | some r =>
    some (show_ r (activeTotal (outletRegs s o) false) s.time.rtcSec.toNat (s.time.life - (s.veh.out.get o).startLife).toNat
      (s.time.valid && !s.time.holdover))
  | none =>
    match s.legal.records.find? (fun r => r.outlet == o) with
    | none => none
    | some r =>
      match r.readings.getLast? with
      | none => none
      | some e =>
        if (s.veh.out.get o).cp != .a || decide (s.time.rtcSec.toNat < e.rtc.toNat + 300) then
          some (show_ r e.imp e.rtc.toNat 0 e.sync)
        else none

/-- Active total of the supply set in Wh; that of the post set. -/
def supplyWh (s : State) (exp : Bool) : Nat := activeTotal s.bill.regs.supply exp / 1000000
def postWh (s : State) (exp : Bool) : Nat := (activeTotal s.bill.regs.a exp + activeTotal s.bill.regs.b exp) / 1000000

/-- The first 16 hexadecimal digits of the SHA-256 of the legal signing public key (10 Table 10.6). -/
def keyDigest (s : State) : Bytes := (hexBytes (sha256 s.fab.legalPublic)).take 16

/-- What MET renders (10 Table 10.6). -/
def legalContent (s : State) (page : Nat) : LegalContent :=
  { page, outlets := Outlet.all.map (legalSession s), importWh := postWh s false, exportWh := postWh s true
    supplyImportWh := supplyWh s false, supplyExportWh := supplyWh s true, tariff := s.bill.tariff
    tamper := s.bill.tamper.map Prod.fst, legalFault := s.legal.fault.isSome, timeInvalid := !s.time.valid || s.time.holdover
    holdupFailed := s.pwr.selfTest == .failed || s.pwr.holdupFailed, device := deviceHex s.fab, keyDigest := keyDigest s }

/-- The pixels of the legal band (R566), and whether a rendered one is red (Table 16.2). -/
def bandPixels (f : Fab) : List Nat :=
  (List.range f.disp.legalRows).flatMap (fun j => (List.range f.disp.width).map (fun i => pixelAt i (legalTop f + j)))
def isRed (c : LegalContent) (n : Nat) : Bool := (Config.legalPixel c n).val / 4 == 1

/-- A legal update uses the full table (R579): the hourly refresh, and one in which red content appears or disappears. -/
def legalFull (s : State) (c : LegalContent) : Bool :=
  s.disp.fullAt.isNone || passedSince s s.disp.fullAt (secs 3600) || (bandPixels s.fab).any (fun n => isRed s.disp.legal n != isRed c n)

/-- A content without what only the 10 s cadence shows: the page, and a session's energy and duration (R579). -/
def stillContent (c : LegalContent) : LegalContent :=
  { c with page := 0, outlets := c.outlets.map (Option.map (fun x => { x with wh := 0, duration := 0 })) }

/-- The 10 s cadence of RUN has passed, and MET has a legal update to ask for (R579). -/
def legalCadence (s : State) : Bool := s.disp.legalAt.isNone || passedSince s s.disp.legalAt (secs 10)
def legalDue (s : State) : Bool :=
  stillContent (legalContent s s.disp.legal.page) != stillContent s.disp.legal || legalCadence s

/-- The legal update placed in its slot (R579); the one of start covers the whole panel (R593). (log 60, DEDUCED) -/
def placeLegal (full : Bool) (s : State) : State :=
  let top := if s.disp.startDone then legalTop s.fab else 0
  setUpdate 7 (some { x := 0, y := top, w := s.fab.disp.width, h := s.fab.disp.height - top, ident := 0, fast := !full && s.disp.startDone }) s

/-- MET writes the legal rows and requests a legal update (R579): one asked for while another runs follows it. -/
def requestLegal (full : Bool) (page : Nat) (s : State) : State :=
  let c := legalContent s page
  let full := full || legalFull s c
  let t := modDisp (fun d => { d with
    legal := c, legalAt := some s.time.life, fullAt := if full then some s.time.life else d.fullAt }) s
  if !dieGood s then t
  else
    match updateIn s 7 with
    | none => placeLegal full t
    | some u =>
      if u.started then modDisp (fun d => { d with legalNext := some (full || d.legalNext.getD false) }) t
      else setUpdate 7 (some { u with fast := u.fast && !full }) t

/-- The post out of service (Table 16.5; 03 R104, 18 R633): SEG05 on the strip, and the legal rows. -/
def showOutOfService (s : State) : State := ifDo s.met.running (fun s => s |> putSegment 5 true |> requestLegal false 0) s

/-! ### Verification (R585, R586) -/

/-- The conditions of R585. -/
def displayGood (s : State) : Bool :=
  s.wch.crackOk && dieGood s && s.disp.startTested && !s.disp.startFault && !s.disp.testFault && s.disp.startDone

/-- A change of verification: the event, SEG06, and the end of running billed sessions (R585, R586). -/
def judgeDisplay (s : State) : State :=
  let now := displayGood s
  if now = s.disp.verified then s
  else
    s |> modDisp (fun d => { d with verified := now })
      |> raise .displayVerified (u8 (b1 now) ++ u8 0 ++ u16 s.wch.crackOhm.toNat)
      |> putSegment 6 (!now)
      |> ifDo (!now) (forEach (Outlet.all.filter (fun o => sessionOpen s o && (s.veh.out.get o).billed))
          (fun o => stopSession o .displayUnverified .fault))

/-- Every update cut short (R569, R591): its pixels are unknown; `event` says whether the ends are reported. -/
def cutUpdates (event : Bool) (s : State) : State :=
  forEach (List.finRange 8) (fun i s =>
    match updateIn s i with
    | none => s
    | some u =>
      s |> setUpdate i none
        |> modDisp (fun d => { d with
              current := u.pixels.foldl (fun m p => Memory.write m p.pixel 0) d.current, legalNext := none, scan := [] })
        |> ifDo event (updateDone i u .aborted)) s

/-- The display after a set takes effect (R585): without `disp.enable` nothing is driven. -/
def applyDisplay (s : State) : State :=
  s |> ifDo (anyUpdate s && !dieGood s) (cutUpdates true)
    |> ifDo (dispDrives s && !s.disp.startDone && (updateIn s 7).isNone) (requestLegal true 0)
    |> judgeDisplay

/-- The display driver die powered at start step 8 (R593): the counters come from MRAM, and the update of start is
requested. -/
def startDisplay (s : State) : State :=
  s |> modDisp (fun d => { d with powered := true, stress := s.dispStore.stress })
    |> requestLegal true 0

/-- The die loses its supply: in IDLE after its updates have ended, and at save step 3. -/
def dieOff (s : State) : State := s |> cutUpdates false |> modDisp (fun d => { d with powered := false })

/-- The stress counters written to MRAM (R576). -/
def writeTiles (s : State) : State :=
  s |> modDispStore (fun x => { x with stress := s.disp.stress }) |> modDisp (fun d => { d with tilesAt := d.runTime })

end Sys2Proof.Machine
end

