-- ==== Sys2Proof/Machine/Firewall.lean ====
section
/-! DEFINITION. The hardware firewall (01 R29 to R33, R55). -/

namespace Sys2Proof.Machine

/-- The code of a master (07 R263). -/
def masterCode : Master → Nat
  | .app0 => 1
  | .app1 => 2
  | .dma => 3
  | .upd => 4
  | .mbx => 5
  | .met => 6
  | .saf => 7
  | .wch => 8
  | .wv => 9
  | .cry => 10
  | .debug => 11
  | .dse => 12

/-- Columns of 01 Table 1.3. -/
def isApp (m : Master) : Bool := m == .app0 || m == .app1 || m == .dma

/-- The masters of the parts of watch retained SRAM that others than WCH write (01 R31), beside those that read it. -/
def readsWatch (m : Master) : Bool := isApp m || m == .met || m == .saf || m == .debug

/-- The access that 01 Table 1.3 gives a master to a region, and 04 R145 and 05 R206 to the two register blocks. -/
def regionAccess (m : Master) (r : Region) (write : Bool) : Bool :=
  let appCore := m == .app0 || m == .app1
  match r with
  | .legalMram => m == .met
  | .legalDisplay => m == .met || (m == .dse && !write)
  | .publication => m == .met || ((isApp m || m == .saf || m == .debug) && !write)
  | .metrologySram => m == .met || (m == .wv && write)
  | .safetySram => m == .saf || (m == .wv && write)
  | .safetyMram => m == .saf || ((isApp m || m == .debug) && !write)
  | .banks => m == .upd || ((isApp m || m == .saf || m == .debug) && !write)
  | .configStore => isApp m || m == .upd || ((m == .saf || m == .debug) && !write)
  | .updateControl => m == .upd || ((isApp m || m == .debug) && !write)
  | .appData => isApp m || m == .debug
  | .tileCounters => isApp m || m == .debug || m == .dse
  | .appSram => isApp m || m == .debug || (m == .upd && !write) || (m == .wv && write)
  | .frameLegal => m == .met || ((isApp m || m == .dse) && !write)
  | .frameOther => isApp m || m == .debug || (m == .dse && !write)
  | .frameEngine => m == .dse || ((isApp m || m == .debug) && !write)
  | .watchSram => m == .wch || (readsWatch m && !write)
  | .watchSegments => m == .wch || (readsWatch m && (!write || m == .met || appCore))
  | .watchReadIndex => m == .wch || (readsWatch m && (!write || m == .met))
  | .watchSettings => m == .wch || (readsWatch m && (!write || appCore))
  | .buffers => isApp m || m == .mbx || m == .debug
  | .keyStore => false
  | .timeBlock => appCore || m == .met || m == .saf || m == .wch || (m == .debug && !write)
  | .watchBlock => appCore || m == .met || m == .saf || m == .wch

/-- Regions of the legal partition (01 Table 1.2). -/
def legalRegion (r : Region) : Bool := r == .legalMram || r == .publication || r == .metrologySram || r == .legalDisplay

/-- The module is in MANUFACTURE: no lifecycle fuse is set (01 R29, 18). -/
def inManufacture (s : State) : Bool := s.keys.provisioned == 0 && s.keys.field == 0 && s.keys.retired == 0

/-- The access that a master has (R29, R32): a crypto channel acts with its requester's rights, channel 0 with MET's and the
others with the application's, and the engine alone reaches the key store. -/
def masterAccess (a : BusAccess) : Bool :=
  if a.master = .cry then a.region == .keyStore || regionAccess (if a.channel = 0 then .met else .app0) a.region a.write
  else regionAccess a.master a.region a.write

/-- An access that cannot be formed (R30): the update engine and the mailbox unit have no decoder entry for the legal
partition. -/
def notFormed (a : BusAccess) : Bool := (a.master == .upd || a.master == .mbx) && legalRegion a.region

/-- The firewall blocks the access (R29). The debug unit has its rights while its session is open, and in MANUFACTURE no
check (18 R634). (log 53, DEDUCED) -/
def blocks (s : State) (a : BusAccess) : Bool :=
  !(masterAccess a && (a.master != .debug || s.key.debugOpen)) && !notFormed a && !(a.master == .debug && inManufacture s)

/-- What a master is answered. -/
def answerBus (m : Master) (error : Bool) (data : Word32) (s : State) : State := { s with bus := some ⟨m, error, data⟩ }

/-- A blocked access (R55): a bus error and 0 as read data, the record, the event, and the legal log's entry. -/
def blockAccess (a : BusAccess) (s : State) : State :=
  s |> answerBus a.master true 0
    |> (fun s => { s with blocked := ⟨a.master, a.addr, a.write, s.time.life⟩ :: s.blocked })
    |> raise .firewallBlocked (u8 (masterCode a.master) ++ u8 (b1 a.write) ++ u16 0 ++ u32 a.addr.toNat)
    |> ifDo (legalRegion a.region && s.met.running) (log 0x0050 (masterCode a.master) (u8 (b1 a.write) ++ u32 a.addr.toNat))

end Sys2Proof.Machine
end

