-- ==== Sys2Proof/Machine/VehOps.lean ====
section
/-! DEFINITION. The vehicle interface's operations (11): limits, offers, targets, and the progress of a
session. -/

namespace Sys2Proof.Machine

/-- The outlet of a field. -/
def outletOfNum (n : Nat) : Outlet := if n = 0 then .a else .b

/-- The selector profile of an outlet. -/
def outProfile (s : State) (o : Outlet) : SelProfile := selProfile s (selOfOutlet o)

/-- Phases of an outlet (11 R407; 15 R555). -/
def outPhases (s : State) (o : Outlet) : Nat := if isDc s o then 1 else max 1 (phaseCount (outProfile s o).wiring)

/-- The mean published Vrms of an AC outlet's phases in mV, or its reference voltage before any is published;
the outlet voltage on DC (11 R407). -/
def outVoltage (s : State) (o : Outlet) : Nat :=
  if isDc s o then (s.veh.out.get o).outletMv
  else
    let r := s.met.win.sel.get (selOfOutlet o)
    let vs := r.phases.map (fun p => (p.getD 0 0).toNat)
    let v := if vs.isEmpty then 0 else vs.foldl (· + ·) 0 / vs.length
    if v = 0 then (outProfile s o).unMv else v

/-- A power in W as mA at the outlet, truncated, and back (11 R407; 15 R555). -/
def wToMa (s : State) (o : Outlet) (w : Nat) : Nat :=
  let mv := outVoltage s o * outPhases s o
  if mv = 0 then 0 else w * 1000000 / mv
def maToW (s : State) (o : Outlet) (ma : Nat) : Nat := ma * outVoltage s o * outPhases s o / 1000000

/-- The protocol is high-level communication (11 R396). -/
def isHlc (x : OutS) : Bool := x.protocol == some .din || x.protocol == some .iso2 || x.protocol == some .iso20
def isBasic (x : OutS) : Bool := x.protocol == some .pwm

/-- The cable capacity of an AC outlet in mA (11 R394, R395). -/
def cableMa (s : State) (o : Outlet) : Nat :=
  if outNat s o .ppMode = 0 ∧ !isDc s o then
    match (s.veh.out.get o).pp with
    | .cable a => 1000 * a
    | _ => 0
  else 1000 * outNat s o .cableMaxA

/-- Power modules that a node key assigns to an outlet and that are in the budget (14 R519). -/
def outModules (s : State) (o : Outlet) : List Module :=
  (List.finRange 4).flatMap (fun b => (List.finRange 32).filterMap (fun n =>
    if cfgOpt s.cfg s.fab (.node b n) = some o.num then some ((s.net.pm[b])[n]) else none))

def budgetModules (s : State) (o : Outlet) : List Module := (outModules s o).filter (fun m => m.state == 2)

/-- The modules' capability in mA for a direction (14 R519). -/
def modulesMa (s : State) (o : Outlet) (exp : Bool) : Nat :=
  let ms := budgetModules s o
  let ma := (ms.map (fun m => if exp then (-m.minMa).toNat else m.maxMa.toNat)).foldl (· + ·) 0
  let w := (ms.map (·.availW)).foldl (· + ·) 0
  let v := outVoltage s o
  if v = 0 then ma else min ma (w * 1000000 / v)

/-- A session that may draw (14 R523: an active outlet). -/
def isActive (s : State) (o : Outlet) : Bool := stateIn s o [.transfer, .paused]

/-- The least of the limits of an outlet beside the pair link, in mA, for a direction (11 R407). -/
def ownLimitMa (s : State) (o : Outlet) (exp : Bool) : Nat :=
  let x := s.veh.out.get o
  let veh := match x.veh with
    | none => []
    | some v => (if exp then [v.dischargeMa] else [v.maxMa]) ++ (if outVoltage s o = 0 then [] else [wToMa s o v.maxW])
  let hw := if isDc s o then [modulesMa s o exp] else [cableMa s o]
  let sched := (s.svc.schedMa.get o).toList ++ ((s.svc.schedW.get o).map (wToMa s o)).toList
  let l := (veh ++ hw ++ sched).foldl min (1000 * outNat s o .maxA)
  l * (s.saf.out.get o).derate / 1000

/-- The module's share of the pair link's budget in W; none without a pair link (14 R523, R524). -/
def pairShareW (s : State) : Option Nat :=
  if (cfgOpt s.cfg s.fab (.gen .pairPort)).isNone then none else some s.net.pair.ownShare

/-- The magnitude of an outlet's target in mA. -/
def targetMa (x : OutS) : Nat := x.target.natAbs

/-- The outlet's part of the share in W: half of it with both outlets active, and what the other leaves
(14 R523). -/
def outShareW (s : State) (o : Outlet) : Option Nat :=
  (pairShareW s).map (fun w =>
    if isActive s o.other then
      let other := maToW s o.other (min (targetMa (s.veh.out.get o.other)) (ownLimitMa s o.other (s.veh.out.get o.other).exporting))
      w - min (w / 2) other
    else w)

/-- The limit of an outlet in mA for a direction (11 R407, 12 R460). -/
def limitMa (s : State) (o : Outlet) (exp : Bool) : Nat :=
  let own := ownLimitMa s o exp
  let shared := match outShareW s o with
    | none => own
    | some w => min own (wToMa s o w)
  ((s.veh.out.get o).seamCap.map (min shared)).getD shared

/-- A current held within the limit of its direction (11 R407, R408). -/
def clipMa (s : State) (o : Outlet) (t : Int) : Int :=
  if t < 0 then -(min t.natAbs (limitMa s o true) : Nat) else (min t.natAbs (limitMa s o false) : Nat)

/-- The duty that offers a current, in 0.1 %, rounded down (11 R396): none below 6 A. -/
def dutyOf (ma : Nat) : Option Nat :=
  if ma < 6000 then none else if ma ≤ 51000 then some (ma / 60) else some (min ma 80000 / 250 + 640)

/-- The pilot's drive in the present state of the session (11 R396, R398): 5 % with high-level communication,
the offered limit in a basic session. -/
def pilotDrive (x : OutS) : CpDrive :=
  if stateNum x.state = 0 ∨ 7 < stateNum x.state then .plus12
  else if isBasic x then
    (if x.authorised then (match dutyOf x.delivered.natAbs with
      | some d => .pwm d
      | none => .plus12)
    else .plus12)
  else .pwm 50

/-- The pilot driven as the session asks (11 R397). -/
def drivePilot (o : Outlet) (s : State) : State :=
  let d := pilotDrive (s.veh.out.get o)
  if (s.veh.out.get o).driveNext.getD (s.veh.out.get o).drive = d then s else setDrive o d s

/-- What an AC outlet is to offer now in mA (11 R407, R408, R396): a limit below 6 A is a pause. -/
def wantedMa (s : State) (o : Outlet) : Int :=
  let x := s.veh.out.get o
  if x.reversing || x.negotiating then 0
  else
    let t := clipMa s o x.target
    if t.natAbs < 6000 then 0 else t

/-- 5 s of hold-off have passed since the last change of the offered limit (11 R410). -/
def holdoffOver (s : State) (o : Outlet) : Bool :=
  match (s.veh.out.get o).lastChange with
  | none => true
  | some l => passedSince s (some l) (secs 5)

/-- A session moves between states 6 and 7 as its limit is below its minimum or not (11 Table 11.6, R412). -/
def pauseOrResume (o : Outlet) (s : State) : State :=
  let x := s.veh.out.get o
  let dc := isDc s o
  let still := if dc then x.target == 0 && x.delivered == 0 else decide (x.delivered.natAbs < 6000)
  let hold := still || x.vehPaused || x.dwell.isSome || x.negotiating || (x.reversing && x.delivered == 0)
  if x.state = .transfer ∧ hold then
    s |> enter o .paused .none |> modOut o (fun x => { x with pauseSince := some s.time.life })
  else if x.state = .paused ∧ !hold ∧ !x.refused then
    s |> enter o .transfer .none |> modOut o (fun x => { x with pauseSince := none })
  else s

/-- The drivers of an outlet may close once PERMIT_APP is granted (11 Table 11.10). -/
def ready (s : State) (o : Outlet) : Bool :=
  (usedDrivers s o).all (fun d => rearmPermits s.pd.drv[d].permits && !s.pd.drv[d].latch && !s.pd.drv[d].heldOff)

/-- CP reads C, or D where ventilation is provided (11 R393). -/
def vehicleReady (s : State) (o : Outlet) : Bool :=
  let cp := (s.veh.out.get o).cp
  cp == .c || (cp == .d && outBool s o .ventilation)

/-- Energy transfer begins (11 Table 11.6, Table 11.7, R406). -/
def enterTransfer (o : Outlet) (s : State) : State :=
  if isDc s o then s |> modOut o (fun x => { x with delivered := 0 }) |> enter o .transfer .none
  else s |> enter o .transfer .none |> grantApp o |> pauseOrResume o

/-- The sensor test that a closing of the outlet needs has passed within the last 60 s (12 R431). -/
def sensorTested (s : State) (o : Outlet) : Bool :=
  !hasRcd s o || match (s.saf.out.get o).rcd.passed with
    | none => false
    | some l => decide ((s.time.life - l).toNat ≤ secs 60)

/-- An AC session enters energy transfer as soon as its conditions hold (11 Table 11.6). -/
def advance (o : Outlet) (s : State) : State :=
  let x := s.veh.out.get o
  if isDc s o || !x.authorised || !sessionOpen s o || !vehicleReady s o || !ready s o || !sensorTested s o then s
  else if isBasic x ∧ stateIn s o [.authorising, .negotiating] ∧ 6000 ≤ limitMa s o false then enterTransfer o s
  else if isHlc x ∧ x.started ∧ x.state = .negotiating then enterTransfer o s
  else s

/-- The limit has reached zero in a change of direction: the dwell begins (11 R411). -/
def dwellAtZero (o : Outlet) (s : State) : State :=
  modOut o (fun x => { x with
    dwell := if x.reversing && x.delivered == 0 && x.dwell.isNone && !x.negotiating then some s.time.life else x.dwell }) s

/-- The offered limit of an AC outlet changed now (11 R410). -/
def offerNow (o : Outlet) (s : State) : State :=
  let w := wantedMa s o
  s |> modOut o (fun x => { x with delivered := w, lastChange := some s.time.life, held := false })
    |> dwellAtZero o
    |> drivePilot o
    |> pauseOrResume o

/-- The target or the limit of an outlet has changed (11 R407 to R410): `safety` marks a safety reduction. On
DC the ramp follows; a reduction acts at once. A session that waited for its limit goes on (Table 11.6). -/
def retarget (o : Outlet) (safety : Bool) (s : State) : State :=
  let x := s.veh.out.get o
  if !sessionOpen s o || stateIn s o [.stopping, .ended, .fault, .idle] then s
  else if isDc s o then
    let c := clipMa s o x.delivered
    (if safety && c != x.delivered then modOut o (fun x => { x with delivered := c }) s else s) |> pauseOrResume o
  else if wantedMa s o = x.delivered then s |> modOut o (fun x => { x with held := false }) |> dwellAtZero o |> pauseOrResume o
  else if (safety && decide ((wantedMa s o).natAbs < x.delivered.natAbs)) || holdoffOver s o then s |> offerNow o |> advance o
  else modOut o (fun x => { x with held := true }) s

/-- Both outlets' limits may have changed (14 R523). -/
def retargetAll (safety : Bool) (s : State) : State := s |> retarget .a safety |> retarget .b safety

/-- A session takes its first offer and goes on (11 R396, Table 11.6). -/
def proceed (o : Outlet) (s : State) : State :=
  let t := ifDo (!isDc s o && (s.veh.out.get o).authorised) (modOut o (fun x => { x with delivered := wantedMa s o })) s
  t |> drivePilot o |> advance o

/-- A basic session (11 R400, R418, Table 11.6): authorising at once. -/
def basic (o : Outlet) (s : State) : State :=
  s |> modOut o (fun x => { x with protocol := some .pwm, slac := .idle, sdp := .none })
    |> ifDo (stateIn s o [.plugged]) (enter o .authorising .none)
    |> (fun s => ifDo ((s.veh.out.get o).authorised && stateIn s o [.authorising]) (enter o .negotiating .none) s)
    |> proceed o

/-- State 1 (11 Table 11.6, R402): on an AC outlet without a protocol of high level the session is basic. -/
def plugIn (o : Outlet) (s : State) : State :=
  let x := s.veh.out.get o
  let cable := isDc s o || outNat s o .ppMode != 0 || (match x.pp with
    | .cable _ => true
    | _ => false)
  if x.state ≠ .idle ∨ x.cp = .a ∨ !cable ∨ x.lockout then s
  else
    let t := enter o .plugged .none s
    if !isDc s o ∧ (cfgItems s.cfg s.fab (.out o .protocols)).isEmpty then basic o t else drivePilot o t

/-- A session opened for an accepted identity (11 R413; 15 R552; log 9, DESIGN CHOICE): the set of values in force is taken,
and the target starts at `veh.outX.max_a`, or at zero under solar following (log 23, DESIGN CHOICE). The start of a session is
a checkpoint (10 R363). -/
def openSession (o : Outlet) (billed : Bool) (kind : Nat) (id : Bytes) (source : Nat) (s : State) : State :=
  let n := s.veh.nextId
  let target : Int := if (s.svc.solar.get o).mode = 0 then 1000 * cfgNat s.cfg s.fab (.out o .maxA) else 0
  { s with veh := { s.veh with nextId := if n = 0xFFFFFFFF then 1 else n + 1 } }
    |> modOut o (fun x => { x with
          id := n, billed, idKind := kind, identity := id, idSource := source, authorised := true, snap := some s.cfg
          startLife := s.time.life, startImp := activeTotal (outletRegs s o) false, startExp := activeTotal (outletRegs s o) true
          target, targetW := none, lastChange := none })
    |> ifDo s.met.running checkpoint
    |> ifDo (stateIn s o [.authorising]) (enter o .negotiating .none)
    |> proceed o

/-- The pilot states as 07 Table 7.12 codes them; F is driven (11 R391; log 7, DESIGN CHOICE). -/
def cpCode (x : OutS) : Nat :=
  if x.force = some .stateF ∨ x.drive = .stateF then 5
  else match x.cp with
    | .a => 0
    | .b => 1
    | .c => 2
    | .d => 3
    | .e => 4
    | _ => 5

/-- EV_PLUG (07 Table 7.21). -/
def plugEvent (o : Outlet) (s : State) : State :=
  raise .plug (u8 o.num ++ u8 (cpCode (s.veh.out.get o)) ++ u8 (Config.ppCode (s.veh.out.get o).pp).toNat) s

/-- PERMIT_SAF of an outlet's drivers withdrawn by pilot supervision (11 R414; 12 SF06, SF07), and held. -/
def pilotTrip (o : Outlet) (code : BitVec 16) (s : State) : State :=
  s |> forEach (driversOf o) (fun d => modDrv d (fun r => { r with held := if r.held.contains code then r.held else r.held ++ [code] }))
    |> forEach (driversOf o) (fun d => trip d [.saf] code)

/-- A pilot or cable fault of a session (11 Table 11.11): after a pilot fault CP is at state F for 3 s. -/
def pilotFault (o : Outlet) (code : BitVec 16) (r : Reason) (s : State) : State :=
  s |> pilotTrip o code
    |> ifDo (r == .pilotFault) (modOut o (fun x => { x with force := some .stateF, forceSince := s.time.life }))
    |> enterFault o r

/-- Plug-out in states 1 to 8 (11 Table 11.10). -/
def unplug (o : Outlet) (s : State) : State :=
  let driven := (usedDrivers s o).any (fun d => s.pd.drv[d].phase != .off)
  s |> ifDo driven (pilotTrip o causePilotFault)
    |> enterEnded o .unplugged

/-- A mode of solar following (15 R554). -/
def modSolar (o : Outlet) (f : Solar → Solar) (s : State) : State :=
  { s with svc := { s.svc with solar := s.svc.solar.modify o f } }

/-- Times in ms of a ramp of a DC outlet's limit, and of the wait of an AC outlet (11 R409, R410). -/
def rampMs (s : State) (o : Outlet) (goal : Int) : Nat :=
  let x := s.veh.out.get o
  let up := max 1 (cfgNat s.cfg s.fab (.gen .slewUp))
  let down := max 1 (cfgNat s.cfg s.fab (.gen .slewDown))
  if isDc s o then
    if x.delivered.natAbs ≤ goal.natAbs then (goal.natAbs - x.delivered.natAbs + up - 1) / up
    else (x.delivered.natAbs - goal.natAbs + down - 1) / down
  else
    match x.lastChange with
    | none => 0
    | some l => (secs 5 - (s.time.life - l).toNat) * 1000 / 32768

/-- A new target in mA, or as a power in W (11 R408, R411): the accepted current, and whether the direction
must be negotiated. -/
def setTarget (o : Outlet) (t : Int) (w : Option Int) (s : State) : State :=
  let x := s.veh.out.get o
  let turn := t != 0 && decide (t < 0) != x.exporting && x.bidir
  let back := t != 0 && decide (t < 0) == x.exporting
  s |> modOut o (fun x => { x with
          target := t, targetW := w, refused := false
          reversing := if turn then true else if back then false else x.reversing
          dwell := if back then none else x.dwell, negotiating := x.negotiating && !back })
    |> retarget o false

/-- A session that the operator's or the host's requests end by its identifier (07 SESSION_STOP; 15). -/
def sessionOf (s : State) (id : Nat) : Option Outlet :=
  if id = 0 then none else Outlet.all.find? (fun o => (s.veh.out.get o).id.toNat == id)

/-- High-level sessions end with the reason "communication" (11 Table 11.11). A DC outlet that delivers ramps to
zero in the stop sequence before its contactors open. (log 48, DEDUCED) -/
def communicationEnd (o : Outlet) (s : State) : State :=
  if isDc s o ∧ stateIn s o [.transfer, .paused] then stopSession o .communication .fault s
  else enterFault o .communication s

/-- Sessions of the outlets that use high-level communication end (11 Table 11.11, GPH). -/
def communicationEndAll (s : State) : State :=
  forEach Outlet.all (fun o s => ifDo (isHlc (s.veh.out.get o) || (s.veh.out.get o).slac != .idle) (communicationEnd o) s) s

end Sys2Proof.Machine
end

