-- ==== Sys2Proof/Machine/Permits.lean ====
section
/-! DEFINITION. The rows of the permits, trips and re-arms (01 R40 to R58, 12 R428, R465) and of the
safety core's own faults. -/

namespace Sys2Proof.Machine

/-- A permit seen withdrawn (01 R42): SAF's own withdrawal is held until its cause's condition is met. -/
def execPermitWithdrawal (d : Driver) (stage : Stage) (code : BitVec 16) (s : State) : Out :=
  .next (s
    |> (if stage = .saf then safTrip [d] code else withdraw [d] [stage] code)
    |> ifDo (code == causeLine) (modSafCore (fun c => { c with lineGood := vmod c.lineGood d (fun _ => none) })))

/-- A trip reported to the safety core (01 R52, 12 R428): it is recorded; it counts and raises EV_TRIP unless PERMIT_APP
alone caused it. -/
def reportTrip (d : Driver) (s : State) : State :=
  let r := s.pd.drv[d]
  let w := s.safStore.trips[d]
  let code := fun (i : Nat) => (w.codes.getD i 0).toNat
  s |> modDrv d (fun r => { r with fresh := false, recorded := true })
    |> ifDo (r.fresh && w.firstPermits != stageBits [.app]) (fun s => s
        |> modTrip d (fun w => { w with count := satAdd 32 w.count 1 })
        |> faultLog (w.codes.getD 0 0) d.val
        |> raise .trip (u8 d.val ++ u8 w.firstPermits.toNat ++ u16 (code 0)
            ++ u16 (code 0) ++ u16 (code 1) ++ u16 (code 2) ++ u16 (code 3)))
    |> settle (outletOf d)

/-- The 2 µs window closes (01 R52): the power die reports the trip, once its link is back where it is lost (R58). -/
def execTripWindowClose (d : Driver) (s : State) : Out :=
  .next (ifDo s.pd.drv[d].window (fun s => s
    |> modDrv d (fun r => { r with window := false })
    |> ifDo s.pd.linkUp (reportTrip d)) s)

/-- Whether a stage may grant its permit now: the island comparators and links (R57, 08 R297), the weave
(08 R299, R306), the safety core (R48), the watch domain (05 R185, R196, 04 R160), the application
(11 R403). -/
def mayGrant (s : State) (d : Driver) (st : Stage) : Bool :=
  s.pd.linkUp && baseRuns s &&
    match st with
    | .isl => (mappedChannels s .cmpDrivers d).all (fun i => s.isl[islandOf i].linkUp && !s.ch[i].cmpTrip)
    | .wv => s.weave.running && (mappedChannels s .wvDrivers d).all (fun i => !s.ch[i].wvTrip && !s.ch[i].wvOut)
    | .saf => safMayGrant s false d
    | .wch => s.wch.refreshed && !s.wb.wdgFaulted && clocksGood s && s.saf.step9
    | .app => stateIn s (outletOf d) [.insulation, .preCharge, .transfer] && s.hif.fwReady

/-- A permit granted again (01 R40, R41): a session that waited for it goes on (11 Table 11.10). -/
def execPermitGrant (d : Driver) (stage : Stage) (s : State) : Out :=
  .next (ifDo (mayGrant s d stage) (fun s => s
    |> modSafCore (fun c => { c with lineGood := vmod c.lineGood d (fun l => l.orElse (fun _ => some s.time.life)) })
    |> (if stage = .saf then grantSaf d else grant d stage)
    |> advance (outletOf d)) s)

/-- The safety core re-arms a driver after its gate test (01 R42, R54, R443): a session that waited for it
goes on (11 Table 11.10). -/
def execSafRearm (d : Driver) (gate : GateTest) (s : State) : Out :=
  .next (s |> rearm false d gate |> advance (outletOf d))

/-- The power die loses the controller link (01 R58, 13 Table 13.6). -/
def execPowerDieLinkLoss (s : State) : Out :=
  .next (ifDo s.pd.linkUp (fun s => s
    |> modPd (fun p => { p with linkUp := false, linkHold := true })
    |> withdraw allDrivers Stage.all causeLink
    |> applyLs) s)

/-- The link is back (01 R58): the trips that wait are reported, and the load switches return once the control base has
restarted. -/
def execPowerDieLinkRestored (s : State) : Out :=
  .next (s |> modPd (fun p => { p with linkUp := true })
    |> forEach (allDrivers.filter (fun d => !s.pd.drv[d].window && !s.pd.drv[d].recorded)) reportTrip)

/-- A core reset of the safety core (01 R48). -/
def execSafCoreReset (s : State) : Out :=
  .next (ifDo (baseRuns s) (safReset causeInternal) s)

/-- An internal fault of the safety core (R461). -/
def execSafInternalFault (s : State) : Out :=
  .next (ifDo s.saf.running internalFault s)

/-- A service of the watchdog (05 R183, R184), which only SAF writes; a partial write has no effect (00 R21). -/
def serveWdg (m : Master) (word : Word32) (whole : Bool) (s : State) : State :=
  let tok := s.wb.wdgToken.toNat
  let right := word.toNat = tok + (65535 - tok) * 65536
  let early := match s.wb.wdgLast with
    | none => false
    | some l => decide ((s.time.life - l).toNat < 164)
  let late := match s.wb.wdgLast with
    | none => false
    | some l => decide (491 < (s.time.life - l).toNat)
  if m != .saf || !whole || !s.saf.running then s
  else if early || late || !right then
    watchdogFault (BitVec.ofNat 3 (b1 early + 2 * b1 (!right) + 4 * b1 late)) s
  else
    s |> draw
      |> modWb (fun b => { b with
          wdgLast := some s.time.life, wdgToken := Config.wdgToken s.nd, wdgGood := b.wdgGood + 1
          wdgFaulted := b.wdgFaulted && decide (b.wdgGood + 1 < 2) })
def execWdgService (m : Master) (word : Word32) (whole : Bool) (s : State) : Out := .next (serveWdg m word whole s)

/-- No accepted service by cycle 492 (05 R184). -/
def execWdgLate (s : State) : Out :=
  .next (ifDo (passedSince s s.wb.wdgLast 492) (watchdogFault 4) s)

/-- The PERMIT_WCH logic is not refreshed for 2 ms (05 R196): the power die records PERMIT_LINE. -/
def execPermitWchRefreshTimeout (s : State) : Out :=
  .next (s |> modWch (fun w => { w with refreshed := false })
    |> modSafCore (fun c => { c with lineGood := Vector.replicate 4 none })
    |> withdraw allDrivers [.wch] causeLine)

/-- The clock of MET fails (04 Table 4.7); its core reset is the row MET_CORE_RESET. -/
def wchClockTrip (d : Domain) (s : State) : State :=
  s |> withdraw allDrivers [.wch] causeClock |> clockFault d

/-- The clock of SAF fails (04 Table 4.7): PERMIT_WCH falls and SAF has a core reset; in SAVE the safety save goes no further. -/
def execSafClockFault (s : State) : Out :=
  .next (ifDo (domainOn s .saf) (fun s => s
    |> wchClockTrip .saf |> safReset causeClock |> modPwr (fun p => { p with savesSaf := false })) s)

/-- TRIP_CAUSE_READ (07 Table 7.13). -/
def execTripCauseRead (mb : Mailbox) (s : State) : Out :=
  .next (runCommand .tripCauseRead mb (fun b s =>
    let n := rd b 0 2
    guards [(decide (3 < n), .argRange)] s <|
      let d : Driver := Fin.ofNat 4 n
      let w := s.safStore.trips[d]
      let code := fun (i : Nat) => u16 (w.codes.getD i 0).toNat
      ok (u8 d.val ++ u8 w.firstPermits.toNat ++ code 0 ++ u64 w.life.toNat ++ u8 w.followPermits.toNat
        ++ u8 0 ++ u16 0 ++ u64 w.followLife.toNat ++ u32 w.count.toNat ++ u32 0
        ++ code 0 ++ code 1 ++ code 2 ++ code 3) s) s)

/-- SAFETY_REARM_REQUEST (07 Table 7.13; R428): answered once the gate test is done. -/
def execSafetyRearmRequest (mb : Mailbox) (s : State) : Out :=
  .next (runCommand .safetyRearmRequest mb (fun b s =>
    let n := rd b 0 2
    guards [(decide (3 < n), .argRange)] s <|
      let d : Driver := Fin.ofNat 4 n
      if !s.pd.drv[d].latch then ok [] s
      else
        let t := modDrv d (fun r => { r with requested := true }) s
        let p := { (t.pd.drv[d]).permits with saf := (t.pd.drv[d]).permits.saf || safMayGrant t false d }
        if causesMet t false d && rearmPermits p && t.pd.drv[d].recorded && !t.pd.drv[d].gateFailed then
          .defer (t |> ifDo (safMayGrant t false d) (grantSaf d) |> modDrv d (fun r => { r with askers := r.askers ++ [mb] }))
        else refuse .rearmRefused s) s)

/-- SAFETY_STATUS_GET (07 Table 7.13). -/
def execSafetyStatusGet (mb : Mailbox) (s : State) : Out :=
  .next (runCommand .safetyStatusGet mb (fun _ s =>
    let kohm := fun (o : Outlet) => let i := (s.saf.out.get o).imd; min i.plusOhm i.minusOhm / 1000
    let rcd := fun (o : Outlet) => (s.saf.out.get o).rcd.rmsUa
    ok (u32 (permitWord s) ++ u8 (latchBits s) ++ u8 (seamPathState s .a + 4 * seamPathState s .b) ++ u16 0
      ++ u32 (rcd .a) ++ u32 (rcd .b) ++ u32 (kohm .a) ++ u32 (kohm .b)
      ++ u8 (b1 (!(s.saf.out.get .a).peFault) + 2 * b1 (!(s.saf.out.get .b).peFault)) ++ flag (!s.saf.penFault)
      ++ u16 0 ++ u32 s.pwr.uF ++ u64 s.time.life.toNat) s) s)

end Sys2Proof.Machine
end

