-- ==== Sys2Proof/Machine/TimeRows.lean ====
section
/-! DEFINITION. The rows of the TIME block and its commands (04, 07 Table 7.5). -/

namespace Sys2Proof.Machine

/-- TIME_GET (07 Table 7.5). -/
def execTimeGet (mb : Mailbox) (s : State) : Out :=
  .next (runCommand .timeGet mb (fun _ s =>
    ok (u64 s.time.life.toNat ++ u64 s.time.rtcSec.toNat ++ u16 s.time.rtcSub.toNat ++ u16 s.legal.epoch.toNat
      ++ u32 (rtcStatus s.time) ++ i32 s.time.trim.toInt ++ u32 s.time.adjLimit) s) s)

/-- TIME_SET (07 Table 7.5; 04 R136, R152, R155): it completes with the AO32 cycle. (log 67, DEDUCED) -/
def execTimeSet (mb : Mailbox) (s : State) : Out :=
  .next (runCommand .timeSet mb (fun b s =>
    let sec := rd b 0 8
    match setSecond sec s with
    | (true, t) => refuse .rtcRange t
    | (false, t) => .defer (modTb (fun b => { b with waiting := b.waiting ++ [mb] }) t)) s)

/-- TIME_ADJUST (07 Table 7.5; 04 R136, R152, R155). -/
def execTimeAdjust (mb : Mailbox) (s : State) : Out :=
  .next (runCommand .timeAdjust mb (fun b s =>
    match adjustMs (rdI32 b 0) s with
    | (true, t) => refuse .rtcRange t
    | (false, t) => .defer (modTb (fun b => { b with waiting := b.waiting ++ [mb] }) t)) s)

/-- TIME_TRIM_SET (07 Table 7.5; 04 R140). -/
def execTimeTrimSet (mb : Mailbox) (s : State) : Out :=
  .next (runCommand .timeTrimSet mb (fun b s =>
    let v := rdI32 b 0
    .done (if clipTrim v = v then .ok else .trimClipped) (i32 (clipTrim v)) (setTrim v s)) s)

/-- The masters that write the RTC (04 R145). -/
def rtcWriter (m : Master) : Bool := m == .app0 || m == .app1

/-- A write to RTC_ADJ_MS (04 R136, R137, R152): a partial write has no effect (00 R21). -/
def execRtcAdjMsWrite (m : Master) (word : Word32) (whole : Bool) (s : State) : Out :=
  .next (ifDo (rtcWriter m && whole) (fun s => (adjustMs word.toInt s).2) s)

/-- The RTC set from RTC_SET_HI and a word written to RTC_SET_LO (04 R136, R152). -/
def setFromLo (lo : Word32) (s : State) : State := (setSecond (s.tb.setHi ++ lo).toNat s).2

/-- A write to RTC_SET_HI and then to RTC_SET_LO (04 R136, R152): a partial write of RTC_SET_LO has no effect (00 R21). -/
def execRtcSetLoWrite (m : Master) (hi : BitVec 1) (lo : Word32) (whole : Bool) (s : State) : Out :=
  .next (ifDo (rtcWriter m) (fun s => s |> modTb (fun b => { b with setHi := hi }) |> ifDo whole (setFromLo lo)) s)

/-- A write to RTC_TRIM: TRIM is bits 9:0, signed (04 R140, Table 4.3). -/
def execRtcTrimWrite (m : Master) (word : Word32) (s : State) : Out :=
  .next (ifDo (rtcWriter m) (setTrim (word.setWidth 10).toInt) s)

/-- A write to TMRn_PERIOD (04 R142 to R144). -/
def execTmrPeriodWrite (m : Master) (n : Fin 16) (p : Word32) (s : State) : Out :=
  .next (ifDo (ownsTimer m n) (modTimer n (setPeriod p)) s)

/-- A timer's period elapses (04 R142 to R144) in the present AO32 cycle: no event falls due while the function is stopped
(R157), or earlier than its REF cycles. -/
def execTmrPeriodEvent (n : Fin 16) (s : State) : Out :=
  .next (modTimer n (fun t =>
    if t.running = 0 ∨ 1508 < t.due then t
    else { t with
      evt := true, overrun := t.overrun || t.evt, irq := t.irq || (t.irqEn && ownerRuns s n)
      running := t.period, due := t.due + t.period.toNat }) s)

/-- An attempt accumulates healthy time (19 R664): in RUN, with FW_READY, migrated settings, no internal fault of
the safety core and, where OCPP is used, an accepted BootNotification in the attempt. -/
def healthy (s : State) : Bool :=
  s.hif.trial && s.pwr.state == .run && !s.pwr.inReset && s.hif.fwReady && s.run.migrated && !s.run.safFault &&
    ((cfgOpt s.cfg s.fab (.gen .ocppVersion)).isNone || s.run.booted)

/-- The restart of an activation or a fallback, once no command runs (07 Table 7.23). -/
def restartNow (s : State) : State := ifDo (s.run.restartDue && !someRunning s) resetBase s

/-- A slew has absorbed its offset (04 R137). -/
def execSlewAbsorbed (s : State) : Out :=
  .next (ifDo (s.time.slewing && s.time.slewLeft == 0) (modTime (fun t => { t with slewing := false })) s)

/-- The RTC at its range end (04 R153; 10 Table 10.4). -/
def execRtcRangeEnd (s : State) : Out :=
  .next (ifDo (!s.time.rangeEnd && decide (rtcCount s.time = rtcMaxCount)) (fun s =>
    s |> modTime (fun t => { t with rangeEnd := true, valid := false })
      |> raise .rtcRangeEnd []
      |> ifDo s.met.running (log 0x0014 noSubject [])) s)

/-- AO32 fails (04 Table 4.7, R154). -/
def execAo32Fault (s : State) : Out :=
  .next (ifDo (domainOn s .ao32) (fun s => s |> modTime (fun t => { t with holdover := true })
    |> clockFault .ao32
    |> ifDo (s.met.running && !s.time.holdover) (log 0x0013 noSubject (u8 0))) s)

/-- AOF fails (04 Table 4.7): the watch core runs from AO32, and theft watch is suspended. -/
def execAofFault (s : State) : Out :=
  .next (ifDo (domainOn s .aof) (fun s => s |> modTime (fun t => { t with aofFault := true }) |> clockFault .aof) s)

end Sys2Proof.Machine
end

