-- ==== Sys2Proof/Machine/Watch.lean ====
section
/-! DEFINITION. The rows of the watch domain's checks and registers (05). -/

namespace Sys2Proof.Machine

/-- TMP_COV and TMP_TRM sampled (R178, R179, R200); a disabled input is not sensed, and nothing is while the watch domain
has no supply (03 R126). -/
def execTamperSample (covOhm trmOhm : Option Nat) (s : State) : Out :=
  let c := tamperNext s.wch.covFilter s.wch.covOpen covOhm
  let t := tamperNext s.wch.trmFilter s.wch.trmOpen trmOhm
  .next (ifDo (watchOn s) (fun s => s
    |> ifDo s.wch.settings.tamperCov (fun s => s
        |> modWch (fun w => { w with covFilter := c.1, covOpen := c.2 })
        |> tamperChange .cover s.wch.covOpen c.2)
    |> ifDo s.wch.settings.tamperTrm (fun s => s
        |> modWch (fun w => { w with trmFilter := t.1, trmOpen := t.2 })
        |> tamperChange .terminal s.wch.trmOpen t.2)) s)

/-- VBAT read (Table 5.1, 03 R106): low below 2.6 V and absent below 2.5 V after 4 readings; the event
is raised at once while VAUX is present, else at the next start. -/
def execVbatCheck (vbatMv : Nat) (s : State) : Out :=
  let l := flipAfter 4 s.wch.vbatLow s.wch.vbatLowRun (decide (vbatMv < 2600))
  let a := flipAfter 4 s.wch.vbatAbsent s.wch.vbatAbsentRun (decide (vbatMv < 2500))
  let fell := l.1 && !s.wch.vbatLow && s.wch.settings.vbatFitted
  .next (ifDo (watchOn s) (fun s => s
    |> modWch (fun w => { w with
        vbatLow := l.1, vbatLowRun := l.2, vbatAbsent := a.1, vbatAbsentRun := a.2
        vbatEvent := if fell then some vbatMv else if l.1 then w.vbatEvent else none })
    |> ifDo (fell && baseRuns s) (raise .vbatLow (u16 vbatMv))) s)

/-- The pilots of an outlet sampled in IDLE (Table 5.1, R168, R170), each with its own filter. -/
def execPilotWakeSample (cpOutOfA ppMoved : Bool) (o : Outlet) (s : State) : Out :=
  let c := filterNext (s.wch.cpFilter.get o) cpOutOfA
  let p := filterNext (s.wch.ppFilter.get o) ppMoved
  .next (ifDo (s.pwr.state == .idle) (fun s => s
    |> modWch (fun w => { w with cpFilter := w.cpFilter.modify o (fun _ => c), ppFilter := w.ppFilter.modify o (fun _ => p) })
    |> ifDo ((c.last && c.run == 2) || (p.last && p.run == 2)) (fun s => s
        |> fireWake 0
        |> modPwr (fun p => { p with modem := p.modem.modify o (fun _ => true) }))) s)

/-- A theft-watch burst (R175, R176, R198), with the bits that the theft island's modulators gave in it: in WATCH only, once
per period, and not while theft watch is off or suspended. -/
def execTheftBurst (valid : Bool) (bits : List (List Bool)) (s : State) : Out :=
  when_ (bits.length == 8)
    (if s.pwr.state != .watch || s.wch.settings.theftChannels == 0 || s.wch.theftSusp || s.time.aofFault || !theftDue s then s
    else
      let t := modWch (fun w => { w with theftLast := some s.time.life, theftFails := if valid then 0 else w.theftFails + 1 }) s
      if valid then forEach (List.finRange 8) (fun i => theftBurst i (bits.getD i.val [])) t
      else ifDo (decide (2 ≤ s.wch.theftFails)) (fun s => s
            |> modWch (fun w => { w with theftSusp := true })
            |> ringRecord .theftSusp true none 0) t)

/-- A segment update may start now (R181, R182): in WATCH one in any 10 s, but for a tamper or crack
change. -/
def segMayStart (s : State) : Bool :=
  s.wch.segReq != s.wch.segShown && s.wch.segUpdating.isNone &&
    (s.pwr.state != .watch || s.wch.segUrgent ||
      match s.wch.segLast with
      | none => true
      | some l => decide (327680 ≤ (s.time.life - l).toNat))

/-- The watch core starts a segment update (R181, R182; 16 R583): it drives the segments whose colour changes, at the temperature
of its compensation sensor. -/
def execSegmentUpdateStart (celsius : Int) (s : State) : Out :=
  .next (ifDo (watchOn s && segMayStart s) (modWch (fun w =>
    beginSegments w.segReq (w.segReq ^^^ w.segShown) s.time.life { w with celsius })) s)

/-- A segment update ends after its frames (R181; 16 R583): its pattern is the pattern shown. -/
def execSegmentUpdateEnd (s : State) : Out :=
  .next (ifDo (s.wch.segUpdating.isSome && passedSince s s.wch.segLast (s.wch.segFrames * segFrameCycles)) (modWch (fun w => { w with
    segShown := w.segUpdating.getD w.segShown, segUpdating := none, segDriven := 0 })) s)

/-- The bits of the pattern that a master writes (01 R31). -/
def segMask (m : Master) : BitVec 64 :=
  match m with
  | .met => 0xFF
  | .app0 | .app1 => ~~~0xFF
  | _ => 0

/-- MET or the application writes the requested pattern (01 R31). -/
def execSegmentPatternWrite (m : Master) (pattern : BitVec 64) (s : State) : Out :=
  .next (ifDo (basePowered s) (putSegments (segMask m) pattern) s)

/-- A millisecond of the watch core (R196). -/
def execHeartbeatTick (s : State) : Out :=
  .next (ifDo (watchOn s) (modWch (fun w => { w with heartbeat := w.heartbeat + 1, refreshed := true })) s)

/-- A settings block takes effect (R202): bits 0, 6 and 7 of the wake mask stay 1 (R168). -/
def execWatchSettingsApply (s : State) : Out :=
  .next (modWch (fun w =>
    match w.settingsNew with
    | none => w
    | some b => { w with settings := b, wakeEn := b.wakeEn ||| 0xC1, settingsNew := none }) s)

/-- The alarm's conditions (R710). -/
def alarmDue (s : State) : Bool :=
  s.wch.alarmEn && s.time.valid && decide (s.wch.alarmSec.toNat ≤ s.time.rtcSec.toNat)

/-- The RTC alarm fires (R710). -/
def execRtcAlarmFire (s : State) : Out :=
  .next (ifDo (alarmDue s) (fun s => s |> modWch (fun w => { w with alarmEn := false }) |> fireWake 4) s)

/-- MET and SAF ask for a wake (R168). -/
def execMetWakeRequest (s : State) : Out := .next (ifDo s.met.running (fireWake 6) s)
def execSafWakeRequest (s : State) : Out := .next (ifDo s.saf.running (fireWake 7) s)

/-- The battery-domain switch chooses the first source present (03 R98). -/
def sourceOf (s : State) (capMv vbatMv : Nat) : WatchSource :=
  if s.pwr.vauxUp then .vaux
  else if 4000 ≤ capMv then .holdup
  else if 2500 ≤ vbatMv then .vbat
  else s.wch.source

/-- The watch domain's source changes (03 R98): nothing else does. A cell fitted while no supply was there starts the watch
domain again, in WATCH (05 R201). -/
def execWatchSourceChange (capMv vbatMv : Nat) (s : State) : Out :=
  .next (s |> modWch (fun w => { w with source := sourceOf s capMv vbatMv })
    |> modPwr (fun p => { p with
        capMv, capRem := 0, state := if p.state = .off ∧ (4000 ≤ capMv ∨ 2500 ≤ vbatMv) then .watch else p.state }))

/-- The watch core scrubs a granule of watch retained SRAM (R166, R197). -/
def execWatchSramScrub (granule : Nat) (uncorrectable : Bool) (s : State) : Out :=
  .next (ifDo (watchOn s) (fun s => s
    |> modWch (fun w => { w with scrubPos := granule })
    |> ifDo uncorrectable (ringRecord .lostRange true none granule)) s)

/-- WATCH_STATUS_GET (07 Table 7.19). -/
def execWatchStatusGet (mb : Mailbox) (s : State) : Out :=
  .next (runCommand .watchStatusGet mb (fun _ s =>
    ok (u32 (wchStatus s.wch) ++ u32 s.wb.wakeCause.toNat ++ u16 s.wch.crackOhm.toNat
      ++ u16 s.wch.ring.length ++ u16 s.wch.lost.toNat ++ u16 0) s) s)

end Sys2Proof.Machine
end

