-- ==== Sys2Proof/Machine/Bus.lean ====
section
/-! DEFINITION. The accesses of the controller die's masters: what the firewall blocks, and the registers of the TIME block and
of the WCH block (01 R29, R55; 04 R145, 05 R206; log 54, DESIGN CHOICE). -/

namespace Sys2Proof.Machine

/-- RTC_STATUS written (04 Table 4.3): bits 5 and 6 clear, and bit 4 where MET writes it (R145). -/
def clearRtcStatus (m : Master) (w : Word32) : State → State := modTime (fun t => { t with
  lifeRestart := t.lifeRestart && !(m == .met && w.getLsbD 4)
  adjRefused := t.adjRefused && !w.getLsbD 5, trimClipped := t.trimClipped && !w.getLsbD 6 })

/-- A write to a register of a timer, by its owner (04 R144). -/
def writeTimer (m : Master) (n : Fin 16) (reg : Nat) (w : Word32) : State → State :=
  ifDo (ownsTimer m n) (
    if reg = 4 then modTimer n (setPeriod w)
    else if reg = 8 then modTimer n (clearTimer w)
    else if reg = 12 then modTimer n (fun t => { t with irqEn := w.getLsbD 0 })
    else id)

/-- A write to the TIME block (04 Table 4.2, R145); what no rule lets a master write is not written. -/
def writeTime (m : Master) (off : Nat) (w : Word32) (whole : Bool) (s : State) : State :=
  if off = 0x1C then clearRtcStatus m w s
  else if off = 0x20 then ifDo (rtcWriter m) (setTrim (w.setWidth 10).toInt) s
  else if off = 0x24 then ifDo (rtcWriter m && whole) (fun s => (adjustMs w.toInt s).2) s
  else if off = 0x28 then ifDo (rtcWriter m) (modTb (fun b => { b with setHi := w.setWidth 1 })) s
  else if off = 0x2C then ifDo (rtcWriter m && whole) (setFromLo w) s
  else if off = 0x34 then modTb (fun b => { b with clkFault := b.clkFault &&& ~~~w }) s
  else if 0x100 ≤ off ∧ off < 0x200 then writeTimer m (Fin.ofNat 16 ((off - 0x100) / 16)) (off % 16) w s
  else s

/-- The alarm's halves written (05 Table 5.7). -/
def setAlarmLo (w : Word32) : State → State :=
  modWch (fun c => { c with alarmSec := BitVec.ofNat 33 (c.alarmSec.toNat / 2 ^ 32 * 2 ^ 32 + w.toNat) })
def setAlarmHi (w : Word32) : State → State := modWch (fun c => { c with
  alarmSec := BitVec.ofNat 33 (b1 (w.getLsbD 0) * 2 ^ 32 + c.alarmSec.toNat % 2 ^ 32), alarmEn := w.getLsbD 1 })

/-- A write to the WCH block (05 Table 5.7, R206): bits 0, 6 and 7 of WCH_WAKE_EN stay 1 (R168). -/
def writeWatch (m : Master) (off : Nat) (w : Word32) (s : State) : State :=
  let app := m == .app0 || m == .app1
  if off = 0x04 then modWb (fun b => { b with wakeCause := b.wakeCause &&& ~~~(w.setWidth 8) }) s
  else if off = 0x08 then ifDo app (modWch (fun c => { c with wakeEn := w.setWidth 8 ||| 0xC1 })) s
  else if off = 0x0C then ifDo app (setAlarmLo w) s
  else if off = 0x10 then ifDo app (setAlarmHi w) s
  else if off = 0x20 then modWb (fun b => { b with wdgStatus := b.wdgStatus &&& ~~~(w.setWidth 3) }) s
  else s

/-- The number with digits of a base, least significant first. -/
def leNatOf (base : Nat) : List Nat → Nat
  | [] => 0
  | d :: ds => d + base * leNatOf base ds

/-- The offset of an address in its block of 4 KiB. -/
def blockOffset (a : BusAccess) : Nat := a.addr.toNat % 0x1000

/-- The offset of an address in the frame store (16 Table 16.3), and the eight pixels of a word of a plane: the low nibble of each byte
is the even one (16 R568). -/
def frameOffset (a : BusAccess) : Nat := (a.addr - Config.regionBase .frameStore).toNat / 4 * 4
def framePixels (off : Nat) : List Nat := (List.range 8).map (fun i => 2 * off + i)
def inTarget (off : Nat) : Bool := decide (off < 307200)

/-- A word of the target plane, and pixel codes written to it outside the legal rows (16 R568). -/
def targetWord (s : State) (off : Nat) : Word32 := BitVec.ofNat 32 (leNatOf 16 ((framePixels off).map (targetCode s)))
def writeTarget (off : Nat) (w : Word32) (s : State) : State :=
  modDisp (fun d => { d with target := (framePixels off).zipIdx.foldl (fun m p =>
    if legalTop s.fab ≤ pixelY p.1 then m else Memory.write m p.1 (BitVec.ofNat 8 (w.toNat >>> (4 * p.2) % 16))) d.target }) s

/-- An allowed read: a register's value, or what a target without a register map holds. -/
def busRead (a : BusAccess) (s : State) : State :=
  match a.region with
  | .timeBlock => answerBus a.master false (BitVec.ofNat 32 (timeReg s (blockOffset a))) s
  | .watchBlock => answerBus a.master false (BitVec.ofNat 32 (wchReg s a.master (blockOffset a))) s
  | .frameOther | .frameLegal =>
    if inTarget (frameOffset a) then answerBus a.master false (targetWord s (frameOffset a)) s
    else draw (answerBus a.master false (Config.busRead s.nd) s)
  | _ => draw (answerBus a.master false (Config.busRead s.nd) s)

/-- An allowed write; WCH_WDG_SVC is the row WDG_SERVICE's. -/
def busWrite (a : BusAccess) (s : State) : State :=
  match a.region with
  | .timeBlock => s |> writeTime a.master (blockOffset a) a.data a.whole |> answerBus a.master false 0
  | .watchBlock =>
    (if blockOffset a = 0x1C then serveWdg a.master a.data a.whole s else writeWatch a.master (blockOffset a) a.data s)
      |> answerBus a.master false 0
  | .frameOther => s |> ifDo (inTarget (frameOffset a)) (writeTarget (frameOffset a) a.data) |> answerBus a.master false 0
  | _ => answerBus a.master false 0 s

/-- An access of a master (R29, R55), while the interconnect has its supply. (log 54, DESIGN CHOICE) -/
def execFirewallBlock (a : BusAccess) (s : State) : Out :=
  .next (ifDo (basePowered s && !notFormed a) (fun s =>
    if blocks s a then blockAccess a s else if a.write then busWrite a s else busRead a s) s)

end Sys2Proof.Machine
end

