-- ==== Sys2Proof/Machine/Chain.lean ====
section
/-! DEFINITION. The rows of the measurement chain (08; 01 R57; 04 FLT; 05 R191). -/

namespace Sys2Proof.Machine

/-- The index of the last output at or before a frame, for a period and a skew of `i` 48ths of it
(R285). -/
def outputIndex (period i frame : Nat) : Int := (48 * (frame : Int) - i * period) / (48 * (period : Int))

/-- The same for the mains-synchronous rate, from the accumulator's total. -/
def mainsIndex (i : Nat) (total : Nat) : Int := ((total : Int) - i * 4294967296 / 48) / 4294967296

/-- An output of a channel falls due in the frame after `w`, whose accumulator is then `total` (R282 to
R285, R290). -/
def outputDue (w : Weave) (total : Nat) (i : Channel) (c : ChCfg) : Bool :=
  let skew := if c.woven then i.val else 0
  let now := if c.mode = .mains then mainsIndex skew total else outputIndex (framePeriod c) skew (w.frame + 1)
  let before := if c.mode = .mains then mainsIndex skew (w.wraps * 4294967296 + w.phase.toNat)
    else outputIndex (framePeriod c) skew w.frame
  (c.mode == .mains || framePeriod c != 0) && decide (before < now) && decide (1 ≤ now)

/-- A channel's words are visible to the application (01 R33; 09 R316: MET's are). -/
def appVisible (s : State) (i : Channel) : Bool := (profileOf s.fab i).isSome || cfgBool s.cfg s.fab (.ch i .visible)

/-- The phase accumulator of a channel's rate at an output (R282): the mains-synchronous one, or the frame's place in the output
period of a fixed rate; a woven channel is sampled by its skew later (R285). -/
def resamplePhase (w : Weave) (total : Nat) (i : Channel) (c : ChCfg) : Nat :=
  let acc := if c.mode = .mains then total else (w.frame + 1) * 4294967296 * c.rate / 192000
  ((acc : Int) - (if c.woven then i.val * 4294967296 / 48 else 0 : Nat)).toNat % 4294967296

/-- MET's running coefficients of a modulator applied to a chain's output (09 R326). -/
def corrected (s : State) (k : Island) (m : Fin 9) (x : Rat) : Rat := Config.corrected ((s.met.coef[k])[m]) x

/-- An output of a channel as a fraction of full scale (Table 8.4): the last stage of its mode. -/
def outputValue (s : State) (total : Nat) (i : Channel) : Rat :=
  let c := s.ch[i]
  let k := islandOf i
  let m : Fin 8 := Fin.ofNat 8 i.val
  match c.cfg.mode with
  | .single =>
    let one := fun (j : Fin 60) (m : Fin 9) => corrected s k m (sincScale 4 (quadRatio c.cfg) (s.weave.slots[j]).quadOut)
    if 32 ≤ spareWeight (s.isl[k]) m then one (spareSlot k) 8 else one (slotOf i) (Fin.ofNat 9 m.val)
  | .fixed =>
    if c.cfg.rate = 48000 then c.h.headD 0
    else if c.cfg.rate = 24000 then firSum (Config.firTap 4) (c.h.take 15)
    else resample (resampleTaps c.cfg) (resamplePhase s.weave total i c.cfg) c.h
  | .mains => resample (resampleTaps c.cfg) (resamplePhase s.weave total i c.cfg) c.h

/-- The word of a due output delivered on the three ports (R286 to R288, R291, R306). -/
def deliver (total : Nat) (i : Channel) (s : State) : State :=
  let c := s.ch[i]
  let oos := isOut c
  let stale := !oos && (decide (0 < c.staleFrames) || s.weave.syncNo == 0)
  let settling := !oos && decide (0 < c.settle)
  let v := sampleOf (outputValue s total i)
  let sat := !oos && (decide (0 < c.overFrames) || v.2)
  let w := sampleWord v.1 sat settling stale (decide (0 < c.spareFrames) && !oos) oos c.count
  let d : Desc := {
    count := c.count + 1, syncNo := s.weave.syncNo, syncLife := s.weave.syncLife, syncRef := s.weave.syncRef
    cfg := c.cfg, cycleRef := s.weave.cycleRef, cycleLen := s.weave.cycleLen }
  modCh i (fun c => { c with
    count := c.count + 1, sat := c.sat || sat, settle := c.settle - 1
    wvOut := c.wvOut && (oos || stale || settling)
    wvBack := if c.wvOut && !oos && !stale && !settling then some s.time.life else c.wvBack
    lostSince := if oos || stale then c.lostSince.orElse (fun _ => some s.time.life) else none
    metPort := portWrite w d c.metPort, safPort := portWrite w d c.safPort
    appPort := if appVisible s i && s.pwr.appIsland then portWrite w d c.appPort else c.appPort }) s

/-- A weave trip (R299): PERMIT_WV of the mapped drivers falls. -/
def weaveTrip (i : Channel) (s : State) : State :=
  s |> modCh i (fun c => { c with wvTrip := true, wvRun := cfgNat s.cfg s.fab (.ch i .wvCount) })
    |> withdraw (driversMapped s .wvDrivers i) [.wv] causeWeave

/-- A 48 kS/s output compared with the weave thresholds (R299): STALE and OOS outputs are passed over. -/
def weaveCompare (i : Channel) (x : Rat) (s : State) : State :=
  let c := s.ch[i]
  if isOut c || decide (0 < c.stale48) || (driversMapped s .wvDrivers i).isEmpty then s
  else
    let v := (sampleOf x).1.toInt
    let beyond := decide (cfgInt s.cfg s.fab (.ch i .wvHi) < v ∨ v < cfgInt s.cfg s.fab (.ch i .wvLo))
    let run := if beyond then c.wvRun + 1 else 0
    s |> modCh i (fun c => { c with wvRun := run })
      |> ifDo (decide (cfgNat s.cfg s.fab (.ch i .wvCount) ≤ run) && !c.wvTrip) (weaveTrip i)

/-- Mn's and M8's newest 48 kS/s outputs. -/
def ownOut (s : State) (k : Island) (m : Fin 8) : Rat := corrected s k (Fin.ofNat 9 m.val) (s.weave.slots[slotOf (channelOf k m.val)]).out
def spareOut (s : State) (k : Island) : Rat := corrected s k 8 (s.weave.slots[spareSlot k]).out

/-- A channel's 48 kS/s output: its own, M8's, or in a blend the two by their weights (Table 8.8). -/
def channelOut (s : State) (i : Channel) : Rat :=
  let k := islandOf i
  let m : Fin 8 := Fin.ofNat 8 i.val
  let own := ownOut s k m
  own + (spareOut s k - own) * ((spareWeight (s.isl[k]) m : Nat) : Rat) / 64

/-- The 48 kS/s output of a channel: the resampler takes it, and the weave threshold judges it. -/
def channelSample (i : Channel) (s : State) : State :=
  let x := channelOut s i
  let spare := spareWeight (s.isl[islandOf i]) (Fin.ofNat 8 i.val) != 0
  s |> modCh i (fun c => { c with
          h := (x :: c.h).take 128, spareFrames := if spare then max c.spareFrames (spanFrames c.cfg) else c.spareFrames })
    |> weaveCompare i x

/-- A channel's counts of frames after a frame; at the end of a readmission's STALE its chain is flushed (R306). -/
def countFrame (i : Channel) (s : State) : State :=
  let c := s.ch[i]
  let ends := c.staleFrames == 1 && c.flushDue
  s |> modCh i (fun c => { c with
          staleFrames := c.staleFrames - 1, stale48 := c.stale48 - 1, overFrames := c.overFrames - 1, spareFrames := c.spareFrames - 1
          settle := if ends then settleCount c.cfg else c.settle, flushDue := c.flushDue && !ends })
    |> ifDo ends (flushChain i)

/-- A channel's part of a weave frame. -/
def channelFrame (w : Weave) (total : Nat) (i : Channel) (s : State) : State :=
  s |> ifDo ((w.frame + 1) % 4 == 0) (channelSample i)
    |> ifDo (outputDue w total i s.ch[i].cfg) (deliver total i)
    |> countFrame i

/-- A darning at a 48 kS/s instant (Table 8.8): a comparison takes a pair of outputs, and a blend moves by one of its 64 steps; at
the end of the first, Mn goes to the references. Step 7 compares with the new coefficients. -/
def darnSample (k : Island) (s : State) : State :=
  let x := s.isl[k]
  match x.darning with
  | none => s
  | some d =>
    let back := Config.corrected (x.coef[Fin.ofNat 9 d.m.val]) (s.weave.slots[slotOf (channelOf k d.m.val)]).out
    let n : Darning := match d.step with
      | .compare => { d with pairs := ((ownOut s k d.m, spareOut s k) :: d.pairs).take 256 }
      | .blend => { d with weight := d.weight + 1, step := if d.weight + 1 < 64 then .blend else .reference }
      | .reference => d
      | .compareBack => { d with pairs := ((back, spareOut s k) :: d.pairs).take 256 }
      | .blendBack => { d with weight := d.weight - 1 }
    modIsl k (fun x => { x with darning := some n }) s

/-- A frame of the weave (01 R45, 08 R279 to R288, R299, R306). -/
def execWeaveFrame (s : State) : Out :=
  let w := s.weave
  let total := w.wraps * 4294967296 + w.phase.toNat + w.increment.toNat
  .next (ifDo w.running (fun s => s
    |> modWeave (fun w => { w with slots := w.slots.map (advanceSlot (w.frame + 1)) })
    |> forEach (List.finRange 48) (channelFrame w total)
    |> ifDo ((w.frame + 1) % 4 == 0) (forEach (List.finRange 6) darnSample)
    |> modWeave (fun w => { w with
          frame := w.frame + 1, phase := BitVec.ofNat 32 (total % 4294967296), wraps := total / 4294967296 })) s)

/-- The fields of an island's frame (R277): bit 39 is sent first. -/
def frameMods (f : BitVec 40) : BitVec 9 := ((f >>> 27).setWidth 9).reverse
def frameCmps (f : BitVec 40) : BitVec 16 := ((f >>> 11).setWidth 16).reverse
def frameStandby (f : BitVec 40) : BitVec 2 := (f >>> 9).setWidth 2
def frameStatus (f : BitVec 40) : Bool := f.getLsbD 8

/-- A frame's pattern and CRC-8 are right (R277). -/
def frameIntact (f : BitVec 40) : Bool := (f >>> 36).toNat == 0xA && crc8 (beBytes 4 (f.toNat / 256)) == f.setWidth 8

/-- A frame whose pattern, CRC-8 and status bit are right (R277). -/
def frameGood (last : Option Bool) (f : BitVec 40) : Bool := frameIntact f && last != some (frameStatus f)

/-- The status bit that the next frame is compared with: a frame whose bits are wrong counts as one that toggled (log 94,
DEDUCED). -/
def statusAfter (last : Option Bool) (f : BitVec 40) : Option Bool :=
  if frameIntact f then some (frameStatus f) else last.map not

/-- A bit of each modulator, or mid-scale zero, taken by the chains of an island's slots (R279, R305; 05 R192). -/
def feedIsland (k : Island) (bit : Nat → Int) (s : State) : State :=
  let x := s.isl[k]
  let ratio := fun (m : Nat) => quadRatio s.ch[channelOf k m].cfg
  let feed := fun (j : Fin 60) (r m : Nat) => modSlotChain j (feedSlot r (bit m))
  s |> forEach (List.range 8) (fun m => feed (slotOf (channelOf k m)) (ratio m) m)
    |> feed (spareSlot k) (match x.spare with
        | .covering m => ratio m.val
        | _ => 0) 8
    |> (fun s => match x.darning with
        | some d => feed (calSlot k) 0 d.m.val s
        | none => s)

/-- An overloaded modulator (R300): every word whose span includes the bit carries SAT. -/
def overload (k : Island) (m : Fin 9) (s : State) : State :=
  forEach (carriedBy k s.isl[k] m) (fun i => modCh i (fun c => { c with overFrames := max c.overFrames (spanFrames c.cfg) })) s

/-- A fast sample in units of full scale / 32,768 (R296). -/
def fastValue (v : Int) : Rat := sincScale 3 32 v * 32768

/-- A channel's comparators on a fast sample (R296): a comparator trips after its count of samples in a row. -/
def fastCompare (i : Channel) (v : Int) (s : State) : State :=
  let k := islandOf i
  let m : Fin 8 := Fin.ofNat 8 i.val
  let r := (s.isl[k]).cmpRun[m]
  let n := cfgNat s.cfg s.fab (.ch i .cmpCount)
  let hi := if (cfgInt s.cfg s.fab (.ch i .cmpHi) : Rat) < fastValue v then r.1 + 1 else 0
  let lo := if fastValue v < (cfgInt s.cfg s.fab (.ch i .cmpLo) : Rat) then r.2 + 1 else 0
  s |> modIsl k (fun x => { x with cmpRun := vmod x.cmpRun m (fun _ => (hi, lo)) })
    |> ifDo (decide (n ≤ hi) && !s.ch[i].cmpHigh) (comparatorTrip i true)
    |> ifDo (decide (n ≤ lo) && !s.ch[i].cmpLow) (comparatorTrip i false)

/-- The fast paths of an island take a bit each (R296), and each channel's comparators the sample of the path that they stand
on (Table 8.8, R298). -/
def fastPaths (k : Island) (bits : BitVec 9) (s : State) : State :=
  let x := s.isl[k]
  let step := fun (m : Fin 9) => sincStep 32 (bitValue (bits.getLsbD m.val)) x.fast[m]
  s |> modIsl k (fun x => { x with fast := Vector.ofFn (fun m => (step m).1) })
    |> forEach (List.finRange 8) (fun m s =>
        match (step (if onSpare x m then 8 else Fin.ofNat 9 m.val)).2 with
        | some v => fastCompare (channelOf k m.val) v s
        | none => s)

/-- The comparator bits of a frame (R277, R297, R298): while a channel's pair is under test, the standby pair's bits, high and
low, stand for it. -/
def frameTrips (k : Island) (frame : BitVec 40) (s : State) : State :=
  let x := s.isl[k]
  let cmps := frameCmps frame
  forEach (List.range 8) (fun m s =>
    let i := channelOf k m
    let test := (x.selfTest.map (fun t => t.under && t.m.val == m)).getD false
    let hi := if test then (frameStandby frame).getLsbD 1 else cmps.getLsbD (2 * m)
    let lo := if test then (frameStandby frame).getLsbD 0 else cmps.getLsbD (2 * m + 1)
    s |> ifDo (hi && !s.ch[i].cmpHigh) (comparatorTrip i true)
      |> ifDo (lo && !s.ch[i].cmpLow) (comparatorTrip i false)) s

/-- An island's link is lost (01 R57, 08 Table 8.10): a handover or self-test under way is abandoned. -/
def loseLink (k : Island) (s : State) : State :=
  let ds := allDrivers.filter (fun d => (channelsOf k).any (fun i => chMapped s .cmpDrivers i d))
  s |> abandonDarning k
    |> modIsl k (fun x => { x with
          linkUp := false, restarting := true, lastStatus := none, cmpBits := 0, selfTest := none
          spare := match x.spare with
            | .covering m => if x.covered.contains m then .covering m else .idle
            | y => y })
    |> clockFault .mod
    |> withdraw ds [.isl] causeIslandLink
    |> forEach (channelsOf k) (fun i => takeOut i 1)

/-- A modulator has failed (R307). (log 44, DEDUCED) -/
def modulatorFails (k : Island) (m : Fin 9) (s : State) : State :=
  let x := s.isl[k]
  let i := channelOf k m.val
  let n : Fin 8 := Fin.ofNat 8 m.val
  let t := modIsl k (fun x => { x with failed := x.failed ++ [m] }) s
  if m = 8 then t |> abandonDarning k |> modIsl k (fun x => { x with spare := .faulty })
    |> forEach x.covered (fun n => takeOut (channelOf k n.val) 1)
  else if x.spare = .idle ∧ x.darning.isNone ∧ x.selfTest.isNone ∨ x.spare = .covering n then
    t |> modIsl k (fun x => { x with spare := .covering n, covered := x.covered ++ [n], darning := none })
      |> markStale i
  else takeOut i 1 t

/-- The MOD cycles without a transition after which a modulator has failed (R307). -/
def stuckLimit : Nat := 64

/-- A good frame of an island (R277, R279, R296, R297, R300, R307). -/
def takeFrame (k : Island) (frame : BitVec 40) (loads : BitVec 9) (s : State) : State :=
  let mods := frameMods frame
  let was := s.isl[k]
  let stuck := fun (m : Fin 9) => if mods.getLsbD m.val = was.modBits.getLsbD m.val then was.stuckRun[m] + 1 else 0
  s |> modIsl k (fun x => { x with
          failRun := 0, lastStatus := some (frameStatus frame), modBits := mods, cmpBits := frameCmps frame
          standby := frameStandby frame, stuckRun := Vector.ofFn stuck })
    |> feedIsland k (fun m => bitValue (mods.getLsbD m))
    |> forEach ((List.finRange 9).filter (fun m => loads.getLsbD m.val)) (overload k)
    |> fastPaths k mods
    |> frameTrips k frame
    |> forEach ((List.finRange 9).filter (fun m => decide (stuckLimit ≤ stuck m) && !was.failed.contains m)) (modulatorFails k)

/-- A frame that failed (R305): mid-scale zero stands for its bits, and the comparators hold; beyond four in a row the link is
lost (01 R57). -/
def missFrame (k : Island) (frame : BitVec 40) (s : State) : State :=
  s |> modIsl k (fun x => { x with failRun := x.failRun + 1, lastStatus := statusAfter x.lastStatus frame })
    |> feedIsland k (fun _ => 0)
    |> forEach (channelsOf k) markStale
    |> ifDo (decide (4 ≤ (s.isl[k]).failRun)) (loseLink k)

/-- An island's frame arrives (R277, R297, R305, R307), with the modulators that it reports overloaded: the spec says that the
frame reports them and gives them no bits (R300; log 92, DESIGN CHOICE). -/
def execIslandFrame (k : Island) (frame : BitVec 40) (loads : BitVec 9) (s : State) : Out :=
  let x := s.isl[k]
  .next (ifDo (x.powered && x.linkUp)
    (if frameGood x.lastStatus frame then takeFrame k frame loads else missFrame k frame) s)

/-- An island's link is lost (01 R57, 08 Table 8.10). -/
def execIslandLinkLoss (k : Island) (s : State) : Out :=
  .next (ifDo (s.isl[k].powered && s.isl[k].linkUp) (loseLink k) s)

/-- The restart repeated while the link stays bad (01 R57). -/
def execIslandRestartRetry (k : Island) (s : State) : Out :=
  .next (ifDo (!s.isl[k].linkUp && s.isl[k].powered)
    (modIsl k (fun x => { x with restarting := true, failRun := 0, lastStatus := none })) s)

/-- The link is synchronised again (01 R57, R306). -/
def execIslandLinkResync (k : Island) (s : State) : Out :=
  .next (ifDo (s.isl[k].powered && !s.isl[k].linkUp) (fun s => s
    |> modIsl k (fun x => { x with linkUp := true, restarting := false, failRun := 0, lastStatus := none })
    |> returnAll (channelsOf k) 1) s)

/-- A synchronisation that waits ends with the failure of the weave (07 R271; log 93, DEDUCED). -/
def dropSync (s : State) : State :=
  s |> forEach s.weave.syncWaiting (completeRunning .channelOos [])
    |> modWeave (fun w => { w with syncDue := false, syncWaiting := [] })

/-- FLT fails (04 Table 4.7). -/
def execFltFault (s : State) : Out :=
  .next (ifDo (domainOn s .flt && !s.pwr.inReset) (fun s => s
    |> clockFault .flt
    |> safTrip allDrivers causeClock
    |> forEach (List.finRange 48) (fun i => takeOut i 3)
    |> dropSync
    |> modWeave (fun w => { w with running := false })) s)

/-- The condition of R191 that defers a calibration, with its reason: a spare that a comparator self-test holds is busy (log 80,
DEDUCED). -/
def deferReason (s : State) (k : Island) (m : Fin 8) : Option Nat :=
  let x := s.isl[k]
  let c := s.ch[channelOf k m.val]
  if x.spare = .faulty then some 1
  else if x.spare ≠ .idle ∨ x.darning.isSome ∨ x.selfTest.isSome then some 2
  else if c.service ≠ .inService ∨ c.sat then some 3
  else if s.weave.lastSyncIn.isSome ∧ !passedSince s s.weave.lastSyncIn (secs 1) then some 4
  else none

/-- A calibration of a modulator falls due now (05 R191; 09 R344): in rotation, and once per `meas.cal_interval_min`; back to back,
and M8 first, until the start-up rotation is complete. -/
def calDue (s : State) (k : Island) (m : Fin 8) : Bool :=
  let x := s.isl[k]
  x.powered && x.linkUp && x.calNext == m && (x.rotated || m != 0 || x.spareDone || x.spare != .idle) &&
    (!x.rotated || (x.calAt[m]).isNone || passedSince s x.calAt[m] (secs (60 * cfgNat s.cfg s.fab (.gen .calInterval))))

/-- A calibration falls due (05 R191, R199): a handover starts with M8's chain flushed (Table 8.8), or it is deferred with its
reason. The rotation goes on either way. -/
def execCalibrationDue (k : Island) (m : Fin 8) (s : State) : Out :=
  .next (ifDo (calDue s k m) (fun s =>
    let t := modIsl k (fun x => { x with
      calNext := m + 1, calAt := vmod x.calAt m (fun _ => some s.time.life), spareDone := x.spareDone && m != 7 }) s
    match deferReason s k m with
    | some r => t |> modIsl k (fun x => { x with deferrals := satAdd 8 x.deferrals 1 })
        |> raise .calDeferred (u8 k.val ++ u8 r)
    | none => t |> modIsl k (fun x => { x with darning := some { m, step := .compare }, spare := .covering m })
        |> modSlotChain (spareSlot k) flushSlot) s)

/-- M8 after a failure of step 3: faulty when it failed on another modulator just before (R294). -/
def spareAfterFail (last : Option (Fin 8)) (m : Fin 8) : Spare :=
  match last with
  | some n => if n = m then .idle else .faulty
  | none => .idle

/-- Two streams agree within 0.05 % of full scale plus 0.05 % of reading (R294), which is the stream that the channel delivers. -/
def streamsAgree (back : Bool) (l : List (Rat × Rat)) : Bool :=
  l.all (fun p => decide (|p.1 - p.2| ≤ (1 + |if back then p.2 else p.1|) / 2000))

/-- A comparison of 256 samples (Table 8.8, R294): at step 3 the blend begins, or the handover ends with M8 suspect; at step 7 the
blend back begins, or Mn is faulty and M8 keeps the channel (R307). -/
def execDarningCompare (k : Island) (s : State) : Out :=
  .next (
    match (s.isl[k]).darning with
    | some d =>
      if d.pairs.length < 256 then s
      else
        match d.step, streamsAgree (d.step == .compareBack) d.pairs with
        | .compare, true => modIsl k (fun x => { x with darning := some { d with step := .blend, pairs := [] }, suspect := none }) s
        | .compare, false => modIsl k (fun x => { x with darning := none, suspect := some d.m, spare := spareAfterFail x.suspect d.m }) s
        | .compareBack, true => modIsl k (fun x => { x with darning := some { d with step := .blendBack, pairs := [] } }) s
        | .compareBack, false =>
          modIsl k (fun x => { x with darning := none, covered := x.covered ++ [d.m], failed := x.failed ++ [Fin.ofNat 9 d.m.val] }) s
        | _, _ => s
    | none => s)

/-- Step 6 of the handover is done (R293): Mn is back at the input with its new coefficients, and its chain is flushed. -/
def execDarningReferenceDone (k : Island) (offset gain : Int) (s : State) : Out :=
  .next (
    match (s.isl[k]).darning with
    | some d =>
      ifDo (d.step == .reference) (fun s => s
        |> modIsl k (fun x => { x with
              darning := some { d with step := .compareBack, pairs := [] }, coef := vmod x.coef (Fin.ofNat 9 d.m.val) (fun _ => ⟨offset, gain⟩) })
        |> modSlotChain (slotOf (channelOf k d.m.val)) flushSlot) s
    | none => s)

/-- A modulator's calibration is complete: its LIFE, the count, and MET's running coefficients (09 R326). -/
def calibrated (k : Island) (m : Fin 9) (s : State) : State :=
  s |> modIsl k (fun x => { x with
          calLife := vmod x.calLife m (fun _ => s.time.life)
          calibrated := if x.calibrated.contains m then x.calibrated else x.calibrated ++ [m]
          lastCal := s.time.life, calibrations := x.calibrations + 1 })
    |> (fun s => { s with met := { s.met with
          coef := vmod s.met.coef k (fun v => vmod v m (fun _ => (s.isl[k]).coef[m]))
          aged := s.met.aged.filter (fun a => a != (k, m)) } })

/-- Step 9 of the handover (R293), once the blend back is complete. -/
def execDarningRelease (k : Island) (s : State) : Out :=
  .next (
    match (s.isl[k]).darning with
    | some d =>
      ifDo (d.step == .blendBack && d.weight == 0) (fun s => s
        |> modIsl k (fun x => { x with darning := none, spare := .idle })
        |> calibrated k (Fin.ofNat 9 d.m.val)) s
    | none => s)

/-- M8 calibrates itself while idle, once per cycle of its island (R294, R295): its new coefficients, or it is faulty. -/
def execM8SelfCalibration (k : Island) (offset gain : Int) (pass : Bool) (s : State) : Out :=
  let x := s.isl[k]
  .next (ifDo (x.spare == .idle && x.darning.isNone && x.selfTest.isNone && x.linkUp && !x.spareDone) (fun s =>
    if pass then
      s |> modIsl k (fun x => { x with coef := vmod x.coef 8 (fun _ => ⟨offset, gain⟩), spareDone := true }) |> calibrated k 8
    else modIsl k (fun x => { x with spare := .faulty }) s) s)

/-- The channel whose pair the comparator self-test may take up next (R298): it waits for a calibration, and goes through the
channels in turn. -/
def selfTestNext (x : Isl) : Option Nat :=
  if !x.powered || !x.linkUp || x.darning.isSome then none
  else
    match x.selfTest with
    | none => some 0
    | some t => if t.under then none else some (t.m.val + 1)

/-- The outcomes of the pair under test (R298, 12 R462): a wrong one acts on the drivers that the channel is mapped to; after the
last channel the test has passed where none was wrong. -/
def pairTestOutcome (k : Island) (t : PairTest) (good : Bool) (s : State) : State :=
  let ds := allDrivers.filter (chMapped s .cmpDrivers (channelOf k t.m.val))
  let wrong := t.wrong || !good
  s |> modIsl k (fun x => { x with selfTest := if t.m.val < 7 then some { t with under := false, wrong } else none })
    |> ifDo (!good) (fun s => s |> modIsl k (fun x => { x with selfTestFailed := true }) |> safTrip ds causeSelfTest)
    |> ifDo (t.m == 7 && !wrong) (modIsl k (fun x => { x with
          selfTestLife := some s.time.life, selfTestFailed := false, selfTestMissed := false }))

/-- The comparators' self-test, channel by channel (R298, 12 R462): it is missed with M8 faulty. -/
def execComparatorSelftest (k : Island) (step : SelfTestStep) (s : State) : Out :=
  let x := s.isl[k]
  .next (
    match step with
    | .takeUp m =>
      if selfTestNext x ≠ some m.val then s
      else if x.spare = .faulty then modIsl k (fun x => { x with selfTestMissed := true, selfTest := none }) s
      else modIsl k (fun x => { x with selfTest := some { m, wrong := (x.selfTest.map PairTest.wrong).getD false } }) s
    | .outcomes a b c =>
      match x.selfTest with
      | some t => ifDo t.under (pairTestOutcome k t (a && b && c)) s
      | none => s)

/-- A channel's weave threshold is exceeded for its count (R299). -/
def execWeaveThresholdTrip (ch : Channel) (s : State) : Out :=
  .next (ifDo (!(driversMapped s .wvDrivers ch).isEmpty && s.weave.running && !isOut s.ch[ch]
      && s.ch[ch].stale48 == 0) (weaveTrip ch) s)

/-- A comparator's count is reached (R296, R297). -/
def execComparatorTrip (ch : Channel) (high : Bool) (s : State) : Out :=
  let k := islandOf ch
  .next (ifDo (s.isl[k].powered && s.isl[k].linkUp) (fun s => s
    |> modIsl k (fun x => { x with cmpBits := x.cmpBits ||| BitVec.ofNat 16 (2 ^ (2 * (ch.val % 8) + b1 (!high))) })
    |> comparatorTrip ch high) s)

/-- Some channel still carries SETTLING from a synchronisation (R292). -/
def stillSettling (s : State) : Bool := s.ch.toList.any (fun c => c.service == .inService && decide (0 < c.settle))

/-- An edge on SYNC_IN (R290, R292; 05 Table 5.5): 2 MOD cycles are 162.8 ns; a calibration is abandoned. -/
def execSyncInEdge (highNs : Nat) (s : State) : Out :=
  .next (ifDo (s.weave.running && decide (163 ≤ highNs)) (fun s => s
    |> forEach (List.finRange 6) abandonDarning
    |> modWeave (fun w => { w with lastSyncIn := some s.time.life, syncDue := w.syncDue || !stillSettling s })) s)

/-- SYNC_TRIGGER (07 Table 7.9; R290, R292): it completes with the synchronisation. -/
def execSyncTrigger (mb : Mailbox) (s : State) : Out :=
  .next (runCommand .syncTrigger mb (fun _ s =>
    guards [(!s.weave.running || stillSettling s, .state)] s <|
      .defer (modWeave (fun w => { w with syncDue := true, syncWaiting := w.syncWaiting ++ [mb] }) s)) s)

/-- The synchronisation instant (R290, Table 8.10). -/
def execSynchronisationInstant (refCycles : Word32) (s : State) : Out :=
  .next (ifDo (s.weave.running && s.weave.syncDue) (fun s => s
    |> synchronise refCycles
    |> forEach s.weave.syncWaiting (completeRunning .ok (u64 s.time.life.toNat))
    |> modWeave (fun w => { w with syncWaiting := [] })) s)

/-- The tracker's frequency after a cycle (R283, R284): it follows the fundamental, clamped to 45 to
65 Hz, by at most 0.05 Hz per cycle. -/
def trackNext (usable : Bool) (now target : Nat) : Nat :=
  if !usable then now
  else
    let t := max 45000 (min 65000 target)
    if now + 50 < t then now + 50 else if t + 50 < now then now - 50 else t

/-- The nominal mains frequency in mHz (R284). -/
def nominalMilliHz (s : State) : Nat := 1000 * cfgNat s.cfg s.fab (.gen .mainsHz)

/-- A mains cycle ends with its 256th output (R283, R284; 10 Table 10.4). Without a usable fundamental the tracker holds its
frequency, and before its first lock it runs at the nominal one. -/
def execMainsCycleEnd (milliHz rmsPermille refCycles : Nat) (s : State) : Out :=
  let ref : Channel := Fin.ofNat 48 (cfgNat s.cfg s.fab (.gen .mainsRef))
  let usable := s.ch[ref].service == .inService && decide (50 ≤ rmsPermille)
  let locked := usable && decide (45000 ≤ milliHz) && decide (milliHz ≤ 65000)
  let f := trackNext (usable || !s.weave.everLocked) s.weave.milliHz (if usable then milliHz else nominalMilliHz s)
  .next (ifDo (s.weave.running && decide (256 * (s.weave.cycles + 1) ≤ s.weave.wraps)) (fun s => s
    |> modWeave (fun w => { w with
          locked, everLocked := w.everLocked || locked, milliHz := f, increment := mainsIncrement f, cycles := w.cycles + 1
          cycleRef := w.cycleRef + BitVec.ofNat 32 refCycles, cycleLen := BitVec.ofNat 32 (256 * refCycles) })
    |> ifDo (s.met.running && s.weave.everLocked && locked != s.weave.locked) (log 0x0035 noSubject (flag locked))) s)

/-- A modulator has failed (R307). -/
def execModulatorFailed (k : Island) (m : Fin 9) (s : State) : Out :=
  .next (ifDo (s.isl[k].powered && s.isl[k].linkUp && !s.isl[k].failed.contains m) (modulatorFails k m) s)

/-- The open-input test of a low-voltage input (R308). -/
def execOpenInputTest (ch : Channel) (isOpen : Bool) (s : State) : Out :=
  .next (
    if s.ch[ch].cfg.range = .divider then s
    else if isOpen then takeOut ch 2 s
    else returnAll [ch] 2 s)

/-- MET readmits a channel (R306 step 3). -/
def execChannelReadmit (ch : Channel) (s : State) : Out :=
  let c := s.ch[ch]
  .next (ifDo (s.met.running && c.service == .returning && c.staleFrames == 0 && c.settle == 0) (fun s => s
    |> modCh ch (fun c => { c with service := .inService, lostSince := none })
    |> raise .channelReadmitted (u8 ch.val)) s)

/-- Codes of a channel's mode and range (07 Table 7.9). -/
def modeCode : ChMode → Nat
  | .fixed => 0
  | .mains => 1
  | .single => 2
def rangeCode : ChRange → Nat
  | .mv31 => 0
  | .mv250 => 1
  | .v25 => 2
  | .divider => 3

/-- The channel is being darned or covered by M8 (07 Table 7.9). -/
def darnedNow (s : State) (i : Channel) : Bool :=
  match (s.isl[islandOf i]).darning with
  | some d => d.m.val == i.val % 8
  | none => false

/-- CHANNEL_STATUS_GET (07 Table 7.9). -/
def execChannelStatusGet (mb : Mailbox) (s : State) : Out :=
  .next (runCommand .channelStatusGet mb (fun _ s =>
    ok ((List.finRange 48).flatMap (fun i =>
      let c := s.ch[i]
      u8 (modeCode c.cfg.mode) ++ u8 (b1 c.sat + 2 * b1 (isOut c) + 4 * b1 (decide (0 < c.staleFrames))
        + 8 * b1 (decide (0 < c.settle)) + 16 * b1 (darnedNow s i) + 32 * b1 c.cfg.woven)
        ++ u8 (rangeCode c.cfg.range) ++ u8 0)) s) s)

/-- CHANNEL_SAT_CLEAR (07 Table 7.9; R287). -/
def execChannelSatClear (mb : Mailbox) (s : State) : Out :=
  .next (runCommand .channelSatClear mb (fun b s =>
    let mask := rd b 0 8
    ok [] (forEach ((List.finRange 48).filter (fun i => mask.testBit i.val)) (fun i => modCh i (fun c => { c with sat := false })) s)) s)

/-- LIFE of the n-th output of a descriptor's synchronisation (Table 8.6, R290): 1,500 REF cycles pass in an AO32 cycle. (log
42, DEDUCED) -/
def sampleLife (d : Desc) (i : Channel) (n : Nat) : Nat :=
  let skew := if d.cfg.woven then i.val else 0
  let t := if d.cfg.mode = .mains then d.cycleLen.toNat / 65536 else framePeriod d.cfg * 256
  d.syncLife.toNat + (d.syncRef.toNat + n * t + skew * t / 48) / 1500

/-- SAMPLES_READ (07 Table 7.9; 01 R33): the newest words of the application port's ring, oldest first; where fewer were delivered,
the ring's other words, which read 0 unless an earlier synchronisation's words stand there (log 91, DESIGN CHOICE). -/
def execSamplesRead (mb : Mailbox) (s : State) : Out :=
  .next (runCommand .samplesRead mb (fun b s =>
    let n := rd b 0 1
    let count := rd b 2 2
    let i : Channel := Fin.ofNat 48 n
    guards [(decide (n < 48) && !appVisible s i, .notPermitted), (decide (47 < n), .argRange),
        (count == 0 || decide (124 < count), .argRange), (isOut s.ch[i], .channelOos)] s <|
      let p := s.ch[i].appPort
      ok (u64 (sampleLife p.desc i (p.desc.count.toNat + 1 - count)) ++ (portWords p count).flatMap (fun w => u32 w.toNat)) s) s)

/-- CALIBRATION_STATUS_GET (07 Table 7.9). -/
def execCalibrationStatusGet (mb : Mailbox) (s : State) : Out :=
  .next (runCommand .calibrationStatusGet mb (fun _ s =>
    ok ((List.finRange 6).flatMap (fun k =>
      let x := s.isl[k]
      let sp := match x.spare with
        | .idle => (0, 0)
        | .covering m => (1, (channelOf k m.val).val)
        | .faulty => (2, 0)
      u8 k.val ++ u8 sp.1 ++ u8 sp.2 ++ u8 x.deferrals.toNat ++ u64 x.lastCal.toNat ++ u32 x.calibrations.toNat)) s) s)

end Sys2Proof.Machine
end

