-- ==== Sys2Proof/Machine/Shapes.lean ====
section
/-! DEFINITION. The shapes of opcodes and operands (06 Table 6.2, R211). -/

namespace Sys2Proof.Machine

/-- KIND, bits 2:0 of an opcode, and DIR, bit 3 (06 Table 6.2). -/
def opKind (op : Byte) : Nat := op.toNat % 8
def opWrite (op : Byte) : Bool := op.getLsbD 3
def opBurst (op : Byte) : Bool := opKind op == 1

/-- Bits per clock of a width code (06 Table 6.1): x1, x2, x4, x8. -/
def widthBits (code : Nat) : Nat := 2 ^ (code % 4)

/-- The data width of an opcode in bits per clock. -/
def opDataBits (op : Byte) : Nat := widthBits (op.toNat / 64)

/-- AW, bits 5:4: the address width of an opcode in bits per clock. -/
def opAddrBits (op : Byte) : Nat := widthBits (op.toNat / 16)

/-- A single word or burst opcode; the special ones; the invalid rest (06 R211). -/
def opTransfer (op : Byte) : Bool := opKind op ≤ 1
def opInvalid (op : Byte) : Bool := !opTransfer op && op != 0x0F && op != 0xFF

/-- A write of `n` complete words spelled by the opcode: one for a single word, any number but none for
a burst (06 R210). -/
def writeShape (op : Byte) (n : Nat) : Bool :=
  opTransfer op && opWrite op && (if opBurst op then decide (0 < n) else n == 1)

/-- A host address lies in the command windows; in the event windows (06 Table 6.3). -/
def inCmdWindows (a : Nat) : Bool := 0x1000 ≤ a && a < 0x2000
def inEvtWindows (a : Nat) : Bool := 0x2000 ≤ a && a < 0x3000

/-- The address after a word of a burst (06 R210): it wraps in the mailbox window or in 0x0000 to
0x00FF. -/
def nextAddr (a : Nat) : Nat :=
  if a < 0x100 then (a + 4) % 0x100
  else if inCmdWindows a || inEvtWindows a then a / 512 * 512 + (a + 4) % 512
  else (a + 4) % 0x10000

/-- The most busy bytes of a stretch: at 100 MHz, up to the byte under way when the limit acts (06 R207, R216). -/
def busyMax : Nat := 801

/-- The words of a read from an address: only a window word can be busy (06 R215). -/
def readFits : Nat → List ReadWord → Bool
  | _, [] => true
  | a, r :: l => decide (r.busy ≤ busyMax) && (r.busy == 0 || (a % 4 == 0 && (inCmdWindows a || inEvtWindows a))) && readFits (nextAddr a) l

/-- A read of `n` words spelled by the opcode (06 R210). -/
def readShape (op : Byte) (n : Nat) : Bool :=
  opTransfer op && !opWrite op && (if opBurst op then decide (0 < n) else n == 1)

/-- The address of the word after `n` words. -/
def addrPlus : Nat → Nat → Nat
  | a, 0 => a
  | a, n + 1 => addrPlus (nextAddr a) n

/-- A read in which a busy stretch reaches its limit: at a window word (06 R215, R216). -/
def timeoutShape (op : Byte) (a : Nat) (served : List ReadWord) (busy left : Nat) : Bool :=
  readShape op (served.length + left) && decide (0 < left) && readFits a served && decide (busy ≤ busyMax) && a % 4 == 0 &&
    (inCmdWindows (addrPlus a served.length) || inEvtWindows (addrPlus a served.length))

/-- A transaction whose HIF_SEL falls early (06 R231, R232): before the first data bit of any transaction; or in the
data phase of a write or of SET_CMD_WIDTH, where the cut word lacks at least one bit and stops at a whole number of
the lanes' bits. -/
def cutShape (op : Byte) (n : Nat) : Cut → Bool
  | .beforeData => (opTransfer op || op == 0x0F) && n == 0
  | .inWord bits =>
    decide (bits.length < 32) && (decide (0 < bits.length) || decide (0 < n)) &&
      ((op == 0x0F && n == 0) ||
        (opTransfer op && opWrite op && (opBurst op || n == 0) && bits.length % opDataBits op == 0))

/-- The domains that a PLL makes and whose loss leaves other work running (04 Table 4.7). -/
def lesserPll (d : Domain) : Bool :=
  match d with
  | .gph | .net | .spe | .dsp | .per => true
  | _ => false

end Sys2Proof.Machine
end

