-- ==== Sys2Proof/Machine/HostOps.lean ====
section
/-! DEFINITION. The host port's registers as the host reads and writes them, and the mailboxes' doorbells,
releases and acknowledgements (06 R217 to R233). -/

namespace Sys2Proof.Machine

/-- The host port's registers changed. -/
def modHif (f : Hif → Hif) (s : State) : State := { s with hif := f s.hif }

/-- The mailbox of a register of a block of eight. -/
def boxAt (a base : Nat) : Mailbox := Fin.ofNat 8 ((a - base) / 4)

/-- The word that the host reads at an aligned address (06 Table 6.3). -/
def hostRead (s : State) (a : Nat) : Word32 :=
  if a < 0x100 then
    BitVec.ofNat 32 (
      if a = 0x00 then 0x00480301
      else if a = 0x04 then s.fab.deviceId.toNat % 2 ^ 32
      else if a = 0x08 then s.fab.deviceId.toNat / 2 ^ 32
      else if a = 0x0C then (hifStateWord s.hif).toNat
      else if a = 0x10 then s.hif.status.toNat
      else if a = 0x14 then s.hif.irqEn.toNat
      else if a = 0x18 then irqPend s
      else if a = 0x1C then s.hif.cmdWidth.toNat
      else if a = 0x2C then s.hif.evtLost.toNat
      else if a = 0x3C then s.hif.scratch.toNat
      else if a < 0x40 then 0
      else if a < 0x60 then (let b := s.mbx.cmd[boxAt a 0x40]; b.code.toNat + b.seq.toNat <<< 16)
      else if a < 0x80 then (s.mbx.cmd[boxAt a 0x60]).len.toNat
      else if a < 0xA0 then cmbStatus s.mbx.cmd[boxAt a 0x80]
      else if a < 0xC0 then (let e := s.mbx.evt[boxAt a 0xA0]; e.code.toNat + e.seq.toNat <<< 16)
      else if a < 0xE0 then (s.mbx.evt[boxAt a 0xC0]).len.toNat
      else b1 (s.mbx.evt[boxAt a 0xE0]).full + s.mbx.queue.length <<< 8)
  else if inCmdWindows a || inEvtWindows a then BitVec.ofNat 32 (leNat (Memory.readBytes s.mbx.win a 4))
  else 0

/-- A write without effect on its target (06 Table 6.4). -/
def writeIgnored : State → State := setStatus stWriteIgnored

/-- The bits of a word that clear HIF_STATUS; bit 9 clears HIF_EVT_LOST too (06 Table 6.4). -/
def clearStatus (w : Word32) (s : State) : State :=
  modHif (fun h => { h with
    status := h.status &&& ~~~w
    evtLost := if w.getLsbD stEvtLost && h.status.getLsbD stEvtLost then 0 else h.evtLost }) s

/-- The mailboxes named by the bits 7:0 of a word, in ascending order (06 R224). -/
def namedBoxes (w : Word32) : List Mailbox := (List.finRange 8).filter (fun i => w.getLsbD i.val)

/-- The first doorbell accepted makes the host present, and the kept power reports are presented (06 R229). -/
def presentReports (s : State) : State :=
  if s.hif.hostPresent then s
  else
    let kept := s.mbx.kept
    s |> modHif (fun h => { h with hostPresent := true })
      |> (fun s => { s with mbx := { s.mbx with kept := [] } })
      |> forEach kept (fun p s => placeEvent Ev.powerRestored.code p s)

/-- The mailbox changed. -/
def modBox (mb : Mailbox) (f : CmdBox → CmdBox) (s : State) : State :=
  { s with mbx := { s.mbx with cmd := vmod s.mbx.cmd mb f } }

/-- Mailboxes rung again with their kept SEQ: the running firmware presents the kept response (06 R223; log 18, DESIGN
CHOICE); before it runs they wait. -/
def repeats (s : State) (mb : Mailbox) : Bool :=
  s.mbx.cmd[mb].state == .pending && servesNow s (boxCode s mb) &&
    (s.mbx.cmd[mb].kept.map (fun k => k.seq == s.mbx.cmd[mb].seq)).getD false
def presentRepeat (mb : Mailbox) (s : State) : State :=
  match s.mbx.cmd[mb].kept with
  | some k => if repeats s mb then presentKept mb k { s with mbx := { s.mbx with order := s.mbx.order.filter (fun m => m != mb) } } else s
  | none => s
def presentRepeats (s : State) : State := forEach s.mbx.order presentRepeat s

/-- A doorbell of one mailbox (06 Table 6.6, R221, R223). -/
def ringBox (mb : Mailbox) (s : State) : State :=
  if s.mbx.cmd[mb].state = .free then
    s |> presentReports
      |> modBox mb (fun b => { b with state := .pending })
      |> (fun s => { s with mbx := { s.mbx with order := s.mbx.order ++ [mb] } })
      |> presentRepeat mb
  else setStatus stDoorbellBusy s

/-- A release of one mailbox (06 Table 6.6): CMB_STATUSn keeps ST and RLEN, and REPEAT clears (log 90, DESIGN CHOICE). -/
def releaseBox (mb : Mailbox) (s : State) : State :=
  if s.mbx.cmd[mb].state = .done then modBox mb (fun b => { b with state := .free, rep := false }) s
  else setStatus stDoorbellBusy s

/-- The oldest queued event put into the lowest-numbered empty mailbox (06 R227). -/
def refill (s : State) : State :=
  match s.mbx.queue, emptyEvt s.mbx with
  | e :: rest, some i => { s with mbx := fillEvt i e { s.mbx with queue := rest } }
  | _, _ => s

/-- An acknowledgement of one event mailbox (06 R227): EMB_EVTn, EMB_LENn and the window keep what they held until the mailbox is
filled again (log 90, DESIGN CHOICE). -/
def ackBox (mb : Mailbox) (s : State) : State :=
  if s.mbx.evt[mb].full then
    refill { s with mbx := { s.mbx with evt := vmod s.mbx.evt mb (fun e => { e with full := false }) } }
  else setStatus stDoorbellBusy s

/-- A word of the windows is found uncorrectable (06 R239): it stays so until it is written. -/
def markBad (a : Nat) (s : State) : State :=
  { s with mbx := { s.mbx with badWords := if s.mbx.badWords.contains a then s.mbx.badWords else a :: s.mbx.badWords } }

/-- A register or window write that has no further effect than the word's (06 Table 6.3, R221). -/
def plainWrite (a : Nat) (w : Word32) (s : State) : State :=
  if a = 0x10 then clearStatus w s
  else if a = 0x14 then modHif (fun h => { h with irqEn := w &&& 0x3FFFF }) s
  else if a = 0x18 then modHif (fun h => { h with stateChg := h.stateChg && !w.getLsbD 17 }) s
  else if a = 0x3C then modHif (fun h => { h with scratch := w }) s
  else if 0x40 ≤ a ∧ a < 0x80 then
    let mb := boxAt a (if a < 0x60 then 0x40 else 0x60)
    if s.mbx.cmd[mb].state = .free then
      modBox mb (fun b => if a < 0x60 then { b with code := w.setWidth 16, seq := (w >>> 16).setWidth 16 }
        else { b with len := w.setWidth 10 }) s
    else writeIgnored s
  else if inCmdWindows a then
    if s.mbx.cmd[Fin.ofNat 8 ((a - 0x1000) / 512)].state = .free then
      { s with mbx := { s.mbx with
          win := Memory.writeBytes s.mbx.win a (leBytes 4 w.toNat)
          badWords := s.mbx.badWords.filter (fun x => x != a) } }
    else writeIgnored s
  else writeIgnored s

/-- The registers whose incomplete word is discarded (06 R231). -/
def isWW (a : Nat) : Bool := [0x20, 0x24, 0x28, 0x30, 0x34, 0x38].contains a

/-- The number that the received bits of an incomplete word form (06 R231). -/
def partialWord (bits : List Bool) : Word32 := BitVec.ofNat 32 (bits.foldl (fun n b => 2 * n + b1 b) 0)

/-- What the port drives in a transaction. -/
def drive (l : List Sent) : State → State := modHif (fun h => { h with sent := l })

/-- What the port drives on HIF_D1 while the host sends an x1 opcode and an x1 address (06 R209, R213). -/
def phases (op : Byte) (s : State) : List Sent :=
  (if s.hif.cmdWidth = 0 then [.status (d1Opcode s)] else []) ++
    (if opTransfer op && opAddrBits op == 1 then [.pending (d1Address s)] else [])

/-- A transaction that the port takes (06 R213, R217, R218): while HIF_RDY is low it has no effect, no lane is driven, and
NOT_READY is set where the mailbox unit runs; ignored inputs do nothing (R243). -/
def transaction (op : Byte) (f : State → State) (s : State) : State :=
  if s.hif.ignored then drive [] s
  else if s.hif.rdy then s |> drive (phases op s) |> f
  else s |> ifDo (s.hif.startStep != 0) (setStatus stNotReady) |> drive []

/-- `n` words taken into the write buffer of 128 words: HIF_RDY is low until it has drained (06 R217). A longer burst is
taken whole, as the buffer drains while the burst runs (log 17, DESIGN CHOICE). -/
def buffer (n : Nat) (s : State) : State :=
  if n = 0 then s else modHif (fun h => { h with buffered := min 128 (h.buffered + n), rdy := false }) s

end Sys2Proof.Machine
end

