-- ==== Sys2Proof/Machine/Egress.lean ====
section
/-! DEFINITION. The egress queues of the network ports (05 R193, R194). -/

namespace Sys2Proof.Machine

/-- The network state changed; a port changed. -/
def modNet (f : Net → Net) (s : State) : State := { s with net := f s.net }
def modPort (p : Fin 8) (f : Port → Port) : State → State := modNet (fun n => { n with port := vmod n.port p f })

/-- Line time of a frame in ns at the port's rate (log 43, DESIGN CHOICE). -/
def lineNs (p : Port) (f : Bytes) : Nat := if p.kbps = 0 then 0 else f.length * 8000000 / p.kbps

/-- The safety frames of the last 100 ms, and whether one more keeps them within 25 % of the line time (R193). -/
def safetyRecent (life : Life) (p : Port) : List (Life × Nat) :=
  p.safetySent.filter (fun x => decide ((life - x.1).toNat ≤ 3276))
def safetyMay (life : Life) (p : Port) (f : Bytes) : Bool :=
  decide (((safetyRecent life p).map Prod.snd).sum + lineNs p f ≤ 25000000)

/-- Queued telemetry has had no frame for 100 ms (R186, Table 5.3). -/
def telemetryDue (life : Life) (p : Port) : Bool := !p.telemetry.isEmpty && decide (3276 ≤ (life - p.telemetrySince).toNat)

/-- A frame taken from each queue. -/
def sendSafety (life : Life) (f : Bytes) (p : Port) : Port :=
  { p with sending := some (.safety, f), safety := p.safety.drop 1, safetySent := (life, lineNs p f) :: safetyRecent life p }
def sendSession (f : Bytes) (p : Port) : Port := { p with sending := some (.session, f), session := p.session.drop 1 }
def sendTelemetry (life : Life) (f : Bytes) (p : Port) : Port :=
  { p with sending := some (.telemetry, f), telemetry := p.telemetry.drop 1, telemetrySince := life }

/-- The next frame (R193): from the highest non-empty queue, safety frames within their limit; telemetry whose share is due
goes before session traffic (R186). -/
def nextFrame (life : Life) (p : Port) : Port :=
  match p.safety.head?.filter (safetyMay life p), p.session.head?, p.telemetry.head? with
  | some f, _, _ => sendSafety life f p
  | none, some g, some t => if telemetryDue life p then sendTelemetry life t p else sendSession g p
  | none, some g, none => sendSession g p
  | none, none, some t => sendTelemetry life t p
  | none, none, none => { p with sending := none }

/-- A frame put into its queue; telemetry's share counts from its first waiting frame. -/
def portPut (life : Life) (cls : Egress) (frame : Bytes) (p : Port) : Port :=
  match cls with
  | .safety => { p with safety := p.safety ++ [frame] }
  | .session => { p with session := p.session ++ [frame] }
  | .telemetry => { p with
      telemetry := p.telemetry ++ [frame], telemetrySince := if p.telemetry.isEmpty then life else p.telemetrySince }

/-- A port takes its next frame; a telemetry frame leaves the order of R194. -/
def portNext (p : Fin 8) (s : State) : State :=
  let q := nextFrame s.time.life s.net.port[p]
  s |> modPort p (fun _ => q)
    |> ifDo (q.telemetry.length != (s.net.port[p]).telemetry.length) (modNet (fun n => { n with telOrder := n.telOrder.erase p }))

/-- The ports that transmit nothing take what they may send (R193). -/
def startPorts (s : State) : State :=
  forEach ((List.finRange 8).filter (fun p => (s.net.port[p]).sending.isNone)) portNext s

/-- A frame enqueued on a port; an idle port takes it at once (R193). -/
def enqueue (p : Fin 8) (cls : Egress) (frame : Bytes) (s : State) : State :=
  let idle := (s.net.port[p]).sending.isNone
  s |> modPort p (portPut s.time.life cls frame)
    |> ifDo (cls == .telemetry) (modNet (fun n => { n with telOrder := n.telOrder ++ [p] }))
    |> ifDo idle (portNext p)

/-- Bytes of telemetry queued on all ports (R194). -/
def telemetryBytes (s : State) : Nat :=
  s.net.port.toList.foldl (fun n p => n + (p.telemetry.map List.length).sum) 0

/-- The most that telemetry uses (R194). -/
def telemetryMax : Nat := 65536

/-- The oldest queued telemetry frame of all ports dropped (R194). -/
def dropTelemetry (s : State) : State :=
  match s.net.telOrder with
  | [] => s
  | i :: rest =>
    let t := s |> modPort i (fun x => { x with telemetry := x.telemetry.drop 1, dropped := x.dropped + 1 })
      |> modNet (fun n => { n with telOrder := rest })
    raise .telemetryDropped (u8 i.val ++ u8 0 ++ u16 0 ++ u32 (t.net.port[i]).dropped.toNat) t

/-- Telemetry frames dropped until `n` more bytes fit, at most `fuel` of them. -/
def makeRoom (n : Nat) : Nat → State → State
  | 0, s => s
  | fuel + 1, s => if telemetryBytes s + n ≤ telemetryMax then s else makeRoom n fuel (dropTelemetry s)

/-- Telemetry frames queued on all ports. -/
def telemetryCount (s : State) : Nat := s.net.port.toList.foldl (fun n p => n + p.telemetry.length) 0

/-- A telemetry frame queued (R194), until save step 3 (R203). -/
def execTelemetryEnqueue (port : Fin 8) (frame : Bytes) (s : State) : Out :=
  .next (ifDo ((s.pwr.state == .run || s.pwr.state == .idle) && !s.pwr.inReset && decide (frame.length ≤ telemetryMax)) (fun s => s
    |> makeRoom frame.length (telemetryCount s) |> enqueue port .telemetry frame) s)

/-- A frame has been transmitted (R193). -/
def execEgressFrameDone (port : Fin 8) (s : State) : Out :=
  .next (portNext port s)

end Sys2Proof.Machine
end

