-- ==== Sys2Proof/Machine/NetOps.lean ====
section
/-! DEFINITION. Networks' operations (14): strings, keep-alive, power modules and the pair link. -/

namespace Sys2Proof.Machine

/-- A string, a SunSpec device, a power module, and the pair link changed. -/
def modStr (j : Fin 4) (f : Str → Str) : State → State := modNet (fun n => { n with str := vmod n.str j f })
def modSun (k : Fin 8) (f : SunDev → SunDev) : State → State := modNet (fun n => { n with sun := vmod n.sun k f })
def modPm (b : Fin 4) (n : Fin 32) (f : Module → Module) : State → State :=
  modNet (fun x => { x with pm := vmod x.pm b (fun v => vmod v n f) })
def modPair (f : Pair → Pair) : State → State := modNet (fun n => { n with pair := f n.pair })

/-- EV_LINK of a port (07 Table 7.21). -/
def linkEvent (p : Fin 8) (s : State) : State :=
  raise .link (u8 p.val ++ flag (s.net.port[p]).up ++ u16 0 ++ u32 (s.net.port[p]).kbps) s

/-- A port's link taken up or down, which EV_LINK reports (R532). -/
def setLink (p : Fin 8) (up : Bool) (kbps : Nat) (s : State) : State :=
  if (s.net.port[p]).up = up ∧ (s.net.port[p]).kbps = kbps then s
  else s |> modPort p (fun x => { x with up, kbps }) |> linkEvent p

/-- A CAN port as one of the eight (07 Table 7.15). -/
def canPort (n : Fin 4) : Fin 8 := Fin.ofNat 8 (4 + n.val)

/-- A CAN port carries the power-module protocol (R507). -/
def isPower (s : State) (b : Fin 4) : Bool := cfgNat s.cfg s.fab (.can b .role) == 0

/-- A function runs on a port and needs an address there (R503). -/
def needsAddress (s : State) (p : Fin 4) : Bool :=
  [GenKey.sunPort, .pairPort, .ocppPort].any (fun k => cfgOpt s.cfg s.fab (.gen k) == some p.val)

/-- The port has an address of its own: by its key, or an IPv4 link-local one where a function needs it (R503). -/
def hasAddress (s : State) (p : Fin 4) : Bool := cfgVal s.cfg s.fab (.port p .ipv4) != .none || needsAddress s p

/-- The rates at which a port serves a link (Table 14.1, Table 14.6), and the domain that it runs on (R532). -/
def portServes (s : State) (p : Fin 8) (kbps : Nat) : Bool :=
  if p.val < 2 then
    let m := cfgNat s.cfg s.fab (.eth (Fin.ofNat 2 p.val) .mode)
    [(1, 1000000), (2, 100000), (3, 10000)].any (fun r => r.2 == kbps && (m == 0 || m == r.1)) && !domainOut s .net
  else if p.val < 4 then
    decide (cfgNat s.cfg s.fab (.spe (Fin.ofNat 2 p.val) .mode) < 2) && kbps == 10000 && !domainOut s .net && !domainOut s .spe
  else
    let n : Fin 4 := Fin.ofNat 4 p.val
    isPower s n && kbps == cfgNat s.cfg s.fab (.can n .dataKbps) && !domainOut s .per

/-- The amplitude of a 10BASE-T1L link (R506): 2.4 V where the key and the other end support it. -/
def linkHigh (s : State) (p : Fin 8) (high : Bool) : Bool :=
  let k : Fin 2 := Fin.ofNat 2 p.val
  decide (2 ≤ p.val ∧ p.val < 4) && cfgNat s.cfg s.fab (.spe k .mode) == 0 && cfgNat s.cfg s.fab (.spe k .amplitude) == 1 && high

/-- A CAN frame as the port queues it (R518): its 11-bit identifier, type × 64 + node, and the payload. -/
def canFrame (type node : Nat) (payload : Bytes) : Bytes := u16 (type * 64 + node) ++ payload

/-! ### The string link (R508 to R513) -/

/-- The string link runs on a string: it is enabled and its domain runs (Table 14.10, PER). -/
def stringRuns (s : State) (j : Fin 4) : Bool :=
  cfgBool s.cfg s.fab (.str j .enable) && !domainOut s .per && appRuns s

/-- A frame of the T48 after its sync word (Table 14.2). -/
def stringFrame (kind : Nat) (dst : BitVec 32) (seq : BitVec 8) (payload : Bytes) : Bytes :=
  let body := u8 (16 + kind) ++ u8 payload.length ++ u32 dst.toNat ++ u32 0 ++ u8 seq.toNat ++ u8 0 ++ payload
  body ++ u16 (crc16 body).toNat

/-- The bits of a frame on the line (Table 14.2): preamble, sync and bytes, least significant bit first; 115 kHz for a 1 and
105 kHz for a 0. -/
def stringLine (f : Bytes) : List Bool :=
  (List.range 16).map (fun i => i % 2 == 0) ++ ((0x91 : Byte) :: 0xD3 :: f).flatMap (fun b => (List.range 8).map b.getLsbD)
def toneHz (b : Bool) : Nat := if b then 115000 else 105000

/-- The air time of a frame (Table 14.3) in AO32 cycles at 5,000 bit/s, rounded up, and what follows a request: 20 ms for the
sync word of the reply, and 5 ms after every exchange (R510). -/
def stringCycles (f : Bytes) : Nat := ((stringLine f).length * 32768 + 4999) / 5000

/-- A request sent, with the next sequence (R509). -/
def sendString (kind : Nat) (dst : BitVec 32) (payload : Bytes) (x : Str) : Str :=
  let f := stringFrame kind dst (x.seq + 1) payload
  { x with seq := x.seq + 1, sent := f, line := stringLine f }

/-- A frame for the T48 whose CRC, version and length are right (R509): kind, source, sequence, payload. -/
def parseString (f : Bytes) : Option (Nat × BitVec 32 × BitVec 8 × Bytes) :=
  let n := rd f 1 1
  if f.length = 14 + n ∧ n ≤ 48 ∧ rd f 0 1 / 16 = 1 ∧ rd f (12 + n) 2 = (crc16 (f.take (12 + n))).toNat ∧
      (rd f 2 4 = 0 ∨ rd f 2 4 = 0xFFFFFFFF) then
    some (rd f 0 1 % 16, BitVec.ofNat 32 (rd f 6 4), BitVec.ofNat 8 (rd f 10 1), (f.drop 12).take n)
  else none

/-- An optimiser put among the known ones, in ascending address order (07 Table 7.15). -/
def insertOpt (o : Optimiser) : List Optimiser → List Optimiser
  | [] => [o]
  | x :: xs => if o.addr.toNat < x.addr.toNat then o :: x :: xs else x :: insertOpt o xs

/-- The address is an optimiser's (R509). -/
def validAddr (a : BitVec 32) : Bool := a != 0 && a != 0xFFFFFFFF

/-- An optimiser of the list changed. -/
def modOpt (a : BitVec 32) (f : Optimiser → Optimiser) (l : List Optimiser) : List Optimiser :=
  l.map (fun o => if o.addr == a then f o else o)

/-- ENROL to an optimiser heard, and its ACK (R512), which is an answer; a string holds at most 31. -/
def enrol (life : Life) (h : BitVec 32 × Bool) (x : Str) : Str :=
  let a := h.1
  if !validAddr a then x
  else if x.known.any (fun o => o.addr == a) then
    let y := sendString 5 a [] x
    if h.2 then { y with known := modOpt a (fun o => { o with enrolled := true, lastAnswer := life }) y.known } else y
  else if x.known.length < 31 then
    let y := sendString 5 a [] x
    if h.2 then { y with known := insertOpt { addr := a, enrolled := true, lastAnswer := life } y.known } else y
  else x

/-- The known list as the configuration names it (R512): enrolled optimisers count while discovery is on. -/
def syncKnown (j : Fin 4) (s : State) : State :=
  let names := (cfgItems s.cfg s.fab (.str j .optimisers)).map (BitVec.ofNat 32)
  modStr j (fun x =>
    let kept := (x.known.map (fun o => { o with named := names.contains o.addr, enrolled := o.enrolled && cfgBool s.cfg s.fab (.str j .discover) })).filter (fun o => o.named || o.enrolled)
    let new := names.filter (fun a => validAddr a && !kept.any (fun o => o.addr == a))
    { x with known := new.foldl (fun l a => insertOpt { addr := a, named := true, lastAnswer := s.time.life } l) kept }) s

/-- The address, unit and string of a SunSpec device (Table 14.6): its text has them between commas. -/
def sunString (s : State) (k : Fin 8) : Option Nat :=
  match cfgVal s.cfg s.fab (.sunDev k) with
  | .text t => ((splitOn 0x2C t)[2]?).bind parseDec
  | _ => none

/-- A record of STRING_STATUS_GET (07 Table 7.15). -/
def stringRecord (addr mv ma : Int) (deciK flags : Nat) : Bytes :=
  u32 addr.toNat ++ i32 mv ++ i32 ma ++ u16 deciK ++ u16 flags

/-- The records of a string: its optimisers, then its SunSpec devices (R517). -/
def stringRecords (s : State) (j : Fin 4) : List Bytes :=
  (s.net.str[j]).known.map (fun o =>
    stringRecord o.addr.toNat o.mv o.ma o.deciK.toNat (o.flags.toNat ||| (b1 o.silent <<< 15))) ++
  ((List.finRange 8).filter (fun k => sunString s k == some j.val)).map (fun k =>
    let d := s.net.sun[k]
    let r := d.record.getD ⟨0, 0, 0, 0⟩
    stringRecord (0x80000000 + k.val) r.voltageMv r.currentMa r.deciK (b1 (decide (3 ≤ d.failed)) <<< 15))

/-- A point scaled by a power of ten, towards zero. -/
def scaleTen (v sf : Int) : Int := if 0 ≤ sf then v * 10 ^ sf.toNat else v.tdiv (10 ^ (-sf).toNat)

/-- A device's record from its points and scale factors (R517). -/
def sunScaled (p : SunPoints) : SunRecord :=
  { voltageMv := scaleTen p.volts (p.voltSf + 3), currentMa := scaleTen p.amps (p.ampSf + 3)
    powerMw := scaleTen p.watts (p.wattSf + 3), deciK := (scaleTen p.celsius (p.celsiusSf + 1) + 2731).toNat }

/-- The input of a channel in V: its newest sample of full scale (08 R286). -/
def channelVolts (s : State) (i : Channel) : Rat :=
  wordValue (portWord s.ch[i].appPort 0) * fullScale s.ch[i].cfg.range / 8388608

/-- A sum, and a mean towards zero. -/
def sumInt (l : List Int) : Int := l.foldl (· + ·) 0
def meanInt (l : List Int) : Int := if l.isEmpty then 0 else (sumInt l).tdiv l.length

/-- A string's voltage in mV and current in mA (R513). -/
def stringMv (s : State) (j : Fin 4) : Int :=
  match cfgOpt s.cfg s.fab (.str j .vChannel) with
  | some n => (channelVolts s (Fin.ofNat 48 n) * 1000).floor
  | none => sumInt ((s.net.str[j]).known.map Optimiser.mv)
def stringMa (s : State) (j : Fin 4) : Int :=
  match cfgOpt s.cfg s.fab (.str j .iChannel) with
  | some n => Config.stringMa (Fin.ofNat 48 n) (channelVolts s (Fin.ofNat 48 n))
  | none => meanInt ((s.net.str[j]).known.map Optimiser.ma)

/-! ### The keep-alive (R514, R515) -/

/-- The string's keep-alive may be sent: the string runs it and its key is `send`. -/
def keepAliveKey (s : State) (j : Fin 4) : Bool :=
  cfgBool s.cfg s.fab (.str j .enable) && cfgBool s.cfg s.fab (.str j .rsd)

/-- The keep-alive of a string goes silent, with one EV_RSD_STOPPED for each cause (R515, Table 14.9). (log 52, DESIGN CHOICE) -/
def silence (j : Fin 4) (causes : List Nat) (s : State) : State :=
  if !(s.net.str[j]).sending then s
  else s |> modStr j (fun x => { x with sending := false, silentSince := some s.time.life })
    |> forEach causes (fun c => raise .rsdStopped (u8 (2 ^ j.val) ++ u8 c))

/-! ### Power modules (R518 to R520) -/

/-- The outlet of a node (R519). -/
def nodeOutlet (s : State) (b : Fin 4) (n : Fin 32) : Option Outlet :=
  (cfgOpt s.cfg s.fab (.node b n)).map outletOfNum

/-- The mode, voltage target in mV, and current in mA that an outlet asks of its modules in the budget
(Table 14.5; 11 R404, R406, R409). -/
def outletDrive (s : State) (o : Outlet) : Nat × Int × Int :=
  let x := s.veh.out.get o
  if x.state = .insulation ∧ (x.insTest = .ramping ∨ x.insTest = .stable) then (1, x.testMv, 2000)
  else if x.state = .preCharge ∧ x.preMv.isSome then (1, (x.preMv.getD 0 : Nat), 2000)
  else if stateIn s o [.transfer, .paused, .stopping] then
    (2, ((x.veh.map VehLimits.targetMv).getD 0 : Nat), x.delivered)
  else (0, 0, 0)

/-- The part of an outlet's current that a module takes, in proportion to its available power (R519). -/
def moduleShare (s : State) (o : Outlet) (m : Module) (ma : Int) : Int :=
  let total : Nat := ((budgetModules s o).map (·.availW)).foldl (· + ·) 0
  if total = 0 then 0 else (ma * (m.availW : Int)).tdiv total

/-- A SETPOINT payload (Table 14.5). -/
def setpointFrame (mode : Nat) (seq : BitVec 8) (mv ma : Int) (w : Nat) : Bytes :=
  u8 mode ++ u8 seq.toNat ++ u16 0 ++ i32 mv ++ i32 ma ++ u32 w

/-- The SETPOINT of a node (R519, R520): mode 0 and zero limits outside the budget. -/
def nodeSetpoint (s : State) (b : Fin 4) (n : Fin 32) (seq : BitVec 8) : Bytes :=
  let m := (s.net.pm[b])[n]
  match m.state == 2, nodeOutlet s b n with
  | true, some o =>
    let (mode, mv, ma) := outletDrive s o
    if mode = 0 then setpointFrame 0 seq 0 0 0 else setpointFrame mode seq mv (moduleShare s o m ma) m.availW
  | _, _ => setpointFrame 0 seq 0 0 0

/-- The nodes of a bus to which SETPOINT goes: those assigned to an outlet, and those that have sent IDENT. -/
def busNodes (s : State) (b : Fin 4) : List (Fin 32) :=
  (List.finRange 32).filter (fun n => n.val != 0 && ((cfgOpt s.cfg s.fab (.node b n)).isSome || ((s.net.pm[b])[n]).state != 0))

/-- A module's state changed, which EV_POWER_MODULE reports (R520). -/
def moduleState (b : Fin 4) (n : Fin 32) (st : Nat) (s : State) : State :=
  if ((s.net.pm[b])[n]).state = st then s
  else s |> modPm b n (fun m => { m with state := st })
    |> raise .powerModule (u8 b.val ++ u8 n.val ++ u8 st)

/-- A module's loss acts on its outlet (Table 14.10): the capability falls at once; with every module of a DC
outlet lost the session ends. -/
def capabilityFell (o : Option Outlet) (s : State) : State :=
  match o with
  | none => s
  | some o =>
    if isDc s o ∧ (budgetModules s o).isEmpty then
      (if sessionOpen s o ∧ stateIn s o [.insulation, .preCharge, .transfer, .paused] then communicationEnd o s else s)
    else retarget o true s

/-- A module lost (R520). -/
def loseModule (b : Fin 4) (n : Fin 32) (s : State) : State :=
  let was := ((s.net.pm[b])[n]).state
  s |> modPm b n (fun m => { m with firstGood := false, cycleBegun := false })
    |> moduleState b n 0
    |> ifDo (was == 2) (capabilityFell (nodeOutlet s b n))

/-- Every power module lost (Table 14.10, PER; R534). -/
def loseModules (s : State) : State :=
  forEach (List.finRange 4) (fun b s => forEach (List.finRange 32) (fun n s => loseModule b n s) s) s

/-! ### The pair link (R522 to R526) -/

/-- The port of the pair link. -/
def pairPort (s : State) : Option (Fin 8) := (cfgOpt s.cfg s.fab (.gen .pairPort)).map (Fin.ofNat 8)

/-- The pair keys taken (Table 14.6: at the alone state or start). -/
def takePairKeys (s : State) : State :=
  let n := fun k => cfgNat s.cfg s.fab (.gen k)
  modPair (fun p => { p with priority := n .pairPriority, budgetKey := n .pairBudget, soloShare := n .soloShare
                             budget := n .pairBudget }) s

/-- The number of the role in frames and in responses (Table 14.7; 07 Table 7.15): alone counts as leader in
responses (R524). -/
def roleClaim : PairRole → Nat
  | .leader => 0
  | .follower => 1
  | .alone => 2
def roleNow : PairRole → Nat
  | .follower => 1
  | _ => 0

/-- EV_PAIR_ROLE with a cause (07 Table 7.21). -/
def pairRoleEvent (cause : Nat) (s : State) : State := raise .pairRole (u8 (roleNow s.net.pair.role) ++ u8 cause) s

/-- Power that the outlets ask for, and that they take, in W (R523, Table 14.7). -/
def requestW (s : State) : Nat :=
  (Outlet.all.map (fun o => if isActive s o then
    maToW s o (min (targetMa (s.veh.out.get o)) (ownLimitMa s o (s.veh.out.get o).exporting)) else 0)).foldl (· + ·) 0
def consumptionW (s : State) : Nat :=
  (Outlet.all.map (fun o => maToW s o (s.veh.out.get o).presentMa.natAbs)).foldl (· + ·) 0

/-- The two shares that the requests ask for (R523): own, then the peer's. -/
def splitBudget (budget own peer : Nat) : Nat × Nat :=
  let half := budget / 2
  let a := min own half
  let b := min peer half
  let rest := budget - (a + b)
  if peer < own then (a + min rest (own - a), b) else if own < peer then (a, b + min rest (peer - b)) else (a, b)

/-- The share that a module keeps until the budget has its one owner (R524). -/
def soloNow (p : Pair) : Nat := if p.budget < p.soloShare + p.peerSolo then p.budget / 2 else p.soloShare

/-- The pair link with the shares of the leader's next frame (R523): a fall acts at once, a rise once the other
module's consumption lies within its share; a reduction is pending until then. -/
def leaderShares (request consumption : Nat) (p : Pair) : Pair :=
  let fall := decide (p.budgetKey < p.budget)
  let p := { p with budget := p.budgetKey, protective := fall }
  if !p.owns then { p with ownShare := min p.ownShare (soloNow p), peerShare := 0, reduction := false }
  else
    let want := if p.peerIdle then (min request p.budget, 0) else splitBudget p.budget request p.peerRequest
    let peer0 := min p.peerShare want.2
    let own0 := min p.ownShare want.1
    let own := if p.ownShare < want.1 ∧ p.peerConsumption ≤ peer0 then min want.1 (p.budget - peer0) else own0
    let peer := if p.peerShare < want.2 ∧ consumption ≤ own then min want.2 (p.budget - own) else peer0
    { p with ownShare := own, peerShare := peer
             reduction := decide (peer < p.peerConsumption) || decide (own < consumption) }

/-- A pair frame (Table 14.7). -/
def pairFrame (id : BitVec 64) (p : Pair) (f : BitVec 32) (idle ask : Bool) (named : Option (BitVec 32))
    (request consumption : Nat) : Bytes :=
  let leads := p.role == .leader
  let body := u8 1 ++ u8 (roleClaim p.role)
    ++ u16 (b1 ask + 2 * b1 named.isSome + 4 * b1 idle + 8 * b1 (leads && p.reduction) + 16 * b1 (leads && p.protective))
    ++ u32 f.toNat ++ beBytes 8 id.toNat ++ u16 p.priority ++ u16 0 ++ u32 (named.getD 0).toNat ++ u32 p.budget
    ++ u32 (if leads then p.peerShare else if idle then 0 else request) ++ u32 (if leads then p.ownShare else 0)
    ++ u32 consumption ++ u32 p.soloShare
  body ++ u32 (crc32c body).toNat

/-- The commands that wait for a swap complete (R525, R530). -/
def answerSwaps (st : Status) (s : State) : State :=
  s |> forEach s.net.pair.waiting (fun w s => completeRunning st (if st = .ok then u8 (roleNow s.net.pair.role) ++ [0, 0, 0] else []) w.mb s)
    |> modPair (fun p => { p with waiting := [] })

/-- The module wins against the peer (R524, R530): the higher priority, then the lower identity. -/
def wins (s : State) : Bool :=
  let p := s.net.pair
  decide (p.peerPriority < p.priority) ||
    (p.priority == p.peerPriority && decide (s.fab.deviceId.toNat < (p.known.getD 0).toNat))

/-- A swap may be asked for in link frame `f` (R530). -/
def mayAsk (p : Pair) (f : BitVec 32) : Bool :=
  match p.retryFrame with
  | none => true
  | some r => decide ((f - r).toNat < 2 ^ 31)

/-- The share changes, which act on the outlets' limits (R523): a protective fall as a safety reduction. -/
def setShare (w : Nat) (safety : Bool) (s : State) : State :=
  if s.net.pair.ownShare = w then s else s |> modPair (fun p => { p with ownShare := w }) |> retargetAll safety

/-- The swap carried out (R525): roles change, commands complete, EV_PAIR_ROLE follows. -/
def swapRoles (s : State) : State :=
  let leads := s.net.pair.role == .leader
  s |> modPair (fun p => { p with role := if leads then .follower else .leader, owns := !leads, ceding := leads, swapAsked := false
                                  askedIn := none, peerAsked := none, reduction := false, protective := false
                                  retryFrame := none })
    |> answerSwaps .ok
    |> pairRoleEvent 1

/-- A frame sent on the pair port. -/
def sendPair (frame : Bytes) (s : State) : State :=
  let t := modPair (fun p => { p with sent := frame }) s
  match pairPort s with
  | none => t
  | some p => enqueue p .session frame t

/-- The leader's next frame, or that of a module that is alone (R522, R523, R525). -/
def sendLeading (s : State) : State :=
  let f := s.net.pair.frame + 1
  let old := s.net.pair
  let p := if old.role = .leader ∧ old.handover = none then leaderShares (requestW s) (consumptionW s) old else old
  let may := p.role == .leader && p.handover.isNone && mayAsk p f && p.swapAsked
  let ask := may && !p.reduction
  let named := if ask then some (f + 2) else match p.handover with
    | some h => if h = f then none else some h
    | none => none
  let frame := pairFrame s.fab.deviceId p f false ask named (requestW s) (consumptionW s)
  s |> modPair (fun _ => { p with frame := f, handover := named, swapAsked := p.swapAsked && !may
                                  askedIn := if ask then some f else p.askedIn
                                  waiting := if ask then p.waiting.map (fun w => { w with sentIn := some f }) else p.waiting })
    |> sendPair frame
    |> ifDo (may && p.reduction) (answerSwaps .state)
    |> ifDo (p.ownShare != old.ownShare) (retargetAll p.protective)

/-- The follower's frame (R522, R525, R530): it answers the leader's, and in frame H it names H. A request in
the frame in which the leader asks as well collides. -/
def sendFollowing (idle : Bool) (s : State) : State :=
  let p := s.net.pair
  let atH := p.ceding
  let f := if atH then p.handover.getD 0 else p.lastFrame.getD 0
  let ask := !atH && p.swapAsked && mayAsk p f
  let lose := ask && p.peerAsked == some f && !wins s
  let frame := pairFrame s.fab.deviceId p f idle ask (if atH then p.handover else none) (requestW s) (consumptionW s)
  s |> modPair (fun p => { p with frame := f, swapAsked := p.swapAsked && !ask
                                  askedIn := if ask then some f else p.askedIn
                                  handover := if atH || lose then none else p.handover, ceding := false
                                  retryFrame := if lose then some (f + 3) else p.retryFrame
                                  waiting := if ask then p.waiting.map (fun w => { w with sentIn := some f }) else p.waiting })
    |> sendPair frame
    |> ifDo lose (answerSwaps .swapCollision)

/-- What a valid pair frame carries (Table 14.7). -/
structure PairIn where
  role : Nat
  flags : BitVec 16
  number : BitVec 32
  id : BitVec 64
  priority : Nat
  handover : BitVec 32
  budget : Nat
  share : Nat
  own : Nat
  consumption : Nat
  solo : Nat

/-- A frame whose CRC, version, identity and number are right (R522). -/
def parsePair (s : State) (f : Bytes) : Option PairIn :=
  let p := s.net.pair
  let id := BitVec.ofNat 64 (beNat ((f.drop 8).take 8))
  let number := BitVec.ofNat 32 (rd f 4 4)
  let idOk : Bool := id != s.fab.deviceId && (match p.peer with
    | none => true
    | some q => q == id)
  let numberOk : Bool := match p.lastFrame with
    | none => true
    | some l => decide (1 ≤ (number - l).toNat) && decide ((number - l).toNat ≤ 20)
  if f.length = 48 ∧ rd f 44 4 = (crc32c (f.take 44)).toNat ∧ rd f 0 1 = 1 ∧ rd f 1 1 < 3 ∧ idOk ∧ numberOk then
    some { role := rd f 1 1, flags := BitVec.ofNat 16 (rd f 2 2), number, id, priority := rd f 16 2
           handover := BitVec.ofNat 32 (rd f 20 4), budget := rd f 24 4, share := rd f 28 4, own := rd f 32 4
           consumption := rd f 36 4, solo := rd f 40 4 }
  else none

/-- The module takes a role at the start of a pair (R524): it stays within its solo share. -/
def takeRole (r : PairRole) (s : State) : State :=
  let share := if r = .leader then soloNow s.net.pair else s.net.pair.soloShare
  s |> modPair (fun p => { p with role := r, owns := false, lostAt := none, peerShare := 0 })
    |> setShare (min s.net.pair.ownShare share) true
    |> pairRoleEvent 0

/-- A module that leads takes a frame of its peer (R523 to R525, R530). (log 50, DEDUCED) -/
def leaderTakes (x : PairIn) (s : State) : State :=
  let p := s.net.pair
  if x.role = 1 then
    let asks := x.flags.getLsbD 0
    let collide := asks && p.askedIn == some x.number
    s |> modPair (fun p => { p with owns := true })
      |> fun t =>
        if collide then
          (if wins t then t |> modPair (fun p => { p with handover := none }) |> answerSwaps .ok
           else t |> modPair (fun p => { p with retryFrame := some (x.number + 3) }) |> answerSwaps .swapCollision)
        else if asks && p.handover.isNone && !p.reduction then modPair (fun p => { p with handover := some (x.number + 2) }) t
        else t
  else if x.role = 2 then s |> modPair (fun p => { p with owns := false, peerShare := 0 }) |> setShare (min p.ownShare (soloNow p)) true
  else if wins s then s
  else takeRole .follower s

/-- A follower takes a frame of its peer (R523, R525): the shares and the handover of the leader's, or the
handover that the old leader's frame H names. -/
def followerTakes (x : PairIn) (s : State) : State :=
  let p := s.net.pair
  let named := x.flags.getLsbD 1
  if x.role = 0 then
    let refused := p.waiting.any (fun w => match w.sentIn with
      | some f => decide (1 ≤ (x.number - f).toNat) && decide ((x.number - f).toNat ≤ 20)
      | none => false) && !named
    s |> modPair (fun p => { p with handover := if named then some x.handover else none, budget := x.budget, peerShare := x.own
                                    peerAsked := if x.flags.getLsbD 0 then some x.number else none })
      |> setShare x.share (x.flags.getLsbD 4)
      |> ifDo refused (answerSwaps .state)
  else if x.role = 1 ∧ named then
    s |> modPair (fun p => { p with frame := x.number, handover := none }) |> swapRoles
  else s

end Sys2Proof.Machine
end

