-- ==== Sys2Proof/Machine/Ports.lean ====
section
/-! DEFINITION. The rows of the peripheral serial ports and the general-purpose pins (17; 07 Table 7.18). -/

namespace Sys2Proof.Machine

/-- Bits per clock of a width code of the widths byte (17 Table 17.1, 06 Table 6.2). -/
def pspBits (code : Nat) : Nat := 2 ^ (code % 4)

/-- The divisor of a requested clock: the highest frequency 400,000 kHz / k at or below it (R599). -/
def pspDivisor (kHz : Nat) : Nat := (400000 + kHz - 1) / kHz

/-- The clocks of a transfer that waits for `busy` busy groups (R602): transmit, turnaround, the groups and
the marker, receive; or both ways together. -/
def pspClocks (t : Transfer) (marker : Bool) (busy : Nat) : Nat :=
  let n := t.data.length
  if t.fdx then max n t.receive * 8
  else
    let tx := if n = 0 then 0 else if t.firstX1 then 8 + (n - 1) * 8 / t.txBits else n * 8 / t.txBits
    let turn := if n ≠ 0 ∧ t.receive ≠ 0 then 1 else 0
    let wait := if marker ∧ t.receive ≠ 0 then (busy + 1) * 8 else 0
    tx + turn + wait + t.receive * 8 / t.rxBits

/-- The select of a transfer that has become the first of its queue is asserted, unless another port's
running transfer that was taken up before it holds the pin (Table 17.5). -/
def mayRun (s : State) (p : Fin 3) (t : Transfer) : Bool :=
  t.select.isNone || (List.finRange 3).all (fun q => q == p ||
    ((runningTransfer s q).map (fun u => u.select != t.select || decide (t.ticket < u.ticket))).getD true)

/-- The transfers that may run assert their selects. -/
def startTransfers (s : State) : State :=
  forEach (List.finRange 3) (fun p s =>
    match runningTransfer s p with
    | none => s
    | some t => ifDo (mayRun s p t) (driveSelect t true) s) s

/-- The transfer that runs on a port ends (R602 step 6): its select is released, its command completes, and
keys that waited for it take effect (Table 17.5). -/
def endTransfer (p : Fin 3) (t : Transfer) (st : Status) (resp : Bytes) (s : State) : State :=
  s |> driveSelect t false
    |> modPsp p (fun x => { x with queue := x.queue.drop 1 })
    |> applyPins
    |> completeRunning st resp t.host
    |> startTransfers

/-- PSP_TRANSFER (07 Table 7.18; R598 to R607): taken up, and completed by its run. -/
def execPspTransfer (mb : Mailbox) (s : State) : Out :=
  .next (runCommand .pspTransfer mb (fun b s =>
    let port := rd b 0 1
    let p : Fin 3 := Fin.ofNat 3 port
    let sel := rd b 1 1
    let pin : Fin 64 := Fin.ofNat 64 sel
    let active := rd b 2 1
    let w := BitVec.ofNat 8 (rd b 3 1)
    let t := rd b 4 2
    let r := rd b 6 2
    let clock := rd b 8 4
    let tx := pspBits (rd b 3 1)
    let rx := pspBits (rd b 3 1 / 4)
    let fdx := w.getLsbD 4
    let keys := (s.pins.psp[p]).keys
    let named := decide (sel < 64)
    let wide := fun (n : Nat) => decide (max keys.lanes 1 < n)
    guards [
      (decide (port < 3) && (!keys.enable || domainOut s .per), .state),
      (named && s.pins.fn[pin] != .select && !pinOwned s pin, .state),
      (decide (2 < port), .argRange),
      (!named && sel != 0xFF, .argRange),
      (decide (1 < active) || (named && s.pins.fn[pin] == .select && !pinOwned s pin && (active == 1) == s.pins.level.getLsbD sel), .argRange),
      (wide tx || wide rx || (fdx && (tx != 1 || rx != 1 || w.getLsbD 5)), .argRange),
      (decide (500 < t) || decide (500 < r), .argRange),
      (clock == 0 || decide (50000 < clock), .argRange),
      (named && pinOwned s pin, .gpOwned)] s <|
      if t = 0 ∧ r = 0 then ok [] s
      else
        .defer (s
          |> modPsp p (fun x => { x with queue := x.queue ++ [{
                host := mb, ticket := s.pins.tickets, select := if named then some pin else none, active := active == 1
                txBits := tx, rxBits := rx, fdx, firstX1 := w.getLsbD 5, receive := r, k := pspDivisor clock
                data := (b.drop 12).take t }] })
          |> modPins (fun x => { x with tickets := x.tickets + 1 })
          |> startTransfers)) s)

/-- The transfer waits for the ready marker (R602 step 4). -/
def waitsMarker (k : PspKeys) (t : Transfer) : Bool := k.marker && t.receive != 0 && !t.fdx

/-- A group of 8 clocks is the ready marker: every active receive lane carries the ready byte in it (R604). -/
def isMarker (k : PspKeys) (t : Transfer) (group : Bytes) : Bool :=
  group.length == t.rxBits && group.all (fun b => b == BitVec.ofNat 8 k.readyByte)

/-- The groups that `n` groups of 8 clocks reach the busy wait's timeout with (R605): a group lasts `k` / 50 µs. -/
def waitOut (k : PspKeys) (t : Transfer) (n : Nat) : Bool := decide (50 * k.timeoutUs ≤ n * t.k)

/-- The busy groups before the marker among what the receive lanes carried (R604), where it came before the timeout passed. -/
def busyBefore (k : PspKeys) (t : Transfer) (groups : List Bytes) : Option Nat :=
  (groups.findIdx? (isMarker k t)).bind (fun n => if waitOut k t (n + 1) && 50 * k.timeoutUs != (n + 1) * t.k then none else some n)

/-- The time of a transfer in ps (R599, R603, R606): its clocks, and the select's lead and lag of a clock or 40 ns each. -/
def transferPs (t : Transfer) (clocks : Nat) : Nat := clocks * t.k * 2500 + 2 * max (t.k * 2500) 40000

/-- The bytes that a transfer sends (R602): with full duplex, 0x00 after its own. -/
def sentBytes (t : Transfer) : Bytes := if t.fdx then padTo (max t.data.length t.receive) t.data else t.data

/-- The lanes of a width, highest first, that the port drives, and that it samples (R597): in x1 lane 0, and lane 1. -/
def pspOut (width : Nat) : List Nat := if width = 1 then [0] else (List.range width).reverse
def pspIn (width : Nat) : List Nat := if width = 1 then [1] else (List.range width).reverse

/-- The bits of bytes, most significant first, on lanes, clock by clock (R597). -/
def pspClocked (lanes : List Nat) (b : Bytes) : List (List (Nat × Bool)) :=
  let bits := b.flatMap (fun x => (List.range 8).map (fun i => x.getMsbD i))
  (List.range (bits.length / lanes.length)).map (fun i => lanes.zip (bits.drop (i * lanes.length)))

/-- The lanes clock by clock as a transfer drives them (R601, R602): its first byte in x1 where the command says so. -/
def drivenLanes (t : Transfer) : List (List (Nat × Bool)) :=
  let b := sentBytes t
  if t.firstX1 then pspClocked (pspOut 1) (b.take 1) ++ pspClocked (pspOut t.txBits) (b.drop 1) else pspClocked (pspOut t.txBits) b

/-- The bytes that the sampled lanes carried, clock by clock (R597, R602): those that the command asks for. -/
def receivedBytes (t : Transfer) (clocks : List (List (Nat × Bool))) : Bytes :=
  let bits := clocks.flatMap (fun c => (pspIn t.rxBits).map (fun l => ((c.find? (fun p => p.1 == l)).map Prod.snd).getD false))
  (List.range t.receive).map (fun i => BitVec.ofNat 8 (((bits.drop (8 * i)).take 8).foldl (fun n b => 2 * n + b1 b) 0))

/-- A transfer runs through its phases after so many busy groups (R602, R606). -/
def runTransfer (port : Fin 3) (t : Transfer) (busy : Nat) (clocks : List (List (Nat × Bool))) (s : State) : State :=
  let n := pspClocks t (s.pins.psp[port]).keys.marker busy
  s |> modPsp port (fun x => { x with lastK := t.k, lastClocks := n, lastPs := transferPs t n, lastLanes := drivenLanes t })
    |> endTransfer port t .ok (receivedBytes t clocks)

/-- A transfer runs to its end (R602, R606), with what the receive lanes carried in the groups of the busy wait, and clock by clock
in the receive phase: it answers the command. Without a marker the busy wait runs out (R605). -/
def execPspTransferRun (port : Fin 3) (groups : List Bytes) (clocks : List (List (Nat × Bool))) (s : State) : Out :=
  .next (
    match runningTransfer s port with
    | none => s
    | some t =>
      let k := (s.pins.psp[port]).keys
      if !mayRun s port t then s
      else if !waitsMarker k t then runTransfer port t 0 clocks s
      else
        match busyBefore k t groups with
        | some n => runTransfer port t n clocks s
        | none => ifDo (waitOut k t groups.length) (endTransfer port t .pspBusyTimeout []) s)

/-- The busy wait passes its timeout (R605). -/
def execPspBusyTimeout (port : Fin 3) (s : State) : Out :=
  .next (
    match runningTransfer s port with
    | none => s
    | some t =>
      ifDo (mayRun s port t && waitsMarker (s.pins.psp[port]).keys t)
        (endTransfer port t .pspBusyTimeout []) s)

/-- The ports stop (R615, R616): their transfers complete with a status, the selects return to idle, and keys that waited
take effect (Table 17.5). -/
def stopPorts (st : Status) (s : State) : State :=
  forEach (List.finRange 3) (fun p s =>
    let q := (s.pins.psp[p]).queue
    s |> forEach q (fun t s => s |> driveSelect t false |> completeRunning st [] t.host)
      |> modPsp p (fun x => { x with queue := [] })
      |> applyPins) s

/-- GPIO_SET (07 Table 7.18; R608). -/
def execGpioSet (mb : Mailbox) (s : State) : Out :=
  .next (runCommand .gpioSet mb (fun b s =>
    let mask := BitVec.ofNat 64 (rd b 0 8)
    let levels := BitVec.ofNat 64 (rd b 8 8)
    let pins := (List.finRange 64).filter (fun i => mask.getLsbD i.val)
    guards [(pins.any (fun i => s.pins.fn[i] == .select || pinOwned s i), .gpOwned)] s <|
      ok [] (modPins (fun x => { x with out := pins.foldl (fun w i =>
        if x.fn[i] = .out ∨ x.fn[i] = .od then setPin w i (levels.getLsbD i.val) else w) x.out }) s)) s)

/-- Whether a pin drives its land at this moment (R610). -/
def pinDrives (s : State) (i : Fin 64) : Bool :=
  match (modulePins s.cfg s.fab).find? (fun p => p.2 == i.val) with
  | some p => p.1 == .testGp || p.1 == .readerSelect
  | none =>
    match s.pins.fn[i] with
    | .out | .select => true
    | .od => !s.pins.out.getLsbD i.val
    | _ => false

/-- GPIO_GET (07 Table 7.18; R610): the levels at the lands, and the pins that drive. -/
def execGpioGet (mb : Mailbox) (levels : BitVec 64) (s : State) : Out :=
  .next (runCommand .gpioGet mb (fun _ s =>
    ok (u64 levels.toNat ++ u64 ((List.finRange 64).foldl (fun n i => n + b1 (pinDrives s i) <<< i.val) 0)) s) s)

/-- An edge on a wake pin, with its 1 ms of steady level (R609): in RUN it raises nothing. -/
def execGpWakeEdge (pin : Fin 64) (rising : Bool) (s : State) : Out :=
  when_ (decide (56 ≤ pin.val)) (
    let i := pin.val - 56
    let w := s.wch.settings
    ifDo ((s.pwr.state == .idle || s.pwr.idleEntry) && w.wakePins.getLsbD i && (if rising then w.wakeRising.getLsbD i else w.wakeFalling.getLsbD i))
      (fireWake 5) s)

end Sys2Proof.Machine
end

