-- ==== Sys2Proof/Machine/CoreOps.lean ====
section
/-! DEFINITION. The core reset of the application cores (01 R47; 06 Table 6.7, R236; 11 R421). -/

namespace Sys2Proof.Machine

/-- Every command PENDING or RUNNING completes with ST_ABORTED and RLEN 0, and nothing waits for one any more. -/
def abortCommands (s : State) : State :=
  s |> forEach (List.finRange 8) (fun mb s =>
        if s.mbx.cmd[mb].state = .pending ∨ s.mbx.cmd[mb].state = .running then complete mb .aborted [] s else s)
    |> (fun s => { s with mbx := { s.mbx with order := [] } })
    |> modTb (fun b => { b with waiting := [] })
    |> modWeave (fun w => { w with syncWaiting := [] })
    |> modPair (fun p => { p with waiting := [], swapAsked := false })
    |> forEach allDrivers (fun d => modDrv d (fun r => { r with askers := [] }))

/-- Queued and presented events discarded and counted (06 Table 6.7, R228). -/
def discardEvents (s : State) : State :=
  let n := s.mbx.queue.length + (s.mbx.evt.toList.filter EvtBox.full).length
  loseEvents n { s with mbx := { s.mbx with queue := [], evt := s.mbx.evt.map (fun e => { e with full := false }) } }

/-- What the cores hold of a session: with coil drive in use it ends with the reason "controller restart" (11
R421); before that the restarted application finds the vehicle plugged and begins anew. -/
def restartSession (o : Outlet) (s : State) : State :=
  if stateIn s o [.insulation, .preCharge, .transfer, .paused, .stopping] then enterFault o .controllerRestart s
  else if stateIn s o [.plugged, .authorising, .negotiating] then
    s |> modOut o clearSession |> enter o .idle .none |> plugIn o
  else modOut o (fun x => if x.state = .idle then clearSession x else x) s

/-- What the cores hold of the networks: modules, the pair link's role and the polls under way (14 R533). -/
def restartNet (s : State) : State :=
  s |> loseModules
    |> modNet (fun n => { n with
          str := n.str.map (fun x => { x with attempt := none, rounds := 0 }), sun := Vector.replicate 8 {}, pair := {} })
    |> takePairKeys
    |> modPair (fun p => { p with ownShare := p.soloShare })

/-- A core reset of the application cores: the partition's volatile state is lost and the cores restart. Under a
trial it is carried out as RST_N (19 R663). (log 57, DEDUCED) -/
def appReset (s : State) : State :=
  if s.hif.trial then resetBase s
  else
    s |> stopPorts .aborted
      |> abortCommands
      |> discardEvents
      |> (fun s => { s with mbx := { s.mbx with
            win := [], badWords := [], cmd := s.mbx.cmd.map (fun b => { b with kept := none }) } })
      |> withdraw allDrivers [.app] causeSession
      |> forEach Outlet.all restartSession
      |> requeue
      |> (fun s => { s with svc := { resetSvc s.svc with solar := s.svc.solar.map (fun x => { mode := x.mode, minMa := x.minMa }) } })
      |> ifDo s.svc.connected connectionEvent
      |> restartNet
      |> (fun s => { s with
            run := { s.run with staging := [] }, ch := s.ch.map (fun c => { c with appPort := {} })
            net := { s.net with port := s.net.port.map (fun p => { p with
              sending := none, safety := [], session := [], telemetry := [], held := [], taken := [] }), telOrder := [] } })

/-- The application cores run or are to run: the application island is powered. -/
def coresPowered (s : State) : Bool := s.pwr.state == .run && !s.pwr.inReset && s.pwr.appIsland

end Sys2Proof.Machine
end

