-- ==== Sys2Proof/Machine/KeyOps.lean ====
section
/-! DEFINITION. Lifecycle, key slots and key envelopes (18). -/

namespace Sys2Proof.Machine

/-- The key store changed; the engine's and the debug port's state changed. -/
def modKeys (f : KeyStore → KeyStore) (s : State) : State := { s with keys := f s.keys }
def modKey (f : KeyRun → KeyRun) (s : State) : State := { s with key := f s.key }

/-- The lifecycle's code (18 Table 18.5, R631): a state is reached when either of its bits reads blown. -/
def lifecycle (s : State) : Nat :=
  if s.keys.retired != 0 then 3 else if s.keys.field != 0 then 2 else if s.keys.provisioned != 0 then 1 else 0

/-- The codes of slot states and of bindings (07 KEY_SLOT_STATUS_GET). -/
def keyStateCode : KeyState → Nat
  | .empty => 0
  | .valid => 1
  | .orphaned => 2
  | .failed => 3

/-- A slot is valid. -/
def slotValid (k : KeyStore) (i : Fin 64) : Bool := k.slots[i].state == .valid

/-- A slot descends from slot `x`: it is derived, and its parent is `x` or descends from it (18 R630). -/
def descends (k : KeyStore) (x : Fin 64) : Nat → Fin 64 → Bool
  | 0, _ => false
  | n + 1, y =>
    let r := k.slots[y]
    r.derived && decide (r.parent < 64) && (decide (r.parent = x.val) || descends k x n (Fin.ofNat 64 r.parent))

/-- The level of a slot below the root (18 Table 18.7): a written slot starts a chain of its own. -/
def keyDepth (k : KeyStore) : Nat → Fin 64 → Nat
  | 0, _ => 0
  | n + 1, y =>
    let r := k.slots[y]
    if !r.derived then 0 else if r.parent < 64 then keyDepth k n (Fin.ofNat 64 r.parent) + 1 else 1

/-- Every slot that descends from `x` is orphaned (18 R628, R630). -/
def orphanBelow (x : Fin 64) (k : KeyStore) : KeyStore :=
  { k with slots := Vector.ofFn (fun i => if descends k x 64 i then { k.slots[i] with state := .orphaned } else k.slots[i]) }

/-- Operation 3 (18 R630): the slot and its descendants become orphaned. -/
def unpick (x : Fin 64) (k : KeyStore) : KeyStore :=
  let t := orphanBelow x k
  { t with slots := vmod t.slots x (fun r => { r with state := .orphaned }) }

/-- A slot written or derived: it replaces its earlier content, whose descendants are orphaned (18 R628). -/
def putSlot (x : Fin 64) (r : KeySlot) (k : KeyStore) : KeyStore :=
  let t := orphanBelow x k
  { t with slots := vmod t.slots x (fun _ => r) }

/-- Bytes of material of a kind (18 Table 18.2). -/
def materialOk (kind n : Nat) : Bool :=
  match kind with
  | 1 | 2 | 3 => n == 32
  | 4 => n == 48
  | 5 => n == 65
  | 6 => n == 97
  | 7 => 1 ≤ n && n ≤ 128
  | _ => false

/-- The usage bits of a kind (18 R623); bit 7 is reserved. -/
def usageOk (kind : Nat) (usage : BitVec 8) : Bool :=
  let allowed : BitVec 8 :=
    match kind with
    | 1 => 0x84
    | 2 => 0x88
    | 3 | 4 => 0x83
    | 5 => 0x90
    | 6 => 0xB0
    | 7 => 0xC0
    | _ => 0x80
  usage &&& ~~~allowed == 0

/-- An operation of an envelope in plaintext (18 Table 18.4). -/
structure EnvOp where
  op : Nat
  slot : Nat
  parent : Nat
  binding : Nat
  kind : Nat
  usage : BitVec 8
  target : Nat
  data : Bytes
  deriving DecidableEq, Repr

/-- `n` operations read; what does not end with the last of them does not parse (18 R627 check 1). -/
def parseOps : Nat → Bytes → Option (List EnvOp)
  | 0, b => if b.isEmpty then some [] else none
  | n + 1, b =>
    let len := rd b 6 2
    if b.length < 16 + len then none
    else
      let o : EnvOp := {
        op := rd b 0 1, slot := rd b 1 1, parent := rd b 2 1, binding := rd b 3 1, kind := rd b 4 1
        usage := BitVec.ofNat 8 (rd b 5 1), target := rd b 8 1, data := (b.drop 16).take len }
      (parseOps n (b.drop (16 + len))).map (fun l => o :: l)

/-- The store and the lifecycle authorisation as the operations leave them. -/
structure EnvState where
  keys : KeyStore
  auth : Option (Nat × Life)
  deriving DecidableEq, Repr

/-- A module slot, which no envelope names outside MANUFACTURE (18 R621). -/
def moduleSlot (man : Bool) (n : Nat) : Bool := !man && decide (n < 8)

/-- One operation checked and applied (18 R627 checks 5 and 6, R628). -/
def applyOp (man : Bool) (life : Life) (o : EnvOp) (e : EnvState) : Except Status EnvState :=
  let x : Fin 64 := Fin.ofNat 64 o.slot
  if o.op = 4 then
    if o.slot ≠ 0xFF ∨ (o.target ≠ 2 ∧ o.target ≠ 3) ∨ !o.data.isEmpty then .error .envFormat
    else .ok { e with auth := some (o.target, life) }
  else if moduleSlot man o.slot then .error .notPermitted
  else if 64 ≤ o.slot ∨ o.target ≠ 0 then .error .envFormat
  else
    match o.op with
    | 1 =>
      if materialOk o.kind o.data.length && usageOk o.kind o.usage then
        .ok { e with keys := putSlot x { state := .valid, kind := o.kind, usage := o.usage, data := o.data } e.keys }
      else .error .envFormat
    | 2 =>
      let p : Fin 64 := Fin.ofNat 64 o.parent
      let root := o.parent = 0xFF
      if !root && moduleSlot man o.parent then .error .notPermitted
      else if !(1 ≤ o.kind && o.kind ≤ 4) || !usageOk o.kind o.usage || decide (64 < o.data.length) ||
          !(o.binding == 0 || o.binding == 2) || (!root && decide (64 ≤ o.parent)) then .error .envFormat
      else if !root && e.keys.slots[p].state == .failed then .error .keySlotFailed
      else if !root && (!slotValid e.keys p || e.keys.slots[p].kind != 2 || !e.keys.slots[p].usage.getLsbD 3
          || p == x || descends e.keys x 64 p || decide (8 < keyDepth e.keys 64 p + 1)) then .error .envFormat
      else .ok { e with keys := putSlot x { state := .valid, kind := o.kind, usage := o.usage, derived := true, parent := o.parent, binding := o.binding, data := o.data } e.keys }
    | 3 => if o.data.isEmpty then .ok { e with keys := unpick x e.keys } else .error .envFormat
    | _ => .error .envFormat

/-- The operations in order; the first that fails fails the envelope (18 R628). -/
def applyOps (man : Bool) (life : Life) : List EnvOp → EnvState → Except Status EnvState
  | [], e => .ok e
  | o :: os, e =>
    match applyOp man life o e with
    | .error st => .error st
    | .ok e' => applyOps man life os e'

/-- A 64-bit mask of slots. -/
def slotMask (p : Fin 64 → Bool) : Nat := (List.finRange 64).foldl (fun n i => n + b1 (p i) <<< i.val) 0

/-- An envelope opened (18 R626): whether its tag is right, and the bytes of its operations. -/
def openEnvelope (env : Bytes) (s : State) : Bool × Bytes :=
  gcmOpen (hkdf sha256Of ((env.drop 8).take 12) (slotKey s 2) (str "IKEV envelope") 32) ((env.drop 20).take 12) (env.take 32) (env.drop 32)

/-- An envelope checked and applied whole (18 R627, R628): the status, the response and the state. -/
def applyEnvelope (env : Bytes) (s : State) : Status × Bytes × State :=
  let count := rd env 6 1
  let opened := openEnvelope env s
  let ops := parseOps count opened.2
  if lifecycle s = 3 then (.notPermitted, [], s)
  else if rd env 0 4 ≠ 0x56454B49 ∨ rd env 4 2 ≠ 1 ∨ count = 0 ∨ 16 < count ∨ ops.isNone ∨ opened.2.length + 48 ≠ env.length then
    (.envFormat, [], s)
  else if beNat ((env.drop 8).take 8) ≠ s.fab.deviceId.toNat then (.envDevice, [], s)
  else if !s.keys.counterOk then (.keySlotFailed, [], s)
  else if rd env 16 4 ≤ s.keys.counter.toNat then (.envCounter, [], s)
  else if !slotValid s.keys 2 then (.keySlotFailed, [], s)
  else if !opened.1 then (.envSignature, [], s)
  else
    match applyOps (lifecycle s == 0) s.time.life (ops.getD []) { keys := s.keys, auth := s.key.auth } with
    | .error st => (st, [], s)
    | .ok e =>
      let k := { e.keys with counter := BitVec.ofNat 32 (rd env 16 4) }
      (.ok, u32 k.counter.toNat ++ u64 (slotMask (fun i => s.keys.slots[i] != k.slots[i])),
        s |> modKeys (fun _ => k) |> modKey (fun r => { r with auth := e.auth }))

/-- A key word's action (06 Table 6.5): the upper half, and one of the codes listed. -/
def keyWord (upper n : Nat) (w : Word32) : Option Nat :=
  if w.toNat / 65536 = upper ∧ 1 ≤ w.toNat % 65536 ∧ w.toNat % 65536 ≤ n then some (w.toNat % 65536) else none

/-- The outcome of a trigger reported (06 R233). -/
def triggerDone (w : Word32) (st : Status) : State → State := raise .triggerDone (u32 w.toNat ++ u16 st.code.toNat)

/-- An operation 4 for the target within the last 60 s (18 R632). -/
def lcAuthorised (s : State) (target : Nat) : Bool :=
  match s.key.auth with
  | some (t, l) => t == target && decide ((s.time.life - l).toNat ≤ 60 * 32768)
  | none => false

/-- The conditions of a lifecycle request (18 R632). -/
def lcAllowed (s : State) (target : Nat) : Bool :=
  let now := lifecycle s
  match target with
  | 1 => now == 0 && [0, 1, 2, 3, 4].all (slotValid s.keys) && s.legal.fault != some 0
  | 2 => now == 1 && lcAuthorised s 2 && !anySession s && s.time.valid
  | _ => now == 0 || ((now == 1 || now == 2) && lcAuthorised s 3 && !anySession s)

/-- Both bits of a state blown (18 R631, R632). -/
def blow (target : Nat) (k : KeyStore) : KeyStore :=
  match target with
  | 1 => { k with provisioned := 3 }
  | 2 => { k with field := 3 }
  | _ => { k with retired := 3 }

/-- Entry into RETIRED (18 R633): every slot is unpicked, the operator connection closes, and the post is out of service. -/
def retire (s : State) : State :=
  s |> modKeys (fun k => { k with slots := k.slots.map (fun r => { r with state := .orphaned }) })
    |> loseConnection
    |> modSvc (fun v => { v with waitMs := 0 })
    |> showOutOfService

/-- A lifecycle request (18 R632). -/
def lcRequest (target : Nat) (w : Word32) (s : State) : State :=
  if lcAllowed s target then
    s |> modKeys (blow target)
      |> ifDo (target == 3) retire
      |> modKey (fun r => { r with auth := none, debugOpen := false, challenge := none })
      |> raise .lifecycleChanged (u8 target)
      |> triggerDone w .ok
  else triggerDone w .lcRefused s

/-- The operation is one that the slot's kind and usage allow (18 R623). -/
def opAllowed (op : CryptoOp) (r : KeySlot) : Bool :=
  let bit := fun i => r.usage.getLsbD i
  match op with
  | .sign => bit 0 && (r.kind == 3 || r.kind == 4)
  | .tlsAuth => bit 1 && (r.kind == 3 || r.kind == 4)
  | .encrypt | .decrypt => bit 2 && r.kind == 1
  | .verify => bit 4 && (r.kind == 5 || r.kind == 6)
  | .tlsRelease => bit 6 && r.kind == 7
  | .random => true

/-- A request that its channel may make (01 R32, 18 Table 18.1, R623, R641): channel 0 is MET's and alone
uses slot 0; the other channels use slot 1 and the owner slots. Random data, and an encryption, whose initialisation vector the
engine draws, need the random source. -/
def requestAllowed (s : State) (r : CryptoReq) : Bool :=
  if r.op == .random then s.key.rngOk && r.channel != 0
  else
    (r.op != .encrypt || s.key.rngOk) &&
    (if r.channel = 0 then r.slot == 0 else r.slot == 1 || decide (8 ≤ r.slot.val)) &&
      slotValid s.keys r.slot && opAllowed r.op s.keys.slots[r.slot]

/-- A slot fails its integrity check (18 R639): it and its descendants read failed, and each failing slot
raises EV_KEY_SLOT_FAILED once per start; slot 0's failure is a legal partition fault (Table 18.9). -/
def failSlot (x : Fin 64) (s : State) : State :=
  if s.keys.slots[x].state = .valid then
    s |> modKeys (fun k => { k with slots := Vector.ofFn (fun i =>
            if i = x ∨ descends k x 64 i then { k.slots[i] with state := .failed } else k.slots[i]) })
      |> ifDo (!s.key.reported.contains x) (fun s => s
          |> modKey (fun r => { r with reported := x :: r.reported })
          |> raise .keySlotFailed (u8 x.val))
      |> ifDo (x == 0 && s.met.running) (declareFault 1)
  else s

end Sys2Proof.Machine
end

