-- ==== Sys2Proof/Machine/Keys.lean ====
section
/-! DEFINITION. The rows of keys, lifecycle, crypto engine and debug port (18; 07 Table 7.8). -/

namespace Sys2Proof.Machine

/-- KEY_ENVELOPE_APPLY (07 Table 7.8; R627, R628). -/
def execKeyEnvelopeApply (mb : Mailbox) (s : State) : Out :=
  .next (runCommand .keyEnvelopeApply mb (fun b s =>
    let r := applyEnvelope b s
    .done r.1 r.2.1 r.2.2) s)

/-- KEY_SLOT_STATUS_GET (07 Table 7.8). -/
def execKeySlotStatusGet (mb : Mailbox) (s : State) : Out :=
  .next (runCommand .keySlotStatusGet mb (fun _ s =>
    ok ((List.finRange 64).flatMap (fun i =>
      let r := s.keys.slots[i]
      u8 (keyStateCode r.state) ++ u8 r.binding ++ u8 r.parent ++ u8 0)) s) s)

/-- The debug port's state (18 Table 18.5). -/
def debugCode (life : Nat) : Nat := if life = 0 then 2 else if life = 3 then 0 else 1

/-- LIFECYCLE_GET (07 Table 7.8). -/
def execLifecycleGet (mb : Mailbox) (s : State) : Out :=
  .next (runCommand .lifecycleGet mb (fun _ s =>
    ok (u8 (lifecycle s) ++ u8 (debugCode (lifecycle s)) ++ u16 0 ++ u32 s.keys.counter.toNat
      ++ beBytes 8 s.fab.deviceId.toNat) s) s)

/-- DEVICE_CERT_GET (07 Table 7.8, R267). -/
def execDeviceCertGet (mb : Mailbox) (s : State) : Out :=
  .next (runCommand .deviceCertGet mb (fun b s =>
    let n := rd b 0 2
    let off := rd b 4 4
    let der := s.fab.certs.getD n []
    guards [(decide (2 < n), .argRange), (decide (der.length < off), .argRange)] s <|
      ok (u32 der.length ++ u32 off ++ (der.drop off).take 504) s) s)

/-- MEASUREMENT_LOG_GET (07 Table 7.8, R643). -/
def execMeasurementLogGet (mb : Mailbox) (s : State) : Out :=
  .next (runCommand .measurementLogGet mb (fun _ s =>
    let m := s.key.boot
    ok (u32 3 ++ u32 0 ++ padTo 48 m.metrology ++ padTo 48 m.safety ++ padTo 48 m.application) s) s)

/-- A word written to HIF_LC_TRIGGER (06 R233, Table 6.5). -/
def lcTrigger (w : Word32) (s : State) : State :=
  match keyWord 0x3C5A 3 w with
  | some t => lcRequest t w s
  | none => setStatus stKeyRefused s

/-- The three lifecycle requests (R632). -/
def execLcRequestProvisioned (word : Word32) (s : State) : Out :=
  .next (transaction 0x08 (fun s => s |> buffer 1 |> lcTrigger word) s)
def execLcRequestField (word : Word32) (s : State) : Out :=
  .next (transaction 0x08 (fun s => s |> buffer 1 |> lcTrigger word) s)
def execLcRequestRetired (word : Word32) (s : State) : Out :=
  .next (transaction 0x08 (fun s => s |> buffer 1 |> lcTrigger word) s)

/-- The crypto engine is powered, with the application island (01 R36, Table 1.5). -/
def engineRuns (s : State) : Bool := basePowered s && s.pwr.appIsland

/-- A request to the crypto engine (01 R32, R623): a refused one answers at once; one accepted keeps the
slot as it stands (Table 18.8). -/
def execCryptoRequest (req : CryptoReq) (s : State) : Out :=
  .next (ifDo (engineRuns s) (fun s =>
    if requestAllowed s req then modKey (fun k => { k with jobs := k.jobs ++ [⟨req, s.keys.slots[req.slot], slotKey s req.slot⟩] }) s
    else modKey (fun k => { k with results := k.results ++ [⟨req.channel, false, []⟩] }) s) s)

/-- The first operation of a channel taken out of those under way. -/
def dropJob (channel : Nat) : List CryptoJob → List CryptoJob
  | [] => []
  | j :: js => if j.req.channel = channel then js else j :: dropJob channel js

/-- What an operation gives (18 R623, R626, R629, R635): a signature as r then s; what is sealed with its initialisation vector before
it and its tag behind it, and what such a string opens to; whether the signature at the end of the input verifies; as many random
bytes as the input says; and nothing for a release, whose secret goes into the engine's own TLS record. (log 69, DESIGN CHOICE) -/
def cryptoResult (draw : Nat) (j : CryptoJob) : Bool × Bytes :=
  let c := curveOf j.slot.kind
  let x := j.req.input
  match j.req.op with
  | .sign | .tlsAuth =>
    match ecdsaSign c (beNat j.key) x with
    | some p => (true, beBytes c.len p.1 ++ beBytes c.len p.2)
    | none => (false, [])
  | .encrypt =>
    let iv := padTo 12 (Config.random draw 12)
    (true, iv ++ gcmSeal j.key iv j.req.aad x)
  | .decrypt =>
    let p := gcmOpen j.key (x.take 12) j.req.aad (x.drop 12)
    if p.1 then p else (false, [])
  | .verify => (ecdsaVerify c j.key (x.take (x.length - 2 * c.len)) (x.drop (x.length - 2 * c.len)), [])
  | .tlsRelease => (true, [])
  | .random => (true, padTo (leNat x) (Config.random draw (leNat x)))

/-- An operation completes (01 R49): its result goes to its requester. -/
def execCryptoRequestDone (channel : Nat) (s : State) : Out :=
  .next (ifDo (engineRuns s) (fun s =>
    match s.key.jobs.find? (fun j => j.req.channel == channel) with
    | none => s
    | some j =>
      let r := cryptoResult s.nd j
      draw (modKey (fun k => { k with jobs := dropJob channel k.jobs, results := k.results ++ [⟨channel, r.1, r.2⟩] }) s)) s)

/-- The debugger reads a challenge (R634, R641): after three failed signatures every challenge is refused. -/
def execDebugChallenge (s : State) : Out :=
  .next (ifDo (baseRuns s && (lifecycle s == 1 || lifecycle s == 2)) (fun s =>
    if 3 ≤ s.key.debugFails then securityMsg "DebugRefused" s
    else ifDo s.key.rngOk (fun s => draw (modKey (fun k => { k with challenge := some (Config.random s.nd 32) }) s)) s) s)

/-- The slots whose key opens the debug port (R634). -/
def debugSlot (s : State) (i : Fin 64) : Bool :=
  slotValid s.keys i && (i == 4 || (decide (8 ≤ i.val) && s.keys.slots[i].kind == 6 && s.keys.slots[i].usage.getLsbD 5))

/-- The debugger returns a signature over the challenge, the device identity and the lifecycle code (R634). -/
def execDebugSignature (slot : Fin 64) (signature : Bytes) (s : State) : Out :=
  .next (
    match s.key.challenge with
    | none => s
    | some c =>
      if 3 ≤ s.key.debugFails then s
      else if debugSlot s slot && slotVerifies s slot (c ++ beBytes 8 s.fab.deviceId.toNat ++ u8 (lifecycle s)) signature then
        s |> modKey (fun k => { k with debugOpen := true, challenge := none }) |> securityMsg "DebugOpened"
      else s |> modKey (fun k => { k with debugFails := k.debugFails + 1, challenge := none }) |> securityMsg "DebugRefused")

/-- A lifecycle authorisation expires after 60 s of LIFE (R632). -/
def execLcAuthorisationExpire (s : State) : Out :=
  .next (modKey (fun k => { k with auth :=
    match k.auth with
    | some (t, l) => if 60 * 32768 < (s.time.life - l).toNat then none else some (t, l)
    | none => none }) s)

/-- A health test of the random source fails, and a restart of it (R641). -/
def execRngHealthFail (s : State) : Out := .next (modKey (fun k => { k with rngOk := false }) s)
def execRngRestart (passed : Bool) (s : State) : Out := .next (modKey (fun k => { k with rngOk := passed }) s)

/-- An envelope by DataTransfer (R636): passed to KEY_ENVELOPE_APPLY unchanged, with its length rule. -/
def execKeyEnvelopeDatatransfer (envelope : Bytes) (s : State) : Out :=
  .next (ifDo (s.svc.connected && appRuns s) (fun s =>
    if Cmd.keyEnvelopeApply.lenOk envelope.length envelope then
      let r := applyEnvelope envelope s
      answer (r.1 == .ok) r.2.2
    else answer false s) s)

end Sys2Proof.Machine
end

