-- ==== Sys2Proof/Machine/Operands.lean ====
section
/-! DEFINITION. The operands of the configuration commands: the text of key values, both ways (19 R650;
log 13, DESIGN CHOICE), and the lines of a set's body. -/

namespace Sys2Proof.Machine

/-- A number of a mask or an address: decimal, or 0x or 0b and digits (log 13, DESIGN CHOICE). -/
def parseNum (b : Bytes) : Option Nat :=
  match b with
  | 0x30#8 :: 0x78#8 :: r => parseHex r
  | 0x30#8 :: 0x62#8 :: r =>
    if r.isEmpty then none
    else r.foldl (fun acc d => acc.bind (fun a =>
      if d = 0x30 then some (2 * a) else if d = 0x31 then some (2 * a + 1) else none)) (some 0)
  | _ => parseDec b

/-- The place of a word in a list. -/
def wordIndex (ws : List String) (b : Bytes) : Option Nat :=
  let i := ws.findIdx (fun w => str w == b)
  if i < ws.length then some i else none

/-- Every piece of a comma list read by `f`; the empty text is the empty list. -/
def parseList (f : Bytes → Option Nat) (b : Bytes) : Option (List Nat) :=
  if b.isEmpty then some []
  else (splitOn 0x2C b).foldr (fun x acc => acc.bind (fun l => (f x).map (fun n => n :: l))) (some [])

/-- No value stands twice. -/
def distinct (l : List Nat) : Bool :=
  match l with
  | [] => true
  | x :: xs => !xs.contains x && distinct xs

/-- The items of a mask, from lowest to highest. -/
def itemsOfMask (n hi : Nat) : List Nat := (List.range (hi + 1)).filter n.testBit

/-- A number under a condition. -/
def numIf (p : Int → Bool) (n : Option Int) : Option Val :=
  n.bind (fun v => if p v then some (.num v) else none)

/-- A list under a condition. -/
def listIf (p : List Nat → Bool) (l : Option (List Nat)) : Option Val :=
  l.bind (fun v => if p v then some (.list v) else none)

/-- The parts of an IPv4 address. -/
def parseIpv4 (b : Bytes) : Option (List Nat) :=
  match (splitOn 0x2E b).map parseDec with
  | [some a, some b, some c, some d] =>
    if a < 256 ∧ b < 256 ∧ c < 256 ∧ d < 256 then some [a, b, c, d] else none
  | _ => none

/-- An address with its prefix length. -/
def isIpv4Prefix (b : Bytes) : Bool :=
  match splitOn 0x2F b with
  | [a, p] => (parseIpv4 a).isSome && ((parseDec p).map (fun n => decide (n ≤ 32))).getD false
  | _ => false

/-- Tenths: digits with at most one decimal. -/
def parseTenths (b : Bytes) : Option Int :=
  match splitOn 0x2E b with
  | [n] => (parseDec n).map (fun x => (10 * x : Int))
  | [n, [d]] => (parseDec n).bind (fun x => (decDigit? d).map (fun y => (10 * x + y : Int)))
  | _ => none

/-- A value of a key's type from its text (19 R650, R651). -/
def parseVal (t : KTy) (b : Bytes) : Option Val :=
  let isNone := b == str "none"
  let n := parseInt b
  match t with
  | .bool => if b = str "true" then some (.num 1) else if b = str "false" then some (.num 0) else none
  | .int lo hi => numIf (fun v => lo ≤ v && v ≤ hi) n
  | .intZ lo hi => numIf (fun v => v == 0 || (lo ≤ v && v ≤ hi)) n
  | .ints vs => numIf (fun v => vs.contains v) n
  | .optInt lo hi => if isNone then some .none else numIf (fun v => lo ≤ v && v ≤ hi) n
  | .optInts vs => if isNone then some .none else numIf (fun v => 0 ≤ v && vs.contains v.toNat) n
  | .optOff lo hi => if b = str "off" then some .none else numIf (fun v => lo ≤ v && v ≤ hi) n
  | .words ws => (wordIndex ws b).map (fun i => .num i)
  | .optWords ws => if isNone then some .none else (wordIndex ws b).map (fun i => .num i)
  | .mask k => (parseNum b).bind (fun v => if v < 2 ^ k then some (.num v) else none)
  | .items lo hi names =>
    if names.isEmpty ∧ (b.take 2 = str "0x" ∨ b.take 2 = str "0b") then
      (parseNum b).bind (fun v => let l := itemsOfMask v hi
        if v < 2 ^ (hi + 1) ∧ l.all (fun i => lo ≤ i) then some (.list l) else none)
    else
      (listIf (fun l => l.all (fun i => lo ≤ i && i ≤ hi) && distinct l)
        (parseList (if names.isEmpty then parseDec else wordIndex names) b)).map (fun v =>
          match v with
          | .list l => .list ((List.range (hi + 1)).filter l.contains)
          | v => v)
  | .nums k hi => listIf (fun l => decide (l.length ≤ k) && l.all (fun i => i ≤ hi) && distinct l) (parseList parseNum b)
  | .ordered ws => listIf distinct (parseList (wordIndex ws) b)
  | .tenths lo hi => numIf (fun v => lo ≤ v && v ≤ hi) (parseTenths b)
  | .hexByte => (parseNum b).bind (fun v => if v < 256 then some (.num v) else none)
  | .hex8 =>
    let d := if b.take 2 = str "0x" then b.drop 2 else b
    if d.length = 8 then (parseHex d).map (fun v => .num v) else none
  | .gamma =>
    listIf (fun l => l.length == 4 && l.all (fun i => i ≤ 256) && (l.zip (l.drop 1)).all (fun p => p.1 ≤ p.2)) (parseList parseDec b)
  | .text lo hi => if lo ≤ b.length ∧ b.length ≤ hi ∧ printable b then some (.text b) else none
  | .optText lo hi =>
    if isNone then some .none else if lo ≤ b.length ∧ b.length ≤ hi ∧ printable b then some (.text b) else none
  | .ipv4 => if isNone then some .none else if b = str "dhcp" ∨ isIpv4Prefix b then some (.text b) else none
  | .fixed => none

/-- The word of a number. -/
def wordOf (ws : List String) (n : Int) : Bytes := str (ws.getD n.toNat "")

/-- The canonical text of a value of a type (19 R650; log 13, DESIGN CHOICE). -/
def printVal (t : KTy) (v : Val) : Bytes :=
  match v with
  | .none => (match t with | .optOff _ _ => str "off" | _ => str "none")
  | .text b => b
  | .list l =>
    joinWith 0x2C (l.map (fun (i : Nat) =>
      match t with
      | .items _ _ (w :: ws) => wordOf (w :: ws) i
      | .ordered ws => wordOf ws i
      | _ => dec i))
  | .num n =>
    match t with
    | .bool => if n = 0 then str "false" else str "true"
    | .words ws => wordOf ws n
    | .optWords ws => wordOf ws n
    | .tenths _ _ => dec (n.toNat / 10) ++ str "." ++ dec (n.toNat % 10)
    | .hexByte => str "0x" ++ hexUpper n.toNat 2
    | .hex8 => str "0x" ++ hexUpper n.toNat 8
    | _ => decInt n

/-- What a key's own table adds to its type: true has no place on a DC outlet's RCD (12 Table 12.5), the
wake function is GP56 to GP63's (17 Table 17.2), companions are nodes 1 to 31 and 0x0100 (14 R527), and
addresses are IPv4 addresses (14 Table 14.6). -/
def ownRange (f : Fab) (k : Key) (v : Val) : Bool :=
  match k, v with
  | .out o .rcdEnable, .num n => n == 0 || !f.isDc o
  | .gp i .function, .num n => n != 4 || decide (56 ≤ i.val)
  | .gen .companions, .list l => l.all (fun n => (1 ≤ n && n ≤ 31) || n == 0x100)
  | .port _ .gateway, .text t => (parseIpv4 t).isSome
  | .gen .dns, .text t => (parseIpv4 t).isSome
  | .str _ .optimisers, .list l => l.all (fun n => n != 0 && n != 0xFFFFFFFF)
  | .sunDev _, .text t =>
    match splitOn 0x2C t with
    | [a, u, j] => (parseIpv4 a).isSome && ((parseDec u).map (fun n => decide (1 ≤ n ∧ n ≤ 247))).getD false
        && ((parseDec j).map (fun n => decide (n ≤ 3))).getD false
    | _ => false
  | _, _ => true

/-- A key's value from its text (19 R651). -/
def parseKey (f : Fab) (k : Key) (b : Bytes) : Option Val :=
  (parseVal (keyType f k) b).bind (fun v => if ownRange f k v then some v else none)

/-- The canonical text of the key in a set: its value or its default (19 R650). -/
def keyText (c : Cfg) (f : Fab) (k : Key) : Bytes := printVal (keyType f k) (cfgVal c f k)

/-- The key of a name; `ls.NN.pair` exists for even channels only (13 Table 13.3). -/
def findKey (name : Bytes) : Option Key :=
  (allKeys.find? (fun k => keyName k == name)).bind (fun k =>
    match k with
    | .ls n .pair => if n.val % 2 = 0 then some k else none
    | k => some k)

/-- A line of a body (19 R650): name and value, nothing to read, or a line that does not parse. -/
inductive Line
  | pair (name value : Bytes)
  | blank
  | bad
  deriving DecidableEq, Repr

/-- A line read. -/
def parseLine (b : Bytes) : Line :=
  if !printable b then .bad
  else if b.isEmpty ∨ b.head? = some 0x23 then .blank
  else
    let name := b.takeWhile (fun x => x != 0x3D)
    if name.isEmpty ∨ name.length = b.length then .bad
    else .pair name (b.drop (name.length + 1))

/-- The lines of a body; what follows the last line feed is a line that does not parse. -/
def bodyLines (body : Bytes) : List Line :=
  let ls := splitOn 0x0A body
  ls.dropLast.map parseLine ++ (if ls.getLast?.getD [] = [] then [] else [.bad])

/-- The first line that does not parse or repeats a name, counted from 1 (R652 check 2). -/
def badLine : List Line → Nat → List Bytes → Option Nat
  | [], _, _ => none
  | .bad :: _, n, _ => some n
  | .blank :: ls, n, seen => badLine ls (n + 1) seen
  | .pair name _ :: ls, n, seen => if seen.contains name then some n else badLine ls (n + 1) (name :: seen)

/-- The names and values of a body in order. -/
def bodyPairs (body : Bytes) : List (Bytes × Bytes) :=
  (bodyLines body).filterMap (fun l => match l with | .pair n v => some (n, v) | _ => none)

/-- The set of values of a body: lines that name no key or give no value of it are left out. -/
def cfgOfBody (f : Fab) (body : Bytes) : Cfg :=
  (bodyPairs body).filterMap (fun p => (findKey p.1).bind (fun k => (parseKey f k p.2).map (fun v => (k, v))))

/-- A body with the line of a name replaced, or appended (R651). -/
def putLine (body name value : Bytes) : Bytes :=
  let line := name ++ 0x3D :: value
  let ls := splitOn 0x0A body
  let ls := if ls.getLast?.getD [] = [] then ls.dropLast else ls
  let isIt := fun (l : Bytes) => (match parseLine l with | .pair n _ => n == name | _ => false)
  let out := if ls.any isIt then ls.map (fun l => if isIt l then line else l) else ls ++ [line]
  joinWith 0x0A out ++ [0x0A]

end Sys2Proof.Machine
end

