-- ==== Sys2Proof/Machine/ConfigOps.lean ====
section
/-! DEFINITION. The configuration store (19 R648 to R653, R666 to R669): roles, checks, and what a set that
takes effect changes. -/

namespace Sys2Proof.Machine

/-- A slot changed; a slot emptied. -/
def modSlot (i : Fin 4) (f : Slot → Slot) (s : State) : State := { s with slots := vmod s.slots i f }
def emptySlot (i : Fin 4) : State → State := modSlot i (fun _ => {})

/-- The first slot with a property. -/
def slotWith (s : State) (p : Slot → Bool) : Option (Fin 4) := (List.finRange 4).find? (fun i => p s.slots[i])

/-- The committed slot with the highest commit number but those of a list (19 R649). -/
def highestBut (s : State) (l : List (Fin 4)) : Option (Fin 4) :=
  (List.finRange 4).foldl (fun best i =>
    if s.slots[i].state != .committed || l.contains i then best
    else
      match best with
      | none => some i
      | some b => if s.slots[b].commit.toNat < s.slots[i].commit.toNat then some i else some b) none

/-- The four roles (19 R649). -/
def activeSlot (s : State) : Option (Fin 4) := highestBut s []
def previousSlot (s : State) : Option (Fin 4) := (activeSlot s).bind (fun a => highestBut s [a])
def candidateSlot (s : State) : Option (Fin 4) := slotWith s (fun x => x.state == .candidate)
def migrationSlot (s : State) : Option (Fin 4) := slotWith s (fun x => x.state == .migration)

/-- A trial image runs (19 R663). -/
def onTrial (s : State) : Bool := s.hif.trial

/-- The set in force: the active set, or the migration copy under a trial (19 R651). -/
def inForceSlot (s : State) : Option (Fin 4) := if onTrial s then migrationSlot s else activeSlot s

/-- Committed sets below the two highest are discarded (19 R649). -/
def discardOld (s : State) : State :=
  let keep := (activeSlot s).toList ++ (previousSlot s).toList
  forEach ((List.finRange 4).filter (fun i => s.slots[i].state == .committed && !keep.contains i)) emptySlot s

/-- A slot to write to: an empty one, or one without a role. -/
def freeSlot (s : State) : Fin 4 :=
  let used := (activeSlot s).toList ++ (previousSlot s).toList ++ (candidateSlot s).toList ++ (migrationSlot s).toList
  ((slotWith s (fun x => x.state == .empty)).orElse (fun _ => (List.finRange 4).find? (fun i => !used.contains i))).getD 0

/-- The highest sequence and the highest commit number in the store. -/
def maxSeq (s : State) : Nat := s.slots.toList.foldl (fun n x => if x.state = .empty then n else max n x.seq.toNat) 0
def maxCommit (s : State) : Nat := s.slots.toList.foldl (fun n x => if x.state = .committed then max n x.commit.toNat else n) 0

/-- The code of a set's state, and a set's header as its slot's first granule holds it (19 Table 19.1). -/
def slotStateCode : SlotState → Nat
  | .empty => 0
  | .candidate => 1
  | .committed => 2
  | .migration => 3
def setHeader (x : Slot) : Bytes :=
  let h := u32 0x47464B49 ++ u8 (slotStateCode x.state) ++ u8 (b1 x.incomplete) ++ u16 x.format.toNat ++ u32 x.seq.toNat
    ++ u32 x.commit.toNat ++ u32 x.body.length ++ u32 (crc32 x.body).toNat ++ u32 x.tag.toNat
  h ++ u32 (crc32 h).toNat

/-- The running bank, and the bank's memory. -/
def bankOf (s : State) : Bank → BankMem
  | .a => s.upd.bankA
  | .b => s.upd.bankB

/-- The configuration formats of an image header: written, and oldest read (19 Table 19.2). -/
def formatOf (h : Bytes) : Nat := rd h 32 2
def oldestOf (h : Bytes) : Nat := rd h 34 2

/-- The format that the running image writes. -/
def writesFormat (s : State) : Nat := formatOf (((s.run.running).map (fun b => (bankOf s b).header)).getD [])

/-- A body carried into another format (19 R666): as it is where the formats are equal. -/
def carryBody (from_ to_ : Nat) (body : Bytes) : Option Bytes :=
  if from_ = to_ then some body else Config.migrate from_ to_ body

/-! ### The checks of a commit (19 R652) -/

/-- A key's value is given by the set. -/
def given (c : Cfg) (k : Key) : Bool := (cfgGiven c k).isSome

/-- The keys of a channel's settings. -/
def measKeys : List ChKey := [.mode, .rate, .range, .timing, .excite, .visible]

/-- The settings that a PE channel is held at, as values of its keys (12 R434). -/
def peForced : ChKey → Int
  | .mode => 2
  | .rate => 100
  | .range => 0
  | .timing => 0
  | .excite => 1000
  | _ => 0

/-- The rates listed for a mode (08 Table 8.4); a channel in mains mode has none of its own. -/
def modeRates (mode : Int) : List Int :=
  if mode = 0 then [48000, 24000, 16000, 8000, 4000] else if mode = 1 then [] else [1000, 500, 250, 100, 50, 20, 10]

/-- Joint rules of a channel's settings (08 R275, R276, R289, R301; 12 R434). -/
def channelBad (f : Fab) (c : Cfg) (i : Channel) : List Key :=
  let k := fun (x : ChKey) => cfgInt c f (.ch i x)
  let pe := Outlet.all.any (fun o => cfgOpt c f (.out o .peChannel) == some i.val)
  if (profileOf f i).isSome then (measKeys.filter (fun x => given c (.ch i x))).map (Key.ch i)
  else if pe then
    ([ChKey.mode, .rate, .range, .timing, .excite].filter (fun x => given c (.ch i x) && k x != peForced x)).map (Key.ch i)
  else
    (if k .mode ≠ 1 ∧ !(modeRates (k .mode)).contains (k .rate) then [Key.ch i .rate] else [])
      ++ (if (k .timing = 1 ∧ k .mode = 2) ∨ (k .timing = 0 ∧ k .mode = 0 ∧ 16000 < k .rate) then [Key.ch i .timing] else [])
      ++ (if k .range = 3 ∧ k .excite ≠ 0 then [Key.ch i .excite] else [])

/-- The weave threshold of a DC outlet's DC+ channel (12 R437): at most 1.1 times the outlet's maximum
voltage on the ±2,000 V scale, and the outlet's drivers mapped. -/
def overvoltageBad (f : Fab) (c : Cfg) (o : Outlet) : List Key :=
  match dcPlus f o with
  | none => []
  | some i =>
    let drivers := match o with | .a => 3 | .b => 12
    (if 11 * (cfgInt c f (.out o .maxV)) * 8388608 < cfgInt c f (.ch i .wvHi) * 20000 then [Key.ch i .wvHi] else [])
      ++ (if cfgNat c f (.ch i .wvDrivers) &&& drivers != drivers then [Key.ch i .wvDrivers] else [])

/-- The second of two module-function keys that name one pin (17 R608). -/
def pinsBad : List (GenKey × Nat) → List Key
  | [] => []
  | p :: ps => (ps.filter (fun q => q.2 == p.2)).map (fun q => Key.gen q.1) ++ pinsBad ps

/-- A slot key names a slot that is not valid, or whose kind and usage do not fit (18 R636, 19 R657). -/
def slotKeyBad (s : State) (c : Cfg) (k : GenKey) (kinds : List Nat) (bit : Nat) : List Key :=
  match cfgOpt c s.fab (.gen k) with
  | none => []
  | some n =>
    let r := s.keys.slots[(Fin.ofNat 64 n : Fin 64)]
    if r.state == .valid && kinds.contains r.kind && r.usage.getLsbD bit then [] else [.gen k]

/-- Every key of a set that breaks a joint rule (R652 check 5). -/
def jointBad (s : State) (c : Cfg) : List Key :=
  let f := s.fab
  let opt := fun (k : GenKey) => cfgOpt c f (.gen k)
  (List.finRange 48).flatMap (channelBad f c)
    ++ Outlet.all.flatMap (overvoltageBad f c)
    ++ (let w := f.profile.sel.supply.wiring
        if cfgBool c f (.gen .penEnable) && w != .w1p2w && w != .w3p4w then [.gen .penEnable] else [])
    ++ (if (opt .estopA).isSome && (opt .estopB).isNone then [.gen .estopA] else [])
    ++ (if (opt .estopB).isSome && (opt .estopA).isNone then [.gen .estopB] else [])
    ++ pinsBad (modulePins c f)
    ++ Outlet.all.flatMap (fun o =>
        if cfgNat c f (.out o .tempTripC) ≤ cfgNat c f (.out o .tempDerateC) then [Key.out o .tempDerateC] else [])
    ++ (if (opt .seamA).isSome && opt .seamA == opt .seamB then [.gen .seamB] else [])
    ++ (List.finRange 32).flatMap (fun n =>
        if 3 ≤ cfgNat c f (.ls n .wire) ∧ (n.val % 2 = 1 ∨ !cfgBool c f (.ls n .pair)) then [Key.ls n .wire] else [])
    ++ (List.finRange 3).flatMap (fun p =>
        if cfgNat c f (.psp p .readyByte) = cfgNat c f (.psp p .busyByte) then [Key.psp p .readyByte] else [])
    ++ slotKeyBad s c .ocppClientSlot [3, 4] 1
    ++ slotKeyBad s c .ocppPasswordSlot [7] 6
    ++ slotKeyBad s c .seccSlot [3, 4] 1
    ++ slotKeyBad s c .ownerSlot [6] 4
    ++ (if cfgNat c f (.gen .ageing) = 1 ∧ !f.disp.testRow then [.gen .ageing] else [])

/-- A byte string put in its place among sorted ones, by its first part. -/
def insertPair (x : Bytes × Bytes) : List (Bytes × Bytes) → List (Bytes × Bytes)
  | [] => [x]
  | y :: ys => if bytesLe x.1 y.1 then x :: y :: ys else y :: insertPair x ys

/-- The text whose CRC-32C `safety.config_crc` gives (12 R452). -/
def safetyText (f : Fab) (c : Cfg) : Bytes :=
  let keys := allKeys.filter (fun k => (keyName k).take 7 == str "safety." && k != .gen .configCrc)
  let pairs := keys.foldl (fun l k => insertPair (keyName k, keyText c f k) l) []
  pairs.flatMap (fun p => p.1 ++ 0x3D :: p.2 ++ [0x0A])

/-- The first failing key in the order of the body, else the first in the order of the rules (log 28, DESIGN CHOICE). -/
def firstBad (names : List Bytes) (bad : List Key) : Option Bytes :=
  let bad := bad.map keyName
  (names.find? bad.contains).orElse (fun _ => bad.head?)

/-- The name of what fails first in a body, in the order of R652. -/
def commitFails (s : State) (x : Slot) : Option Bytes :=
  if x.incomplete || !x.readable then some (str "@0")
  else
    match badLine (bodyLines x.body) 1 [] with
    | some n => some (str "@" ++ dec n)
    | none =>
      let ps := bodyPairs x.body
      let c := cfgOfBody s.fab x.body
      let unknown := (ps.find? (fun p => (findKey p.1).isNone)).map Prod.fst
      let range := (ps.find? (fun p => (((findKey p.1).bind (fun k => parseKey s.fab k p.2)).isNone))).map Prod.fst
      let crc := if (crc32c (safetyText s.fab c)).toNat = cfgNat c s.fab (.gen .configCrc) then none else some (keyName (.gen .configCrc))
      unknown.orElse (fun _ => range.orElse (fun _ => (firstBad (ps.map Prod.fst) (jointBad s c)).orElse (fun _ => crc)))

/-! ### A set that takes effect -/

/-- The port restarts (14 Table 14.6): its link goes down. -/
def restartPort (p : Fin 8) (s : State) : State := if (s.net.port[p]).up then setLink p false 0 s else s

/-- The keys of a port whose change restarts it (14 Table 14.6). -/
def portKeys (p : Fin 8) : List Key :=
  let four : Fin 4 := Fin.ofNat 4 p.val
  if p.val < 4 then
    [Key.port four .ipv4, .port four .gateway] ++
      (if p.val < 2 then [Key.eth (Fin.ofNat 2 p.val) .mode]
       else [.mode, .amplitude, .term, .plcaId, .plcaCount, .plcaToBits, .plcaBurst, .plcaBurstBits].map (Key.spe (Fin.ofNat 2 p.val)))
  else [Key.can four .role, .can four .arbKbps, .can four .dataKbps, .can four .term]

/-- The key's value differs between two sets. -/
def changed (s : State) (old : Cfg) (k : Key) : Bool := cfgVal old s.fab k != cfgVal s.cfg s.fab k

/-- Solar modes as the keys give them (15 R554). -/
def solarMode (o : Outlet) (s : State) : State :=
  { s with svc := { s.svc with solar := s.svc.solar.modify o (fun x => { mode := cfgNat s.cfg s.fab (.out o .solarMode), minMa := x.minMa }) } }

/-- The subsystems take up the set in force (05 R202, 08 R289, 09 R331, 10 R359, 12 R453, 14 R512 and Table
14.6, 15 R554, 16 R585, 17 Table 17.3; 13 R476). -/
def takeUpSet (old : Cfg) (s : State) : State :=
  s |> writeSettings
    |> forEach (List.finRange 48) applyChannel
    |> forEach (List.finRange 48) applyMasks
    |> passKeys
    |> applyPins
    |> applyLs
    |> forEach (List.finRange 4) syncKnown
    |> forEach ((List.finRange 8).filter (fun p => (portKeys p).any (changed s old))) restartPort
    |> forEach (Outlet.all.filter (fun o => changed s old (.out o .solarMode))) solarMode
    |> applyDisplay

/-- EV_CONFIG_COMMITTED (07 Table 7.21). -/
def committedEvent (cause : Nat) (s : State) : State :=
  let x := ((activeSlot s).map (fun i => s.slots[i])).getD {}
  raise .configCommitted (u32 x.seq.toNat ++ u16 x.format.toNat ++ u8 cause) s

/-- A body becomes the set in force. -/
def enforce (body : Bytes) (s : State) : State :=
  let old := s.cfg
  takeUpSet old { s with cfg := cfgOfBody s.fab body }

/-- A passing safety configuration recorded with its CRC and LIFE (12 R452); no code is given for the entry
(log 28, DESIGN CHOICE). -/
def logSafetyCommit (s : State) : State :=
  faultLog 0 (cfgNat s.cfg s.fab (.gen .configCrc)) s

/-- A slot gets the next commit number and is the active set (19 R649, R652, R653). -/
def commitSlot (i : Fin 4) (s : State) : State :=
  s |> modSlot i (fun x => { x with state := .committed, commit := BitVec.ofNat 32 (maxCommit s + 1) })
    |> discardOld

/-- CONFIG_COMMIT of a candidate that passed (R652, R668): the status and the state. -/
def commitCandidate (i : Fin 4) (s : State) : Status × State :=
  let body := s.slots[i].body
  if onTrial s then
    (.configOnTrial, s
      |> (fun s => match migrationSlot s with | some m => emptySlot m s | none => s)
      |> modSlot i (fun x => { x with state := .migration, tag := ((migrationSlot s).map (fun m => s.slots[m].tag)).getD 0 })
      |> enforce body |> logSafetyCommit)
  else
    (.ok, s |> commitSlot i |> enforce body |> logSafetyCommit |> committedEvent 0)

/-- The CRC-32C of an image header, the tag of its migration copy (19 Table 19.1). -/
def headerTag (h : Bytes) : BitVec 32 := crc32c h

/-- The set of a slot migrated into a slot as a migration copy of the running image (19 R666), or none. -/
def migrateInto (src dst : Fin 4) (s : State) : Option State :=
  let x := s.slots[src]
  let fmt := writesFormat s
  let h := ((s.run.running).map (fun b => (bankOf s b).header)).getD []
  (carryBody x.format.toNat fmt x.body).map (fun b =>
    modSlot dst (fun _ => { state := .migration, format := BitVec.ofNat 16 fmt, seq := BitVec.ofNat 32 (maxSeq s + 1), body := b, tag := headerTag h }) s)

/-- CONFIG_REVERT (R653, R668): the status and the state. -/
def revert (s : State) : Status × State :=
  if onTrial s then
    match activeSlot s with
    | none => (.configNoPrevious, s)
    | some a =>
      let old := migrationSlot s
      match migrateInto a (freeSlot s) s with
      | none => (.configNoPrevious, s)
      | some t =>
        let new := freeSlot s
        (.configOnTrial, t
          |> (fun t => match old with | some m => if m = new then t else emptySlot m t | none => t)
          |> enforce t.slots[new].body)
  else
    match previousSlot s with
    | none => (.configNoPrevious, s)
    | some p =>
      let x := s.slots[p]
      if !x.readable then (.configNoPrevious, s)
      else if x.format.toNat = writesFormat s then
        (.ok, s |> commitSlot p |> enforce x.body |> committedEvent 1)
      else
        match migrateInto p (freeSlot s) s with
        | none => (.configNoPrevious, s)
        | some t =>
          let new := freeSlot s
          (.ok, t |> modSlot new (fun y => { y with tag := 0 }) |> emptySlot p |> commitSlot new
            |> enforce t.slots[new].body |> committedEvent 1)

end Sys2Proof.Machine
end

