-- ==== Sys2Proof/Machine/UpdOps.lean ====
section
/-! DEFINITION. Firmware update (19 R655 to R676): headers, staging, the boot selector, trials and fallbacks. -/

namespace Sys2Proof.Machine

/-- Update control changed; its volatile part changed; a bank changed. -/
def modUpd (f : Upd → Upd) (s : State) : State := { s with upd := f s.upd }
def modRun (f : UpdRun → UpdRun) (s : State) : State := { s with run := f s.run }
def modBank (x : Bank) (f : BankMem → BankMem) : State → State :=
  modUpd (fun u => match x with
    | .a => { u with bankA := f u.bankA }
    | .b => { u with bankB := f u.bankB })

/-! ### Headers and blocks (Tables 19.2, 19.3) -/

/-- Fields of an image header. -/
def imageLen (h : Bytes) : Nat := rd h 20 4
def ownerSlotOf (h : Bytes) : Nat := rd h 136 1

/-- The owner slot in force. -/
def ownerKey (s : State) : Option Nat := cfgOpt s.cfg s.fab (.gen .ownerSlot)

/-- The metrology image LM 2.1 is at least the lowest one required. -/
def metrologyFits (major minor : Nat) : Bool := decide (major < 2) || (major == 2 && decide (minor ≤ 1))

/-- The signatures that check 7 needs (Table 19.2): Iskeco's over bytes 0 to 415, and the owner's over bytes 0 to 319 where an owner
slot is set. -/
def iskecoSigned (s : State) (h : Bytes) : Bool := slotValid s.keys 3 && slotVerifies s 3 (h.take 416) ((h.drop 416).take 96)
def signaturesOk (s : State) (h : Bytes) : Bool :=
  iskecoSigned s h &&
    match ownerKey s with
    | none => true
    | some n =>
      let i : Fin 64 := Fin.ofNat 64 n
      ownerSlotOf h == n && slotValid s.keys i && slotVerifies s i (h.take 320) ((h.drop 320).take 96)

/-- The header checks in the order of Table 19.3: the status of the first that fails. -/
def imageFails (s : State) (h : Bytes) : Option Status :=
  let safety := rd h 24 4
  let app := rd h 28 4
  let l := imageLen h
  if rd h 0 4 ≠ 0x4D494B49 then some .hdrMagic
  else if rd h 6 2 ≠ 0x48 then some .hdrFamily
  else if !(rd h 8 4).testBit 3 || !metrologyFits (rd h 12 1) (rd h 13 1) then some .hdrHw
  else if rd h 4 2 ≠ 1 ∨ safety = 0 ∨ safety % 4 ≠ 0 ∨ app = 0 ∨ app % 4 ≠ 0 ∨ formatOf h < oldestOf h then some .hdrFormat
  else if l = 0 ∨ 4194304 < l then some .hdrLength
  else if l ≠ 512 + safety + app then some .hdrFormat
  else if !signaturesOk s h then some .hdrSignature
  else none

/-- Blocks of an image (R658), and the bytes of one. -/
def blockCount (h : Bytes) : Nat := (imageLen h + 4095) / 4096
def blockLen (h : Bytes) (n : Nat) : Nat := min 4096 (imageLen h - 4096 * n)

/-- The image in a bank, and the safety and the application image within it (19 R655, Table 19.2). -/
def bankImage (m : BankMem) : Bytes :=
  (List.range (blockCount m.header)).flatMap (fun n => ((m.blocks.find? (fun y => y.1 == n)).map Prod.snd).getD [])
def safetyImage (m : BankMem) : Bytes := ((bankImage m).drop 512).take (rd m.header 24 4)
def appImage (m : BankMem) : Bytes := ((bankImage m).drop (512 + rd m.header 24 4)).take (rd m.header 28 4)

/-- The digests of a bank's images are those of its header (19 R660, 18 R643). -/
def digestsMatch (m : BankMem) : Bool :=
  sha384 (safetyImage m) == (m.header.drop 40).take 48 && sha384 (appImage m) == (m.header.drop 88).take 48

/-- The first unconfirmed block; the number of blocks where all are confirmed. -/
def firstUnconfirmed (u : Upd) : Nat :=
  ((List.range (blockCount u.header)).find? (fun n => !u.confirmed.contains n)).getD (blockCount u.header)

/-- Bytes as words of four, with their offsets from one. -/
def wordsFrom (off : Nat) (b : Bytes) : List (Nat × Bytes) :=
  (List.range (b.length / 4)).map (fun i => (off + 4 * i, (b.drop (4 * i)).take 4))

/-- Data placed in the staging buffer (R659): later data replaces earlier data for the same words, and the block
longest without a write makes room. -/
def stage (block off : Nat) (data : Bytes) (l : List Staged) : List Staged :=
  let old := ((l.find? (fun x => x.block == block)).map Staged.words).getD []
  let new := wordsFrom off data
  let rest := l.filter (fun x => x.block != block)
  let kept := if rest.length < 4 then rest else rest.drop (rest.length - 3)
  kept ++ [{ block, words := old.filter (fun w => !new.any (fun x => x.1 == w.1)) ++ new }]

/-- The bytes of a staged block once every word of it has arrived. -/
def stagedBytes (h : Bytes) (x : Staged) : Option Bytes :=
  let ws := (List.range (blockLen h x.block / 4)).map (fun i => (x.words.find? (fun w => w.1 == 4 * i)).map Prod.snd)
  if ws.all Option.isSome then some (ws.flatMap (fun w => w.getD [])) else none

/-- The running bank, or the confirmed one of the boot selector while none runs: a download goes into the
other (R655). -/
def selLower (u : Upd) : Bool := !u.sel0.valid || (u.sel1.valid && decide (u.sel0.seq.toNat < u.sel1.seq.toNat))

/-- The boot selector's record in force (R661): the valid copy with the higher sequence. -/
def selCurrent (u : Upd) : Option BootSel :=
  let x := if selLower u then u.sel1 else u.sel0
  if x.valid then some x else none

def downloadTarget (s : State) : Bank := (s.run.running.getD (((selCurrent s.upd).map BootSel.confirmed).getD .a)).other

/-- A copy of the boot selector record as update control holds it (19 Table 19.4). -/
def selStateCode : SelState → Nat
  | .stable => 0
  | .armed => 1
  | .trial => 2
def bootSelBytes (r : BootSel) : Bytes :=
  let b := u32 r.seq.toNat ++ u8 (selStateCode r.state) ++ u8 r.confirmed.num ++ u8 ((r.trial.map Bank.num).getD 0xFF) ++ u8 r.attempts
    ++ u32 r.headerCrc.toNat ++ List.replicate 16 0
  b ++ u32 (crc32c b).toNat

/-- A write of the record (R661): the copy with the lower sequence takes it, one above the highest so far. -/
def selWrite (r : BootSel) (u : Upd) : Upd :=
  let n := max u.sel0.seq.toNat u.sel1.seq.toNat + 1
  let x := { r with seq := BitVec.ofNat 32 n, valid := true }
  if selLower u then { u with sel0 := x } else { u with sel1 := x }

/-- Both copies written. -/
def selBoth (r : BootSel) (u : Upd) : Upd := selWrite r (selWrite r u)

/-- The header placed in bytes 0 to 511 of block 0 of the staging buffer (R658). -/
def stageHeader (s : State) : State :=
  ifDo (!s.upd.confirmed.contains 0) (modRun (fun r => { r with staging := stage 0 0 s.upd.header r.staging })) s

/-- A download begun or resumed (R658). -/
def beginDownload (who : Downloader) (h : Bytes) (s : State) : State :=
  if s.upd.stage ≠ 0 ∧ s.upd.header = h then
    s |> modUpd (fun u => { u with holder := who })
      |> ifDo (!(s.run.staging.any (fun x => x.block == 0))) stageHeader
  else
    let t := downloadTarget s
    s |> modUpd (fun u => { u with stage := 1, holder := who, header := h, confirmed := [], target := t, lastStatus := 0 })
      |> modBank t (fun b => { b with verified := false, superseded := false })
      |> modRun (fun r => { r with staging := [] })
      |> stageHeader

/-- A block written into the target bank, read back and confirmed (R659). -/
def confirmBlock (n : Nat) (data : Bytes) (s : State) : State :=
  let all := n :: s.upd.confirmed
  s |> modBank s.upd.target (fun b => { b with
          header := if n = 0 then data.take 512 else b.header
          blocks := (n, data) :: b.blocks.filter (fun x => x.1 != n) })
    |> modUpd (fun u => { u with
          confirmed := all
          stage := if (List.range (blockCount u.header)).all all.contains then 2 else u.stage })
    |> modRun (fun r => { r with staging := r.staging.filter (fun x => x.block != n) })

/-- The bank verified, or the download sent back to stage 1 with its header kept (R660). -/
def judgeBank (ok : Bool) (s : State) : State :=
  if ok then
    s |> modBank s.upd.target (fun b => { b with verified := true }) |> modUpd (fun u => { u with stage := 4, lastStatus := 0 })
  else
    s |> modUpd (fun u => { u with stage := 1, confirmed := [], lastStatus := Status.updVerifyFailed.code })
      |> modRun (fun r => { r with staging := [] })
      |> stageHeader

/-- The download or the verified image discarded (R660). -/
def discardDownload (s : State) : State :=
  s |> modBank s.upd.target (fun b => { b with verified := false })
    |> modUpd (fun u => { u with stage := 0, header := [], confirmed := [] })
    |> modRun (fun r => { r with staging := [] })

/-- A firmware status for the operator (Table 19.6), for a download that it asked for. -/
def firmwareMsg (v16 v20 : String) (s : State) : State :=
  ifDo (s.upd.holder == .operator) (putMsg { kind := .firmware, text := str (if ocppVersion s == some 0 then v16 else v20) }) s

/-! ### Activation, confirmation and fallback (R662 to R665) -/

/-- The restart of R662 and R665: PENDING commands complete with ST_ABORTED, and the restart waits for those that
run (07 Table 7.23). (log 51, DESIGN CHOICE) -/
def restart (s : State) : State :=
  s |> forEach s.mbx.order (fun mb s => complete mb .aborted [] s)
    |> (fun s => { s with mbx := { s.mbx with order := [] } })
    |> modRun (fun r => { r with restartDue := true })
    |> fun t => if someRunning t then t else resetBase t

/-- The refusal of an activation (R662), if any. -/
def activationFails (s : State) : Option Status :=
  if lifecycle s = 3 then some .notPermitted
  else if s.upd.stage ≠ 4 then some .updNotVerified
  else if anySession s then some .state
  else none

/-- The record of an armed or a trial bank. -/
def trialRecord (s : State) (st : SelState) : BootSel :=
  { state := st, confirmed := s.upd.target.other, trial := some s.upd.target, headerCrc := headerTag s.upd.header }

/-- Activation (R662). -/
def activate (s : State) : State :=
  s |> firmwareMsg "Installing" "InstallRebooting"
    |> modUpd (fun u => selWrite (trialRecord s .trial) (selWrite (trialRecord s .armed) u))
    |> modSvc (fun v => { v with install := none, updateWaits := false })
    |> restart

/-- The settings settled at a confirmation (R669): the migration copy becomes the active set. -/
def settleMigration (s : State) : State :=
  match migrationSlot s with
  | none => s
  | some m => s |> modSlot m (fun x => { x with tag := 0 }) |> commitSlot m

/-- The image on trial confirmed (R664). -/
def confirmTrial (s : State) : State :=
  let x := s.run.running.getD .a
  s |> modUpd (fun u => selBoth { confirmed := x } u)
    |> settleMigration
    |> modBank x.other (fun b => { b with superseded := true, verified := false })
    |> firmwareMsg "Installed" "Installed"
    |> modUpd (fun u => { u with stage := 0, header := [], confirmed := [], trialCandidate := false })
    |> modRun (fun r => { r with healthy := 0 })
    |> changeState (fun h => { h with trial := false })
    |> raise .updateConfirmed (u8 x.num)
    |> committedEvent 0

/-- The record falls back to the confirmed bank (R665 steps 1 and 2). -/
def fallBackTo (confirmed : Bank) (reason : Status) (s : State) : State :=
  s |> modUpd (fun u => selBoth { confirmed } u)
    |> modBank confirmed.other (fun b => { b with verified := false })
    |> modUpd (fun u => { u with stage := 0, header := [], confirmed := [], fellBack := some reason.code })

/-- A fallback with its restart (R665). -/
def fallBack (reason : Status) (s : State) : State :=
  s |> fallBackTo (((selCurrent s.upd).map BootSel.confirmed).getD .a) reason |> restart

/-! ### The boot selector at start (R663, R675, R676, R678) -/

/-- An uncorrectable error of a region reported (07 Table 7.21): its address is not given (log 16, DESIGN CHOICE). -/
def regionCode : MemRegion → Nat
  | .bankA => 0x01
  | .bankB => 0x02
  | .legal => 0x03
  | .keyStore => 0x04
  | .configStore => 0x05
  | .updateControl => 0x06
  | .safetyMram => 0x07
  | .appData => 0x08
  | .appSram => 0x11
  | .frameStore => 0x12
  | .metrologySram => 0x13
  | .safetySram => 0x14
  | .watchSram => 0x15
  | .buffers => 0x16

/-- EV_MEM_UNCORRECTABLE (07 Table 7.21). -/
def memUncorrectable (r : MemRegion) (addr host : BitVec 32) : State → State :=
  raise .memUncorrectable (u8 (regionCode r) ++ u8 0 ++ u16 0 ++ u32 addr.toNat ++ u32 host.toNat)

/-- The bank booted without a trial, or on trial where the confirmed bank fails and the other is verified
(R675). -/
def bootConfirmed (ok : Bank → Bool) (confirmed : Bank) (s : State) : Option (Bank × Bool) × State :=
  let other := confirmed.other
  let b := bankOf s other
  if ok confirmed then (some (confirmed, false), s)
  else if ok other && b.verified && !b.superseded then
    (some (other, true), modUpd (fun u => selBoth { state := .trial, confirmed, trial := some other, attempts := 1, headerCrc := headerTag b.header } u) s)
  else (none, s)

/-- The boot selector's choice: the bank and whether it is on trial. -/
def bootSelect (ok : Bank → Bool) (s : State) : Option (Bank × Bool) × State :=
  match selCurrent s.upd with
  | none =>
    let x := [Bank.a, .b].find? ok
    (x.map (fun b => (b, false)),
      s |> modUpd (fun u => match x with
            | some b => selBoth { confirmed := b } u
            | none => u)
        |> memUncorrectable .updateControl (Config.regionBase .updateControl) 0xFFFFFFFF)
  | some r =>
    match r.state, r.trial with
    | .stable, _ => bootConfirmed ok r.confirmed s
    | .armed, _ => bootConfirmed ok r.confirmed (modUpd (fun u => selBoth { confirmed := r.confirmed } u) s)
    | .trial, none => bootConfirmed ok r.confirmed s
    | .trial, some b =>
      if 3 ≤ r.attempts then bootConfirmed ok r.confirmed (fallBackTo r.confirmed .aborted s)
      else if ok b then (some (b, true), modUpd (fun u => selBoth { r with attempts := r.attempts + 1 } u) s)
      else bootConfirmed ok r.confirmed (fallBackTo r.confirmed .updVerifyFailed s)

/-- The running image reads the active set (R667). -/
def readsActive (s : State) (i : Fin 4) : Bool :=
  let h := ((s.run.running).map (fun b => (bankOf s b).header)).getD []
  decide (oldestOf h ≤ (s.slots[i]).format.toNat)

/-- The migration of a trial's start (R666, R667): none where the image cannot read the settings. -/
def migrate (s : State) : Option State :=
  let h := ((s.run.running).map (fun b => (bankOf s b).header)).getD []
  let fresh := match migrationSlot s with
    | some m => if s.slots[m].tag = headerTag h ∧ s.slots[m].readable ∧ !s.slots[m].incomplete then none else some (emptySlot m s)
    | none => some s
  match fresh with
  | none => some s
  | some t =>
    match activeSlot t with
    | none => some (modSlot (freeSlot t) (fun _ => {
        state := .migration, format := BitVec.ofNat 16 (writesFormat t), seq := BitVec.ofNat 32 (maxSeq t + 1), tag := headerTag h }) t)
    | some a => if readsActive t a then migrateInto a (freeSlot t) t else none

end Sys2Proof.Machine
end

