-- ==== Sys2Proof/Machine/Update.lean ====
section
/-! DEFINITION. The rows of firmware update (19; 07 Table 7.7, 06 Table 6.5). -/

namespace Sys2Proof.Machine

/-- The counts that the download commands answer (07 Table 7.7). -/
def blocksReply (s : State) : Bytes := u32 s.upd.confirmed.length ++ u32 (firstUnconfirmed s.upd)

/-- UPDATE_BEGIN (R656, R658). -/
def execUpdateBegin (mb : Mailbox) (s : State) : Out :=
  .next (runCommand .updateBegin mb (fun b s =>
    guards [(lifecycle s == 3, .notPermitted), (s.upd.stage == 5, .state),
      (s.upd.stage == 1 && s.upd.holder == .operator, .busy)] s <|
      match imageFails s b with
      | some st => refuse st s
      | none =>
        let t := beginDownload .host b s
        ok (u32 (blockCount b) ++ u32 (firstUnconfirmed t.upd)) t) s)

/-- UPDATE_BLOCK_WRITE (R659). -/
def execUpdateBlockWrite (mb : Mailbox) (s : State) : Out :=
  .next (runCommand .updateBlockWrite mb (fun b s =>
    let n := rd b 0 4
    let off := rd b 4 2
    let data := b.drop 8
    let len := blockLen s.upd.header n
    guards [(lifecycle s == 3, .notPermitted), (s.upd.stage == 0 || s.upd.stage == 5, .state), (off % 4 != 0, .argRange),
      (s.upd.stage == 1 && s.upd.holder == .operator, .busy),
      (decide (blockCount s.upd.header ≤ n) || decide (len < off + data.length), .updBlockRange)] s <|
      if s.upd.confirmed.contains n then ok (blocksReply s) s
      else ok (blocksReply s) (modRun (fun r => { r with staging := stage n off data r.staging }) s)) s)

/-- A staged block is complete: written, read back and confirmed (R659). One that reads back wrong stays
unconfirmed in the staging buffer. (log 55, DEDUCED) -/
def execStagedBlockCommit (block : Nat) (readBackOk : Bool) (s : State) : Out :=
  .next (
    match s.run.staging.find? (fun x => x.block == block) with
    | none => s
    | some x =>
      match stagedBytes s.upd.header x with
      | some data => ifDo (readBackOk && s.upd.stage == 1 && decide (block < blockCount s.upd.header)) (confirmBlock block data) s
      | none => s)

/-- UPDATE_STATUS_GET (07 Table 7.7). (log 68, DEDUCED) -/
def execUpdateStatusGet (mb : Mailbox) (s : State) : Out :=
  .next (runCommand .updateStatusGet mb (fun _ s =>
    let h := s.upd.header
    ok (u8 s.upd.stage ++ u8 (if s.upd.stage = 0 then downloadTarget s else s.upd.target).num
      ++ u8 ((s.run.running.map Bank.num).getD 0xFF)
      ++ u8 (if s.hif.trial then ((selCurrent s.upd).map BootSel.attempts).getD 0 else 0)
      ++ u32 (blockCount h) ++ u32 s.upd.confirmed.length ++ u32 (s.run.healthy / 32768)
      ++ u8 (rd h 16 1) ++ u8 (rd h 17 1) ++ u16 s.upd.lastStatus.toNat ++ u32 0) s) s)

/-- UPDATE_VERIFY (R660). -/
def execUpdateVerify (mb : Mailbox) (s : State) : Out :=
  .next (runCommand .updateVerify mb (fun _ s =>
    guards [(lifecycle s == 3, .notPermitted), (s.upd.stage == 5, .state),
      (s.upd.stage == 0 || firstUnconfirmed s.upd != blockCount s.upd.header, .updIncomplete)] s <|
      let good := (imageFails s s.upd.header).isNone && digestsMatch (bankOf s s.upd.target)
      .done (if good then .ok else .updVerifyFailed) [] (judgeBank good s)) s)

/-- UPDATE_ABORT (R660). -/
def execUpdateAbort (mb : Mailbox) (s : State) : Out :=
  .next (runCommand .updateAbort mb (fun _ s =>
    guards [(lifecycle s == 3, .notPermitted), (s.upd.stage == 5, .state)] s <|
      ok [] (if s.upd.stage = 0 then s else discardDownload s)) s)

/-- An update trigger's action (06 Table 6.5; R662, R664, R665). A restart that a success makes discards its
report. -/
def updRequest (action : Nat) (w : Word32) (s : State) : State :=
  match action with
  | 1 =>
    match activationFails s with
    | some st => triggerDone w st s
    | none => activate s
  | 2 => if onTrial s then s |> confirmTrial |> triggerDone w .ok else triggerDone w .updNotOnTrial s
  | _ =>
    if !onTrial s then triggerDone w .updNoFallback s
    else if anySession s then triggerDone w .state s
    else fallBack .ok s

/-- A word written to HIF_UPD_TRIGGER (06 R233, Table 6.5). -/
def updTrigger (w : Word32) (s : State) : State :=
  match keyWord 0x5AC3 3 w with
  | some n => updRequest n w s
  | none => setStatus stKeyRefused s

/-- The three update triggers. -/
def execUpdActivate (word : Word32) (s : State) : Out :=
  .next (transaction 0x08 (fun s => s |> buffer 1 |> updTrigger word) s)
def execUpdConfirm (word : Word32) (s : State) : Out :=
  .next (transaction 0x08 (fun s => s |> buffer 1 |> updTrigger word) s)
def execUpdFallback (word : Word32) (s : State) : Out :=
  .next (transaction 0x08 (fun s => s |> buffer 1 |> updTrigger word) s)

/-- An attempt reaches 30 min of healthy time (R664). -/
def execTrialConfirmAuto (s : State) : Out :=
  .next (ifDo (onTrial s && decide (1800 * 32768 ≤ s.run.healthy)) confirmTrial s)

/-- The blocks of an image that have arrived whole, and are not confirmed yet, confirmed (R671). -/
def takeImage (image : Bytes) (s : State) : State :=
  forEach (List.range (blockCount s.upd.header)) (fun n s =>
    let len := blockLen s.upd.header n
    let data := (image.drop (4096 * n)).take len
    if s.upd.confirmed.contains n || data.length != len then s else confirmBlock n data s) s

/-- UpdateFirmware and SignedUpdateFirmware (R671, Table 19.6): the stages run for the operator, and the answer is
Rejected where the update may not begin (R673, 18 Table 18.5). -/
def execUpdateFirmware (header image : Bytes) (ocppSigOk : Bool) (install : Nat) (s : State) : Out :=
  .next (ifDo (s.svc.connected && appRuns s) (fun s =>
    if lifecycle s = 3 || s.upd.stage == 5 || (s.upd.stage == 1 && s.upd.holder == .host) then answer false s
    else
      let bad := if ocppSigOk then imageFails s header else some .hdrSignature
      let msg := fun (a b : String) => putMsg { kind := .firmware, text := str (if ocppVersion s == some 0 then a else b) }
      match bad with
      | some .hdrSignature => s |> answer true |> msg "DownloadFailed" "InvalidSignature"
      | some _ => s |> answer true |> msg "DownloadFailed" "DownloadFailed"
      | none =>
        let t := s |> answer true |> beginDownload .operator header |> firmwareMsg "Downloading" "Downloading" |> takeImage image
        if firstUnconfirmed t.upd ≠ blockCount t.upd.header then firmwareMsg "DownloadFailed" "DownloadFailed" t
        else
          let good := (imageFails t t.upd.header).isNone && digestsMatch (bankOf t t.upd.target)
          let t := t |> firmwareMsg "Downloaded" "Downloaded" |> judgeBank good
          if !good then firmwareMsg "InstallationFailed" "InvalidSignature" t
          else
            t |> firmwareMsg "Downloaded" "SignatureVerified"
              |> modSvc (fun v => { v with install := some install, updateWaits := true })
              |> ifDo (anySession s) (firmwareMsg "Downloaded" "InstallScheduled")) s)

/-- The verified bank activated for the operator (R671). -/
def execOperatorActivation (s : State) : Out :=
  .next (ifDo (installDue s && (activationFails s).isNone && appRuns s) activate s)

end Sys2Proof.Machine
end

