-- ==== Sys2Proof/Machine/PortOps.lean ====
section
/-! DEFINITION. Writes of the host: every register, and a transaction that is cut short (06 R210 to R236). -/

namespace Sys2Proof.Machine

/-- A doorbell write (06 R221, Table 6.7): in IDLE it wakes the application (05 R168, bit 2). -/
def doorbell (w : Word32) (s : State) : State :=
  s |> forEach (namedBoxes w) ringBox
    |> ifDo ((s.pwr.state == .idle || s.pwr.idleEntry) && (namedBoxes w).any (fun i => s.mbx.cmd[i].state == .free)) (fireWake 2)

/-- The reset key (06 R233, Table 6.5): a core reset of the application cores, or a reset with the effect of RST_N. -/
def resetKey (w : Word32) (s : State) : State :=
  match keyWord 0xA5C3 2 w with
  | some 1 => appReset s
  | some _ => resetBase s
  | none => setStatus stKeyRefused s

/-- A word written to a register or window (06 Table 6.3). A word of the reset key acts after its transaction. -/
def regWrite (a : Nat) (w : Word32) (s : State) : State :=
  if s.pwr.inReset then s
  else if a = 0x20 then doorbell w s
  else if a = 0x24 then forEach (namedBoxes w) releaseBox s
  else if a = 0x28 then forEach (namedBoxes w) ackBox s
  else if a = 0x30 then s
  else if a = 0x34 then lcTrigger w s
  else if a = 0x38 then updTrigger w s
  else plainWrite a w s

/-- The words of a write with their addresses (06 R210). -/
def wordAddrs : Nat → List Word32 → List (Nat × Word32)
  | _, [] => []
  | a, w :: ws => (a, w) :: wordAddrs (nextAddr a) ws

/-- The words of a write put into the buffer and to their targets in order, with what the transaction's end adds, then the
reset keys among them (06 R217, R233). -/
def writeWords (l : List (Nat × Word32)) (atEnd : State → State) (s : State) : State :=
  s |> buffer l.length
    |> forEach l (fun p => regWrite p.1 p.2)
    |> atEnd
    |> forEach (l.filter (fun p => p.1 == 0x30)) (fun p s => ifDo (!s.pwr.inReset) (resetKey p.2) s)

/-- A write of complete words (06 R210, R212). -/
def hostWrite (a : Nat) (words : List Word32) (s : State) : State :=
  if a % 4 ≠ 0 then setStatus stUnaligned s else writeWords (wordAddrs a words) (fun s => s) s

/-- The address of the word after a list of words. -/
def addrAfter (a : Nat) (words : List Word32) : Nat := words.foldl (fun a _ => nextAddr a) a

/-- A transaction cut short (06 R231, R232): complete words are written; the incomplete one is written right-aligned, or
discarded at a /WW register and in SET_CMD_WIDTH. -/
def cutWrite (op : Byte) (a : Nat) (words : List Word32) (cut : Cut) (s : State) : State :=
  match cut with
  | .beforeData => setStatus stShort s
  | .inWord bits =>
    if op = 0x0F then setStatus stPartialDiscard s
    else if a % 4 ≠ 0 then setStatus stUnaligned s
    else if bits.isEmpty then hostWrite a words s
    else
      let last := addrAfter a words
      if isWW last then writeWords (wordAddrs a words) (setStatus stPartialDiscard) s
      else writeWords (wordAddrs a words ++ [(last, partialWord bits)]) (setStatus stPartial) s

end Sys2Proof.Machine
end

