-- ==== Sys2Proof/Machine/SaveOps.lean ====
section
/-! DEFINITION. The save sequence (03 Table 3.7), what follows it, and the way into WATCH. -/

namespace Sys2Proof.Machine

/-- Commands PENDING or RUNNING (R122; 07 R272). -/
def outstanding (s : State) : Nat :=
  (s.mbx.cmd.toList.filter (fun b => b.state == .pending || b.state == .running)).length

/-- SEG05, "post out of service" (16 Table 16.5). -/
def segOutOfService : BitVec 64 := 0x20

/-- WATCH: the control base loses its supply, and the watch core shows the unpowered pattern at once (05 R182; 16 Table
16.5). -/
def enterWatch (s : State) : State :=
  s |> resetBase
    |> modPwr (fun p => { p with state := .watch })
    |> modWch (fun w =>
        let p := w.segUnpowered ||| segOutOfService
        beginSegments p (p ^^^ w.segShown) s.time.life { w with segReq := p })

/-- Rail and REF faults of the last 10 min, the present one among them (R114). -/
def railFaultNow (s : State) : State :=
  modPwr (fun p => { p with railFaults := s.time.life :: p.railFaults.filter (fun l => decide ((s.time.life - l).toNat ≤ secs 600)) }) s

/-- The control base stays unpowered after the third fault within 10 min (R114). -/
def holdsOff (s : State) : Bool := decide (3 ≤ s.pwr.railFaults.length)

/-- Where the module goes once the save has ended or was skipped (R109, R114): VAUX that fell again during the save no
longer counts. -/
def afterSave (s : State) : State :=
  if !s.pwr.vauxUp then enterWatch s
  else if s.pwr.resetAfterSave && holdsOff s then s |> enterWatch |> modPwr (fun p => { p with baseHeldOff := true })
  else s |> resetBase |> modPwr (fun p => { p with state := .run })

/-- The save step under way, written into watch retained SRAM as the step begins (R116). -/
def beginStep (n : Nat) : State → State := modWch (fun w => { w with saveStep := n })

/-- Save step 2: the port is shut (06 R243); a write under way ends as R231 says, and no command completes any more (07
R273). -/
def saveStep2 (cut : Option HifCut) (s : State) : State :=
  s |> beginStep 2
    |> modPwr (fun p => { p with saveOutstanding := outstanding s, idleEntry := false, wakeWaits := false })
    |> (fun s => match cut with
        | none => s
        | some c => cutWrite c.opcode c.addr.toNat c.words c.cut s)
    |> modTb (fun b => { b with waiting := [] })
    |> modHif (fun h => { h with rdy := false, ignored := true, sent := [] })

/-- Save step 3 (R62): every stage withdraws its permits; load switches off; CP at state E; islands, modems, display die
and physical layer off. `clamped` says, where it is known, which load switches had a clamp event above 1 mJ (13 R481; log 12, DESIGN CHOICE). -/
def saveStep3 (clamped : Fin 32 → Option Bool) (s : State) : State :=
  s |> beginStep 3
    |> forEach allDrivers (fun d => trip d Stage.all causePowerFail)
    |> forEach Outlet.all (fun o => modOut o (fun x => { x with drive := .stateE, driveNext := none, force := none }))
    |> modPwr (fun p => { p with state := .save, modem := ⟨false, false⟩ })
    |> modPd (fun p => { p with shunt := ⟨none, none⟩ })
    |> applyLsWith clamped
    |> dieOff
    |> holdPorts
    |> modWeave (fun w => { w with running := false })
    |> (fun s => { s with isl := s.isl.map (fun k => { k with powered := false, linkUp := false, darning := none }) })
    |> modNet (fun n => { n with
          port := n.port.map (fun p => { p with up := false, kbps := 0, sending := none })
          str := n.str.map (fun x => { x with sending := false }) })

/-- Save step 4: MET closes its accumulators, LIFE goes to watch retained SRAM, and EV_POWER_FAIL is posted (07 R264); HIF_IRQ
rises where a host is present (06 R229, R243). What runs now is what still has to save. -/
def saveStep4 (s : State) : State :=
  s |> beginStep 4
    |> ifDo s.met.running splitPeriod
    |> closeTheft
    |> modWch (fun w => { w with saveLife := s.time.life })
    |> raise .powerFail (u64 s.time.life.toNat)
    |> (fun s => modHif (fun h => { h with irqForce := hostPresent s }) s)
    |> modPwr (fun p => { p with
        savesMet := s.met.running, savesSaf := s.saf.running, savesApp := s.pwr.appIsland && s.hif.fwReady && s.hif.power == 0 })
    |> modMet (fun m => { m with running := false })
    |> modSafCore (fun c => { c with running := false })
    |> beginStep 5

/-- The waiting log entries at a save (10 Table 10.7): 16 are written, the number of the others stands in the power
failure's entry. -/
def saveLog (s : State) : State :=
  let t := (List.range 16).foldl (fun s _ => writeOldest s) s
  { t with bill := { t.bill with logWait := [] } }
    |> log 0x0001 noSubject (u8 (min 255 t.bill.logWait.length))
    |> writeOldest

/-- The items of save step 5 (10 R387, R382), each replacing its last copy whole (R117): the log; the open intervals, the
registers and the running records with their end reading, which stand in one checkpoint; and the unpowered pattern (16 R584). -/
def saveRegisters (s : State) : State :=
  s |> ifDo s.time.valid (fun s => s
        |> closeFixed true s.wch.saveLife s.time.rtcSec.toNat
        |> closeSub true s.wch.saveLife s.time.rtcSec.toNat)
    |> forEach Outlet.all (fun o s => modRecord o (fun r => { r with
          ending := some .power, readings := r.readings ++ [takeReading .power o r s] }) s)
    |> checkpoint
    |> modLegal (fun l => { l with cp := { l.cp with atSave := true } })
def saveUnpowered : State → State := modWch (fun w => { w with segUnpowered := (w.segReq &&& ~~~(3 : BitVec 64)) ||| segOutOfService })
/-- The save record of step 8 (R116, R122), with its copy in watch retained SRAM. -/
def writeSave (outcome : PowerDown) (step : Nat) (s : State) : State :=
  let r : SaveRecord := { outcome, step, life := s.wch.saveLife, epoch := s.legal.epoch, outstanding := s.pwr.saveOutstanding }
  { s with save := r } |> modWch (fun w => { w with saveStep := 0, saveCopy := some r })
/-- The items of a save step, in the order in which they are written (Table 3.7). The unsent messages of step 7 stand in
MRAM when they are made, so its one item is the tile stress counters' (16 R576). -/
def saveItems (s : State) : Nat → List (State → State)
  | 5 => if s.pwr.savesMet then [saveLog, saveRegisters, saveUnpowered] else []
  | 6 => if s.pwr.savesSaf then [faultLog causePowerFail 0] else []
  | 7 => if s.pwr.savesApp then [writeTiles] else []
  | _ => []
/-- Save steps 5 to 7: every item of the steps before `step`, and the first `items` of that step (R116, R117; log 30, DESIGN
CHOICE). -/
def runSave (step items : Nat) (s : State) : State :=
  s |> forEach ([5, 6, 7].flatMap (fun n => if n < step then saveItems s n else if n = step then (saveItems s n).take items else []))
        (fun f s => f s)
    |> beginStep (max 5 (min 8 step))

/-- A power-down without a save (R111, R112; 04 Table 4.7): skipped, with save step 0. What SAVE has already noted stays. -/
def skipSave (s : State) : State :=
  s |> ifDo (s.pwr.state != .save) (fun s => s
        |> modPwr (fun p => { p with saveOutstanding := outstanding s })
        |> modWch (fun w => { w with saveLife := s.time.life }))
    |> writeSave .skipped 0

/-- The save sequence begins (R108, R111, R112): RST_N low, or a capacitor below 11 V, skips it. Steps 2 to 4 run here, and
the items of the later steps with the row that ends the save (log 30, DESIGN CHOICE). -/
def beginSave (clamped : Fin 32 → Option Bool) (cut : Option HifCut) (s : State) : State :=
  if s.pwr.rstNLow || decide (s.pwr.capMv < 11000) then
    s |> forEach allDrivers (fun d => trip d Stage.all causePowerFail) |> skipSave |> afterSave
  else s |> saveStep2 cut |> saveStep3 clamped |> saveStep4

end Sys2Proof.Machine
end

