-- ==== Sys2Proof/Machine/Clocks.lean ====
section
/-! DEFINITION. The monitored clock domains whose faults reset or stop other units (04 Table 4.7, R160). -/

namespace Sys2Proof.Machine

/-- REF fails (04 Table 4.7): PERMIT_WCH falls and the control base is reset at once; a save under way goes no further. -/
def execRefFault (s : State) : Out :=
  .next (ifDo (domainOn s .ref) (fun s => s
    |> wchClockTrip .ref
    |> railFaultNow
    |> skipSave
    |> modPwr (fun p => { p with resetAfterSave := p.vauxUp })
    |> afterSave) s)

/-- MET's clock fails (04 Table 4.7): MET has a core reset, which ends a billed session normally (09 R341), and PERMIT_WCH
falls. In SAVE the legal save goes no further. -/
def execMetClockFault (s : State) : Out :=
  .next (ifDo (domainOn s .met && !s.pwr.inReset) (fun s => s
    |> ifDo s.met.running metReset
    |> wchClockTrip .met
    |> modPwr (fun p => { p with savesMet := false })) s)

/-- APP's clock fails (04 Table 4.7): the application cores have a core reset; in SAVE the application save goes no further. -/
def execAppClockFault (s : State) : Out :=
  .next (ifDo (domainOn s .app && !s.pwr.inReset) (fun s => s
    |> clockFault .app
    |> ifDo (coresPowered s) appReset
    |> modPwr (fun p => { p with savesApp := false })) s)

/-- CAN ports with role `power` come up at once (14 R507, R533). -/
def startCan (s : State) : State :=
  forEach ((List.finRange 4).filter (isPower s)) (fun b s =>
    setLink (canPort b) true (cfgNat s.cfg s.fab (.can b .dataKbps)) s) s

/-- Ports down, each with its event (14 Table 14.10). -/
def portsDown (l : List (Fin 8)) (s : State) : State :=
  forEach (l.filter (fun p => (s.net.port[p]).up)) (fun p => setLink p false 0) s

/-- What stops with a PLL domain (11 Table 11.11, 14 Table 14.10, 16 R591, 17 R615). (log 61, DEDUCED) -/
def pllStops (d : Domain) (off : Bool) (s : State) : State :=
  match d with
  | .gph => communicationEndAll s
  | .net => portsDown [0, 1, 2, 3] s
  | .spe => portsDown [2, 3] s
  | .dsp => ifDo off (fun s => s |> modDisp (fun x => { x with dieFault := true }) |> cutUpdates true |> judgeDisplay) s
  | .per =>
    s |> forEach (List.finRange 4) (fun j => silence j [1])
      |> forEach Outlet.all (fun o s => ifDo (isDc s o) (communicationEnd o) s)
      |> loseModules
      |> portsDown [4, 5, 6, 7]
      |> stopPorts .state
  | _ => s

/-- A PLL domain fails (04 Table 4.7): a second fault within 10 min leaves it off until the next module power-on. -/
def execPllDomainFault (domain : Domain) (s : State) : Out :=
  let again := s.tb.lastPll.any (fun x => x.1 == domain && decide ((s.time.life - x.2).toNat ≤ secs 600))
  when_ (lesserPll domain) (ifDo (domainOn s domain && !s.pwr.inReset) (fun s => s
    |> clockFault domain
    |> modTb (fun b => { b with
        lastPll := (domain, s.time.life) :: b.lastPll.filter (fun x => x.1 != domain)
        off := if again && !b.off.contains domain then domain :: b.off else b.off })
    |> pllStops domain again) s)

/-- What resumes with a domain (04 R160; 08 R306; 14 R533). -/
def domainResumes (d : Domain) (s : State) : State :=
  match d with
  | .ao32 => modTime (fun t => { t with holdover := false }) s
  | .aof => modTime (fun t => { t with aofFault := false }) s
  | .flt => s |> modWeave (fun w => { w with running := true, syncDue := true }) |> returnAll (List.finRange 48) 3
  | .per => ifDo (appRuns s) startCan s
  | _ => s

/-- A faulted domain has run within its limits for its readmission time (04 R160); MOD once every island link is back. -/
def execDomainReadmitted (domain : Domain) (s : State) : Out :=
  .next (ifDo (domainOut s domain && !s.tb.off.contains domain && (domain != .mod || s.isl.toList.all (·.linkUp))) (fun s => s
    |> modTb (fun b => { b with faulted := b.faulted.filter (fun x => x != domain) })
    |> domainResumes domain
    |> raise .clockFault (u8 (domainCode domain) ++ u8 1)) s)

end Sys2Proof.Machine
end

