-- ==== Sys2Proof/Machine/Configuration.lean ====
section
/-! DEFINITION. The rows of the configuration commands (19 R651 to R653; 07 Table 7.6). -/

namespace Sys2Proof.Machine

/-- The most bytes of a body (19 R648). -/
def bodyMax : Nat := 65504

/-- CONFIG_CANDIDATE_OPEN (07 Table 7.6; R651). -/
def execConfigCandidateOpen (mb : Mailbox) (s : State) : Out :=
  .next (runCommand .configCandidateOpen mb (fun b s =>
    let fmt := rd b 0 2
    let src := rd b 2 2
    guards [(decide (1 < src), .argRange), (decide (fmt ≠ writesFormat s), .configFormat)] s <|
      let body := if src = 1 then ((inForceSlot s).map (fun i => s.slots[i].body)).getD [] else []
      let t := match candidateSlot s with
        | some i => emptySlot i s
        | none => s
      let seq := maxSeq s + 1
      ok (u32 seq) (modSlot (freeSlot t) (fun _ =>
        { state := .candidate, format := BitVec.ofNat 16 fmt, seq := BitVec.ofNat 32 seq, body })
        { t with upd := { t.upd with trialCandidate := onTrial t } })) s)

/-- CONFIG_CANDIDATE_WRITE (07 Table 7.6; R651): a gap is filled with zero bytes. -/
def execConfigCandidateWrite (mb : Mailbox) (s : State) : Out :=
  .next (runCommand .configCandidateWrite mb (fun b s =>
    let off := rd b 0 4
    let data := b.drop 4
    match candidateSlot s with
    | none => refuse .configNoCandidate s
    | some i =>
      guards [(decide (bodyMax < off + data.length), .configOversize)] s <|
        let body := s.slots[i].body
        let new := padTo off body ++ data ++ body.drop (off + data.length)
        ok (u32 new.length) (modSlot i (fun x => { x with body := new }) s)) s)

/-- The ready byte equal to the busy byte in the candidate (17 Table 17.3). -/
def readyIsBusy (f : Fab) (body : Bytes) (k : Key) (v : Val) : Bool :=
  match k, v with
  | .psp p .readyByte, .num n => cfgInt (cfgOfBody f body) f (.psp p .busyByte) == n
  | .psp p .busyByte, .num n => cfgInt (cfgOfBody f body) f (.psp p .readyByte) == n
  | _, _ => false

/-- A rate that is not listed for the mode that the channel has in the candidate (08 R289); in mains mode it is ignored. -/
def rateUnlisted (f : Fab) (body : Bytes) (k : Key) (v : Val) : Bool :=
  match k, v with
  | .ch i .rate, .num n =>
    let mode := cfgInt (cfgOfBody f body) f (.ch i .mode)
    mode != 1 && !(modeRates mode).contains n
  | _, _ => false

/-- CONFIG_KEY_SET (07 Table 7.6; R651): the line takes the value's canonical text (R650). -/
def execConfigKeySet (mb : Mailbox) (s : State) : Out :=
  .next (runCommand .configKeySet mb (fun b s =>
    let n := rd b 0 2
    let m := rd b 2 2
    let name := (b.drop 4).take n
    let value := (b.drop (4 + n)).take m
    guards [(n == 0 || decide (64 < n), .argRange), (m == 0 || decide (444 < m), .argRange)] s <|
      match candidateSlot s with
      | none => refuse .configNoCandidate s
      | some i =>
        match findKey name with
        | none => refuse .configKeyUnknown s
        | some k =>
          match parseKey s.fab k value with
          | none => refuse .configValue s
          | some v =>
            let body := putLine s.slots[i].body name (printVal (keyType s.fab k) v)
            guards [(readyIsBusy s.fab s.slots[i].body k v || rateUnlisted s.fab s.slots[i].body k v, .configValue), (decide (bodyMax < body.length), .configOversize)] s <|
              ok [] (modSlot i (fun x => { x with body }) s)) s)

/-- The text of a key in a body: its canonical text, or its line as written where that gives no value. -/
def bodyText (f : Fab) (body : Bytes) (k : Key) : Bytes :=
  match (bodyPairs body).find? (fun p => p.1 == keyName k) with
  | some p => if (parseKey f k p.2).isSome then keyText (cfgOfBody f body) f k else p.2
  | none => keyText (cfgOfBody f body) f k

/-- CONFIG_KEY_GET (07 Table 7.6; R651). -/
def execConfigKeyGet (mb : Mailbox) (s : State) : Out :=
  .next (runCommand .configKeyGet mb (fun b s =>
    let set := rd b 0 2
    let n := rd b 2 2
    let reply := fun (x : Bytes) => let t := x.take 444; ok (u16 t.length ++ u16 0 ++ t) s
    guards [(decide (2 < set), .argRange), (n == 0 || decide (64 < n), .argRange)] s <|
      match findKey ((b.drop 4).take n) with
      | none => refuse .configKeyUnknown s
      | some k =>
        match set with
        | 0 => reply (keyText s.cfg s.fab k)
        | 1 =>
          match previousSlot s with
          | none => refuse .configNoPrevious s
          | some i => reply (bodyText s.fab s.slots[i].body k)
        | _ =>
          match candidateSlot s with
          | none => refuse .configNoCandidate s
          | some i => reply (bodyText s.fab s.slots[i].body k)) s)

/-- CONFIG_COMMIT (07 Table 7.6; R652, R668). -/
def execConfigCommit (mb : Mailbox) (s : State) : Out :=
  .next (runCommand .configCommit mb (fun _ s =>
    match candidateSlot s with
    | none => refuse .configNoCandidate s
    | some i =>
      match commitFails s s.slots[i] with
      | some name => .done .configInvalid (u16 name.length ++ name) s
      | none =>
        let r := commitCandidate i s
        .done r.1 (u32 s.slots[i].seq.toNat) r.2) s)

/-- CONFIG_REVERT (07 Table 7.6; R653, R668). -/
def execConfigRevert (mb : Mailbox) (s : State) : Out :=
  .next (runCommand .configRevert mb (fun _ s =>
    let r := revert s
    if r.1 = .configNoPrevious then refuse .configNoPrevious s
    else .done r.1 (u32 (((inForceSlot r.2).map (fun i => r.2.slots[i].seq.toNat)).getD 0)) r.2) s)

/-- A record of CONFIG_INFO_GET (07 Table 7.6). -/
def setRecord (s : State) : Option (Fin 4) → Bytes
  | none => List.replicate 16 0
  | some i =>
    let x := s.slots[i]
    u8 1 ++ u8 0 ++ u16 x.format.toNat ++ u32 x.seq.toNat ++ u32 x.body.length ++ u32 (crc32 x.body).toNat

/-- CONFIG_INFO_GET (07 Table 7.6). -/
def execConfigInfoGet (mb : Mailbox) (s : State) : Out :=
  .next (runCommand .configInfoGet mb (fun _ s =>
    ok (setRecord s (activeSlot s) ++ setRecord s (previousSlot s) ++ setRecord s (candidateSlot s)
      ++ setRecord s (migrationSlot s)) s) s)

end Sys2Proof.Machine
end

