-- ==== Sys2Proof/Machine/Display.lean ====
section
/-! DEFINITION. The rows of the panel and the segment strip (16, 05 R180 to R182; 07 Table 7.17). -/

namespace Sys2Proof.Machine

/-- The checks of a rectangle (R588, R566). -/
def rectFails (s : State) (x y w h : Nat) : List (Bool × Status) :=
  let f := s.fab.disp
  [(w == 0 || h == 0 || decide (f.width < x + w) || decide (f.height < y + h), .argRange),
   (decide (legalTop s.fab < y + h), .legalArea)]

/-- The pixel codes of a region write: four bits each, low nibble first. -/
def nibble (b : Bytes) (i : Nat) : Byte :=
  let v := (b.getD (i / 2) 0).toNat
  BitVec.ofNat 8 (if i % 2 = 0 then v % 16 else v / 16)

/-- DISPLAY_REGION_WRITE (R568, R588). -/
def execDisplayRegionWrite (mb : Mailbox) (s : State) : Out :=
  .next (runCommand .displayRegionWrite mb (fun b s =>
    let x := rd b 0 2
    let y := rd b 2 2
    let w := rd b 4 2
    let h := rd b 6 2
    guards ((decide (1000 < w * h), .argRange) :: rectFails s x y w h) s <|
      let px := (rectPixels x y w h).zipIdx
      ok [] (modDisp (fun d => { d with
        target := px.foldl (fun m p => Memory.write m p.1 (nibble (b.drop 12) p.2)) d.target }) s)) s)

/-- The first free slot of the application (R570). -/
def freeUpdate (s : State) : Option (Fin 8) := ((List.finRange 8).take 7).find? (fun i => (updateIn s i).isNone)

/-- DISPLAY_UPDATE (R570, R588, Table 16.8). A panel that nothing drives takes none. (log 46, DEDUCED) -/
def execDisplayUpdate (mb : Mailbox) (s : State) : Out :=
  .next (runCommand .displayUpdate mb (fun b s =>
    let x := rd b 0 2
    let y := rd b 2 2
    let w := rd b 4 2
    let h := rd b 6 2
    let mode := rd b 10 1
    guards ([(!dieGood s, .state)] ++ (rectFails s x y w h).take 1 ++ [(decide (1 < mode), .argRange)] ++ (rectFails s x y w h).drop 1
        ++ [(s.disp.slots.toList.any (fun u => (u.map (overlaps x y w h)).getD false), .displayBusy)]) s <|
      match freeUpdate s with
      | none => refuse .busy s
      | some i => ok [] (setUpdate i (some { x, y, w, h, ident := BitVec.ofNat 16 (rd b 8 2), fast := mode == 1 }) s)) s)

/-- SEGMENT_SET (R582): a mask of 0 has no effect. -/
def execSegmentSet (mb : Mailbox) (s : State) : Out :=
  .next (runCommand .segmentSet mb (fun b s =>
    let mask := BitVec.ofNat 64 (rd b 8 8)
    guards [(mask &&& 0xFF != 0, .legalArea)] s <| ok [] (putSegments mask (BitVec.ofNat 64 (rd b 0 8)) s)) s)

/-- DISPLAY_STATUS_GET (07 Table 7.17). -/
def execDisplayStatusGet (mb : Mailbox) (s : State) : Out :=
  .next (runCommand .displayStatusGet mb (fun _ s =>
    ok (u8 (b1 s.disp.verified) ++ u8 (b1 (anyUpdate s)) ++ u16 s.wch.crackOhm.toNat ++ u16 s.disp.lastIdent.toNat ++ u16 0
      ++ u32 s.dispStore.updates.toNat ++ u32 0) s) s)

/-- The panel temperature of an update in 0.1 C (R574, R592): the latest valid reading, or that of the 25 C band. -/
def bandTemp (s : State) (deciC : Option Int) : Int :=
  if (cfgOpt s.cfg s.fab (.gen .tempChannel)).isNone then 250 else (deciC.orElse (fun _ => s.disp.deciC)).getD 250

/-- An update takes its snapshot and starts (R570 to R574); a null update ends at once (R573). -/
def startUpdate (deciC : Int) (i : Fin 8) (s : State) : State :=
  match updateIn s i with
  | none => s
  | some u =>
    if u.started then s
    else
      let px := (rectPixels u.x u.y u.w u.h).filterMap (pixelWave s u.fast deciC)
      if px.isEmpty then
        s |> setUpdate i none |> updateDone i u .ok |> ifDo (i == 7) (modDisp (fun d => { d with startDone := true }))
      else
        setUpdate i (some { u with started := true, pixels := px, longest := px.foldl (fun n p => max n p.codes.length) 0 }) s

/-- The frame boundary at which waiting updates start (R572). -/
def execDisplayUpdateStart (deciC : Option Int) (s : State) : Out :=
  .next (ifDo (dispDrives s) (fun s => s
    |> forEach (List.finRange 8) (startUpdate (bandTemp s deciC))
    |> modDisp (fun d => { d with
        deciC := deciC.orElse (fun _ => d.deciC), deciCAt := if deciC.isSome then some s.time.life else d.deciCAt })
    |> judgeDisplay) s)

/-- The frames of an update in progress: each driven pixel with its source code (R572). -/
def frameCodes (u : DispUpdate) : List (Nat × Nat) :=
  if u.started then u.pixels.filterMap (fun p => (p.codes[u.frame]?).map (fun c => (p.pixel, c))) else []

/-- The busiest tile of a column (R577). -/
def busiestTile (s : State) (i : Nat) : Fin 256 :=
  (List.range 16).foldl (fun t j =>
    let n : Fin 256 := Fin.ofNat 256 (16 * j + i)
    if (s.disp.stress[t]).toNat < (s.disp.stress[n]).toNat then n else t) (Fin.ofNat 256 i)

/-- The test pixels driven with the pixel of their column's busiest tile (R577). -/
def testCodes (s : State) (l : List (Nat × Nat)) : List (Nat × Nat) :=
  if cfgNat s.cfg s.fab (.gen .ageing) = 1 then
    (List.range 16).filterMap (fun i =>
      (l.find? (fun p => tileOf s.fab p.1 == busiestTile s i)).map (fun p => (pixelAt (i * s.fab.disp.width / 16) s.fab.disp.height, p.2)))
  else []

/-- What a source drives for a code of a waveform, in mV (Tables 16.1 and 16.4). -/
def sourceMv (p : DispProfile) (code : Nat) : Int :=
  match code with
  | 1 => (p.vHighMv : Int)
  | 2 => -(p.vHighMv : Int)
  | 3 => (p.vLowMv : Int)
  | _ => 0

/-- The rows of a list of driven pixels, each once, in ascending order, with every source's level: a source without a driven pixel on
the row gives 0 V (R572). -/
def scanOf (f : Fab) (l : List (Nat × Nat)) : List (Nat × List Int) :=
  ((List.range (f.disp.height + 1)).filter (fun y => l.any (fun p => pixelY p.1 == y))).map (fun y =>
    (y, (List.range f.disp.width).map (fun x => ((l.find? (fun p => p.1 == pixelAt x y)).map (fun p => sourceMv f.disp p.2)).getD 0)))

/-- A frame of 20 ms (R572): the rows of driven pixels are selected one at a time; every other pixel of theirs receives 0 V. -/
def execDisplayFrame (s : State) : Out :=
  .next (ifDo (dispDrives s) (fun s =>
    let l := s.disp.slots.toList.flatMap (fun u => (u.map frameCodes).getD [])
    modDisp (fun d => { d with
      scan := scanOf s.fab (l ++ testCodes s l)
      slots := d.slots.map (fun u => u.map (fun x => if x.started && decide (x.frame < x.longest) then { x with frame := x.frame + 1 } else x)) }) s) s)

/-- The stress of an update added to a tile, in 1/16 frame (R576). -/
def addStress (f : Fab) (u : DispUpdate) (v : Vector (BitVec 32) 256) : Vector (BitVec 32) 256 :=
  Vector.ofFn (fun t =>
    let frames := (u.pixels.filter (fun p => tileOf f p.pixel == t)).foldl (fun n p => n + (p.codes.filter (fun c => c != 0)).length) 0
    satAdd 32 v[t] (16 * frames / tilePixels f))

/-- An update has been driven to its end (R569, R572, R576, R579). -/
def execDisplayUpdateEnd (slot : Fin 8) (s : State) : Out :=
  .next (
    match updateIn s slot with
    | none => s
    | some u =>
      if !u.started || u.frame < u.longest then s
      else
        s |> setUpdate slot none
          |> modDisp (fun d => { d with
                current := u.pixels.foldl (fun m p => Memory.write m p.pixel (BitVec.ofNat 8 (p.new + 1))) d.current
                stress := addStress s.fab u d.stress
                startDone := d.startDone || slot == 7 })
          |> (fun t => modDisp (fun d => { d with scan := if anyUpdate t then d.scan else [] }) t)
          |> modDispStore (fun x => { x with updates := x.updates + 1 })
          |> updateDone slot u .ok
          |> (fun t => match t.disp.legalNext with
              | some full => if slot = 7 then t |> modDisp (fun d => { d with legalNext := none }) |> placeLegal full else t
              | none => t)
          |> judgeDisplay)

/-- MET asks for a legal update (R579, R580) on a change, or at its cadence: without a session the two pages alternate in RUN. -/
def execLegalUpdateRequest (s : State) : Out :=
  .next (ifDo (s.met.running && legalDue s) (fun s =>
    requestLegal false (if anySession s || s.pwr.state != .run then 0
      else if legalCadence s then 1 - s.disp.legal.page else s.disp.legal.page) s) s)

/-- A faulty output that unverifies (Table 16.9). -/
def unverifies (s : State) : DispOutput → Bool
  | .source n => decide (n < s.fab.disp.width)
  | .gate n => (decide (legalTop s.fab ≤ n) && decide (n < s.fab.disp.height)) ||
      (n == s.fab.disp.height && cfgNat s.cfg s.fab (.gen .ageing) == 1)
  | .segment n => decide (n < 8)
  | .segCom => true

/-- The gate rows among faulty outputs. -/
def faultyRows (l : List DispOutput) : List Nat :=
  l.filterMap (fun o => match o with
    | .gate n => some n
    | _ => none)

/-- A number put in its place among ascending ones; twice the median of a list. -/
def insertNat (x : Nat) : List Nat → List Nat
  | [] => [x]
  | y :: ys => if x ≤ y then x :: y :: ys else y :: insertNat x ys
def twiceMedian (l : List Nat) : Nat :=
  let t := l.foldr insertNat []
  t.getD ((t.length - 1) / 2) 0 + t.getD (t.length / 2) 0

/-- The outputs of a group that take less than 20 % of its median, which are open, or more than 300 %, which are shorted (R590). SEG_COM
counts in the group of the segments. (log 61, DESIGN CHOICE) -/
def faultyOf (group : List (DispOutput × Nat)) : List DispOutput :=
  let m := twiceMedian (group.map Prod.snd)
  (group.filter (fun p => decide (10 * p.2 < m) || decide (3 * m < 2 * p.2))).map Prod.fst
def numbered (f : Nat → DispOutput) (l : List Nat) : List (DispOutput × Nat) := l.zipIdx.map (fun p => (f p.2, p.1))
def faultyOutputs (c : OutputCharges) : List DispOutput :=
  faultyOf (numbered .source c.sources) ++ faultyOf (numbered .gate c.gates) ++ faultyOf ((.segCom, c.segCom) :: numbered .segment c.segments)

/-- 24 h of RUN have passed since a moment of it (R577, R590). -/
def dayOfRun (s : State) (since : Nat) : Bool := decide (since + secs 86400 ≤ s.disp.runTime)

/-- An output test falls due (R590, Table 16.8): at start, and every 24 h of RUN, when it waits while updates run. -/
def testDue (s : State) : Bool := s.disp.powered && (!s.disp.startTested || (!anyUpdate s && dayOfRun s s.disp.testAt))

/-- An output test judged (R590, Table 16.9). -/
def judgeOutputs (l : List DispOutput) (s : State) : State :=
  let bad := l.any (unverifies s)
  s |> modDisp (fun d => { d with
        startFault := if d.startTested then d.startFault else bad
        testFault := d.startTested && bad
        startTested := true
        testAt := d.runTime
        faulty := l
        badRows := (faultyRows l).filter (fun n => decide (n < legalTop s.fab))
        testRowFault := (faultyRows l).contains s.fab.disp.height })
    |> judgeDisplay

/-- The charges are those of the panel's outputs (R590). -/
def panelFits (s : State) (c : OutputCharges) : Bool :=
  c.sources.length == s.fab.disp.width && c.gates.length == s.fab.disp.height + b1 s.fab.disp.testRow && c.segments.length == 64

/-- An output test (R590). -/
def execOutputTest (charges : OutputCharges) (s : State) : Out :=
  when_ (panelFits s charges)
    (ifDo (testDue s) (judgeOutputs (faultyOutputs charges)) s)

/-- The factor of a column from its test pixel's charge (R577); none for a sensing fault. -/
def sensedFactor (first now : Nat) : Option Rat :=
  if 10 * now < 3 * first ∨ 12 * first < 10 * now ∨ now = 0 then none else some (clampFactor (256 * (first : Rat) / (now : Rat)))

/-- The test pixels measured (R577). -/
def execAgeingSensing (charges : List Nat) (s : State) : Out :=
  when_ (charges.length == 16)
    (ifDo (dispDrives s && cfgNat s.cfg s.fab (.gen .ageing) == 1 && s.fab.disp.testRow && !anyUpdate s
        && ((s.disp.sensedAt).map (dayOfRun s)).getD true) (fun s =>
      let first := fun (i : Fin 16) => (s.dispStore.firstCharge[i]).getD (charges.getD i.val 0)
      s |> modDisp (fun d => { d with sensedAt := some d.runTime, sensed := Vector.ofFn (fun i => sensedFactor (first i) (charges.getD i.val 0)) })
        |> modDispStore (fun x => { x with firstCharge := Vector.ofFn (fun i => some (first i)) })) s)

/-- The stress counters written after 60 min of RUN (R576). -/
def execTileCounterWrite (s : State) : Out :=
  .next (ifDo (s.pwr.state == .run && s.disp.powered && decide (s.disp.tilesAt + secs 3600 ≤ s.disp.runTime)) writeTiles s)

/-- A fault of the display driver die (R591). -/
def execDisplayDieFault (s : State) : Out :=
  .next (ifDo s.disp.powered (fun s => s |> modDisp (fun d => { d with dieFault := true }) |> cutUpdates true |> judgeDisplay) s)

/-- The temperature channel without a usable sample for 10 min (R592). -/
def execTempChannelStale (s : State) : Out :=
  .next (ifDo (passedSince s s.disp.deciCAt (secs 600)) (modDisp (fun d => { d with deciC := none, deciCAt := none })) s)

/-- The crack loop read (05 R180, Table 5.1). -/
def execCrackCheck (ohm : Nat) (s : State) : Out :=
  let bad := if 2000 < ohm then s.wch.crackBad + 1 else 0
  let good := if ohm ≤ 1800 then s.wch.crackGood + 1 else 0
  let now := if 2 ≤ bad then false else if 10 ≤ good then true else s.wch.crackOk
  .next (ifDo (watchOn s) (fun s => s
    |> modWch (fun w => { w with crackOhm := BitVec.ofNat 14 (min ohm 10000), crackBad := bad, crackGood := good, crackOk := now })
    |> ifDo (now != s.wch.crackOk) (fun s => s
        |> ringRecord .crack (!now) none (min ohm 10000)
        |> modWch (fun w => { w with segUrgent := true })
        |> ifDo (!now) (putSegment 6 true)
        |> ifDo (baseRuns s) judgeDisplay)) s)

/-- Every segment re-driven in the colour it shows, once per 24 h (R583). -/
def execSegmentRedrive (s : State) : Out :=
  .next (ifDo (watchOn s && s.wch.segUpdating.isNone && decide (secs 86400 ≤ (s.time.life - s.wch.segRedriven).toNat))
    (modWch (fun w => { beginSegments w.segShown (~~~0) s.time.life w with segUrgent := w.segUrgent, segRedriven := s.time.life })) s)

end Sys2Proof.Machine
end

