-- ==== Sys2Proof/Machine/HostPort.lean ====
section
/-! DEFINITION. The rows of the host port (06 R210 to R236). -/

namespace Sys2Proof.Machine

/-- A write transaction (R210, R212, R217, R221). -/
def execRegisterWrite (opcode : Byte) (addr : BitVec 16) (words : List Word32) (s : State) : Out :=
  when_ (writeShape opcode words.length) (transaction opcode (hostWrite addr.toNat words) s)

/-- An invalid opcode (R211). -/
def execBadOpcode (opcode : Byte) (s : State) : Out :=
  when_ (opInvalid opcode) (transaction opcode (setStatus stBadOpcode) s)

/-- The special opcodes (R211). -/
def execSetCmdWidth (word : Word32) (s : State) : Out :=
  .next (transaction 0x0F (modHif (fun h => { h with cmdWidth := word.setWidth 2 })) s)
def execResetCmdWidth (s : State) : Out := .next (transaction 0xFF (modHif (fun h => { h with cmdWidth := 0 })) s)

/-- The error word (R216). -/
def errorWord : Word32 := 0xEEEE0040

/-- What the port sends after the phases of the transaction. -/
def sendMore (l : List Sent) : State → State := modHif (fun h => { h with sent := h.sent ++ l })

/-- A word of a read (R212, R239): one with an uncorrectable error reads 0 and is reported. -/
def wordFails (r : ReadWord) (a : Nat) (s : State) : Bool :=
  (r.bad || s.mbx.badWords.contains a) && (inCmdWindows a || inEvtWindows a)
def readWord (r : ReadWord) (a : Nat) (s : State) : State :=
  if a % 4 ≠ 0 then sendMore [.data 0] s
  else if wordFails r a s then
    s |> markBad a
      |> memUncorrectable .buffers (Config.regionBase .buffers + BitVec.ofNat 32 (a - 0x1000)) (BitVec.ofNat 32 a)
      |> sendMore [.data 0]
  else sendMore [.data (hostRead s a)] s

/-- The words of a read from an address (R210, R214, R215): busy bytes and a marker before a word that was not ready, and a
marker before the first word. -/
def serveRead : Nat → Bool → List ReadWord → State → State
  | _, _, [], s => s
  | a, first, r :: l, s =>
    s |> sendMore (List.replicate r.busy .busy ++ (if first || r.busy != 0 then [.marker] else []))
      |> readWord r a
      |> serveRead (nextAddr a) false l

/-- A read begins (R209, R212). -/
def beginRead (op : Byte) (a : Nat) (s : State) : State :=
  s |> modHif (fun h => { h with sentBits := opDataBits op }) |> ifDo (a % 4 != 0) (setStatus stUnaligned)

/-- The words of a read are sent as they become ready (R210, R212, R214, R215, R239). -/
def execReadDataReady (opcode : Byte) (addr : BitVec 16) (words : List ReadWord) (s : State) : Out :=
  let a := addr.toNat
  when_ (readShape opcode words.length && readFits a words)
    (transaction opcode (fun s => s |> beginRead opcode a |> serveRead a true words) s)

/-- A busy stretch reaches its limit (R216): the error word stands for that word and every later one. -/
def execBusyTimeout (opcode : Byte) (addr : BitVec 16) (served : List ReadWord) (busy wordsLeft : Nat) (s : State) : Out :=
  let a := addr.toNat
  when_ (timeoutShape opcode a served busy wordsLeft)
    (transaction opcode (fun s => s
      |> beginRead opcode a
      |> serveRead a true served
      |> setStatus stBusyTimeout
      |> sendMore (List.replicate busy .busy ++ .marker :: List.replicate wordsLeft (.data errorWord))) s)

/-! ### The lanes (R208, R213, R214) -/

/-- The bits of a value, most significant first. -/
def msbBits (n v : Nat) : List Bool := (List.range n).reverse.map v.testBit

/-- The lanes of a width, highest first: in x1 the port drives HIF_D1 and listens to HIF_D0 (Table 6.1). -/
def outLanes (n : Nat) : List Nat := if n = 1 then [1] else (List.range n).reverse
def inLanes (n : Nat) : List Nat := if n = 1 then [0] else (List.range n).reverse

/-- Bits put on lanes, one clock after the other: the highest lane carries the most significant bit of each group. -/
def onLanes (lanes : List Nat) (bits : List Bool) : List (List (Nat × Bool)) :=
  (List.range (bits.length / lanes.length)).map (fun i => lanes.zip (bits.drop (i * lanes.length)))

/-- The lanes clock by clock while the port drives an element of a transaction whose data phase has `n` bits per clock. The
busy byte and the marker go out on every active lane. -/
def sentClocks (n : Nat) : Sent → List (List (Nat × Bool))
  | .status b => onLanes [1] (msbBits 8 b.toNat)
  | .pending w => onLanes [1] (msbBits 16 w.toNat)
  | .busy => (msbBits 8 0x5A).map (fun b => (outLanes n).map (fun l => (l, b)))
  | .marker => (msbBits 8 0xC3).map (fun b => (outLanes n).map (fun l => (l, b)))
  | .data w => onLanes (outLanes n) (msbBits 32 w.toNat)

/-- What the lanes carried in the clocks in which the port drove them in the last transaction. -/
def hifLanes (s : State) : List (List (Nat × Bool)) := s.hif.sent.flatMap (sentClocks s.hif.sentBits)

/-- The lanes clock by clock of a word that the host sends. -/
def wordClocks (n : Nat) (w : Word32) : List (List (Nat × Bool)) := onLanes (inLanes n) (msbBits 32 w.toNat)

/-- A transaction cut short (R231, R232). -/
def execEarlySelectRelease (opcode : Byte) (addr : BitVec 16) (words : List Word32) (cut : Cut) (s : State) : Out :=
  when_ (cutShape opcode words.length cut) (transaction opcode (cutWrite opcode addr.toNat words cut) s)

/-- A transaction begun while HIF_RDY is low (R218). -/
def execTransactionNotReady (s : State) : Out := .next (ifDo (!s.hif.rdy) (transaction 0x00 (fun s => s)) s)

/-- The buffer has drained (R217): HIF_RDY is high again while the mailbox unit runs and outside SAVE. -/
def execWriteBufferDrained (s : State) : Out :=
  .next (modHif (fun h => { h with buffered := 0, rdy := h.startStep != 0 && !h.ignored }) s)

/-- Single writes, all x1, of one word with a row of their own (log 83, DESIGN CHOICE; R219, R221, R227, R233). -/
def execCmdDoorbell (word : Word32) (s : State) : Out := .next (transaction 0x08 (hostWrite 0x20 [word]) s)
def execCmdRelease (word : Word32) (s : State) : Out := .next (transaction 0x08 (hostWrite 0x24 [word]) s)
def execEvtAck (word : Word32) (s : State) : Out := .next (transaction 0x08 (hostWrite 0x28 [word]) s)
def execHifStatusClear (word : Word32) (s : State) : Out := .next (transaction 0x08 (hostWrite 0x10 [word]) s)
def execResetKeyAppCores (word : Word32) (s : State) : Out := .next (transaction 0x08 (hostWrite 0x30 [word]) s)
def execResetKeyRstN (word : Word32) (s : State) : Out := .next (transaction 0x08 (hostWrite 0x30 [word]) s)

/-- Firmware raises an event (R225): its payload has at most 512 bytes (R234). -/
def execEventRaise (code : BitVec 16) (fields : Bytes) (s : State) : Out :=
  when_ (decide (fields.length ≤ 492)) (ifDo (baseRuns s) (raiseCode code fields) s)

/-! ### Group 0x01 -/

/-- The variant's code (07 Table 7.3). -/
def variantCode : Variant → Nat
  | .ad => 0
  | .dd => 1
  | .aa => 2

/-- MODULE_VERSION_GET (07 Table 7.3): served by the boot ROM, the application's fields are 0. -/
def execModuleVersionGet (mb : Mailbox) (s : State) : Out :=
  .next (runCommand .moduleVersionGet mb (fun _ s =>
    let boot := s.hif.bootServed || !s.hif.fwReady
    ok (u16 0x0048 ++ u8 3 ++ u8 1 ++ beBytes 8 s.fab.deviceId.toNat ++ u8 (variantCode s.fab.variant) ++ u8 (b1 s.fab.minusE)
      ++ str "C1A2B0A1B1" ++ u8 2 ++ u8 1 ++ u8 (if boot then 0 else 4) ++ u8 (if boot then 0 else Config.appMinor.val)
      ++ u16 (if boot then 0 else Config.appBuild.toNat) ++ u16 (if boot then 0x0001 else 0x0400 + Config.appMinor.val)
      ++ u32 s.fab.bootRomVersion.toNat ++ u8 (lifecycle s) ++ u8 ((s.run.running.map Bank.num).getD 0xFF)
      ++ u8 (b1 s.hif.trial + 2 * b1 s.hif.legalFault + 4 * b1 s.hif.bootServed) ++ u8 0) s) s)

/-- The codes of a list that lie in a group, as a bitmap of 32 bytes (07 R259). -/
def groupMap (group : Nat) (codes : List Nat) : Bytes :=
  leBytes 32 ((codes.filter (fun c => c / 256 == group)).foldl (fun n c => n ||| 2 ^ (c % 256)) 0)

/-- The commands served now (07 R259). -/
def servedCodes (s : State) : List Nat :=
  (Cmd.all.filter (fun c => servesNow s c.code && (!s.hif.bootServed || c.boot))).map Cmd.code

/-- COMMAND_LIST_GET (07 R259). The boot ROM lists every event too (log 91, DESIGN CHOICE). -/
def execCommandListGet (mb : Mailbox) (s : State) : Out :=
  .next (runCommand .commandListGet mb (fun b s =>
    let g := rd b 0 2
    if 0x01 ≤ g ∧ g ≤ 0x10 then ok (groupMap g (servedCodes s)) s
    else if 0x81 ≤ g ∧ g ≤ 0x90 then ok (groupMap g Ev.codes) s
    else refuse .argRange s) s)

/-- MODULE_STATUS_GET (07 Table 7.4). -/
def execModuleStatusGet (mb : Mailbox) (s : State) : Out :=
  .next (runCommand .moduleStatusGet mb (fun _ s =>
    let failed := s.pwr.selfTest == .failed || s.pwr.holdupFailed
    ok (u8 s.hif.power.toNat ++ u8 s.hif.startStep.toNat ++ u8 (lifecycle s)
      ++ u8 (b1 s.hif.legalFault + 2 * b1 s.hif.trial + 4 * b1 s.disp.verified + 8 * b1 failed + 16 * b1 s.time.valid)
      ++ u32 (permitWord s) ++ u8 (latchBits s) ++ u8 0 ++ u16 0 ++ u64 s.time.life.toNat ++ u16 s.legal.epoch.toNat ++ u16 0) s) s)

end Sys2Proof.Machine
end

