-- ==== Sys2Proof/Machine/Idle.lean ====
section
/-! DEFINITION. IDLE, the wake from it (05 R168 to R173, 14 R504, R526, R534, 15 R564), and the rinse (05 R187 to R197). -/

namespace Sys2Proof.Machine

/-! ### Entry into IDLE -/

/-- With `ocpp.idle_mode` at stay the connection keeps the application out of IDLE (15 R564). -/
def staysUp (s : State) : Bool := (ocppVersion s).isSome && cfgNat s.cfg s.fab (.gen .idleMode) == 0

/-- The conditions of R173. -/
def idleMay (s : State) : Bool :=
  appRuns s && cfgNat s.cfg s.fab (.gen .idleAfterS) != 0 && !s.pwr.idleEntry && !anySession s &&
    allDrivers.all (fun d => !(s.pd.drv[d]).permits.app) && s.upd.stage == 0 && !s.hif.trial &&
    s.mbx.cmd.toList.all (fun b => b.state != .pending && b.state != .running) && s.svc.sent.isEmpty && !staysUp s &&
    (s.svc.window.isNone || passedSince s s.svc.window (secs 60))

/-- Leadership of the pair link must be handed over first (14 R526). -/
def leadsPair (s : State) : Bool := (pairPort s).isSome && s.net.pair.role == .leader

/-- With periodic idle mode the connection is closed and the alarm set for the next window (15 R564). -/
def closeForIdle (s : State) : State :=
  if (ocppVersion s).isNone then s
  else
    let was := s.svc.connected
    s |> modSvc (fun v => { v with connected := false, booted := false, held := false, retries := 0, window := none })
      |> ifDo was connectionEvent
      |> modWch (fun w => { w with
          alarmSec := s.time.rtcSec + BitVec.ofNat 33 (cfgNat s.cfg s.fab (.gen .idleWakeS)), alarmEn := true })

/-- The conditions of IDLE have held for `power.idle_after_s` (R173; log 26, DESIGN CHOICE): each AO32 cycle notes since when. -/
def idleHeld (s : State) : Bool := idleMay s && passedSince s s.pwr.idleSince (secs (cfgNat s.cfg s.fab (.gen .idleAfterS)))
def noteIdle (s : State) : State :=
  modPwr (fun p => { p with idleSince := if idleMay s then some (p.idleSince.getD s.time.life) else none }) s

/-- The entry into IDLE (R173): the checkpoint is written to application data MRAM, and MET draws the first legal page (16
R580). A leader of the pair link asks for the swap first. -/
def execIdleEntry (s : State) : Out :=
  .next (
    if !idleHeld s then s
    else if leadsPair s then modPair (fun p => { p with swapAsked := true }) s
    else
      s |> ifDo ((pairPort s).isSome && s.net.pair.role == .follower) (sendFollowing true)
        |> closeForIdle
        |> modPwr (fun p => { p with idleEntry := true })
        |> modApp (fun a => { a with idleCheckpoint := some s.time.life })
        |> writeTiles
        |> requestLegal false 0)

/-- Every power module in the budget leaves it (14 R534). (log 71, DEDUCED) -/
def modulesIdle (s : State) : State :=
  forEach (List.finRange 4) (fun b => forEach (List.finRange 32) (fun n s =>
    if ((s.net.pm[b])[n]).state = 2 then
      s |> modPm b n (fun m => { m with firstGood := false, cycleBegun := false }) |> moduleState b n 1
    else s)) s

/-- The application island is removed (R173; 01 Table 1.5), and with it the crypto engine's work and application SRAM's
samples: HIF_STATE.POWER reads IDLE, and a wake that fired during the entry follows. The pilots are sensed afresh. -/
def execAppIslandRemoved (s : State) : Out :=
  .next (ifDo (s.pwr.idleEntry && s.pwr.state == .run && !anyUpdate s) (fun s => s
    |> modPwr (fun p => { p with
        state := .idle, idleEntry := false, idleSince := none, appIsland := false, modem := ⟨false, false⟩, wakeWaits := false })
    |> modWch (fun w => { w with cpFilter := ⟨{}, {}⟩, ppFilter := ⟨{}, {}⟩ })
    |> modKey (fun k => { k with jobs := [] })
    |> (fun s => { s with ch := s.ch.map (fun c => { c with appPort := {} }) })
    |> changeState (fun h => { h with power := 1 })
    |> ifDo s.pwr.wakeWaits startWake
    |> dieOff
    |> judgeDisplay
    |> modulesIdle) s)

/-! ### The wake -/

/-- The application takes the frames held for it (R171; log 26, DESIGN CHOICE). -/
def takeHeld : State → State := modNet (fun n => { n with port := n.port.map (fun p => { p with taken := p.held, held := [] }) })

/-- The bank that runs still has the CRC-32C recorded at the last start (R169; 18 R643, R644). -/
def bankIntact (s : State) : Bool :=
  match s.run.running with
  | none => true
  | some b => crc32c (bankImage (bankOf s b)) == s.key.boot.crc

/-- The application runs again with its checkpoint (R169, R171), and its timers' held events interrupt it (04 R144); another
digest performs a module power-on reset. -/
def execWakeComplete (s : State) : Out :=
  .next (ifDo (s.pwr.state == .idle && s.hif.power == 2) (fun s =>
    if !bankIntact s then s |> resetBase |> modPwr (fun p => { p with state := .run })
    else
      s |> modPwr (fun p => { p with state := .run, appIsland := true, modem := ⟨true, true⟩ })
        |> changeState (fun h => { h with power := 0 })
        |> takeHeld
        |> presentRepeats
        |> raiseHeldTimers
        |> modDisp (fun d => { d with powered := true })
        |> judgeDisplay) s)

/-- The frames that wake a port (14 R504). -/
def wakesPort (s : State) (p : Fin 4) (kind : WakeFrame) : Bool :=
  match cfgOpt s.cfg s.fab (.port p .wake), kind with
  | some 0, .unicast => true
  | some 1, .magic => true
  | some 2, .pair => true
  | _, _ => false

/-- A frame in IDLE or during a wake is held (R171); one that matches the port's rule wakes the application (14 R504). -/
def execNetworkWakeFrame (port : Fin 4) (kind : WakeFrame) (frame : Bytes) (s : State) : Out :=
  let p : Fin 8 := Fin.ofNat 8 port.val
  .next (ifDo ((s.pwr.state == .idle || s.pwr.idleEntry) && (s.net.port[p]).up &&
      (wakesPort s port kind || s.hif.power == 2)) (fun s => s
    |> modPort p (fun x => { x with held := x.held ++ [frame] })
    |> ifDo (wakesPort s port kind) (fireWake 1)) s)

/-- A MAC answers an ARP request in IDLE without a wake (14 R504). -/
def execArpReplyIdle (port : Fin 4) (s : State) : Out :=
  let p : Fin 8 := Fin.ofNat 8 port.val
  .next (ifDo (s.pwr.state == .idle && (s.net.port[p]).up && hasAddress s port)
    (modPort p (fun x => { x with arpReplies := x.arpReplies + 1 })) s)

/-! ### The rinse -/

/-- The place of a region in the rinse's order. -/
def regionIndex : MemRegion → Fin 14
  | .bankA => 0
  | .bankB => 1
  | .legal => 2
  | .keyStore => 3
  | .configStore => 4
  | .updateControl => 5
  | .safetyMram => 6
  | .appData => 7
  | .appSram => 8
  | .frameStore => 9
  | .metrologySram => 10
  | .safetySram => 11
  | .watchSram => 12
  | .buffers => 13

/-- The sizes of 01 Tables 1.6 and 1.7 in KiB, and the 64-byte granules of a region. -/
def regionKiB : MemRegion → Nat
  | .bankA | .bankB => 4096
  | .legal => 3072
  | .keyStore => 64
  | .configStore => 256
  | .updateControl => 64
  | .safetyMram => 256
  | .appData => 4480
  | .appSram => 2048
  | .frameStore => 1024
  | .metrologySram => 384
  | .safetySram => 256
  | .watchSram => 64
  | .buffers => 320
def granules (r : MemRegion) : Nat := 16 * regionKiB r

/-- Every region in the rinse's order. -/
def allRegions : List MemRegion :=
  [.bankA, .bankB, .legal, .keyStore, .configStore, .updateControl, .safetyMram, .appData, .appSram, .frameStore,
    .metrologySram, .safetySram, .watchSram, .buffers]

/-- The errors that the code of a region corrects: two in an MRAM granule, which detects three (01 R38); one in an SRAM word
(01 R37). More than it detects counts as detected (log 79, DEDUCED). -/
def correctable (r : MemRegion) : Nat := if (regionIndex r).val < 8 then 2 else 1

/-- The granules of all regions, and those read in this pass. -/
def granulesAll : Nat := (allRegions.map granules).sum
def granulesDone (w : Wch) : Nat := w.rinsePos.toList.sum

/-- The pace of R187: the pass takes `mem.rinse_pass_h` of time in RUN and IDLE, so its n-th granule is not read before its
part of that time (log 79, DEDUCED). -/
def rinsePaced (s : State) : Bool :=
  decide (granulesDone s.wch * secs (3600 * cfgNat s.cfg s.fab (.gen .rinsePassH)) ≤ s.wch.rinseTime * granulesAll)

/-- Wear management after a pass over a region (R189; log 89, DESIGN CHOICE): the rings within it move by one granule. -/
def moveRings (r : MemRegion) (s : State) : State :=
  match r with
  | .legal => modLegal (fun l => { l with ringAt := (l.ringAt + 1) % (16 * 512) }) s
  | .appData => modApp (fun a => { a with
      journalAt := (a.journalAt + 1) % granules .appData, queueAt := (a.queueAt + 1) % granules .appData }) s
  | _ => s

/-- The granule of a region passed: at the region's end its rings move, and after the last region the next pass begins. -/
def passGranule (r : MemRegion) (s : State) : State :=
  let i := regionIndex r
  let t := modWch (fun w => { w with rinsePos := vmod w.rinsePos i (· + 1) }) s
  t |> ifDo (t.wch.rinsePos[i] == granules r) (moveRings r)
    |> ifDo (granulesDone t.wch == granulesAll) (modWch (fun w => { w with
        rinsePos := Vector.replicate 14 0, rinseTime := 0, rinsePasses := w.rinsePasses + 1 }))

/-- The rinse erases orphaned slots on its visit (R190). (log 79, DEDUCED) -/
def eraseOrphans (s : State) : State :=
  modKeys (fun k => { k with slots := k.slots.map (fun r => if r.state = .orphaned then {} else r) }) s

/-- A tile counter found uncorrectable restarts at the mean of the others (16 R592). -/
def loseTile (i : Fin 256) (s : State) : State :=
  modDispStore (fun x =>
    let sum := x.stress.toList.foldl (fun n c => n + c.toNat) 0 - (x.stress[i]).toNat
    { x with stress := x.stress.set i (BitVec.ofNat 32 (sum / 255)) }) s

/-- An uncorrectable granule of the legal partition (09 R342, 10 R384, R385): the two log entries in it, a record, a copy of the
registers, the running coefficients, or contents that the next start measures. -/
def loseLegal (part n : Nat) (s : State) : State :=
  let mark := fun (kind last : Nat) => ifDo s.met.running (log 0x0062 noSubject (u8 kind ++ u32 n ++ u32 last))
  match part % 5 with
  | 0 => s |> modLegal (fun l => { l with badEntries := (n, n + 1) :: l.badEntries }) |> mark 0 (n + 1)
  | 1 => s |> modLegal (fun l => { l with badRecords := (n, n) :: l.badRecords }) |> mark 1 n
  | 2 => modLegal (fun l => if n % 2 = 0 then { l with regA := false } else { l with regB := false }) s
  | 3 => modLegal (fun l => { l with coefReadable := false }) s
  | _ => s

/-- Update control (19 R676): a copy of the boot selector, or the block map and the download record. -/
def loseControl (part : Nat) (s : State) : State :=
  match part % 3 with
  | 0 => modUpd (fun u => { u with sel0 := { u.sel0 with valid := false } }) s
  | 1 => modUpd (fun u => { u with sel1 := { u.sel1 with valid := false } }) s
  | _ => if s.upd.stage = 5 then s else discardDownload s

/-- How the owner of a region takes an uncorrectable granule (R197): of application data a tile counter, the local list, or the
cache, which are emptied (15 R562). -/
def regionLost (r : MemRegion) (addr : Word32) (s : State) : State :=
  let g := Config.granule r addr
  match r with
  | .legal => loseLegal g.1 g.2 s
  | .keyStore => if g.1 % 2 = 0 then failSlot (Fin.ofNat 64 g.2) s 
    else modKeys (fun k => if g.2 % 2 = 0 then { k with counterA := false } else { k with counterB := false }) s
  | .configStore => modSlot (Fin.ofNat 4 g.2) (fun x => { x with readable := false }) s
  | .updateControl => loseControl g.1 s
  | .safetyMram | .safetySram => ifDo s.saf.running internalFault s
  | .appData => match g.1 % 4 with
    | 0 => loseTile (Fin.ofNat 256 g.2) s
    | 1 => modApp (fun a => { a with list := [], listVersion := 0 }) s
    | 2 => modApp (fun a => { a with cache := [] }) s
    | _ => s
  | .watchSram => ringRecord .lostRange true none addr.toNat s
  | .buffers =>
    let off := (addr - Config.regionBase .buffers).toNat
    if off < 0x2000 then markBad (0x1000 + off + 4 * (g.2 % 16)) s else s
  | _ => s

/-- The rinse reads the next granule of a region (R187, R190, R197, R203; Table 5.5), until save step 9: a granule with a
foreground write is passed over. -/
def execRinseGranule (region : MemRegion) (outcome : GranuleOutcome) (s : State) : Out :=
  let i := regionIndex region
  let pos := s.wch.rinsePos[i]
  let addr := Config.regionBase region + BitVec.ofNat 32 (64 * pos)
  .next (ifDo (basePowered s && decide (pos < granules region) && rinsePaced s) (fun s => s
    |> (fun s => match outcome with
        | .foreground => s
        | .read n => s
            |> ifDo (region == .keyStore) eraseOrphans
            |> ifDo (decide (0 < n ∧ n ≤ correctable region)) (modWch (fun w => { w with rinsed := bump w.rinsed i }))
            |> ifDo (decide (correctable region < n)) (fun s => s
                |> memUncorrectable region addr 0xFFFFFFFF |> regionLost region addr))
    |> passGranule region) s)

end Sys2Proof.Machine
end

