-- ==== Sys2Proof/Machine/Networks.lean ====
section
/-! DEFINITION. Networks, solar strings, power modules and the pair link (14), row by row. -/

namespace Sys2Proof.Machine

/-! ### Ports -/

/-- A port's link changes (R532): up at a rate that the port serves, in RUN and IDLE; a CAN port that goes down is off its bus
(R507). The errors counted since the last change saturate (07 Table 7.15). -/
def execLinkChange (port : Fin 8) (up : Bool) (kbps errors : Nat) (high : Bool) (s : State) : Out :=
  .next (ifDo (baseRuns s && decide (8 ≤ s.hif.startStep.toNat) && (!up || portServes s port kbps)) (fun s => s
    |> modPort port (fun p => { p with
        busOff := !up && decide (4 ≤ port.val), errors := BitVec.ofNat 16 (min 65535 (p.errors.toNat + errors))
        high := up && linkHigh s port high })
    |> setLink port up (if up then kbps else 0)) s)

/-- A CAN controller restarts after bus-off (R507). -/
def execCanBusOffRestart (n : Fin 4) (s : State) : Out :=
  .next (ifDo (s.net.port[canPort n]).busOff (fun s =>
    s |> modPort (canPort n) (fun p => { p with busOff := false })
      |> setLink (canPort n) true (cfgNat s.cfg s.fab (.can n .dataKbps))) s)

/-- PORT_STATUS_GET (07 Table 7.15). -/
def execPortStatusGet (mb : Mailbox) (s : State) : Out :=
  .next (runCommand .portStatusGet mb (fun _ s =>
    ok ((List.finRange 8).flatMap (fun p =>
      let x := s.net.port[p]
      u8 p.val ++ flag x.up ++ u16 x.errors.toNat ++ u32 x.kbps)) s) s)

/-! ### The string link -/

/-- A POLL attempt to a known optimiser (R510, R511), whose period has passed, 5 ms after the last exchange; polls wait while
discovery runs. -/
def execStringPoll (j : Fin 4) (addr : Word32) (s : State) : Out :=
  .next (
    let x := s.net.str[j]
    let same := match x.attempt with
      | none => true
      | some a => !a.waits && a.addr == addr
    let due := x.attempt.isSome || (x.known.find? (fun o => o.addr == addr)).any (fun o =>
      o.polledAt.isNone || passedSince s o.polledAt (secs (cfgNat s.cfg s.fab (.str j .pollS))))
    ifDo (stringRuns s j && x.rounds == 0 && x.known.any (fun o => o.addr == addr) && same && due && decide (x.freeAt.toNat ≤ s.time.life.toNat))
      (modStr j (fun x => { sendString 1 addr [] x with
        known := if x.attempt.isSome then x.known else modOpt addr (fun o => { o with polledAt := some s.time.life }) x.known
        attempt := some ⟨addr, x.seq + 1, (x.attempt.map (·.tries)).getD 0 + 1, true, s.time.life⟩ })) s)

/-- The content of a STATUS (Table 14.3) taken into an optimiser's record. -/
def takeStatus (life : Life) (b : Bytes) (o : Optimiser) : Optimiser :=
  { o with missed := 0, silent := false, lastAnswer := life, mv := rdI32 b 0, ma := rdI32 b 4
           deciK := BitVec.ofNat 16 (rd b 8 2), flags := BitVec.ofNat 16 (rd b 10 2) &&& 0x1F }

/-- A reply frame (R509, R510): STATUS from the optimiser polled, echoing the sequence. -/
def execStringReply (j : Fin 4) (frame : Bytes) (s : State) : Out :=
  .next (
    match (s.net.str[j]).attempt, parseString frame with
    | some a, some (kind, src, seq, payload) =>
      ifDo (stringRuns s j && a.waits && kind == 2 && src == a.addr && seq == a.seq && payload.length == 16)
        (modStr j (fun x => { x with
          attempt := none, freeAt := s.time.life + BitVec.ofNat 64 (msecs 5)
          known := modOpt a.addr (takeStatus s.time.life payload) x.known })) s
    | _, _ => s)

/-- A poll missed (R511): three in a row mark the optimiser as not answering. -/
def missPoll (o : Optimiser) : Optimiser := { o with missed := o.missed + 1, silent := o.silent || decide (3 ≤ o.missed + 1) }

/-- An attempt fails without a sync word within 20 ms of the request's end (R510, R511): a third failed attempt is a missed
poll. -/
def execStringAttemptTimeout (j : Fin 4) (s : State) : Out :=
  .next (
    let x := s.net.str[j]
    match x.attempt with
    | none => s
    | some a =>
      if !a.waits || !passedSince s (some a.at_) (stringCycles x.sent + msecs 20) then s
      else modStr j (fun x =>
        let y := { x with freeAt := s.time.life + BitVec.ofNat 64 (msecs 5) }
        if a.tries < 3 then { y with attempt := some { a with waits := false } }
        else { y with attempt := none, known := modOpt a.addr missPoll x.known }) s)

/-- An optimiser unanswered for 3,600 s leaves the known list, unless the configuration names it (R511). -/
def execOptimiserRemoved (j : Fin 4) (addr : Word32) (s : State) : Out :=
  .next (modStr j (fun x => { x with
    known := x.known.filter (fun o => o.named || o.addr != addr || !passedSince s (some o.lastAnswer) (secs 3600)) }) s)

/-- A discovery round (R512), at start and once per `pv.discover_s`: the optimisers heard in the 16 slots are enrolled as they
acknowledge, and a garbled slot brings another round, up to eight. -/
def execDiscoveryRound (j : Fin 4) (heard : List (Word32 × Bool)) (garbled : Bool) (s : State) : Out :=
  .next (
    let x := s.net.str[j]
    let due := x.rounds != 0 || x.discoverAt.isNone || passedSince s x.discoverAt (secs (cfgNat s.cfg s.fab (.gen .pvDiscover)))
    ifDo (stringRuns s j && cfgBool s.cfg s.fab (.str j .discover) && !(x.attempt.map (·.waits)).getD false && due) (fun s =>
      s |> modStr j (fun x => { sendString 3 0xFFFFFFFF (u8 16 ++ u8 40 ++ u16 (x.round + 1).toNat) x with
              round := x.round + 1, rounds := if garbled && decide (x.rounds + 1 < 8) then x.rounds + 1 else 0
              discoverAt := if x.rounds = 0 then some s.time.life else x.discoverAt })
        |> forEach (heard.take 16) (fun a => modStr j (enrol s.time.life a))) s)

/-- STRING_STATUS_GET (07 Table 7.15; R513, R517). -/
def execStringStatusGet (mb : Mailbox) (s : State) : Out :=
  .next (runCommand .stringStatusGet mb (fun b s =>
    let n := rd b 0 2
    let first := rd b 2 2
    let j : Fin 4 := Fin.ofNat 4 n
    let all := stringRecords s j
    guards [(decide (3 < n), .argRange), (decide (0 < first) && decide (all.length ≤ first), .argRange)] s <|
      let part := (all.drop first).take 31
      ok (u8 n ++ flag (s.net.str[j]).sending ++ u8 part.length ++ u8 all.length ++ i32 (stringMv s j) ++ i32 (stringMa s j)
        ++ part.flatten) s) s)

/-! ### The keep-alive -/

/-- RSD_KEEPALIVE_SET (07 Table 7.15; R515): the request is stored. -/
def execRsdKeepaliveSet (mb : Mailbox) (s : State) : Out :=
  .next (runCommand .rsdKeepaliveSet mb (fun b s =>
    let m := rd b 0 1
    let a := rd b 1 1
    guards [(decide (15 < m), .argRange), (decide (1 < a), .argRange)] s <|
      ok [] (modNet (fun n => { n with str := Vector.ofFn (fun j : Fin 4 =>
        if m.testBit j.val then { n.str[j] with request := a == 1 } else n.str[j]) }) s)) s)

/-- The keep-alive goes silent (R515): the application's request, the safety core's enable, or the string's
key is gone, or the coupler cannot transmit (Table 14.10). -/
def execKeepaliveStop (j : Fin 4) (coupler : Bool) (s : State) : Out :=
  .next (
    let x := s.net.str[j]
    let causes := (if !x.request || !keepAliveKey s j then [0] else []) ++ (if x.enable && !coupler then [] else [1])
    ifDo (!causes.isEmpty) (silence j causes) s)

/-- The keep-alive resumes (R515). -/
def execKeepaliveResume (j : Fin 4) (s : State) : Out :=
  .next (
    let x := s.net.str[j]
    let rested := match x.silentSince with
      | none => true
      | some l => passedSince s (some l) (secs 10)
    ifDo (baseRuns s && !x.sending && x.request && x.enable && keepAliveKey s j && rested && !domainOut s .per)
      (modStr j (fun x => { x with sending := true, silentSince := none })) s)

/-! ### SunSpec devices -/

/-- A device is named, and the SunSpec port is. -/
def sunRuns (s : State) (k : Fin 8) : Bool :=
  (sunString s k).isSome && (cfgOpt s.cfg s.fab (.gen .sunPort)).isSome && appRuns s

/-- A period of `pv.sunspec_s` has passed since the device's latest one began (R516). -/
def sunDue (s : State) (k : Fin 8) : Bool :=
  let l := (s.net.sun[k]).readAt
  l.isNone || passedSince s l (secs (cfgNat s.cfg s.fab (.gen .sunS)))

/-- A device read (R516): the points that its SunSpec map holds, scaled (R517). -/
def execSunspecRead (k : Fin 8) (points : SunPoints) (s : State) : Out :=
  .next (ifDo (sunRuns s k && ((s.net.sun[k]).repeats != 0 || sunDue s k))
    (modSun k (fun d => { record := some (sunScaled points), readAt := if d.repeats = 0 then some s.time.life else d.readAt })) s)

/-- A request unanswered after 1 s (R516, R517): it is repeated twice, then the period has failed. -/
def execSunspecTimeout (k : Fin 8) (s : State) : Out :=
  .next (ifDo (sunRuns s k && ((s.net.sun[k]).repeats != 0 || sunDue s k)) (modSun k (fun d =>
    let at_ := if d.repeats = 0 then some s.time.life else d.readAt
    if d.repeats < 2 then { d with repeats := d.repeats + 1, readAt := at_ }
    else { d with repeats := 0, failed := d.failed + 1, readAt := at_ })) s)

/-! ### Power modules -/

/-- A SETPOINT cycle of a bus, once per `pm.cycle_ms` (R518 to R520); off its bus the port sends nothing, and the cycle counts
all the same (Table 14.10). -/
def execPmSetpointCycle (bus : Fin 4) (s : State) : Out :=
  let due := (s.net.pmAt[bus]).isNone || passedSince s s.net.pmAt[bus] (msecs (cfgNat s.cfg s.fab (.gen .pmCycle)))
  .next (ifDo (isPower s bus && appRuns s && !domainOut s .per && due) (fun s => s
    |> modNet (fun x => { x with pmAt := vmod x.pmAt bus (fun _ => some s.time.life) })
    |> forEach (busNodes s bus) (fun n t =>
      let q := ((s.net.pm[bus])[n]).seq + 1
      let f := nodeSetpoint s bus n q
      let t := modPm bus n (fun m => { m with quiet := if m.state = 0 then 0 else m.quiet + 1 }) t
      if (s.net.port[canPort bus]).busOff then t
      else t |> modPm bus n (fun m => { m with seq := q, sent := f, cycleBegun := m.firstGood })
        |> enqueue (canPort bus) .session (canFrame 1 n.val f))) s)

/-- A STATUS payload (R520, Table 14.5). -/
def takeModule (b : Bytes) (m : Module) : Module :=
  { m with quiet := 0, mv := rdI32 b 4, ma := rdI32 b 8, availW := rd b 12 4, deciK := BitVec.ofNat 16 (rd b 16 2) }

/-- A module enters the budget (R520): the capability rises. -/
def admitModule (b : Fin 4) (n : Fin 32) (s : State) : State :=
  s |> moduleState b n 2 |> (fun s => match nodeOutlet s b n with
    | none => s
    | some o => retarget o false s)

/-- A STATUS arrives (R520): it may lose the module, or bring it into the budget after one full status cycle. -/
def execPmStatusReceive (bus : Fin 4) (node : Fin 32) (payload : Bytes) (s : State) : Out :=
  .next (
    let m := (s.net.pm[bus])[node]
    let st := rd payload 0 1
    let q := BitVec.ofNat 8 (rd payload 1 1)
    ifDo (isPower s bus && appRuns s && !domainOut s .per && payload.length == 32 && node.val != 0 && m.state != 0) (fun s =>
      if st = 3 ∨ rd payload 2 2 ≠ 0 ∨ 3 < (m.seq - q).toNat then
        s |> modPm bus node (takeModule payload) |> loseModule bus node
      else
        let good := st == 1 && q == m.seq
        let t := modPm bus node (fun x => { takeModule payload x with firstGood := x.state == 1 && good
                                                                      cycleBegun := x.cycleBegun && good }) s
        if m.state = 1 then (if good && m.firstGood && m.cycleBegun then admitModule bus node t else t)
        else match nodeOutlet t bus node with
          | none => t
          | some o => retarget o false t) s)

/-- An IDENT arrives (R520): the module is readmitting at zero. -/
def execPmIdentReceive (bus : Fin 4) (node : Fin 32) (payload : Bytes) (s : State) : Out :=
  .next (ifDo (isPower s bus && appRuns s && !domainOut s .per && payload.length == 32 && rd payload 0 1 == 1 && node.val != 0) (fun s =>
    let was := ((s.net.pm[bus])[node]).state
    s |> modPm bus node (fun m => { m with
          identity := BitVec.ofNat 64 (beNat ((payload.drop 4).take 8)), ratedW := rd payload 12 4, maxMv := rdI32 payload 16
          maxMa := rdI32 payload 20, minMa := rdI32 payload 24, firstGood := false, cycleBegun := false, quiet := 0 })
      |> moduleState bus node 1
      |> ifDo (was == 2) (capabilityFell (nodeOutlet s bus node))) s)

/-- A module misses three cycles (R520). -/
def execPmLost (bus : Fin 4) (node : Fin 32) (s : State) : Out :=
  .next (ifDo (decide (3 ≤ ((s.net.pm[bus])[node]).quiet)) (loseModule bus node) s)

/-- POWER_MODULE_STATUS_GET (07 Table 7.15): the limit is the power limit of the latest SETPOINT (log 24, DESIGN CHOICE). -/
def execPowerModuleStatusGet (mb : Mailbox) (s : State) : Out :=
  .next (runCommand .powerModuleStatusGet mb (fun b s =>
    let n := rd b 0 2
    guards [(decide (3 < n), .argRange)] s <|
      let bus : Fin 4 := Fin.ofNat 4 n
      let l := busNodes s bus
      ok (u8 n ++ u8 l.length ++ u16 0 ++ l.flatMap (fun k =>
        let m := (s.net.pm[bus])[k]
        u8 k.val ++ u8 m.state ++ u16 m.deciK.toNat ++ i32 m.mv ++ i32 m.ma ++ u32 (rd m.sent 12 4))) s) s)

/-! ### The pair link -/

/-- The pair link runs. -/
def pairRuns (s : State) : Bool := (pairPort s).isSome && appRuns s

/-- A pair frame sent (R522). -/
def execPairFrameSend (s : State) : Out :=
  .next (ifDo (pairRuns s) (fun s => if s.net.pair.role = .follower then sendFollowing false s else sendLeading s) s)

/-- A pair frame arrives (R522 to R526). -/
def execPairFrameReceive (frame : Bytes) (s : State) : Out :=
  .next (
    if !pairRuns s then s
    else match parsePair s frame with
      | none => s
      | some x =>
        let t := modPair (fun p => { p with
            peer := some x.id, known := some x.id, lastFrame := some x.number, lastLife := s.time.life
            peerPriority := x.priority, peerClaims := if x.role = 0 then .leader else if x.role = 1 then .follower else .alone
            peerRequest := if x.role = 0 then p.peerRequest else x.share, peerConsumption := x.consumption, peerSolo := x.solo
            peerIdle := x.flags.getLsbD 2 }) s
        match s.net.pair.role with
        | .alone =>
          if x.role = 0 then t |> takeRole .follower |> followerTakes x
          else if x.role = 1 then t |> takeRole .leader |> leaderTakes x
          else takeRole (if wins t then .leader else .follower) t
        | .leader => leaderTakes x t
        | .follower => followerTakes x t)

/-- Frame H (R525): leadership moves. -/
def execPairHandover (s : State) : Out :=
  .next (
    match s.net.pair.handover with
    | none => s
    | some h =>
      if !pairRuns s || s.net.pair.role = .alone then s
      else s |> modPair (fun p => { p with frame := h - 1 }) |> swapRoles)

/-- No valid pair frame for 100 ms (R524, R532): the module is alone. A peer known to be idle is not lost
(R526). A follower falls to its solo share; a leader keeps its share. -/
def execPeerLost (s : State) : Out :=
  .next (
    let p := s.net.pair
    if p.peer.isNone || p.peerIdle || !passedSince s (some p.lastLife) (msecs 100) then s
    else
      s |> modPair (fun p => { p with
            role := .alone, peer := none, lastFrame := none, owns := false, handover := none, ceding := false, swapAsked := false
            askedIn := none, peerAsked := none, retryFrame := none, reduction := false, protective := false
            lostAt := if p.role = .leader then some s.time.life else none })
        |> takePairKeys
        |> (fun t => ifDo (p.role == .follower) (setShare (min p.ownShare t.net.pair.soloShare) true) t)
        |> answerSwaps .pairAbsent
        |> pairRoleEvent 2)

/-- 5 s after the peer is lost a leader raises its share to the budget less the peer's solo share (R532). -/
def execLeaderShareRaise (s : State) : Out :=
  .next (ifDo (passedSince s s.net.pair.lostAt (secs 5)) (fun s =>
    let p := s.net.pair
    s |> modPair (fun p => { p with lostAt := none }) |> setShare (max p.ownShare (p.budget - p.peerSolo)) false) s)

/-- PAIR_ROLE_SWAP_REQUEST (07 Table 7.15; R525, R530): it completes at the handover. With an idle peer it is answered as without
one (log 91, DESIGN CHOICE). -/
def execPairRoleSwapRequest (mb : Mailbox) (s : State) : Out :=
  .next (runCommand .pairRoleSwapRequest mb (fun _ s =>
    let p := s.net.pair
    let next := if p.role = .leader then p.frame + 1 else p.lastFrame.getD 0 + 1
    guards [(p.role == .leader && (p.reduction || p.handover.isSome), .state),
        (p.role == .alone || p.peer.isNone || p.peerIdle, .pairAbsent), (!mayAsk p next, .swapCollision)] s <|
      .defer (modPair (fun p => { p with swapAsked := true, waiting := p.waiting ++ [⟨mb, none⟩] }) s)) s)

/-- PAIR_STATUS_GET (07 Table 7.15). -/
def execPairStatusGet (mb : Mailbox) (s : State) : Out :=
  .next (runCommand .pairStatusGet mb (fun _ s =>
    let p := s.net.pair
    ok (u8 (roleNow p.role) ++ flag p.peer.isSome ++ u16 p.priority ++ u32 p.budget ++ beBytes 8 (p.peer.getD 0).toNat
      ++ u32 p.ownShare ++ u32 p.peerShare) s) s)

end Sys2Proof.Machine
end

