-- ==== Sys2Proof/Machine/Power.lean ====
section
/-! DEFINITION. Supplies, hold-up and resets (03, 01 Table 1.11): VAUX, the save, the self-test, rail faults and RST_N. -/

namespace Sys2Proof.Machine

/-! ### VAUX -/

/-- The module is supplied: the control base is powered, in or out of its reset. -/
def baseSupplied (s : State) : Bool := s.pwr.state == .run || s.pwr.state == .idle

/-- VAUX is back for the debounce time (R109, R119): in SAVE the start follows the save; in WATCH and OFF the module is
held in its power-on reset until its rails are in regulation. A control base held unpowered waits until VAUX was removed (R114). -/
def execVauxStartDebounced (vauxMv : Nat) (s : State) : Out :=
  let held := s.pwr.baseHeldOff && s.pwr.vauxUp
  .next (s |> modPwr (fun p => { p with vauxMv, vauxUp := true })
    |> ifDo ((s.pwr.state == .watch || s.pwr.state == .off) && !held) (modPwr (fun p => { p with
          state := .run, inReset := true, railFaults := if p.baseHeldOff then [] else p.railFaults, baseHeldOff := false })))

/-- The overvoltage cut (R96): all coil drive falls with cause VAUX_OV and every load switch turns off. -/
def execVauxOvCut (vauxMv : Nat) (s : State) : Out :=
  .next (s |> modPwr (fun p => { p with vauxMv })
    |> ifDo (baseSupplied s) (fun s => s
        |> modPwr (fun p => { p with ovCut := true })
        |> withdraw allDrivers [] causeVauxOv
        |> applyLs
        |> raise .vauxHigh (u32 vauxMv)))

/-- The release (R96): load switches return to their commanded states. -/
def execVauxOvRelease (vauxMv : Nat) (s : State) : Out :=
  .next (s |> modPwr (fun p => { p with vauxMv, ovCut := false }) |> applyLs)

/-- VAUX below 18 V for 100 ms (R96). -/
def execVauxLow (vauxMv : Nat) (s : State) : Out :=
  .next (s |> modPwr (fun p => { p with vauxMv }) |> ifDo (baseRuns s) (raise .vauxLow (u32 vauxMv)))

/-! ### The save -/

/-- VAUX below the power-fail warning for the filter time (R96, R108, R109, R123): the save begins in RUN and IDLE; in SAVE it
goes on, and VAUX is no longer back. -/
def execSaveEntry (clamped : BitVec 32) (cut : Option HifCut) (s : State) : Out :=
  .next (s |> modPwr (fun p => { p with vauxUp := false })
    |> ifDo (baseSupplied s) (beginSave (fun n => some (clamped.getLsbD n.val)) cut))
/-- The capacitor at a voltage that the save has left. -/
def drainTo (mv : Nat) : State → State := modPwr (fun p => { p with capMv := min p.capMv mv, capRem := 0 })
/-- The save has ended (R109): every item and the record are written, and the control base is switched off or restarted. -/
def execSaveComplete (capMv : Nat) (s : State) : Out :=
  .next (ifDo (s.pwr.state == .save) (fun s => s
    |> runSave 8 0 |> drainTo capMv |> writeSave .complete 9 |> afterSave) s)
/-- The capacitor reaches 11 V (R116): the running step stops, and the record holds the step reached. -/
def execLastCall (step items : Nat) (s : State) : Out :=
  .next (ifDo (s.pwr.state == .save) (fun s => s
    |> runSave step items |> drainTo 11000 |> (fun s => writeSave .endedAt s.wch.saveStep s) |> afterSave) s)
/-- The capacitor reaches 9 V before the record is complete (R116): the record keeps its last copy, and the step's number
in watch retained SRAM tells the next start. -/
def execConverterStop (step items : Nat) (s : State) : Out :=
  .next (ifDo (s.pwr.state == .save) (fun s => s |> runSave step items |> drainTo 9000 |> afterSave) s)
/-! ### The hold-up capacitor -/

/-- The outcome of a self-test (Table 3.5). -/
def selfTestOutcome (uF mOhm uA : Nat) : SelfTest :=
  if uF < 235 ∨ 1000 < mOhm ∨ 500 < uA then .failed else if uF < 282 then .worn else .pass


/-- The self-test ends with a result (R103): it is recorded and reported, and start step 9 may follow. -/
def endSelfTest (r : SelfTest) (uF mOhm uA : Nat) (s : State) : State :=
  let fields := u32 uF ++ u32 mOhm ++ u32 uA
  s |> modPwr (fun p => { p with selfTest := r, uF, mOhm, uA })
    |> ifDo (r != .pass) (fun s => { s with safStore := { s.safStore with holdup := some (uF, mOhm, uA) } })
    |> ifDo (r == .worn) (raise .holdupWorn fields)
    |> ifDo (r == .failed) (fun s => s
        |> raise .holdupFailed fields
        |> ifDo s.met.running (log 0x0052 noSubject (u16 uF))
        |> showOutOfService)
    |> changeState (fun h => if h.startStep = 8 then { h with startStep := 9 } else h)
/-- The self-test measures the capacitor (R103, R120), and the charger restores 33 V. -/
def execHoldupSelftestComplete (uF mOhm uA : Nat) (s : State) : Out :=
  .next (ifDo (baseRuns s && s.pwr.selfTest == .pending) (fun s => s
    |> modPwr (fun p => { p with capMv := 33000, capRem := 0 })
    |> endSelfTest (selfTestOutcome uF mOhm uA) uF mOhm uA) s)
/-- The capacitor has not reached 31 V within 500 ms (R120): no leakage and no ESR are measured, and both are reported and
recorded as 0 (log 86, DESIGN CHOICE). -/
def execHoldupSelftestTimeout (uF capMv : Nat) (s : State) : Out :=
  .next (ifDo (baseRuns s && s.pwr.selfTest == .pending) (fun s => s
    |> modPwr (fun p => { p with capMv := min capMv 30999, capRem := 0 })
    |> endSelfTest .failed uF 0 0) s)
/-- The capacitor below 31 V for 100 ms with VAUX present (R115). -/
def execHoldupLow (capMv : Nat) (s : State) : Out :=
  .next (s |> modPwr (fun p => { p with capMv, capRem := 0 })
    |> ifDo (baseRuns s && s.pwr.selfTest != .pending && !s.pwr.holdupFailed) (fun s => s
        |> modPwr (fun p => { p with holdupFailed := true })
        |> raise .holdupFailed (u32 s.pwr.uF ++ u32 s.pwr.mOhm ++ u32 s.pwr.uA)
        |> showOutOfService
        |> forEach (Outlet.all.filter (sessionOpen s)) (fun o => stopSession o .holdupFailed .normal)))
/-! ### Resets -/

/-- A rail leaves its tolerance (R114): PERMIT_WCH falls, the save runs, and a module power-on reset follows. -/
def execRailFault (s : State) : Out :=
  .next (ifDo (baseSupplied s) (fun s => s
    |> withdraw allDrivers [.wch] causeRail
    |> railFaultNow
    |> modPwr (fun p => { p with resetAfterSave := true })
    |> beginSave (fun _ => none) none) s)

/-- A low pulse of RST_N of 10 µs or more resets, one of 1 µs or less never does (20 Table 20.9; log 29, DESIGN CHOICE). -/
def rstResets (lowNs : Nat) (s : State) : Bool := decide (10000 ≤ lowNs) || (decide (1000 < lowNs) && Config.rstReset s.nd)

/-- RST_N low (01 Table 1.11; R112, R114): ignored in SAVE and WATCH, but for a control base held unpowered. -/
def execRstNLow (lowNs : Nat) (held : Bool) (s : State) : Out :=
  let t := s |> modPwr (fun p => { p with rstNLow := held }) |> ifDo (decide (1000 < lowNs ∧ lowNs < 10000)) draw
  .next (
    if !rstResets lowNs s then t
    else if baseSupplied s then t |> resetBase |> modPwr (fun p => { p with state := .run })
    else if s.pwr.baseHeldOff && s.pwr.vauxUp then modPwr (fun p => { p with state := .run, inReset := true, baseHeldOff := false, railFaults := [] }) t
    else t)

/-- Loss of every supply (01 Table 1.11; 04 R163; 05 Table 5.6): everything but MRAM is cleared. -/
def execWatchDomainPor (s : State) : Out :=
  .next { resetBase s with time := {}, wch := {}, pd := {}, tb := {}, pwr := { state := .off, vauxMv := 0, vauxUp := false } }

/-- A start below -25 °C that has not completed step 8 within 2 s begins again (R121). -/
def execStartRepeat (s : State) : Out :=
  .next (ifDo (!s.fab.minusE && s.pwr.state == .run && !s.hif.fwReady && !s.hif.bootServed) (fun s => s
    |> resetBase |> modPwr (fun p => { p with repeats := p.repeats + 1 })) s)

/-- A core reset of the application cores (01 R47), and one by their watchdog. -/
def execAppCoreReset (s : State) : Out := .next (ifDo (coresPowered s) appReset s)
def execAppWatchdogExpiry (s : State) : Out := .next (ifDo (coresPowered s) appReset s)

end Sys2Proof.Machine
end

