-- ==== Sys2Proof/Machine/SafetyFns.lean ====
section
/-! DEFINITION. The rows of the safety functions (12 R429 to R445, R461, R462; 20 R701). -/

namespace Sys2Proof.Machine

/-- A tier's count of cycles (R430). -/
def tierNext (n : Nat) (hit : Bool) : Nat := if hit then n + 1 else 0

/-- SF01 after a mains cycle (R429, R430, Table 12.3), from the words that SAF may use (R440): their mean at the sensor's
sensitivity, in µA, and their RMS. A SAT sample counts as beyond every tier (R429). -/
def rcdNext (mvPerMa : Nat) (ws : List Word32) (r : Rcd) : Rcd :=
  let n := ws.length
  let vs := ws.map wordValue
  let scale := 8388608 * mvPerMa
  let sum := vs.foldl (· + ·) 0
  let squares := (vs.map (fun v => v.natAbs * v.natAbs)).foldl (· + ·) 0
  let hit := fun (ua : Nat) => ws.any wordSat || decide (ua * (n * scale) ≤ 2500000 * sum.natAbs)
  if n = 0 then r
  else { r with
    meanUa := (2500000 * sum).tdiv (n * scale), rmsUa := isqrt (2500000 * 2500000 * squares / (n * scale * scale))
    tier1 := tierNext r.tier1 (hit 4500), tier2 := tierNext r.tier2 (hit 45000), tier3 := tierNext r.tier3 (hit 150000) }

/-- A tier's count is reached (Table 12.3). -/
def rcdTrips (r : Rcd) : Bool := 400 ≤ r.tier1 || 10 ≤ r.tier2 || 2 ≤ r.tier3

/-- A word that the safety core uses (R440). -/
def safUsable (w : Word32) : Bool := !w.getLsbD 5 && !w.getLsbD 3

/-- A mains cycle of residual direct current (R429, R430): the newest 256 words of SAF's own port. -/
def execResidualDcCycle (o : Outlet) (s : State) : Out :=
  let ws := (portWords s.ch[(Fin.ofNat 48 (outNat s o .rcdChannel) : Channel)].safPort 256).filter safUsable
  let r := rcdNext (outNat s o .rcdMvPerMa) ws (s.saf.out.get o).rcd
  .next (ifDo (hasRcd s o && s.saf.running) (fun s => s
    |> modSaf o (fun x => { x with rcd := r })
    |> ifDo (rcdTrips r) (safTrip (driversOf o) causeResidual)) s)

/-- The sensor's reference over 30 ms, in per mille of its full scale (R431). -/
def execRcdRefOut (o : Outlet) (perMille : Nat) (s : State) : Out :=
  let out := decide (perMille < 400) || decide (600 < perMille)
  .next (ifDo (hasRcd s o && s.saf.running) (fun s => s
    |> modSaf o (fun x => { x with rcd := { x.rcd with refOut := out } })
    |> ifDo out (safTrip (driversOf o) causeRcdSensor)) s)

/-- The sensor test's verdict (R431): a rise of 10 ± 3 mA and a winding of 1 to 200 Ω. -/
def rcdTestPasses (riseUa : Int) (windingOhm : Nat) : Bool :=
  decide (7000 ≤ riseUa) && decide (riseUa ≤ 13000) && decide (1 ≤ windingOhm) && decide (windingOhm ≤ 200)

/-- A sensor test (R431): a failed one refuses the closing with RCD_SENSOR; a session that waited for the test goes on. -/
def execRcdSensorTest (o : Outlet) (riseUa : Int) (windingOhm : Nat) (s : State) : Out :=
  let good := rcdTestPasses riseUa windingOhm
  .next (ifDo (hasRcd s o && s.saf.running) (fun s => s
    |> modSaf o (fun x => { x with rcd := { x.rcd with
          passed := if good then some s.time.life else x.rcd.passed, failed := !good, refOut := x.rcd.refOut } })
    |> ifDo (!good) (safTrip (driversOf o) causeRcdSensor)
    |> ifDo good (advance o)) s)

/-- The insulation monitor's check of itself (R433): the leg changes the PE potential by the computed amount within 10 %. -/
def execImdSelfCheck (o : Outlet) (changeMv computedMv : Nat) (s : State) : Out :=
  let good := decide (10 * ((changeMv : Int) - computedMv).natAbs ≤ computedMv)
  .next (ifDo (isDc s o && s.saf.running) (fun s => s
    |> modSaf o (fun x => { x with imd := { x.imd with
          checked := if good then some s.time.life else x.imd.checked, checkFailed := !good } })
    |> ifDo (!good) (safTrip (driversOf o) causeInsulation)) s)

/-- The PE loop's limit in mΩ; none where SF04 does not run (R434). -/
def peLimit (s : State) (o : Outlet) : Option Nat :=
  (outOpt s o .peChannel).map (fun _ => 100 * outNat s o .peMaxTenths)

/-- The PE loop as measured over 100 ms (R434, Table 12.2). -/
def execPeLoopFault (o : Outlet) (loopMilliohm : Nat) (s : State) : Out :=
  .next (
    match peLimit s o with
    | none => s
    | some limit =>
      ifDo s.saf.running (fun s =>
        let bad := decide (limit < loopMilliohm)
        s |> modSaf o (fun x => { x with
                loopMilliohm, peFault := bad
                peGood := if bad then none else x.peGood.orElse (fun _ => some s.time.life) })
          |> ifDo bad (safTrip (driversOf o) causePe)) s)

/-- The N channel's and the phases' fundamentals over `safety.pen_time_ms` (R435, Table 12.2). -/
def execPenFault (nPeMv phasePeMv : Nat) (s : State) : Out :=
  let bad := decide (1000 * cfgNat (safCfg s) s.fab (.gen .penV) < nPeMv) ||
    decide (115 * s.fab.profile.sel.supply.unMv < 100 * phasePeMv)
  .next (ifDo (penRuns s && s.saf.running) (fun s => s
    |> modSafCore (fun c => { c with
          penFault := bad, penGood := if bad then none else c.penGood.orElse (fun _ => some s.time.life) })
    |> ifDo bad (safTrip allDrivers causePen)) s)

/-- A sensor's record after a reading (R436). -/
def tempNext (trip : Nat) (deciC : Int) (t : TempSensor) : TempSensor :=
  { t with deciC
           overRun := if 10 * (trip : Int) ≤ deciC then t.overRun + 1 else 0
           faultRun := if deciC < -500 ∨ 2000 < deciC then t.faultRun + 1 else 0 }

/-- The derating of a reading in per mille (R436). -/
def derateOf (derate trip : Nat) (deciC : Int) : Nat :=
  if deciC ≤ 10 * (derate : Int) then 1000
  else if 10 * (trip : Int) ≤ deciC then 0
  else ((10 * (trip : Int) - deciC) * 100 / ((trip : Int) - derate)).toNat

/-- A terminal temperature read (R436): the derating is a safety reduction (11 R410). (log 80, DEDUCED) -/
def execTemperatureReading (o : Outlet) (sensor : Nat) (deciC : Int) (s : State) : Out :=
  let trip := outNat s o .tempTripC
  let derate := outNat s o .tempDerateC
  let named := (cfgItems (outCfg s o) s.fab (.out o .tempChannels)).contains sensor
  let old := (s.saf.out.get o).temps
  let t := tempNext trip deciC ((old.find? (fun t => t.sensor == sensor)).getD ⟨sensor, 0, 0, 0⟩)
  let temps := t :: old.filter (fun t => t.sensor != sensor)
  .next (ifDo (named && s.saf.running) (fun s => s
    |> modSaf o (fun x => { x with temps, derate := (temps.map (fun t => derateOf derate trip t.deciC)).foldl min 1000 })
    |> retarget o true
    |> ifDo (decide (5 ≤ t.overRun) || decide (5 ≤ t.faultRun)) (safTrip (driversOf o) causeOvertemp)) s)

/-- SF08's limit in mV: the vehicle's maximum, plus 2 %, plus 5 V (R437). -/
def overvoltageLimit (v : VehLimits) : Nat := v.maxMv + v.maxMv / 50 + 5000

/-- The outlet voltage over 20 ms (R437). -/
def execDcOvervoltage (o : Outlet) (outletMv : Nat) (s : State) : Out :=
  .next (
    match (s.veh.out.get o).veh with
    | none => s
    | some v => ifDo (isDc s o && s.saf.running && decide (overvoltageLimit v < outletMv)) (fun s => s
        |> modSaf o (fun x => { x with outletMv })
        |> safTrip (driversOf o) causeOvervoltage) s)

/-- The outlet voltage 1 s after the contactors report open (R438). -/
def execDischargeCheck (o : Outlet) (outletMv : Nat) (s : State) : Out :=
  .next (ifDo (isDc s o && s.saf.running) (fun s => s
    |> ifDo ((s.saf.out.get o).dischargeDue && decide (60000 ≤ outletMv)) (safTrip (driversOf o) causeDischarge)
    |> modSaf o (fun x => { x with outletMv, dischargeDue := false })
    |> modOut o (fun x => { x with outletMv })
    |> settle o) s)

/-- A safety input without a usable sample for 100 ms (R440). -/
def execInputUnavailable (ch : Channel) (s : State) : Out :=
  let outs := Outlet.all.filter (fun o => usesChannel s o ch)
  .next (ifDo (!outs.isEmpty && s.saf.running && passedSince s s.ch[ch].lostSince (msecs 100)) (fun s => s
    |> modSafCore (fun c => { c with
          lost := if c.lost.contains ch then c.lost else c.lost ++ [ch]
          lostGood := c.lostGood.filter (fun p => p.1 != ch) })
    |> safTrip (outs.flatMap driversOf) causeInput) s)

/-- A divider channel and its second source differ by more than R441's limit in the situation of the outlet. On DC with open
contactors, `converter` says that the modules' voltage is the second source of the converter's side. -/
def dividerBad (o : Outlet) (converter : Bool) (readMv secondMv : Nat) (s : State) : Bool :=
  let off := ((readMv : Int) - secondMv).natAbs
  if contactorsClosed s o then
    if isDc s o then decide (secondMv + 250000 < 50 * off) else decide ((outProfile s o).unMv < 20 * off)
  else if converter then isDc s o && decide (secondMv + 200000 < 20 * off)
  else (s.veh.out.get o).cp == .a && decide (60000 ≤ readMv)

/-- A divider channel and its second source over 300 ms (R441). -/
def execDividerPlausibility (o : Outlet) (converter : Bool) (readMv secondMv : Nat) (s : State) : Out :=
  .next (ifDo (s.saf.running && dividerBad o converter readMv secondMv s) (fun s => s
    |> modSafCore (fun c => { c with
          divider := c.divider.modify o (fun _ => true), dividerGood := c.dividerGood.modify o (fun _ => none) })
    |> safTrip (driversOf o) causeInput) s)

/-- The weld check of a driver with its coil off (R444): the coil current 5 ms after the drive's removal, the time at which the
mirror reported open, and the outlet's phases after 200 ms. At an opening a failure of step 2 or 3 trips the outlet; the time
since which they hold decides a re-arm. -/
def execWeldCheck (d : Driver) (coilMa : Nat) (mirrorMs : Option Nat) (phasesMv : List Nat) (s : State) : Out :=
  let o := outletOf d
  let due := s.pd.drv[d].weldDue
  let inTime := match mirrorMs with
    | none => false
    | some m => !due || decide (m ≤ cfgNat (outCfg s o) s.fab (.cd d .mirrorMs))
  let good := inTime && (isDc s o || phasesMv.all (fun v => decide (v < 50000)))
  .next (ifDo (s.pd.drv[d].phase == .off && s.saf.running) (fun s => s
    |> modDrv d (fun r => { r with
          coilMa, weldDue := false, weldFailed := !good
          weldGoodSince := if good then r.weldGoodSince.orElse (fun _ => some s.time.life) else none })
    |> ifDo (due && !good) (fun s => s
          |> modWear (fun w => { w with weldFails := bump w.weldFails d })
          |> weldTrip o)
    |> settle o) s)

/-- The lands of an idle driver, or the coil current of a driven one, read back (R445, 13 R487). -/
def execCoilReadback (d : Driver) (hMv lMv coilMa : Nat) (s : State) : Out :=
  let r := s.pd.drv[d]
  let shorted := decide (s.pwr.vauxMv ≤ hMv + 3000) || decide (s.pwr.vauxMv ≤ lMv + 3000) ||
    decide (hMv < 3000) || decide (lMv < 3000) || decide (r.holdMa < 20 * coilMa)
  let offBand := r.phase == .hold && r.economiser && (decide (10 * coilMa < 8 * r.holdMa) || decide (12 * r.holdMa < 10 * coilMa))
  .next (ifDo (baseRuns s) (fun s => s
    |> modDrv d (fun r => { r with coilMa })
    |> ifDo (r.phase == .off && shorted) (fun s => s
          |> modDrv d (fun r => { r with heldOff := true })
          |> safTrip [d] causeCoilDriver)
    |> ifDo offBand (fun s => s |> withdrawApp (outletOf d) |> enterFault (outletOf d) .contactor)) s)

/-- 3 s after a trip the forced state F changes to constant +12 V (R427). -/
def execCpForceFEnd (o : Outlet) (s : State) : Out :=
  .next (ifDo (passedSince s (some (s.veh.out.get o).forceSince) (secs 3))
    (modOut o (fun x => { x with force := if x.force = some .stateF then some .plus12 else x.force })) s)

/-- SF13 exists (R439). -/
def hasEstop (s : State) : Bool :=
  (cfgOpt (safCfg s) s.fab (.gen .estopA)).isSome && (cfgOpt (safCfg s) s.fab (.gen .estopB)).isSome

/-- The emergency-stop inputs (R439): two consecutive reads of each, the later one second, and how long they have disagreed. -/
def execEstopOpen (aOpen bOpen : Bool × Bool) (disagreeMs : Nat) (s : State) : Out :=
  let differ := decide (100 < disagreeMs)
  let tripped := (aOpen.1 && aOpen.2) || (bOpen.1 && bOpen.2) || differ
  .next (ifDo (hasEstop s && s.saf.running) (fun s => s
    |> modSafCore (fun c => { c with estopA := aOpen.2 || differ, estopB := bOpen.2 || differ, estop := tripped })
    |> ifDo tripped (moduleSafe causeEstop)) s)

/-- A comparator's last passed self-test becomes older than 24 h (R462). -/
def execComparatorSelftestAge (k : Island) (s : State) : Out :=
  let old := match s.isl[k].selfTestLife with
    | none => true
    | some l => decide (secs 86400 < (s.time.life - l).toNat)
  .next (ifDo old (fun s => { s with isl := vmod s.isl k (fun i => { i with selfTestMissed := true }) }) s)

/-- A die of SAF's, and it changed (20 R701). -/
def dieOf (powerDie : Bool) (c : Saf) : Die := if powerDie then c.pwrDie else c.ctlDie
def setDie (powerDie : Bool) (d : Die) : State → State :=
  modSafCore (fun c => if powerDie then { c with pwrDie := d } else { c with ctlDie := d })

/-- A die's temperature over 1 s (20 R701): as it passes its limit, the module safe state, the fault log and the
count of R461; 10 K below it, the time since. -/
def execDieOvertemp (powerDie : Bool) (celsius : Nat) (s : State) : Out :=
  let limit := if powerDie then 160 else 130
  let d := dieOf powerDie s.saf
  .next (ifDo s.saf.running (
    if limit < celsius then (fun s => s
      |> setDie powerDie ⟨true, none⟩
      |> ifDo (!d.hot || d.cool.isSome) (fun s => s
          |> faultLog causeInternal celsius
          |> countInternal causeInternal
          |> moduleSafe causeInternal))
    else setDie powerDie { d with cool := if d.hot && decide (celsius + 10 ≤ limit) then d.cool.orElse (fun _ => some s.time.life) else none }) s)

/-- The heartbeat read in a cycle (05 R196). -/
def heartbeatRead (s : State) : State :=
  let c := s.saf
  let moved := c.hbLast != some s.wch.heartbeat
  let stale := if moved then 0 else c.hbStale + 1
  let good := if !c.hbFault then none else if moved then c.hbGood.orElse (fun _ => some s.time.life) else c.hbGood
  s |> modSafCore (fun c => { c with
        hbLast := some s.wch.heartbeat, hbStale := stale, hbGood := if 3 ≤ stale then none else good
        hbFault := c.hbFault && !passedSince s good (secs 1) })
    |> ifDo (stale == 3) (fun s => s
        |> modSafCore (fun c => { c with hbFault := true })
        |> safTrip allDrivers causeHeartbeat
        |> faultLog causeHeartbeat 0
        |> raise .watchFault [])

/-- Inputs that are available again, and since when (R440, R441). -/
def inputsBack (s : State) : State :=
  let usable := fun (i : Channel) => s.ch[i].service == .inService && s.ch[i].staleFrames == 0
  let divBack := fun (o : Outlet) => s.saf.divider.get o && contactorsOpen s o && (s.veh.out.get o).cp == .a &&
    decide ((s.saf.out.get o).outletMv < 60000)
  s |> modSafCore (fun c => { c with
        lost := c.lost.filter (fun i => !usable i)
        lostGood := c.lostGood ++ (c.lost.filter usable).map (fun i => (i, s.time.life)) })
    |> forEach Outlet.all (fun o => ifDo (divBack o) (modSafCore (fun c => { c with
        divider := c.divider.modify o (fun _ => false), dividerGood := c.dividerGood.modify o (fun _ => some s.time.life) })))

/-- Channels of a driver whose latched trips the safety core may clear (08 R297, R299). -/
def latchedOf (s : State) (d : Driver) : List Channel :=
  (List.finRange 48).filter (fun i =>
    (s.ch[i].cmpTrip && chMapped s .cmpDrivers i d) || (s.ch[i].wvTrip && chMapped s .wvDrivers i d))

/-- The input of a channel lies within its comparator and weave thresholds. -/
def inputWithin (s : State) (i : Channel) : Bool :=
  (s.isl[islandOf i].cmpRun)[(Fin.ofNat 8 i.val : Fin 8)] == (0, 0) &&
  !(s.isl[islandOf i].cmpBits.getLsbD (2 * (i.val % 8))) && !(s.isl[islandOf i].cmpBits.getLsbD (2 * (i.val % 8) + 1)) &&
    s.ch[i].wvRun == 0

/-- The safety core clears the latched trips of a driver once its inputs have been back for 1 s and CP has
read A (Table 12.2 COMPARATOR; 08 R297, R299). -/
def clearLatched (d : Driver) (s : State) : State :=
  let l := latchedOf s d
  let back := !l.isEmpty && l.all (inputWithin s)
  let since := if back then s.saf.inputGood[d].orElse (fun _ => some s.time.life) else none
  let t := modSafCore (fun c => { c with inputGood := vmod c.inputGood d (fun _ => since) }) s
  if passedSince s since (secs 1) && cpReadA s d then
    { t with ch := l.foldl (fun v i => vmod v i (fun c => { c with cmpHigh := false, cmpLow := false, wvTrip := false })) t.ch }
  else t

/-- A driver's cut elements compared with its permits (R442). -/
def gateCompare (gates : List (BitVec 5)) (d : Driver) (s : State) : State :=
  let p := permitBits s.pd.drv[d].permits
  if gates.getD d.val p = p then s
  else s |> modDrv d (fun r => { r with gateFailed := true }) |> safTrip [d] causeGate

/-- With the hold-up failed the safety core grants nothing (03 R104, R115): it withdraws PERMIT_SAF of each driver that
drives no coil. -/
def holdupHeld (s : State) : State :=
  ifDo (s.pwr.selfTest == .failed || s.pwr.holdupFailed)
    (safTrip (allDrivers.filter (fun d => s.pd.drv[d].phase == .off && (s.pd.drv[d]).permits.saf)) causeHoldup) s

/-- A cycle of the safety core (R442, 05 R196, 08 R309, Table 12.6). The first one after a restart that
finds no fault completes its diagnostics (R464). (log 38, DESIGN CHOICE) -/
def execSafCycle (inp : SafInputs) (s : State) : Out :=
  .next (
    if !s.saf.running then s
    else if !inp.katOk || !inp.signatureOk then internalFault s
    else
      s |> modSafCore (fun c => { c with diagPassed := true })
        |> heartbeatRead
        |> forEach allDrivers (gateCompare inp.gates)
        |> inputsBack
        |> forEach allDrivers clearLatched
        |> holdupHeld)

end Sys2Proof.Machine
end

