-- ==== Sys2Proof/Machine/Seam.lean ====
section
/-! DEFINITION. The seam check (12 R446 to R450, R460). -/

namespace Sys2Proof.Machine

/-- The port of a path. -/
def seamPort (s : State) (path : SeamPath) : Option (Fin 8) :=
  (cfgOpt (safCfg s) s.fab (.gen (match path with | .a => .seamA | .b => .seamB))).map (Fin.ofNat 8)

/-- The outlets enabled: a session with coil drive in use, and no latch of the outlet set. -/
def outletEnabled (s : State) (o : Outlet) : Bool :=
  stateIn s o [.insulation, .preCharge, .transfer] && (usedDrivers s o).all (fun d => !s.pd.drv[d].latch)

/-- An outlet has tripped: a latch with a first cause other than PERMIT_APP alone (R426, R428). -/
def outletTripped (s : State) (o : Outlet) : Bool :=
  (usedDrivers s o).any (fun d => s.pd.drv[d].latch && (s.safStore.trips[d]).firstPermits != stageBits [.app]
    && !(s.safStore.trips[d]).codes.isEmpty)

/-- The state word of the T48's frames (Table 12.4). -/
def seamWord (s : State) : Nat :=
  let outs := seamOutlets s
  let en := outs.filter (outletEnabled s)
  b1 (!en.isEmpty) + 2 * b1 (outs.any (outletTripped s)) + 4 * b1 (seamDegraded s)
    + 16 * b1 (en.contains .a) + 32 * b1 (en.contains .b)

/-- The fault code of the T48's frames (Table 12.4). -/
def seamFault (s : State) : Nat :=
  match (seamOutlets s).filter (outletTripped s) with
  | [] => 0
  | o :: _ =>
    ((usedDrivers s o).findSome? (fun d =>
      if s.pd.drv[d].latch then (s.safStore.trips[d]).codes.head? else none)).elim 0 BitVec.toNat

/-- A safety frame (Table 12.4). -/
def seamFrame (kind src dst seq : Nat) (life : Life) (word fault : Nat) : Bytes :=
  let body := u8 1 ++ u8 kind ++ u16 src ++ u16 dst ++ u16 0 ++ u32 seq ++ u64 life.toNat ++ u32 word ++ u32 fault
  body ++ u32 (crc32c body).toNat

/-- The T48's own node and its peer's node on a pair port (14 R527): the lower device identity is 0x0101. -/
def pairNodes (s : State) : Option (Nat × Nat) :=
  s.net.pair.known.map (fun i => if s.fab.deviceId.toNat < i.toNat then (0x0101, 0x0102) else (0x0102, 0x0101))

/-- The source and the destination of the T48's frames on a port (14 R527): node 0 to every node on CAN; none
on a pair port until the peer's identity is known. -/
def seamNodes (s : State) (p : Fin 8) : Option (Nat × Nat) := if 4 ≤ p.val then some (0, 0xFFFF) else pairNodes s

/-- A frame sent on both paths (R447); on CAN it has the identifier of a SAFETY message to every node (14 R518). -/
def execSeamFrameSend (change : Bool) (s : State) : Out :=
  .next (ifDo (seamExists s && s.saf.running) (fun s =>
    let seq := s.saf.seam.ownSeq.toNat
    let life := s.time.life
    let word := seamWord s
    let fault := seamFault s
    let t := modSafCore (fun c => { c with seam := { c.seam with ownSeq := c.seam.ownSeq + 1 } }) s
    forEach ([SeamPath.a, .b].filterMap (seamPort s)) (fun p t =>
      match seamNodes s p with
      | none => t
      | some n =>
        let f := seamFrame (if change then 2 else 1) n.1 n.2 seq life word fault
        t |> modSafCore (fun c => { c with seam := { c.seam with sent := f } }) |> enqueue p .safety (if 4 ≤ p.val then u16 63 ++ f else f)) t) s)

/-- The fields of a frame that the T48 reads. -/
structure SeamFields where
  src : Nat
  seq : BitVec 32
  stamp : Life
  enable : Bool
  stop : Bool
  fault : BitVec 32

/-- A frame whose length, CRC, version and destination are right (R448): the destination is the T48's own
node or every node. -/
def seamParse (own : Nat) (f : Bytes) : Option SeamFields :=
  if f.length = 32 ∧ rd f 28 4 = (crc32c (f.take 28)).toNat ∧ rd f 0 1 = 1 ∧ (rd f 4 2 = 0xFFFF ∨ rd f 4 2 = own) then
    some { src := rd f 2 2, seq := BitVec.ofNat 32 (rd f 8 4), stamp := BitVec.ofNat 64 (rd f 12 8)
           enable := (rd f 20 4).testBit 0, stop := (rd f 20 4).testBit 1, fault := BitVec.ofNat 32 (rd f 24 4) }
  else none

/-- The last accepted frame of the sender on either path: its timestamp and the LIFE of its acceptance. -/
def lastStamp (p : SeamPeer) : Option (Life × Life) :=
  match p.a.seq, p.b.seq with
  | none, none => none
  | some _, none => some (p.a.stamp, p.a.at_)
  | none, some _ => some (p.b.stamp, p.b.at_)
  | some _, some _ => if p.b.stamp.toNat ≤ p.a.stamp.toNat then some (p.a.stamp, p.a.at_) else some (p.b.stamp, p.b.at_)

/-- The sequence and timestamp rules of R448 for a frame on a side: a copy of the frame accepted last on
the other path carries that frame's timestamp. -/
def seamFresh (life : Life) (p : SeamPeer) (path : SeamPath) (f : SeamFields) (frame : Bytes) : Bool :=
  let side := seamSide p path
  let other := seamSide p (match path with | .a => .b | .b => .a)
  let seqOk := match side.seq with
    | none => true
    | some q => decide (1 ≤ (f.seq - q).toNat) && decide ((f.seq - q).toNat ≤ 16)
  let stampOk := match lastStamp p with
    | none => true
    | some (st, at0) =>
      (other.seq == some f.seq && (other.frame == frame || other.stamp == f.stamp)) ||
        (decide (st.toNat < f.stamp.toNat) && decide ((f.stamp - st).toNat ≤ (life - at0).toNat + 655))
  seqOk && stampOk

/-- The side after an accepted frame (R449). -/
def sideNext (life : Life) (side other : SeamSide) (f : SeamFields) (frame : Bytes) : SeamSide :=
  let matches_ := other.state != 2 || other.seq != some f.seq || other.frame == frame
  let run := if side.state = 0 then 1 else if matches_ then side.run + 1 else 0
  let state := if side.state = 2 then 2 else if 16 ≤ run then 2 else 1
  { state, seq := some f.seq, stamp := f.stamp, at_ := life, frame, run }

/-- The dependent outlets trip. -/
def seamTrip (code : BitVec 16) (s : State) : State :=
  safTrip ((seamOutlets s).flatMap driversOf) code s

/-- What is known of a companion replaced. -/
def putPeer (p : SeamPeer) (s : State) : State :=
  modSafCore (fun c => { c with seam := { c.seam with
    peers := p :: c.seam.peers.filter (fun q => q.node != p.node) } }) s

/-- The start of degraded running, and its end (R460). -/
def markDegraded (s : State) : State :=
  let now := seamDegraded s && seamInService s
  let was := s.saf.seam.degradedSince.isSome
  s |> modSafCore (fun c => { c with seam := { c.seam with
        degradedSince := if now then c.seam.degradedSince.orElse (fun _ => some s.time.life) else none } })
    |> ifDo (now && !was) (forEach (seamOutlets s) (fun o => modOut o (fun x =>
        { x with seamCap := if x.id = 0 then none else some x.delivered.natAbs })))
    |> ifDo (!now) (forEach Outlet.all (fun o => modOut o (fun x => { x with seamCap := none })))

/-- EV_SEAM_PATH for each path whose state has changed (07 Table 7.21). -/
def seamEvents (before : State) (s : State) : State :=
  s |> ifDo (seamPathState before .a != seamPathState s .a) (raise .seamPath (u8 0 ++ u8 (seamPathState s .a)))
    |> ifDo (seamPathState before .b != seamPathState s .b) (raise .seamPath (u8 1 ++ u8 (seamPathState s .b)))

/-- A frame of a companion accepted on a path (R448, R449). (log 40, DEDUCED) -/
def seamAccept (p : SeamPeer) (path : SeamPath) (f : SeamFields) (frame : Bytes) (s : State) : State :=
  let side := seamSide p path
  let other := seamSide p (match path with | .a => .b | .b => .a)
  let side' := sideNext s.time.life side other f frame
  let differs := side.state == 2 && other.state == 2 && other.seq == some f.seq && other.frame != frame
  let again := differs && match p.mismatch with
    | none => false
    | some q => decide ((f.seq - q).toNat ≤ 16)
  let copyOk := other.state != 2 || (other.seq == some f.seq && other.frame == frame)
  let stop := f.stop
  let enabled := if !f.enable then false else if copyOk && !f.stop then true else p.enabled
  let stopped := if stop then true else if f.enable && copyOk then false else p.stopped
  let side' := if again then { side' with state := 1, run := 0 } else side'
  let other' := if again then { other with state := 1, run := 0 } else other
  let q : SeamPeer := match path with
    | .a => { p with a := side', b := other', enabled, stopped, fault := f.fault, mismatch := if differs then some f.seq else p.mismatch }
    | .b => { p with b := side', a := other', enabled, stopped, fault := f.fault, mismatch := if differs then some f.seq else p.mismatch }
  s |> putPeer q
    |> ifDo again (seamTrip causeSeamMismatch)
    |> ifDo stop (seamTrip causeSeamStop)
    |> (fun t => t |> markDegraded |> seamEvents s)

/-- A safety frame arrives on a path (R448); 0x0100 names the pair peer (14 R527). -/
def execSeamFrameReceive (path : SeamPath) (frame : Bytes) (s : State) : Out :=
  .next (
    if !seamExists s || !s.saf.running then s
    else
      match (seamPort s path).bind (seamNodes s) with
      | none => s
      | some n =>
        match seamParse n.1 frame with
        | none => s
        | some f =>
          let node := if n.1 = 0 then f.src else if f.src = n.2 then 0x0100 else 0
          match (seamPeers s).find? (fun p => p.node == node && node != 0) with
          | none => s
          | some p => if seamFresh s.time.life p path f frame then seamAccept p path f frame s else s)

/-- A side without an accepted frame for 20 ms (R449): 655 AO32 cycles are 19.99 ms. -/
def sideTimeout (life : Life) (side : SeamSide) : SeamSide :=
  if side.state ≠ 0 ∧ 655 < (life - side.at_).toNat then { side with state := 0, run := 0 } else side

/-- A path has no accepted frame for 20 ms (R449): a companion left without a path in service trips the
dependent outlets with SEAM_LOST. -/
def execSeamPathTimeout (path : SeamPath) (s : State) : Out :=
  .next (ifDo (seamExists s && s.saf.running) (fun s =>
    let peers := (seamPeers s).map (fun p => match path with
      | .a => { p with a := sideTimeout s.time.life p.a }
      | .b => { p with b := sideTimeout s.time.life p.b })
    let had := fun (p : SeamPeer) => p.a.state == 2 || p.b.state == 2
    let lost := ((seamPeers s).zip peers).any (fun q => had q.1 && !had q.2)
    s |> modSafCore (fun c => { c with seam := { c.seam with peers := peers } })
      |> ifDo lost (seamTrip causeSeamLost)
      |> (fun t => t |> markDegraded |> seamEvents s)) s)

/-- 60 s of degraded running (R460): a running session on a dependent outlet ends normally. -/
def execSeamDegradedTimeout (s : State) : Out :=
  .next (ifDo (passedSince s s.saf.seam.degradedSince (secs 60) && seamDegraded s)
    (forEach (seamOutlets s) (fun o => stopSession o .seamDegraded .normal)) s)

end Sys2Proof.Machine
end

