-- ==== Sys2Proof/Machine/ProfileOps.lean ====
section
/-! DEFINITION. Charging profiles (15 R541, R559; 11 R407): which one is in force, and the limit that it gives an outlet
(log 33, PRESUMED). -/

namespace Sys2Proof.Machine

/-- The purposes: 0 the station's maximum, 1 the default of transactions, 2 a transaction's own. -/
def purposeMax : Nat := 0
def purposeDefault : Nat := 1
def purposeTx : Nat := 2

/-- The limit that a profile gives at an RTC second: that of its last period begun, within its duration (0: without
end). -/
def profileLimit (sec : Nat) (p : ChargingProfile) : Option Nat :=
  if sec < p.start ∨ (p.duration ≠ 0 ∧ p.start + p.duration ≤ sec) then none
  else
    let begun := p.periods.filter (fun x => decide (p.start + x.1 ≤ sec))
    (begun.foldl (fun (best : Option (Nat × Nat)) x =>
      match best with
      | none => some x
      | some b => if b.1 ≤ x.1 then some x else some b) none).map Prod.snd

/-- The profile of a purpose in force: the one of the highest stack level that gives a limit now, with that limit. -/
def inForceOf (sec purpose : Nat) (l : List ChargingProfile) : Option (ChargingProfile × Nat) :=
  ((l.filter (fun p => p.purpose == purpose)).filterMap (fun p => (profileLimit sec p).map (fun n => (p, n)))).foldl
    (fun (best : Option (ChargingProfile × Nat)) x =>
      match best with
      | none => some x
      | some b => if b.1.stack < x.1.stack then some x else some b) none

/-- The limits that bind an outlet now: the transaction's profile, or else the default one, and the station's maximum. -/
def profilesInForce (s : State) (o : Outlet) : List (ChargingProfile × Nat) :=
  let l := s.svc.profiles.get o
  let sec := s.time.rtcSec.toNat
  ((inForceOf sec purposeTx l).orElse (fun _ => inForceOf sec purposeDefault l)).toList ++ (inForceOf sec purposeMax l).toList

/-- The least of some limits. -/
def leastOf : List Nat → Option Nat
  | [] => none
  | x :: xs => some (xs.foldl min x)

/-- The charging schedule in force worked out for an outlet. -/
def schedule (o : Outlet) (s : State) : State :=
  let l := profilesInForce s o
  let ma := leastOf ((l.filter (fun p => !p.1.inWatts)).map (fun p => 1000 * p.2))
  let w := leastOf ((l.filter (fun p => p.1.inWatts)).map Prod.snd)
  { s with svc := { s.svc with schedMa := s.svc.schedMa.modify o (fun _ => ma), schedW := s.svc.schedW.modify o (fun _ => w) } }

/-- The schedule worked out and taken as the outlet's limit (11 R407). -/
def reschedule (o : Outlet) (s : State) : State := s |> schedule o |> retarget o false

/-- A new session starts without the profiles of an earlier transaction. -/
def dropTxProfiles (o : Outlet) (s : State) : State :=
  s |> modSvc (fun v => { v with profiles := v.profiles.modify o (fun l => l.filter (fun p => p.purpose != purposeTx)) })
    |> schedule o

/-- A profile stored: it takes the place of one with its identifier, or of its stack level and purpose (R559). -/
def storeProfile (p : ChargingProfile) (l : List ChargingProfile) : List ChargingProfile :=
  l.filter (fun x => !(x.id == p.id || (x.stack == p.stack && x.purpose == p.purpose))) ++ [p]

end Sys2Proof.Machine
end

