-- ==== Sys2Proof/Machine/AuthOps.lean ====
section
/-! DEFINITION. Authorisation (15 R547 to R553): what the list and the cache say of an identity, the checks of a session's
start (07 Table 7.12), and the binding of an identity to an outlet. -/

namespace Sys2Proof.Machine

/-! ### The local list and the cache -/

/-- An entry of a list. -/
def findId (id : Bytes) (l : List ListEntry) : Option ListEntry := l.find? (fun e => e.id == id)

/-- The entry of the local list, or of the cache where it is enabled, with its source (R547 steps 2 and 3). -/
def findEntry (s : State) (id : Bytes) : Option (ListEntry × Nat) :=
  match findId id s.app.list with
  | some e => some (e, 0)
  | none =>
    if cfgBool s.cfg s.fab (.gen .cacheEnable) then (findId id s.app.cache).map (fun e => (e, 1)) else none

/-- The expiry of an entry lies in the future; 0 is none. -/
def notExpired (s : State) (e : ListEntry) : Bool := e.expiry == 0 || decide (s.time.rtcSec.toNat < e.expiry)

/-- What an entry says: accepted 0, blocked 1, expired 2, invalid 3; none where it gives no answer (log 25, DESIGN CHOICE). -/
def entryResult (s : State) (e : ListEntry) : Option Nat :=
  match e.status with
  | some .accepted => some (if notExpired s e then 0 else 2)
  | some .blocked => some 1
  | some .expired => some 2
  | some .invalid => some 3
  | _ => none

/-- The cache takes an entry as its most recently used one, and drops the least recently used above 2,000 (R548). -/
def cachePut (e : ListEntry) (s : State) : State :=
  modApp (fun a => { a with cache := (e :: a.cache.filter (fun x => x.id != e.id)).take 2000 }) s

/-- An entry of the cache that was used. -/
def cacheUse (id : Bytes) (s : State) : State :=
  match findId id s.app.cache with
  | some e => cachePut e s
  | none => s

/-- The parent identity that the list or the cache gives an identity. -/
def parentOf (s : State) (id : Bytes) : Bytes := ((findEntry s id).map (fun e => e.1.parent)).getD []

/-! ### Reservations -/

/-- The reservation that holds an outlet, ended ones among them while their identity is being authorised (R553,
Table 15.5). -/
def holding (s : State) (o : Outlet) : Option Reservation := s.svc.reservations.find? (fun r => r.outlet == some o)

/-- A reservation accepts an identity: its own, or one with its parent identity (R553). -/
def reservationFits (s : State) (r : Reservation) (id : Bytes) : Bool :=
  r.id == id || (!r.parent.isEmpty && (r.parent == parentOf s id || r.parent == id))

/-- An outlet accepts an identity as far as reservations go. -/
def reservationLets (s : State) (o : Outlet) (id : Bytes) : Bool :=
  ((holding s o).map (fun r => reservationFits s r id)).getD true

/-- A reservation of connectorId 0 holds the outlet plugged in first (R553). -/
def adoptReservation (o : Outlet) (s : State) : State :=
  match s.svc.reservations.find? (fun r => r.outlet.isNone) with
  | some r => modSvc (fun v => { v with reservations := v.reservations.map (fun y =>
      if y.number = r.number ∧ y.outlet = none then { y with outlet := some o } else y) }) s
  | none => s

/-! ### The checks of a start -/

/-- Messages that cannot be dropped fill 95 % of the queue (R558). -/
def queueFull (s : State) : Bool :=
  let l := s.app.queue.filter undroppable
  decide (1900 ≤ l.length) || decide (95 * 1048576 ≤ 100 * queueBytes l)

/-- A mapped comparator's last passed self-test is older than 24 h (12 R462). -/
def comparatorAged (s : State) (o : Outlet) : Bool :=
  (usedDrivers s o).any (fun d => (mappedChannels s .cmpDrivers d).any (fun i =>
    passedSince s (s.isl[islandOf i]).selfTestLife (secs 86400)))

/-- No session may start on the outlet now, by its own state (ST_STATE). -/
def startBarred (s : State) (o : Outlet) (billed : Bool) : Bool :=
  let x := s.veh.out.get o
  (billed && (s.wch.trmOpen || queueFull s)) || x.lockout || outOfService s o || x.state == .ended || comparatorAged s o ||
    installDue s

/-- The checks of a session's start in order (07 Table 7.12, R256; log 25, DESIGN CHOICE). -/
def startChecks (s : State) (o : Outlet) (billed : Bool) (id : Bytes) (refused : Bool) : List (Bool × Status) :=
  [(billed && s.legal.fault.isSome, .legalFault),
   (sessionOpen s o || stateIn s o [.insulation, .preCharge, .transfer, .paused, .stopping, .fault], .outletBusy),
   (refused || !reservationLets s o id, .notAuthorised),
   (billed && timeInvalid s, .timeInvalid),
   (billed && !s.disp.verified, .displayUnverified),
   (seamDegraded s && (seamOutlets s).contains o, .seamDegraded),
   (s.pwr.selfTest == .failed || s.pwr.holdupFailed, .holdupFailed)]

/-- Every check of a billed session's start passes (15 R552). -/
def mayStart (s : State) (o : Outlet) (id : Bytes) : Bool :=
  lifecycle s == 2 && !startBarred s o true && (startChecks s o true id false).all (fun c => !c.1)

/-! ### Sessions and identities -/

/-- TransactionEvent Started under 2.0.1, once the outlet is plugged and its session is open (Table 15.3). -/
def transactionStarted (o : Outlet) (s : State) : State :=
  let x := s.veh.out.get o
  if x.billed && sessionOpen s o && x.state != .idle && ocppVersion s == some 1 then
    putMsg { kind := .txStart, outlet := some o, nums := [x.id.toNat], text := x.identity } s
  else s

/-- A session started for an identity (R552). -/
def startSession (o : Outlet) (billed : Bool) (kind : Nat) (id : Bytes) (source : Nat) (s : State) : State :=
  let was := (s.veh.out.get o).state
  let t := openSession o billed kind id source (s |> dropTxProfiles o
    |> modSolar o (fun x => { x with below := none, above := none, paused := false }))
  if was = .idle then t else transactionStarted o t

/-- The outlet waits for authorisation (R551; in state 3 too where high-level communication got there before the
identification, log 32, DEDUCED). -/
def waitsForId (s : State) (o : Outlet) : Bool := stateIn s o [.plugged, .authorising, .negotiating] && !sessionOpen s o

/-- Of two waiting outlets the one that left state A first (R551). -/
def firstWaiting (s : State) (l : List Outlet) : Option Outlet :=
  match l with
  | [] => none
  | o :: rest => some (rest.foldl (fun a b =>
      if (((s.veh.out.get b).lastA).getD 0).toNat < (((s.veh.out.get a).lastA).getD 0).toNat then b else a) o)

/-- An accepted identity bound to the outlet that waits for it, or held (R551). It starts a billed session where every
check passes; otherwise it lapses at once (log 25, DESIGN CHOICE). -/
def bindId (named : Option Outlet) (kind : Nat) (id : Bytes) (source : Nat) (s : State) : State :=
  let may := (match named with
    | some o => [o]
    | none => Outlet.all).filter (fun o => waitsForId s o && reservationLets s o id)
  match firstWaiting s may with
  | some o => if mayStart s o id then startSession o true kind id source s else s
  | none =>
    if named.isSome ∧ s.svc.heldIds.any (fun h => h.outlet == named) then s
    else modSvc (fun v => { v with heldIds := v.heldIds ++ [⟨named, kind, id, source, s.time.life⟩] }) s

/-- A held identity has lapsed (R551). -/
def lapsed (s : State) (h : HeldId) : Bool :=
  passedSince s (some h.life) (secs (cfgNat s.cfg s.fab (.gen .authTimeoutS)))

/-- A held identity binds to the first outlet plugged in meanwhile (R551). -/
def bindHeld (o : Outlet) (s : State) : State :=
  let fits := fun (h : HeldId) => (h.outlet == none || h.outlet == some o) && reservationLets s o h.id && !lapsed s h
  match s.svc.heldIds.find? fits with
  | none => s
  | some h =>
    if waitsForId s o then
      let t := modSvc (fun v => { v with heldIds := v.heldIds.erase h }) s
      if mayStart t o h.id then startSession o true h.kind h.id h.source t else t
    else s

/-- What plugging in an outlet does to reservations, a session opened before it, and a held identity (R551, R553,
Table 15.3). -/
def pluggedIn (o : Outlet) (s : State) : State :=
  if stateIn s o [.idle] then s else s |> adoptReservation o |> transactionStarted o |> bindHeld o

/-! ### R547 -/

/-- The reservations that have expired while their identity was being authorised end with it (Table 15.5). -/
def dropEnded (id : Bytes) (s : State) : State :=
  modSvc (fun v => { v with reservations := v.reservations.filter (fun r => !(r.ended && r.id == id)) }) s

/-- The final result of an authorisation (R547, R551): an accepted identity binds, and EV_AUTH_RESULT follows where a
command waited for it. -/
def authDone (w : AuthWait) (result source : Nat) (s : State) : State :=
  s |> ifDo (result == 0) (bindId w.outlet w.kind w.id source)
    |> ifDo w.event (raise .authResult (u8 ((w.outlet.map Outlet.num).getD 0xFF) ++ u8 result ++ u8 source))
    |> dropEnded w.id

/-- Step 5: without an answer of the back office. (log 73, DEDUCED) -/
def offlineResult (s : State) (w : AuthWait) (found : Bool) : Nat × Nat :=
  if w.locally && cfgBool s.cfg s.fab (.gen .localOffline) then (0, w.source)
  else if !found && cfgBool s.cfg s.fab (.gen .offlineUnknown) then (0, 2)
  else (4, 2)

/-- An identity asked for at the back office (step 4). -/
def askOperator (w : AuthWait) (s : State) : State :=
  s |> modSvc (fun v => { v with waiting := v.waiting ++ [{ w with asked := s.time.life }] })
    |> sendNow { kind := .authorize, outlet := w.outlet, nums := [w.kind], text := w.id }

/-- The steps of R547 for an identity: the result, its source, and the state. Result 5 waits for the back office; `steps23`
says whether the list and the cache are asked (R549). -/
def authorise (outlet : Option Outlet) (kind : Nat) (id : Bytes) (steps23 event : Bool) (s : State) : Nat × Nat × State :=
  let entry := if steps23 then findEntry s id else none
  let source := (entry.map Prod.snd).getD 2
  let result := entry.bind (fun e => entryResult s e.1)
  let w : AuthWait := { outlet, kind, id, locally := result == some 0, source, event }
  let t := ifDo (source == 1) (cacheUse id) s
  match result with
  | some 0 =>
    if cfgBool s.cfg s.fab (.gen .localPreAuthorize) then (0, source, authDone { w with event := false } 0 source t)
    else onward w true t
  | some r => (r, source, t)
  | none => onward w entry.isSome t
where
  /-- Steps 4 and 5. -/
  onward (w : AuthWait) (found : Bool) (t : State) : Nat × Nat × State :=
    if t.svc.connected && t.svc.booted then (5, 2, askOperator w t)
    else
      let r := offlineResult t w found
      (r.1, r.2, authDone { w with event := false } r.1 r.2 t)

end Sys2Proof.Machine
end

