-- ==== Sys2Proof/Machine/SolarOps.lean ====
section
/-! DEFINITION. Solar following (15 R554 to R557): production, surplus, shares, and the target of an outlet. Power is in µW,
which a voltage in mV times a current in mA gives. -/

namespace Sys2Proof.Machine

/-- A power below zero counts as none. -/
def nonNeg (n : Int) : Nat := n.toNat

/-- The power of a string: its voltage times its current (R554). -/
def stringPower (s : State) (j : Fin 4) : Nat := nonNeg (stringMv s j * stringMa s j)

/-- The AC power of a SunSpec device that answers; one that does not answer contributes zero (R554). -/
def devicePower (s : State) (k : Fin 8) : Nat :=
  let d := s.net.sun[k]
  if (sunString s k).isSome && d.failed == 0 then ((d.record.map (fun r => nonNeg (r.powerMw * 1000))).getD 0) else 0

/-- P_pv (R554). -/
def production (s : State) : Nat :=
  (((cfgItems s.cfg s.fab (.gen .solarStrings)).map (fun j => stringPower s (Fin.ofNat 4 j))).sum) +
    (if cfgBool s.cfg s.fab (.gen .solarSunspec) then ((List.finRange 8).map (devicePower s)).sum else 0)

/-- The mean of the last seconds' production, less the base load and the reserve, never below zero (R554); fewer samples
than `solar.filter_s` after a start give the mean of those (log 34, DESIGN CHOICE). -/
def surplusOf (s : State) (samples : List Nat) : Nat :=
  let l := samples.take (cfgNat s.cfg s.fab (.gen .solarFilterS))
  let mean := if l.isEmpty then 0 else l.sum / l.length
  mean - 1000000 * (cfgNat s.cfg s.fab (.gen .solarBaseLoad) + cfgNat s.cfg s.fab (.gen .solarReserve))

/-- The outlet follows the sun: in mode 1 or 2 with a session in state 6 or 7 (R555). -/
def followsSun (s : State) (o : Outlet) : Bool :=
  (s.svc.solar.get o).mode != 0 && sessionOpen s o && isActive s o

/-- A current at an outlet as a power in µW. -/
def maToUw (s : State) (o : Outlet) (ma : Nat) : Nat := ma * outVoltage s o * outPhases s o

/-- What an outlet can use, by its limit. -/
def usable (s : State) (o : Outlet) : Nat := maToUw s o (limitMa s o false)

/-- An outlet's share of the surplus: an equal part, and what the other outlet cannot use of its own (R555). -/
def shareOf (s : State) (o : Outlet) : Nat :=
  let total := s.svc.surplus
  if !followsSun s o then 0
  else if !followsSun s o.other then total
  else total - min (total / 2) (usable s o.other)

/-- The share as a current in mA, truncated (R555). -/
def shareMa (s : State) (o : Outlet) (uw : Nat) : Nat :=
  let mv := outVoltage s o * outPhases s o
  if mv = 0 then 0 else uw / mv

/-- The share lies below the outlet's minimum (R555, R556): 6 A on AC, `solar.dc_min_w` on DC. -/
def belowMin (s : State) (o : Outlet) (uw : Nat) : Bool :=
  if isDc s o then decide (uw < 1000000 * cfgNat s.cfg s.fab (.gen .solarDcMin)) else decide (shareMa s o uw < 6000)

/-- The tariff in force gives the outlets their limit (R557). -/
def freeTariff (s : State) : Bool := (cfgItems s.cfg s.fab (.gen .freeTariffs)).contains s.bill.tariff

/-- A target of at least a current, taken from a share: on DC a power target (R407, R555). -/
def solarTarget (o : Outlet) (uw leastMa : Nat) (s : State) : State :=
  let ma := shareMa s o uw
  if ma < leastMa then setTarget o leastMa none s
  else setTarget o ma (if isDc s o then some (uw / 1000000) else none) s

/-- Mode 1 (R556): the target follows the share, is held at the minimum below it, and stays zero in the pause. -/
def modeOne (o : Outlet) (uw : Nat) (s : State) : State :=
  let x := s.svc.solar.get o
  let now := some s.time.life
  if x.paused then
    modSolar o (fun x => { x with above := if belowMin s o uw then none else x.above.orElse (fun _ => now) }) s
  else if belowMin s o uw then
    s |> modSolar o (fun x => { x with below := x.below.orElse (fun _ => now) }) 
      |> (if isDc s o then solarTarget o (1000000 * cfgNat s.cfg s.fab (.gen .solarDcMin)) 0 else solarTarget o 0 6000)
  else s |> modSolar o (fun x => { x with below := none }) |> solarTarget o uw 0

/-- An outlet's share turned into its target (R555 to R557). -/
def followSun (o : Outlet) (s : State) : State :=
  let uw := shareOf s o
  let t := modSolar o (fun x => { x with share := uw }) s
  if !followsSun s o then s
  else if freeTariff s then
    t |> modSolar o (fun x => { x with below := none, above := none, paused := false })
      |> setTarget o (limitMa s o false : Nat) none
  else if (t.svc.solar.get o).mode = 2 then solarTarget o uw (t.svc.solar.get o).minMa t
  else modeOne o uw t

end Sys2Proof.Machine
end

