-- ==== Sys2Proof/Machine/Vehicle.lean ====
section
/-! DEFINITION. The rows of the vehicle interface (11): pilots, SLAC and protocol, the insulation test and
pre-charge, set-points, timeouts, and the insulation monitor (12 R432, R433). -/

namespace Sys2Proof.Machine

/-- The pilot bands' edges in mV (Table 11.2). -/
def cpEdges : List Int := [10500, 7500, 4500, 1500, -1500]

/-- The pilot state of a high level (Table 11.2). -/
def cpBand (mv : Int) : CpState :=
  if 10500 ≤ mv then .a else if 7500 ≤ mv then .b else if 4500 ≤ mv then .c else if 1500 ≤ mv then .d
  else if -1500 ≤ mv then .e else .invalid

/-- The pilot state after readings of a level (R391): within 0.3 V of an edge it stays. -/
def cpNext (old : CpState) (mv : Int) : CpState :=
  if cpEdges.any (fun e => decide ((mv - e).natAbs ≤ 300)) then old else cpBand mv

/-- The pilots are read by the application: in RUN from start step 8 (R420; 05 Table 5.1), with the driver at
+12 V or PWM. -/
def pilotRead (s : State) (o : Outlet) : Bool :=
  let x := s.veh.out.get o
  s.pwr.state == .run && decide (8 ≤ s.hif.startStep.toNat) &&
    (match x.force.getD x.drive with
      | .plus12 => true
      | .pwm _ => true
      | _ => false)

/-- What a taken pilot state does (R393, R402, R414, R418; Tables 11.6, 11.10). (log 47, DEDUCED) -/
def pilotReact (o : Outlet) (old new : CpState) (s : State) : State :=
  let live := stateIn s o [.plugged, .authorising, .negotiating, .insulation, .preCharge, .transfer, .paused, .stopping]
  if new = .a then
    if live then unplug o s
    else if stateIn s o [.ended] then enter o .idle .none s
    else settle o s
  else if new = .e then
    if old = .a then s |> plugIn o |> pilotFault o causePilotShort .pilotShort
    else if live then pilotFault o causePilotShort .pilotShort s else s
  else if new = .invalid then
    if old = .a then s |> plugIn o |> pilotFault o causePilotFault .pilotFault
    else if live then pilotFault o causePilotFault .pilotFault s else s
  else if old = .a ∧ stateIn s o [.idle] then s |> plugIn o |> pluggedIn o |> advance o
  else if stateIn s o [.transfer] ∧ new = .b then
    s |> pilotTrip o causePilotFault |> tripReact o .permit
  else if stateIn s o [.transfer] ∧ new = .d ∧ !outBool s o .ventilation then stopSession o .ventilation .normal s
  else if stateIn s o [.stopping] ∧ new = .b ∧ !isDc s o then openForStop o s
  else if stateIn s o [.fault] then settle o s
  else advance o s

/-- Three periods classify CP into a state (R391). -/
def execCpStateChange (o : Outlet) (highMv : Int) (s : State) : Out :=
  let old := (s.veh.out.get o).cp
  let new := cpNext old highMv
  .next (ifDo (pilotRead s o && new != old) (fun s => s
    |> modOut o (fun x => { x with
          cp := new, cpASince := if new = .a then some s.time.life else none
          lastA := if old = .a then some s.time.life else x.lastA })
    |> ifDo (old == .a || new == .a) (plugEvent o)
    |> pilotReact o old new) s)

/-- The cable of a resistance (Table 11.3). -/
def ppOf (ohm : Nat) : PpState :=
  if ohm < 60 then .fault else if ohm < 160 then .cable 63 else if ohm < 400 then .cable 32
  else if ohm < 1000 then .cable 20 else if ohm ≤ 2400 then .cable 13 else .noCable

/-- Three readings give a new cable state, where the application reads PP (R394, R395, Table 11.11). -/
def execPpChange (o : Outlet) (ohm : Nat) (s : State) : Out :=
  let old := (s.veh.out.get o).pp
  let new := ppOf ohm
  let live := stateIn s o [.plugged, .authorising, .negotiating, .transfer, .paused, .stopping]
  let bad := match new with
    | .cable _ => false
    | _ => true
  let fell := match old, new with
    | .cable a, .cable b => decide (b < a)
    | _, _ => false
  .next (ifDo (new != old && s.pwr.state == .run && outNat s o .ppMode == 0 && decide (8 ≤ s.hif.startStep.toNat)) (fun s =>
    let t := s |> modOut o (fun x => { x with pp := new }) |> plugEvent o
    if isDc s o then t
    else if live && bad then pilotFault o causeCable .cable t
    else if live then retarget o fell t
    else t |> plugIn o |> pluggedIn o) s)

/-- The low level stays above -10.8 V (R392, Table 11.11). -/
def execDiodeFault (o : Outlet) (lowMv : Int) (s : State) : Out :=
  let x := s.veh.out.get o
  let pwm := match x.drive with
    | .pwm _ => true
    | _ => false
  .next (ifDo (pwm && x.force.isNone && (x.cp == .b || x.cp == .c || x.cp == .d) && decide (-10800 < lowMv)
      && !stateIn s o [.idle, .ended, .fault]) (pilotFault o causePilotFault .pilotFault) s)

/-- A decided drive takes effect with the next PWM period (R397). -/
def execPwmDutyChange (o : Outlet) (s : State) : Out :=
  .next (modOut o (fun x => { x with drive := x.driveNext.getD x.drive, driveNext := none }) s)

/-! ### SLAC, SDP and the protocol -/

/-- High-level communication may go on at the outlet (R389, R398). -/
def linkUsable (s : State) (o : Outlet) : Bool :=
  s.pwr.modem.get o && !domainOut s .gph && !stateIn s o [.idle, .stopping, .ended, .fault] && !isBasic (s.veh.out.get o)

/-- CM_SLAC_PARAM answered (R398). -/
def execCmSlacParam (o : Outlet) (runId : BitVec 64) (s : State) : Out :=
  .next (ifDo (linkUsable s o) (modOut o (fun x => { x with slac := .param, runId, attenDb := 0 })) s)

/-- The attenuation profile measured and returned (R398). -/
def execCmMnbcSound (o : Outlet) (attenDb : Nat) (s : State) : Out :=
  .next (ifDo (linkUsable s o && (s.veh.out.get o).slac == .param) (modOut o (fun x => { x with slac := .sounded, attenDb })) s)

/-- The other outlet heard the same vehicle better (Table 11.10). -/
def betterElsewhere (s : State) (o : Outlet) : Bool :=
  let x := s.veh.out.get o
  let y := s.veh.out.get o.other
  (y.slac == .sounded || y.slac == .matched) && y.runId == x.runId && decide (y.attenDb < x.attenDb)

/-- CM_SLAC_MATCH answered with a fresh network key, or refused (R398, Table 11.10). -/
def execCmSlacMatch (o : Outlet) (s : State) : Out :=
  let x := s.veh.out.get o
  .next (ifDo (linkUsable s o && x.slac == .sounded && s.key.rngOk) (fun s =>
    if cfgNat (outCfg s o) s.fab (.gen .slacAtten) < x.attenDb ∨ betterElsewhere s o then
      modOut o (fun x => { x with slac := .idle }) s
    else s |> draw |> modOut o (fun x => { x with slac := .matched, nmk := padTo 16 (Config.random s.nd 16) })) s)

/-- An SDP request (R399): TLS is offered, and TCP where it is not required. -/
def execSdpRequest (o : Outlet) (tls : Bool) (s : State) : Out :=
  .next (ifDo (linkUsable s o && (s.veh.out.get o).slac == .matched && (tls || !outBool s o .tlsRequired)) (fun s => s
    |> modOut o (fun x => { x with sdp := if tls then .tls else .tcp })
    |> ifDo (stateIn s o [.plugged]) (enter o .negotiating .none)) s)

/-- The protocol of an item of `veh.outX.protocols` (Table 11.8). -/
def protocolOf : Nat → Protocol
  | 0 => .iso20
  | 1 => .iso2
  | _ => .din

/-- A protocol may run on the outlet (Table 11.4: DIN SPEC 70121 has no AC and no TLS). -/
def protocolFits (s : State) (o : Outlet) (p : Protocol) : Bool := p != .din || (isDc s o && (s.veh.out.get o).sdp != .tls)

/-- The vehicle's protocol list (R400). -/
def execSupportedAppProtocol (o : Outlet) (offered : List Protocol) (s : State) : Out :=
  let x := s.veh.out.get o
  let l := (cfgItems (outCfg s o) s.fab (.out o .protocols)).map protocolOf
  .next (ifDo (linkUsable s o && x.sdp != .none && stateIn s o [.plugged, .authorising, .negotiating]) (fun s =>
    match l.find? (fun p => offered.contains p && protocolFits s o p) with
    | some p => modOut o (fun x => { x with protocol := some p }) s
    | none =>
      if !isDc s o && outBool s o .pwmFallback then basic o s
      else stopSession o .noProtocol .normal s) s)

/-! ### Energising (R404 to R406) -/

/-- CableCheck (R404): the insulation test begins once the outlet reads below 60 V. -/
def execCableCheck (o : Outlet) (vehMaxMv outletMv : Nat) (s : State) : Out :=
  let x := s.veh.out.get o
  .next (ifDo (isDc s o && isHlc x && sessionOpen s o && x.authorised && stateIn s o [.negotiating] && ready s o) (fun s =>
    let t := modOut o (fun x => { x with outletMv }) s
    if 60000 ≤ outletMv then enterFault o .vehicleContactor t
    else t |> enter o .insulation .none
      |> grantApp o
      |> modOut o (fun x => { x with
          insTest := .ramping, testMv := min (max vehMaxMv 500000) (1000 * outNat s o .maxV), preMv := none, preReady := false })
      |> modSaf o (fun f => { f with imd := { f.imd with badRun := 0 } })) s)

/-- The test voltage has been within 5 % for 1 s (R404). -/
def execInsulationTestStable (o : Outlet) (outletMv : Nat) (s : State) : Out :=
  let x := s.veh.out.get o
  .next (ifDo (stateIn s o [.insulation] && x.insTest == .ramping
      && decide (20 * ((outletMv : Int) - x.testMv).natAbs ≤ x.testMv))
    (modOut o (fun x => { x with insTest := .stable, outletMv })) s)

/-- The warning of R405: logged in the safety fault log, and reported to the operator as a security message. The spec names
neither log nor message (log 96, DESIGN CHOICE). -/
def insulationWarning (o : Outlet) (ohm : Nat) (s : State) : State :=
  s |> faultLog causeInsulation ohm |> putMsg { kind := .security, outlet := some o, text := str "InsulationWarning" }

/-- A measurement of the insulation monitor (R405; 12 R432, R433): the lower resistance over the outlet
voltage, or over the test voltage in a cable check. -/
def execInsulationMeasurement (o : Outlet) (plusOhm minusOhm outletMv : Nat) (s : State) : Out :=
  let x := s.veh.out.get o
  let test := stateIn s o [.insulation] && x.insTest == .stable
  let mv := if test then x.testMv else outletMv
  let low := decide (min plusOhm minusOhm * 1000 < 100 * mv)
  let warn := decide (min plusOhm minusOhm * 1000 ≤ 500 * mv)
  let runs := stateIn s o [.insulation, .preCharge, .transfer, .paused, .stopping] || decide (60000 ≤ outletMv)
  let judged := test || decide (60000 ≤ outletMv)
  let run := if low && judged then (s.saf.out.get o).imd.badRun + 1 else 0
  .next (ifDo (isDc s o && s.saf.running && runs) (fun s =>
    let t := s |> modSaf o (fun f => { f with outletMv, imd := { f.imd with plusOhm, minusOhm, badRun := run } })
      |> modOut o (fun x => { x with outletMv })
    if test && low then t |> safTrip (driversOf o) causeInsulation |> enterFault o .insulation
    else if test then t |> ifDo warn (insulationWarning o (min plusOhm minusOhm)) |> modOut o (fun x => { x with insTest := .passed }) |> enter o .preCharge .none
    else if 2 ≤ run then safTrip (driversOf o) causeInsulation t
    else t) s)

/-- A PreCharge request (R406). -/
def execPreCharge (o : Outlet) (requestMv outletMv : Nat) (s : State) : Out :=
  .next (ifDo (isDc s o && stateIn s o [.preCharge]) (modOut o (fun x => { x with
    preMv := some requestMv, outletMv, preReady := decide (((outletMv : Int) - requestMv).natAbs ≤ 20000) })) s)

/-- PowerDelivery (Table 11.6, R406). -/
def execPowerDelivery (o : Outlet) (start : Bool) (s : State) : Out :=
  let x := s.veh.out.get o
  .next (
    if !isHlc x then s
    else if start then
      if x.state = .preCharge ∧ x.preReady ∧ ready s o then enterTransfer o s
      else if x.state = .paused then s |> modOut o (fun x => { x with vehPaused := false }) |> retarget o false |> pauseOrResume o
      else if !isDc s o ∧ stateIn s o [.negotiating] then s |> modOut o (fun x => { x with started := true }) |> advance o
      else s
    else if stateIn s o [.insulation, .preCharge, .transfer, .paused] then stopSession o .vehicleStop .normal s
    else s)

/-- A charge-loop request is answered with the delivered limit (R409, R414). -/
def execChargeLoopRequest (o : Outlet) (veh : VehLimits) (s : State) : Out :=
  .next (ifDo (isHlc (s.veh.out.get o) && stateIn s o [.transfer, .paused]) (fun s => s
    |> modOut o (fun x => { x with veh := some veh })
    |> retarget o false) s)

/-- The messages of the vehicle without a row of their own (R402, Tables 11.5, 11.6, 11.10): identification
comes to `authorise`, given by the charging services. -/
def protocolMessage (authorise : Outlet → Nat → Bytes → State → State) (o : Outlet) (msg : VehMsg) (s : State) : State :=
  let x := s.veh.out.get o
  if !isHlc x || stateIn s o [.idle, .stopping, .ended, .fault] then s
  else
    match msg with
    | .sessionSetup => s
    | .weldingDetection => s
    | .identification pnc chainOk contract =>
      let t := ifDo (stateIn s o [.plugged]) (enter o .authorising .none) s
      if pnc && chainOk && !sessionOpen s o then authorise o 3 contract t else t
    | .authorisation => ifDo (x.authorised && stateIn s o [.authorising]) (enter o .negotiating .none) s
    | .parameters limits bidirectional =>
      s |> modOut o (fun x => { x with veh := some limits, bidir := bidirectional && x.protocol == some .iso20 })
        |> retarget o false
    | .pause => s |> modOut o (fun x => { x with vehPaused := true }) |> pauseOrResume o
    | .resume => s |> modOut o (fun x => { x with vehPaused := false }) |> pauseOrResume o
    | .stop => stopSession o .vehicleStop .normal s

/-! ### Set-points -/

/-- The vehicle accepts or refuses a new direction (R411). -/
def execDirectionRenegotiation (o : Outlet) (accepted : Bool) (s : State) : Out :=
  let x := s.veh.out.get o
  .next (ifDo (x.negotiating && stateIn s o [.paused, .transfer]) (fun s =>
    if accepted then
      s |> modOut o (fun x => { x with negotiating := false, reversing := false, dwell := none, exporting := decide (x.target < 0) })
        |> retarget o false
        |> pauseOrResume o
    else
      s |> modOut o (fun x => { x with negotiating := false, reversing := false, dwell := none, refused := true, target := 0, targetW := none })
        |> enter o .paused .directionRefused) s)

/-- The current that the DC limit moves towards (R407, R409, R411, R415; Table 11.10). -/
def rampGoal (s : State) (o : Outlet) : Int :=
  let x := s.veh.out.get o
  if x.state = .stopping ∨ x.vehPaused ∨ x.reversing ∨ x.negotiating ∨ x.dwell.isSome ∨ x.refused then 0
  else if (x.target < 0) ≠ x.exporting ∧ x.target ≠ 0 then 0
  else clipMa s o x.target

/-- One step of 10 ms of the DC limit at the slews (R409). -/
def rampStep (s : State) (now goal : Int) : Int :=
  let up := 10 * (cfgNat s.cfg s.fab (.gen .slewUp) : Int)
  let down := 10 * (cfgNat s.cfg s.fab (.gen .slewDown) : Int)
  let opposite := (0 < now ∧ goal < 0) ∨ (now < 0 ∧ 0 < goal)
  let g := if opposite then 0 else goal
  if now.natAbs ≤ g.natAbs then
    (if 0 ≤ g then min g (now + up) else max g (now - up))
  else (if 0 ≤ now then max g (now - down) else min g (now + down))

/-- A tick of the ramp with the present current (R409, R411, R415). -/
def execSetpointRampTick (o : Outlet) (currentMa : Int) (s : State) : Out :=
  let x := s.veh.out.get o
  let t := modOut o (fun x => { x with presentMa := currentMa }) s
  .next (
    if !isDc s o || !stateIn s o [.transfer, .paused, .stopping] then t
    else
      let d := rampStep s x.delivered (rampGoal s o)
      let u := t |> modOut o (fun x => { x with delivered := d }) |> dwellAtZero o |> pauseOrResume o
      if x.state = .stopping ∧ currentMa.natAbs < 5000 then openForStop o u else u)

/-- A power target converted at the present voltage (R407). -/
def execPowerTargetConvert (o : Outlet) (outletMv : Nat) (s : State) : Out :=
  let t := modOut o (fun x => { x with outletMv }) s
  .next (
    match (s.veh.out.get o).targetW with
    | none => t
    | some w =>
      let ma : Nat := if outletMv = 0 then 0 else w.natAbs * 1000000 / (outletMv * outPhases s o)
      t |> modOut o (fun x => { x with target := if w < 0 then -(ma : Int) else ma }) |> retarget o false)

/-- The hold-off ends (R410). -/
def execAcHoldoffEnd (o : Outlet) (s : State) : Out :=
  .next (ifDo (!isDc s o && (s.veh.out.get o).held && holdoffOver s o) (fun s => s |> offerNow o |> advance o) s)

/-- The dwell at zero ends and renegotiation begins (R411). -/
def execBptDwellEnd (o : Outlet) (s : State) : Out :=
  .next (ifDo (passedSince s (s.veh.out.get o).dwell (msecs (cfgNat (outCfg s o) s.fab (.gen .bptDwell)))) (modOut o (fun x => { x with dwell := none, negotiating := true })) s)

/-! ### Timeouts and failures (R415, R416, R418, R419) -/

/-- `veh.stop_timeout_s` passes in a stop (R415). -/
def execStopTimeout (o : Outlet) (s : State) : Out :=
  .next (ifDo (stateIn s o [.stopping] &&
    passedSince s (s.veh.out.get o).stopSince (secs (cfgNat (outCfg s o) s.fab (.gen .stopTimeout)))) (openForStop o) s)

/-- 24 h in state 7 (R416). -/
def execPauseTimeout (o : Outlet) (s : State) : Out :=
  .next (ifDo (stateIn s o [.paused] && passedSince s (s.veh.out.get o).pauseSince (secs 86400)) (stopSession o .pauseTimeout .normal) s)

/-- 60 s in a handshake state without a protocol timer (R416). -/
def handshakeOver (s : State) (o : Outlet) : Bool :=
  stateIn s o [.authorising, .negotiating, .insulation, .preCharge] && passedSince s (some (s.veh.out.get o).since) (secs 60)
def execHandshakeTimeout (o : Outlet) (s : State) : Out :=
  .next (ifDo (handshakeOver s o) (stopSession o .handshakeTimeout .normal) s)

/-- A SLAC, TLS or protocol timer (Table 11.11). -/
def execProtocolTimeout (o : Outlet) (kind : TimeoutKind) (s : State) : Out :=
  let x := s.veh.out.get o
  .next (
    match kind with
    | .slacInit | .slac =>
      if isBasic x || x.slac == .matched || !stateIn s o [.plugged, .authorising, .negotiating] then s
      else if !isDc s o && outBool s o .pwmFallback then basic o s
      else enterFault o .communication s
    | .session | .message =>
      ifDo (x.slac == .matched && !stateIn s o [.idle, .stopping, .ended, .fault]) (communicationEnd o) s
    | .cableCheck => ifDo (stateIn s o [.insulation]) (enterFault o .insulation) s
    | .preCharge => ifDo (stateIn s o [.preCharge] && !x.preReady) (enterFault o .preCharge) s
    | .handshake => ifDo (handshakeOver s o) (stopSession o .handshakeTimeout .normal) s)

/-- An outlet draws beyond its limit: on AC 5 s after the offer, on DC for 500 ms (Table 11.11). -/
def execOutletOvercurrent (o : Outlet) (currentMa : Int) (s : State) : Out :=
  let x := s.veh.out.get o
  let limit := x.delivered.natAbs + x.delivered.natAbs / 10 + (if isDc s o then 2000 else 1000)
  .next (ifDo (stateIn s o [.transfer, .paused] && (isDc s o || holdoffOver s o) && decide (limit < currentMa.natAbs)) (fun s => s
    |> modOut o (fun x => { x with presentMa := currentMa })
    |> enterFault o .overcurrent) s)

/-- CP has read A for 2 s (R419). -/
def execOutletReenable (o : Outlet) (s : State) : Out :=
  .next (ifDo ((s.veh.out.get o).lockout && (s.veh.out.get o).cp == .a && passedSince s (s.veh.out.get o).cpASince (secs 2)) (modOut o (fun x => { x with lockout := false })) s)

/-! ### Commands of group 0x09 -/

/-- SESSION_STOP (07 Table 7.12; R415). -/
def execSessionStop (mb : Mailbox) (s : State) : Out :=
  .next (runCommand .sessionStop mb (fun b s =>
    match sessionOf s (rd b 0 4) with
    | none => refuse .sessionUnknown s
    | some o => ok [] (stopSession o (.host (BitVec.ofNat 16 (rd b 4 2))) .requested s)) s)

/-- The code of a protocol (07 Table 7.12). -/
def protocolCode : Option Protocol → Nat
  | none => 0
  | some .pwm => 1
  | some .din => 2
  | some .iso2 => 3
  | some .iso20 => 4

/-- SESSION_STATUS_GET (07 Table 7.12): the limit while the outlet exports is given as a magnitude, without the sign of R252 (log 91,
DESIGN CHOICE). -/
def execSessionStatusGet (mb : Mailbox) (s : State) : Out :=
  .next (runCommand .sessionStatusGet mb (fun b s =>
    let n := rd b 0 2
    let o := outletOfNum n
    let x := s.veh.out.get o
    guards [(decide (1 < n), .argRange)] s <|
      ok (u32 x.id.toNat ++ u8 (stateNum x.state) ++ u8 (protocolCode x.protocol) ++ u8 (cpCode x) ++ u8 (Config.ppCode x.pp).toNat
        ++ i32 x.target ++ i32 x.presentMa ++ i32 (limitMa s o x.exporting)
        ++ u32 (if x.id = 0 then 0 else sessionWh s o) ++ u64 x.startLife.toNat) s) s)

/-- SETPOINT_SET (07 Table 7.12; R408 to R412): a power target is clipped by its current. -/
def execSetpointSet (mb : Mailbox) (s : State) : Out :=
  .next (runCommand .setpointSet mb (fun b s =>
    let n := rd b 0 1
    let o := outletOfNum n
    let x := s.veh.out.get o
    let power := rd b 1 1 = 1
    let v := rdI32 b 4
    let ma : Int := if power then (if v < 0 then -(wToMa s o v.natAbs : Int) else wToMa s o v.natAbs) else v
    let allowed : Int := if ma < 0 ∧ !x.bidir then 0 else ma
    let c := clipMa s o allowed
    let clipped := c != ma
    let turn := c != 0 && decide (c < 0) != x.exporting
    let accepted : Int := if power then (if clipped then (if c < 0 then -(maToW s o c.natAbs : Int) else maToW s o c.natAbs) else v) else c
    let ramp := if turn then rampMs s o 0 else rampMs s o c
    guards [(decide (n < 2) && (!sessionOpen s o || stateIn s o [.stopping, .ended, .fault]), .state),
        (decide (1 < n) || decide (1 < rd b 1 1), .argRange), (decide (power) && !isDc s o && isBasic x, .outletType)] s <|
      .done (if turn then .directionNegotiation else if clipped then .setpointClipped else .ok) (i32 accepted ++ u32 ramp)
        (s |> modSolar o (fun y => { y with mode := 0 }) |> setTarget o c (if power then some accepted else none))) s)

end Sys2Proof.Machine
end

