-- ==== Sys2Proof/Machine/SvcOps.lean ====
section
/-! DEFINITION. The operator's requests and answers (15): the time they bring, the standard configuration names, meter values,
and the card reader. -/

namespace Sys2Proof.Machine

/-- The answer to a request in words. -/
def answerText (t : String) : State → State := modSvc (fun v => { v with answer := str t })

/-- A request or an answer of the back office reaches the application (R537). -/
def fromOperator (f : State → State) (s : State) : State := ifDo (s.svc.connected && appRuns s) f s

/-- A message longer than 64 KiB is refused by its form (R559); the length of what it carries bounds its own. -/
def withinMessage (bytes : Nat) (f : State → State) (s : State) : State :=
  if 65536 < bytes then answerText (if ocppVersion s = some 0 then "FormationViolation" else "FormatViolation") s else f s

/-- The first message that fits leaves the list of those not yet answered. -/
def dropSent (p : OpMsg → Bool) : State → State := modSvc (fun v => { v with sent := dropFirst p v.sent })

/-- A message of a kind waits for its answer. -/
def awaits (s : State) (k : MsgKind) : Bool := s.svc.sent.any (fun m => m.kind == k)

/-- `time.ntp_server` names a server (R540). -/
def usesNtp (s : State) : Bool := cfgVal s.cfg s.fab (.gen .ntpServer) != .none

/-- An interval has passed since it was last noted; the first one at once. -/
def intervalOver (s : State) (l : Option Life) (cycles : Nat) : Bool := l.isNone || passedSince s l cycles

/-- The reconnect wait, or BootNotification's interval, is over (R539, R561). -/
def waitOver (s : State) : Bool := s.svc.waitMs == 0 || passedSince s (some s.svc.waitAt) (msecs s.svc.waitMs)

/-- The meter interval of an outlet's session has passed since the session's start or the last values (R543). -/
def metersDue (s : State) (o : Outlet) : Bool :=
  let l := (s.svc.meterAt.get o)
  let start := (s.veh.out.get o).startLife
  let n := cfgNat s.cfg s.fab (.gen .meterIntervalS)
  n != 0 && passedSince s (some (if start.toNat ≤ l.toNat then l else start)) (secs n)

/-- A time of the back office applied as an absolute set, unless NTP gives the time (R540). -/
def operatorTime (second : Nat) (s : State) : State :=
  if usesNtp s then s
  else (setSecond second s).2 |> modSvc (fun v => { v with lastTime := some s.time.life })

/-- BootNotification sent (R540, R561). -/
def sendBoot : State → State := sendNow { kind := .boot }

/-! ### Configuration (R546) -/

/-- The key of a standard OCPP name (Table 15.4). -/
def ocppNames : List (String × GenKey) :=
  [("SecurityProfile", .secProfile), ("HeartbeatInterval", .heartbeatS), ("MeterValueSampleInterval", .meterIntervalS),
   ("MessageTimeout", .messageTimeoutS), ("LocalPreAuthorize", .localPreAuthorize), ("LocalAuthorizeOffline", .localOffline),
   ("AllowOfflineTxForUnknownId", .offlineUnknown), ("AuthorizationCacheEnabled", .cacheEnable),
   ("ConnectionTimeOut", .authTimeoutS)]

/-- A name begins with one of the families that the back office may change. -/
def operatorFamily (name : Bytes) : Bool :=
  ["ocpp.", "auth.", "solar."].any (fun p => name.take p.length == str p)

/-- The key that a name of the back office means. -/
def operatorKey (name : Bytes) : Option Key :=
  match ocppNames.find? (fun p => str p.1 == name) with
  | some p => some (.gen p.2)
  | none => if operatorFamily name then findKey name else none

/-- A candidate opened as a copy of the active set; an earlier one is discarded (19 R651). Its slot, and the state. (log 75, DEDUCED) -/
def openCopy (s : State) : Fin 4 × State :=
  let body := ((activeSlot s).map (fun i => s.slots[i].body)).getD []
  let t := match candidateSlot s with
    | some i => emptySlot i s
    | none => s
  let i := freeSlot t
  (i, modSlot i (fun _ => { state := .candidate, format := BitVec.ofNat 16 (writesFormat s), seq := BitVec.ofNat 32 (maxSeq s + 1), body })
    { t with upd := { t.upd with trialCandidate := false } })

/-- A change applied to a fresh candidate and committed, or Rejected where it fails validation (R546). -/
def changeKey (k : Key) (value : Bytes) (s : State) : State :=
  let (i, t) := openCopy s
  match parseKey s.fab k value with
  | none => answer false t
  | some v =>
    let u := modSlot i (fun x => { x with body := putLine x.body (keyName k) (printVal (keyType s.fab k) v) }) t
    if bodyMax < u.slots[i].body.length ∨ (commitFails u u.slots[i]).isSome then answer false u
    else answer true (commitCandidate i u).2

/-! ### Meter values (R543) -/

/-- A field of a record, or 0. -/
def item (l : List Int) (n : Nat) : Int := l[n]?.getD 0

/-- The measurands of an outlet from the publication window: per phase on AC the power, the current and the voltage; on DC
the same three; and the energy registers, with the export register in a bidirectional session. -/
def measurands (s : State) (o : Outlet) : List Int :=
  let r := s.met.win.sel.get (selOfOutlet o)
  let regs := outletRegs s o
  let wh := fun (exp : Bool) => ((activeTotal regs exp / 1000000 : Nat) : Int)
  wh false :: ((if (s.veh.out.get o).bidir then [wh true] else []) ++
    (if isDc s o then [r.dcP, r.dcMa, r.dcMv] else r.phases.flatMap (fun p => [item p 2, item p 1, item p 0])))

/-! ### The card reader (R550, R562) -/

/-- A reader answer: no card; a card's UID; none where it has not the form of R550. -/
def readerAnswer (b : Bytes) : Option (Option Bytes) :=
  let n := rd b 1 1
  if b.length ≠ 12 then none
  else if rd b 0 1 = 0 then some none
  else if rd b 0 1 = 1 ∧ 4 ≤ n ∧ n ≤ 10 then some (some ((b.drop 2).take n))
  else none

/-- A poll failed: the third in a row marks the reader absent (R562). -/
def readerFailed : State → State :=
  modSvc (fun v => { v with readerFails := v.readerFails + 1, readerAbsent := v.readerAbsent || decide (3 ≤ v.readerFails + 1) })

/-- No card at the reader (R550): after 1 s the last one may be presented again. -/
def noCard (s : State) : State :=
  let since := s.svc.noCardSince.getD s.time.life
  modSvc (fun v => { v with noCardSince := some since, readerUid := if passedSince s (some since) (secs 1) then none else v.readerUid }) s

/-- A card at the reader becomes an identity of kind 1, once (R550, R551). -/
def cardSeen (uid : Bytes) (s : State) : State :=
  let t := modSvc (fun v => { v with noCardSince := none, readerUid := some uid }) s
  if s.svc.readerUid = some uid then t else (authorise none 1 uid true false t).2.2

/-! ### Reservations (R553) -/

/-- The outlets that a reservation may hold. -/
def reservable (s : State) (number : Nat) (o : Outlet) : Bool :=
  stateIn s o [.idle] && !sessionOpen s o && !outOfService s o &&
    !s.svc.reservations.any (fun r => r.number != number && r.outlet == some o)

/-- A reservation may be made: on its outlet, or, without one, on any outlet beside no other of its kind. -/
def mayReserve (s : State) (outlet : Option Outlet) (number expiry : Nat) : Bool :=
  decide (s.time.rtcSec.toNat < expiry) &&
    (match outlet with
      | some o => reservable s number o
      | none => Outlet.all.any (reservable s number) && !s.svc.reservations.any (fun r => r.number != number && r.outlet.isNone))

/-- A reservation taken out. -/
def dropReservation (number : Nat) : State → State :=
  modSvc (fun v => { v with reservations := v.reservations.filter (fun r => r.number != number) })

end Sys2Proof.Machine
end

