-- ==== Sys2Proof/Machine/Services.lean ====
section
/-! DEFINITION. The rows of the charging services (15; 07 Tables 7.12 and 7.16). -/

namespace Sys2Proof.Machine

/-! ### Commands of the host -/

/-- The reservation that SESSION_START names for the outlet (R553). (log 72, DEDUCED) -/
def reserveField (o : Outlet) (n : Nat) : State → State := modOut o (fun x => { x with reservation := n })

/-- SESSION_START (07 Table 7.12; R552). -/
def execSessionStart (mb : Mailbox) (s : State) : Out :=
  .next (runCommand .sessionStart mb (fun b s =>
    let o := outletOfNum (rd b 0 1)
    let billed := rd b 1 1 = 1
    let kind := rd b 2 1
    let n := rd b 3 1
    let id := (b.drop 8).take n
    let entry := if n = 0 then none else findEntry s id
    let refused := ((entry.bind (fun e => entryResult s e.1)).map (fun r => r != 0)).getD false
    let source := (entry.map Prod.snd).getD 3
    guards ([(lifecycle s == 3 || (billed && lifecycle s != 2), .notPermitted), (decide (rd b 0 1 ≤ 1) && startBarred s o billed, .state),
        (decide (1 < rd b 0 1) || decide (1 < rd b 1 1) || decide (3 < kind), .argRange)] ++ startChecks s o billed id refused) s <|
      let t := s |> startSession o billed kind id source |> reserveField o (rd b 4 4)
      ok (u32 ((t.veh.out.get o).id).toNat) t) s)

/-- The outlet that a field names; 0xFF names none (07 Table 7.16). -/
def outletField (n : Nat) : Option Outlet := if n = 0xFF then none else some (outletOfNum n)

/-- AUTH_IDENTITY_SUBMIT (07 Table 7.16; R547, R551): an identity authorised by the host is token text (log 25, DESIGN CHOICE). -/
def execAuthIdentitySubmit (mb : Mailbox) (s : State) : Out :=
  .next (runCommand .authIdentitySubmit mb (fun b s =>
    let o := outletField (rd b 0 1)
    let kind := rd b 1 1
    let id := (b.drop 4).take (rd b 2 1)
    let reply := fun (r source : Nat) (t : State) => ok (u8 r ++ u8 source ++ u16 0 ++ u32 0) t
    guards [(lifecycle s == 3, .notPermitted),
        (decide (1 < rd b 0 1 ∧ rd b 0 1 ≠ 0xFF) || kind == 0 || decide (3 < kind) || rd b 2 1 == 0, .argRange)] s <|
      if kind = 3 then reply 0 3 (bindId o 2 id 3 s)
      else
        let a := authorise o kind id true true s
        reply a.1 a.2.1 a.2.2) s)

/-- SOLAR_FOLLOW_SET (07 Table 7.16; R554, R555). -/
def execSolarFollowSet (mb : Mailbox) (s : State) : Out :=
  .next (runCommand .solarFollowSet mb (fun b s =>
    let o := outletOfNum (rd b 0 1)
    let mode := rd b 1 1
    let v := rdI32 b 4
    let least : Int := if isDc s o then 1000 else 6000
    guards [(decide (1 < rd b 0 1) || decide (2 < mode), .argRange),
        (mode == 2 && (decide (v < least) || decide ((limitMa s o false : Int) < v)), .argRange)] s <|
      ok [] (modSolar o (fun x => { x with mode, minMa := v.toNat, below := none, above := none, paused := false }) s)) s)

/-! ### The connection -/

/-- The reconnect wait expires (R539): a connection needs the link of `ocpp.port` (R537); while BootNotification is held, its interval (R561). (log 74, DEDUCED) -/
def execOcppReconnect (accepted : Bool) (s : State) : Out :=
  .next (
    if !appRuns s || (ocppVersion s).isNone || lifecycle s = 3 || !waitOver s then s
    else if s.svc.connected then ifDo (s.svc.held && !awaits s .boot) sendBoot s
    else if accepted && (s.net.port[(Fin.ofNat 8 (cfgNat s.cfg s.fab (.gen .ocppPort)) : Fin 8)]).up then
      s |> modSvc (fun v => { v with connected := true, retries := 0, waitMs := 0 }) |> connectionEvent |> sendBoot
    else startWait s)

/-- BootNotification is answered (R540, R561). -/
def execBootNotificationResponse (status : BootStatus) (second interval : Nat) (s : State) : Out :=
  .next (fromOperator (ifDo (awaits s .boot) (fun s =>
    let t := s |> dropSent (fun m => m.kind == .boot) |> operatorTime second
    match status with
    | .accepted => t |> modSvc (fun v => { v with booted := true, held := false }) |> modRun (fun r => { r with booted := true }) |> flush
    | _ =>
      let wait := if interval = 0 then 60 else interval
      t |> modSvc (fun v => { v with booted := false, held := true, retryS := wait, waitMs := 1000 * wait, waitAt := s.time.life }) |> flush)) s)

/-- The heartbeat interval expires (R540). -/
def execHeartbeatSend (s : State) : Out :=
  .next (fromOperator (ifDo (s.svc.booted && passedSince s (some s.svc.beatAt) (secs (cfgNat s.cfg s.fab (.gen .heartbeatS))))
    (fun s => s |> modSvc (fun v => { v with beatAt := s.time.life }) |> sendNow { kind := .heartbeat })) s)

/-- A Heartbeat is answered (R540): its time is applied at most hourly. -/
def execHeartbeatResponse (second : Nat) (s : State) : Out :=
  .next (fromOperator (ifDo (awaits s .heartbeat) (fun s => s
    |> dropSent (fun m => m.kind == .heartbeat)
    |> ifDo (s.svc.lastTime.isNone || passedSince s s.svc.lastTime (secs 3600)) (operatorTime second))) s)

/-- An NTP reply (R540): an absolute set with its milliseconds. -/
def execNtpReply (second millis : Nat) (s : State) : Out :=
  .next (ifDo (appRuns s && usesNtp s) (fun s => (adjustMs millis (setSecond second s).2).2) s)

/-- The connection drops (R561). -/
def execOcppConnectionLost (s : State) : Out := .next (ifDo (appRuns s) loseConnection s)

/-- TLS fails (R562): a lost connection and a security event. -/
def execTlsFailure (s : State) : Out :=
  .next (ifDo (appRuns s && (ocppVersion s).isSome) (fun s => s
    |> (if s.svc.connected then loseConnection else startWait)
    |> securityMsg "TlsFailure") s)

/-- The window of periodic IDLE begins (R564): a heartbeat, and the queue drains. -/
def execIdleOcppWindow (s : State) : Out :=
  .next (ifDo (appRuns s && (ocppVersion s).isSome && cfgNat s.cfg s.fab (.gen .idleMode) == 1) (fun s => s
    |> modSvc (fun v => { v with window := some s.time.life, waitMs := 0 })
    |> ifDo (s.svc.connected && s.svc.booted) (fun s => s |> sendNow { kind := .heartbeat } |> flush)) s)

/-! ### Authorisation -/

/-- Authorize is answered (R547, R548): the cache takes the answer; a late one does no more (Table 15.5). -/
def execAuthorizeResponse (id : Bytes) (result : AuthStatus) (expiry : Nat) (s : State) : Out :=
  let code : Nat := match result with
    | .accepted => 0
    | .blocked => 1
    | .expired => 2
    | .invalid => 3
    | .unknown => 4
  let mine := fun (m : OpMsg) => m.kind == .authorize && m.text == id
  .next (fromOperator (ifDo (s.svc.sent.any mine) (fun s =>
    let t := s |> dropSent mine |> cachePut ⟨id, some result, expiry, parentOf s id⟩
    match t.svc.waiting.find? (fun w => w.id == id) with
    | none => t
    | some w => t |> modSvc (fun v => { v with waiting := v.waiting.erase w }) |> authDone w code 2)) s)

/-- No answer within `ocpp.message_timeout_s` (R547 step 5). -/
def execAuthOfflineTimeout (id : Bytes) (s : State) : Out :=
  let late := fun (w : AuthWait) => passedSince s (some w.asked) (secs (cfgNat s.cfg s.fab (.gen .messageTimeoutS)))
  .next (ifDo (appRuns s) (fun s =>
    match s.svc.waiting.find? (fun w => w.id == id && late w) with
    | none => s
    | some w =>
      let r := offlineResult s w (w.source != 2)
      s |> modSvc (fun v => { v with waiting := v.waiting.erase w }) |> authDone w r.1 r.2) s)

/-- A poll of the card reader (R550, R562). -/
def execReaderPoll (reply : Option Bytes) (s : State) : Out :=
  .next (ifDo (appRuns s && (cfgOpt s.cfg s.fab (.gen .readerPort)).isSome &&
      intervalOver s s.svc.polledAt (msecs (cfgNat s.cfg s.fab (.gen .readerPollMs)))) (fun s =>
    let s := modSvc (fun v => { v with polledAt := some s.time.life }) s
    match reply.bind readerAnswer with
    | none => readerFailed s
    | some card =>
      let t := modSvc (fun v => { v with readerFails := 0, readerAbsent := false }) s
      match card with
      | none => noCard t
      | some uid => cardSeen uid t) s)

/-- Held identities lapse (R551). -/
def execIdentityLapse (s : State) : Out :=
  .next (ifDo (appRuns s) (modSvc (fun v => { v with heldIds := v.heldIds.filter (fun h => !lapsed s h) })) s)

/-- SendLocalList (R548, R559): at most 500 entries a message and 10,000 in the list; an entry without a status is taken out
of the list. -/
def execSendLocalList (version : Nat) (full : Bool) (entries : List ListEntry) (s : State) : Out :=
  let ids := entries.map ListEntry.id
  let bytes := (entries.map (fun e => e.id.length + e.parent.length)).sum
  let new := entries.filter (fun e => e.status.isSome)
  .next (fromOperator (withinMessage bytes (fun s =>
    let l := (if full then [] else s.app.list.filter (fun e => !ids.contains e.id)) ++ new
    if 500 < entries.length ∨ 10000 < l.length then answerText "Failed" s
    else s |> modApp (fun a => { a with list := l, listVersion := version }) |> answer true)) s)

/-- ClearCache (R548). -/
def execClearCache (s : State) : Out := .next (fromOperator (fun s => s |> modApp (fun a => { a with cache := [] }) |> answer true) s)

/-! ### Sessions -/

/-- RemoteStartTransaction and RequestStartTransaction (R552; Table 15.5): the identity binds to the outlet named, now or when
it is plugged. -/
def execRemoteStart (o : Outlet) (kind : Nat) (id : Bytes) (s : State) : Out :=
  .next (fromOperator (fun s =>
    let first := !s.svc.heldIds.any (fun h => h.outlet == some o)
    if mayStart s o id && (waitsForId s o || (stateIn s o [.idle] && first)) then s |> bindId (some o) kind id 2 |> answer true
    else answer false s) s)

/-- RemoteStopTransaction and RequestStopTransaction (Table 15.5). -/
def execOperatorStop (session : Nat) (s : State) : Out :=
  .next (fromOperator (fun s =>
    match sessionOf s session with
    | none => answer false s
    | some o => s |> stopSession o .operatorStop .requested |> answer true) s)

/-- ReserveNow (R553); 2.0.1 does not serve it (R541). (log 76, DEDUCED) -/
def execReserveNow (outlet : Option Outlet) (reservation : Nat) (id parent : Bytes) (expiry : Nat) (s : State) : Out :=
  .next (fromOperator (fun s =>
    if ocppVersion s ≠ some 0 then answerText "NotSupported" s
    else if mayReserve s outlet reservation expiry then
      s |> dropReservation reservation
        |> modSvc (fun v => { v with reservations := v.reservations ++ [{ number := reservation, outlet, id, parent, expiry }] })
        |> answer true
        |> reportStatus s
    else answer false s) s)

/-- A reservation expires (R553): one whose identity is being authorised outlasts that (Table 15.5). -/
def execReservationExpire (reservation : Nat) (s : State) : Out :=
  let waits := fun (r : Reservation) => s.svc.waiting.any (fun w => reservationFits s r w.id)
  .next (ifDo (appRuns s) (fun s => s
    |> modSvc (fun v => { v with reservations := v.reservations.filterMap (fun r =>
        if r.number ≠ reservation ∨ s.time.rtcSec.toNat < r.expiry then some r else if waits r then some { r with ended := true } else none) })
    |> reportStatus s) s)

/-- CancelReservation (R553). -/
def execCancelReservation (reservation : Nat) (s : State) : Out :=
  .next (fromOperator (fun s =>
    if ocppVersion s ≠ some 0 then answerText "NotSupported" s
    else if s.svc.reservations.any (fun r => r.number == reservation) then s |> dropReservation reservation |> answer true |> reportStatus s
    else answer false s) s)

/-- The vehicle's messages without a row of their own (11 R402), with Plug & Charge authorised as R549 gives it: under 1.6J by
the list and the cache first. (log 49, DEDUCED) -/
def execProtocolMessage (o : Outlet) (msg : VehMsg) (s : State) : Out :=
  .next (protocolMessage (fun o kind id s => (authorise (some o) kind id (ocppVersion s != some 1) false s).2.2) o msg s)

/-! ### Configuration, tariffs, profiles and certificates -/

/-- ChangeConfiguration and SetVariables (R546). -/
def execChangeConfiguration (name value : Bytes) (s : State) : Out :=
  .next (fromOperator (withinMessage (name.length + value.length) (fun s =>
    match operatorKey name with
    | none => answerText (if ocppVersion s = some 0 then "NotSupported" else "UnknownVariable") s
    | some k => if onTrial s then answer false s else changeKey k value s)) s)

/-- The name of a status that MET gives (R545). -/
def tariffStatusName : Status → String
  | .emptyTable => "ST_EMPTY_TABLE"
  | .tariffRange => "ST_TARIFF_RANGE"
  | .timeInvalid => "ST_TIME_INVALID"
  | .boundaryPast => "ST_BOUNDARY_PAST"
  | _ => "ST_ARG_RANGE"

/-- The answer to a DataTransfer for MET (R545). -/
def tariffAnswer (r : Option Status) (req : MetRequest) (s : State) : State :=
  match r with
  | none => s |> metRequest req |> answer true
  | some st => answerText ("Rejected " ++ tariffStatusName st) s

/-- DataTransfer TariffTable (R545). -/
def execTariffTableDatatransfer (entries : List TariffEntry) (s : State) : Out :=
  let l := entries.map (fun e => (e.tariff, BitVec.ofNat 8 e.days, e.minute))
  .next (fromOperator (fun s =>
    let fails := if entries.any (fun e => decide (255 < e.days)) then some Status.argRange else tableFails l
    tariffAnswer fails (.tariffTable l (cfgInt s.cfg s.fab (.gen .utcOffset)) (cfgText s.cfg s.fab (.gen .dstRule))) s) s)

/-- DataTransfer TariffSwitch (R545). -/
def execTariffSwitchDatatransfer (tariff boundary second : Nat) (s : State) : Out :=
  .next (fromOperator (fun s => tariffAnswer (switchFails s tariff boundary second) (.tariffSwitch tariff boundary second) s) s)

/-- SetChargingProfile (R541, R559): a transaction's profile needs a session. -/
def execSetChargingProfile (o : Outlet) (profile : ChargingProfile) (s : State) : Out :=
  .next (fromOperator (fun s =>
    let l := storeProfile profile (s.svc.profiles.get o)
    if 24 < profile.periods.length ∨ 8 < l.length ∨ 2 < profile.purpose ∨ (profile.purpose = purposeTx ∧ !sessionOpen s o) then
      answer false s
    else s |> modSvc (fun v => { v with profiles := v.profiles.modify o (fun _ => l) }) |> reschedule o |> answer true) s)

/-- A period of the charging schedule begins (11 R407). -/
def execChargingProfilePeriod (o : Outlet) (s : State) : Out := .next (ifDo (appRuns s) (reschedule o) s)

/-- CertificateSigned, InstallCertificate, DeleteCertificate and SignCertificate (18 R636). A request is signed over the key of
`keys.ocpp_client_slot`. (log 77, DEDUCED) -/
def execInstallCertificate (op : CertOp) (s : State) : Out :=
  .next (fromOperator (fun s =>
    match op with
    | .install kind der => withinMessage der.length (fun s => s
        |> modApp (fun a => { a with certs := a.certs.filter (fun c => c != (kind, der)) ++ [(kind, der)] }) |> answer true) s
    | .delete hash =>
      if s.app.certs.any (fun c => Config.certHash c.2 == hash) then
        s |> modApp (fun a => { a with certs := a.certs.filter (fun c => Config.certHash c.2 != hash) }) |> answer true
      else answerText "NotFound" s
    | .sign =>
      match cfgOpt s.cfg s.fab (.gen .ocppClientSlot) with
      | none => answer false s
      | some n => s |> answer true |> putMsg { kind := .csr, nums := [n] }) s)

/-! ### Messages -/

/-- The meter interval passes in a session (R543). -/
def execMeterValuesSend (o : Outlet) (s : State) : Out :=
  let x := s.veh.out.get o
  .next (ifDo (appRuns s && x.billed && sessionOpen s o && metersDue s o) (fun s => s
    |> modSvc (fun v => { v with meterAt := v.meterAt.modify o (fun _ => s.time.life) })
    |> putMsg { kind := if ocppVersion s = some 1 then .txUpdate else .meter, outlet := some o, nums := x.id.toNat :: measurands s o }) s)

/-- A record's delivery is repeated until it is acknowledged (R544). -/
def execRecordDelivery (record : Nat) (s : State) : Out :=
  .next (fromOperator (fun s =>
    match s.svc.sent.find? (fun m => msgRecord m == some (record : Int)) with
    | some m => modSvc (fun v => { v with last := some m }) s
    | none => flush s) s)

/-- A transaction message is answered (R544, R548). -/
def execTransactionResponse (record : Option Nat) (idInfo : Option ListEntry) (s : State) : Out :=
  .next (fromOperator (fun s => s
    |> (match record with
      | some n => modSvc (fun v => { v with sent := v.sent.filter (fun m => msgRecord m != some (n : Int)) })
      | none => dropSent (fun m => m.kind == MsgKind.txStart))
    |> (match idInfo with
      | some e => cachePut e
      | none => fun s => s)) s)

/-! ### Solar following -/

/-- The production and the surplus of a second (R554). -/
def execSolarProductionTick (s : State) : Out :=
  .next (ifDo (appRuns s && intervalOver s s.svc.producedAt (secs 1)) (fun s =>
    let l := (production s :: s.svc.production).take 60
    modSvc (fun v => { v with production := l, surplus := surplusOf s l, producedAt := some s.time.life }) s) s)

/-- `solar.update_s` passes (R555). -/
def execSolarUpdate (s : State) : Out :=
  .next (ifDo (appRuns s && intervalOver s s.svc.solarAt (secs (cfgNat s.cfg s.fab (.gen .solarUpdateS)))) (fun s => s
    |> modSvc (fun v => { v with solarAt := some s.time.life }) |> followSun .a |> followSun .b) s)

/-- The share has stayed below the minimum for `solar.stop_s` (R556). -/
def execSolarStopTimer (o : Outlet) (s : State) : Out :=
  let x := s.svc.solar.get o
  .next (ifDo (appRuns s && x.mode == 1 && !x.paused && followsSun s o && passedSince s x.below (secs (cfgNat s.cfg s.fab (.gen .solarStopS))))
    (fun s => s
      |> modSolar o (fun x => { x with paused := true, below := none, above := none })
      |> setTarget o 0 none) s)

/-- The share has stayed at or above the minimum for `solar.start_s` in the pause (R556). -/
def execSolarStartTimer (o : Outlet) (s : State) : Out :=
  let x := s.svc.solar.get o
  .next (ifDo (appRuns s && x.mode == 1 && x.paused && followsSun s o && passedSince s x.above (secs (cfgNat s.cfg s.fab (.gen .solarStartS))))
    (fun s => s
      |> modSolar o (fun x => { x with paused := false, above := none, below := none })
      |> solarTarget o x.share 0) s)

end Sys2Proof.Machine
end

