-- ==== Sys2Proof/Machine/StartOps.lean ====
section
/-! DEFINITION. The start order (01 Table 1.12, 03 Table 3.6): one operation for each step, from the release of the module
power-on reset to step 8. -/

namespace Sys2Proof.Machine

/-! ### The set in force and the bank -/

/-- The active set where it reads; else the previous one (cause 1), or none (cause 2) (19 R677). (log 78, DEDUCED) -/
def mendActive (s : State) : State × Nat :=
  match activeSlot s with
  | none => (s, 0)
  | some a =>
    if s.slots[a].readable then (s, 0)
    else
      let t := emptySlot a s
      match activeSlot t with
      | some b => if t.slots[b].readable then (t, 1) else (emptySlot b t, 2)
      | none => (t, 2)

/-- A bank passes its measurements and its signature, which slot 3 verifies (18 R642, R643, Tables 18.9 and 18.10). -/
def bankOk (s : State) (b : Bank) : Bool :=
  let m := bankOf s b
  iskecoSigned s m.header && digestsMatch m

/-- A bank runs, on trial or not (19 R663, R673). -/
def runBank (b : Bank) (trial : Bool) (s : State) : State :=
  s |> modRun (fun r => { r with running := some b })
    |> changeState (fun h => { h with trial })
    |> modUpd (fun u =>
        if trial then { u with stage := 5, target := b, header := (bankOf s b).header }
        else if u.stage = 5 then { u with stage := 0, header := [], confirmed := [] } else u)

/-- Step 7 of the boot selector, and the migration of a trial's first start (19 R666, R675, R678): a failed migration
falls back to the confirmed bank. -/
def startBank (s : State) : State :=
  match bootSelect (bankOk s) s with
  | (none, t) => t
  | (some (b, trial), t) =>
    let u := runBank b trial t
    if !trial then u
    else
      match migrate u with
      | some v => v
      | none =>
        match bootConfirmed (bankOk t) b.other (fallBackTo b.other .migrationFailed t) with
        | (some y, w) => runBank y.1 false w
        | (none, w) => w

/-- The body in force (19 R651); none gives every default. -/
def bodyInForce (s : State) : Bytes :=
  match inForceSlot s with
  | none => []
  | some i => if s.slots[i].readable then s.slots[i].body else []

/-! ### Steps 3 and 4: keys -/

/-- The second fuse bit of a state reached (18 R645). -/
def mendFuses (k : KeyStore) : KeyStore :=
  { k with
    provisioned := if k.provisioned = 0 then 0 else 3, field := if k.field = 0 then 0 else 3
    retired := if k.retired = 0 then 0 else 3 }

/-- Lifecycle, root and slots (18 Table 18.10, R639, R640, R645). -/
def startKeys (x : StartInputs) (s : State) : State :=
  s |> modKeys mendFuses
    |> (fun s => ifDo (lifecycle s == 3) (modKeys (fun k => { k with slots := k.slots.map (fun r => { r with state := .orphaned }) })) s)
    |> (fun s => ifDo (!s.keys.rootOk) (forEach (List.finRange 64) failSlot) s)
    |> forEach x.badSlots failSlot

/-- The measurement log (18 R643). -/
def bootLog (s : State) : BootLog :=
  match s.run.running with
  | none => { metrology := s.fab.metrologyDigest }
  | some b =>
    let m := bankOf s b
    { metrology := s.fab.metrologyDigest, safety := sha384 (safetyImage m), application := sha384 (appImage m)
      crc := crc32c (bankImage m) }

/-! ### The report of the previous power-down -/

/-- How the previous power-down ended (R116, R118, R122). -/
def powerReport (s : State) : SaveRecord :=
  if s.time.lifeRestart then { s.save with outcome := .watchPor }
  else if s.wch.saveStep ≠ 0 then
    { outcome := .endedAt, step := s.wch.saveStep, life := s.wch.saveLife, epoch := s.legal.epoch, outstanding := s.pwr.saveOutstanding }
  else s.save

/-- The codes of 07 EV_POWER_RESTORED. -/
def powerDownCode : PowerDown → Nat
  | .complete => 0
  | .endedAt => 1
  | .skipped => 2
  | .watchPor => 3
def selfTestCode : SelfTest → Nat
  | .pending => 0
  | .pass => 1
  | .worn => 2
  | .failed => 3

/-- EV_POWER_RESTORED (07 Table 7.21; R122). -/
def powerRestored (number : Nat) (s : State) : State :=
  raise .powerRestored (u8 number ++ u8 (powerDownCode s.save.outcome) ++ u8 s.save.step ++ u8 (min 255 s.save.outstanding)
    ++ u64 s.save.life.toNat ++ u16 s.save.epoch.toNat ++ u8 (selfTestCode s.pwr.selfTest) ++ u8 0
    ++ u32 s.pwr.uF ++ u32 s.pwr.mOhm ++ u32 s.pwr.uA) s

/-! ### Step 5: MET -/

/-- A tamper kind that the log holds as open: 4 to 7 outlast MET's volatile state (10 R364, R386). -/
def tamperOpen (l : List LogEntry) (kind : Nat) : Bool :=
  match l.find? (fun e => e.kind.toNat == 0x0040 + kind && !e.continued) with
  | some e => e.data.headD 0 == 1
  | none => false

/-- MET loads its checkpoint (09 R344, 10 R386 step 1). -/
def loadMet (s : State) : State :=
  { s with bill := { billOfCheckpoint s with
      tamper := ([4, 5, 6, 7].filter (tamperOpen s.legal.log)).map (fun k => (k, BitVec.ofNat 8 noSubject)) } }
    |> ifDo (!s.legal.registersReadable) (fun s => s |> modBill (fun b => { b with regs := Config.lostRegisters s.nd }) |> draw)
    |> (fun s => { s with met := metFresh s })
    |> ifDo (!s.legal.coefReadable) (modMet (fun m => { m with coef := Vector.replicate 6 (Vector.replicate 9 {}) }))
    |> modTime (fun t => { t with adjLimit := s.legal.adjLimit })

/-- The legal partition faults that a start finds (01 R56, 10 R385, 18 R642, Table 18.9). -/
def startFaults (x : StartInputs) (s : State) : State :=
  s |> ifDo (!x.imageOk || !x.sealOk) (declareFault 0)
    |> ifDo (!slotValid s.keys 0 || legalPublic s != s.fab.legalPublic) (declareFault 1)
    |> ifDo (!s.legal.registersReadable) (declareFault 2)
    |> (fun s => changeState (fun h => { h with legalFault := s.legal.fault.isSome }) s)

/-- The running record of a session that the power-down cut is closed (10 R382, R383; 09 R341): by the reading of the
save, or at the checkpoint where none was saved. (log 66, DEDUCED) -/
def closeCut (o : Outlet) (s : State) : State :=
  match s.bill.running.get o with
  | none => s
  | some r =>
    if s.legal.cp.atSave ∧ r.ending = some .power then
      s |> modBill (fun b => { b with running := b.running.modify o (fun _ => none) }) |> storeRecord r
    else s |> modRecord o (fun r => { r with gap := true }) |> closeRecordAt s.legal.cp.life .fault o

/-- The legal pattern at start (16 Table 16.5): no session runs, the display is unverified, and a retired post is out of service (18
R633). -/
def legalPattern (s : State) : BitVec 64 :=
  BitVec.ofNat 64 (4 * b1 (!s.bill.tamper.isEmpty) + 8 * b1 s.legal.fault.isSome + 16 * b1 (timeInvalid s) + 32 * b1 (lifecycle s == 3) + 64)

/-- Start step 5 in the order of 10 R386; `por` is a watch-domain power-on reset counted now (04 R132). -/
def startMet (x : StartInputs) (por : Bool) (s : State) : State :=
  s |> loadMet
    |> startFaults x
    |> ifDo por (log 0x0003 noSubject (u64 s.save.life.toNat))
    |> closeTheft
    |> carryRing
    |> log 0x0002 noSubject (u8 (powerDownCode s.save.outcome) ++ u8 s.save.step)
    |> ifDo (!s.legal.cp.atSave && s.legal.cp.life != 0) (log 0x0033 noSubject (u64 s.legal.cp.life.toNat))
    |> forEach Outlet.all closeCut
    |> (fun s => reevaluate (if timeInvalid s then 2 else 0) s)
    |> openIntervals
    |> checkpoint
    |> modLegal (fun l => { l with coefReadable := true, regA := true, regB := true })
    |> (fun s => putSegments 0xFF (legalPattern s) s)

/-! ### Steps 6 and 7: the chain and the safety core -/

/-- An island powered at start (08 R310). -/
def startIsland (x : StartInputs) (k : Island) (s : State) : State :=
  let up := x.islands.getLsbD k.val
  s |> modIsl k (fun y => { y with
        powered := true, linkUp := up, restarting := !up, lastCal := s.time.life
        calLife := Vector.replicate 9 s.time.life, coef := s.met.coef[k] })
    |> ifDo (!up) (forEach (channelsOf k) (fun i => takeOut i 1))

/-- Start step 6 (08 R308, R310). -/
def startChain (x : StartInputs) (s : State) : State :=
  s |> forEach (List.finRange 48) (fun i s => modCh i (fun c => { c with cfg := chSettings s i }) s)
    |> forEach (List.finRange 6) (startIsland x)
    |> (fun s => forEach (x.openInputs.filter (fun i => s.ch[i].cfg.range != .divider)) (fun i => takeOut i 2) s)
    |> (fun s => let f := 1000 * cfgNat s.cfg s.fab (.gen .mainsHz)
        modWeave (fun w => { w with running := true, milliHz := f, increment := mainsIncrement f }) s)
    |> (fun s => s |> synchronise (BitVec.ofNat 32 (Config.refPhase s.nd).val) |> draw)
    |> forEach allDrivers (fun d s => s |> ifDo (mayGrant s d .isl) (grant d .isl) |> ifDo (mayGrant s d .wv) (grant d .wv))

/-- A mirror contact that reads closed at the start trips its outlet with WELD (12 R464), although the latches are set. -/
def startWeld (o : Outlet) (s : State) : State :=
  s |> forEach (driversOf o) (modDrv · (fun r => { r with latch := false, permits := r.permits.set true .saf }))
    |> safTrip (driversOf o) causeWeld

/-- Start step 7 (01 R39, 12 R464, R642): the safety image is copied into safety SRAM, SAF runs and completes its diagnostics, and the first watchdog window opens. -/
def startSaf (x : StartInputs) (s : State) : State :=
  let closed := fun (d : Driver) => x.mirrors.getLsbD d.val
  s |> modSafCore (fun c => { c with
        running := true, diagPassed := x.diagOk, image := (s.run.running.map (fun b => safetyImage (bankOf s b))).getD [] })
    |> ifDo (!x.diagOk) (countInternal causeInternal)
    |> forEach allDrivers (fun d s => modDrv d (fun r => { r with
          mirrorClosed := if cfgInt s.cfg s.fab (.cd d .mirror) = 0 then !closed d else closed d }) s)
    |> (fun s => forEach (Outlet.all.filter (fun o => (usedDrivers s o).any closed)) startWeld s)

/-! ### Step 8: the application -/

/-- What the boot selector left for step 8 (19 R663, R665, R669): a trial's event; a fallback completed and reported; a
confirmation completed. -/
def finishBoot (s : State) : State :=
  let bank := (s.run.running.map Bank.num).getD 0xFF
  if s.hif.trial then
    raise .updateOnTrial (u8 bank ++ u8 (((selCurrent s.upd).map BootSel.attempts).getD 0)) s
  else
    let drop := fun (s : State) => match migrationSlot s with
      | some m => emptySlot m s
      | none => s
    match s.upd.fellBack with
    | some r =>
      s |> drop
        |> (fun s => match candidateSlot s with
            | some c => ifDo s.upd.trialCandidate (emptySlot c) s
            | none => s)
        |> committedEvent 2
        |> raise .updateFellBack (u8 bank ++ u8 0 ++ u16 r.toNat)
        |> firmwareMsg "InstallationFailed" (if r = Status.updVerifyFailed.code then "InstallVerificationFailed" else "InstallationFailed")
        |> modUpd (fun u => { u with fellBack := none, trialCandidate := false })
    | none =>
      match migrationSlot s with
      | none => s
      | some m =>
        if s.slots[m].tag = headerTag ((s.run.running.map (fun b => (bankOf s b).header)).getD []) then settleMigration s
        else drop s

/-- The report of an unreadable set (19 R677). -/
def reportMend (mend : Nat) (s : State) : State :=
  if mend = 1 then committedEvent 1 s
  else if mend = 2 then memUncorrectable .configStore (Config.regionBase .configStore) 0xFFFFFFFF s
  else s

/-- The load switches of step 8 (13 R473, R497). -/
def startSwitches (s : State) : State :=
  s |> forEach (List.finRange 32) (fun n s => modLs n (fun c => { c with
        paired := n.val % 2 == 0 && lsKey s n .pair == 1, commanded := lsKey s n .start == 1 }) s)
    |> modPd (fun p => { p with started := true })
    |> applyLs

/-- The networks of step 8 (14 R533): CAN ports, REQUEST for IDENT to node 63 of each power bus, the pair link alone, and
the application's side of the keep-alive. -/
def startNet (s : State) : State :=
  s |> startCan
    |> forEach ((List.finRange 4).filter (isPower s)) (fun b => enqueue (canPort b) .session (canFrame 4 63 [1, 0, 0, 0, 0, 0, 0, 0]))
    |> forEach (List.finRange 4) (fun j s => s |> syncKnown j |> modStr j (fun x => { x with request := keepAliveKey s j }))
    |> takePairKeys
    |> modPair (fun p => { p with ownShare := p.soloShare })
    |> (fun s => ifDo (pairPort s).isSome (pairRoleEvent 0) s)

/-- Start step 8 (19 R678): the application runs. (log 70, DEDUCED) -/
def startApp (mend : Nat) (s : State) : State :=
  s |> modPwr (fun p => { p with modem := ⟨true, true⟩ })
    |> changeState (fun h => { h with startStep := 8, fwReady := true })
    |> modRun (fun r => { r with migrated := true })
    |> reportMend mend
    |> finishBoot
    |> writeSettings
    |> passKeys
    |> applyPins
    |> startSwitches
    |> forEach Outlet.all (fun o => modOut o (fun x => { x with drive := .plus12, driveNext := none, force := none }))
    |> startNet
    |> forEach Outlet.all solarMode
    |> startDisplay
    |> (fun s => match s.wch.vbatEvent with
        | some mv => ifDo s.wch.settings.vbatFitted (raise .vbatLow (u16 mv)) s
        | none => s)

/-! ### The whole start -/

/-- The state that the start will reach, worked out without events: the set in force and whether a bank runs decide what
the steps before it configure (log 31, DEDUCED). -/
def startPreview (x : StartInputs) (s : State) : State :=
  { s with hif := { s.hif with startStep := 0 } } |> startKeys x |> (fun s => (mendActive s).1) |> startBank

/-- The start from the release of the module power-on reset, where the self-test begins with its bleed (03 R120; log 86,
DESIGN CHOICE), to step 8, or to the boot ROM's service where no bank runs
(19 R675). -/
def startModule (x : StartInputs) (s : State) : State :=
  let p := startPreview x s
  let runs := p.run.running.isSome
  let por := s.time.lifeRestart
  let report := powerReport s
  s |> modPwr (fun p => { p with
        inReset := false, appIsland := true, saveOutstanding := 0
        capMv := min 9999 p.capMv, capRem := 0 })
    |> modHif (fun h => { h with rdy := true })
    |> changeState (fun h => { h with startStep := 1 })
    |> (fun s => { s with cfg := cfgOfBody s.fab (bodyInForce p), save := report })
    |> modWch (fun w => { w with saveStep := 0, theftSusp := false, theftFails := 0 })
    |> ifDo por (modLegal (fun l => { l with epoch := l.epoch + 1 }))
    |> modTime (fun t => { t with lifeRestart := false })
    |> ifDo runs (powerRestored 1)
    |> startKeys x
    |> startMet x por
    |> startChain x
    |> (fun s => let m := mendActive s
        let t := startBank m.1
        t |> modKey (fun k => { k with boot := bootLog t })
          |> if runs then (fun t => t |> startSaf x |> startApp m.2)
             else changeState (fun h => { h with startStep := 6, bootServed := true }))

end Sys2Proof.Machine
end

