-- ==== Sys2Proof/Machine/Start.lean ====
section
/-! DEFINITION. The rows of the start (01 R61; 03 Table 3.6). -/

namespace Sys2Proof.Machine

/-- The module power-on reset is released (R61): steps 1 to 8. -/
def execModulePowerOn (start : StartInputs) (s : State) : Out :=
  .next (ifDo (s.pwr.inReset && !s.pwr.rstNLow && !s.pwr.baseHeldOff && s.pwr.state == .run) (startModule start) s)

/-- PERMIT_SAF at step 9 and the re-arm of a driver (12 R465). -/
def startDriver (gates : List GateTest) (d : Driver) (s : State) : State :=
  s |> ifDo (safMayGrant s true d) (grantSaf d) |> rearm true d (gates.getD d.val ⟨0, 0⟩)

/-- Start step 9 (03 Table 3.6; 12 R465; 14 R533): the second report, PERMIT_WCH, and with the self-test passed or worn
PERMIT_SAF, the re-arms and the keep-alive's enable. -/
def execStartStep9 (gates : List GateTest) (s : State) : Out :=
  let good := s.pwr.selfTest == .pass || s.pwr.selfTest == .worn
  .next (ifDo (baseRuns s && s.hif.startStep == 9) (fun s => s
    |> powerRestored 2
    |> modSafCore (fun c => { c with step9 := true })
    |> ifDo (!s.wb.wdgFaulted && clocksGood s) (forEach allDrivers (fun d => grant d .wch))
    |> ifDo (good && s.saf.running && s.saf.diagPassed) (fun s => s
        |> forEach allDrivers (startDriver gates)
        |> ifDo (!s.saf.moduleSafe) (modNet (fun n => { n with str := n.str.map (fun x => { x with enable := true }) })))
    |> changeState (fun h => { h with startStep := 15 })) s)

end Sys2Proof.Machine
end

