-- ==== Sys2Proof/Machine/Switches.lean ====
section
/-! DEFINITION. The rows of the load switches and of the contactor drivers (13). -/

namespace Sys2Proof.Machine

/-- The channels of a mask, without the odd ones of pairs (R473). -/
def lsNamed (s : State) (mask : Nat) : List (Fin 32) :=
  (List.finRange 32).filter (fun n => mask.testBit n.val && lsGov s n == n)

/-- LOAD_SWITCH_SET (07 Table 7.14; R474, R475, Table 13.5). -/
def execLoadSwitchSet (mb : Mailbox) (s : State) : Out :=
  .next (runCommand .loadSwitchSet mb (fun b s =>
    let named := lsNamed s (rd b 0 4)
    guards [(named.any (fun n => (lsOwner s n).isSome), .switchOwned)] s <|
      let held := fun (n : Fin 32) => s.pd.ls[n].trip == .i2t || s.pd.ls[n].trip == .latched
      let t := s
        |> forEach (named.filter (fun n => !held n)) (fun n => modLs n (fun c => { c with commanded := (rd b 4 4).testBit n.val }))
        |> applyLs
      .done (if named.any held then .switchLatched else .ok) (u32 (lsWord t)) t) s)

/-- LOAD_SWITCH_STATUS_GET (07 Table 7.14, R473). -/
def execLoadSwitchStatusGet (mb : Mailbox) (s : State) : Out :=
  .next (runCommand .loadSwitchStatusGet mb (fun _ s =>
    ok ((List.finRange 32).flatMap (fun n =>
      let g := lsGov s n
      let c := s.pd.ls[g]
      u16 (if g = n then c.mA else 0) ++ u8 (lsStateCode c) ++ u8 (c.celsius + 40)
        ++ u32 (s.safStore.wear.switchOns[n]).toNat)) s) s)

/-- LOAD_SWITCH_RESTART (07 Table 7.14; R478, R479, Table 13.5). -/
def execLoadSwitchRestart (mb : Mailbox) (s : State) : Out :=
  .next (runCommand .loadSwitchRestart mb (fun b s =>
    let go := (lsNamed s (rd b 0 4)).filter (fun n =>
      let c := s.pd.ls[n]
      (c.trip == .i2t && decide (c.theta ≤ heatRestart)) || (c.trip == .latched && decide (c.celsius ≤ 150)))
    ok (u32 (go.foldl (fun w n => w + 2 ^ n.val) 0))
      (s |> forEach go (fun n s => forEach (lsMembers s n) (fun m => modLs m (fun c => { c with trip := .none })) s)
         |> applyLs)) s)

/-- WEAR_COUNTERS_READ (07 Table 7.14, R490). -/
def execWearCountersRead (mb : Mailbox) (s : State) : Out :=
  .next (runCommand .wearCountersRead mb (fun _ s =>
    let w := s.safStore.wear
    ok ((List.finRange 4).flatMap (fun d =>
        u32 (w.closings[d]).toNat ++ u32 (w.openings[d]).toNat ++ u32 (w.weldFails[d]).toNat ++ u32 0)
      ++ w.clamps.toList.flatMap (fun c => u32 c.toNat)) s) s)

/-- A channel's current sampled (R476, R477), with its junction (R479): a pair is sampled through its even channel, with the
hotter of its junctions (R473). -/
def execLsCurrentSample (n : Fin 32) (mA celsius : Nat) (s : State) : Out :=
  let limit := if s.pd.ls[n].paired ∧ n.val % 2 = 0 then 32000 else 16000
  .next (ifDo (lsGov s n == n && s.pd.started) (modLs n (fun c => { c with
    mA, celsius, theta := heatStep (lsKey s n .wire) mA c.theta, limitRun := if limit ≤ mA then c.limitRun + 1 else 0 })) s)

/-- An I²t trip (R476, R477). -/
def execI2tTrip (n : Fin 32) (clampUj : Nat) (s : State) : Out :=
  let c := s.pd.ls[n]
  .next (ifDo (lsGov s n == n && c.out && c.trip == .none && decide (heatTrip ≤ c.theta))
    (lsTrip n .i2t 1 (some (decide (1000 < clampUj)))) s)

/-- A trip from current limit: 2 ms are 40 samples (R477). -/
def execCurrentLimitTrip (n : Fin 32) (s : State) : Out :=
  let c := s.pd.ls[n]
  .next (ifDo (lsGov s n == n && c.out && c.trip == .none && decide (40 ≤ c.limitRun)) (lsTrip n .i2t 1 none) s)

/-- A thermal shutdown (R479): the ninth within 60 s latches. -/
def execThermalShutdown (n : Fin 32) (celsius : Nat) (s : State) : Out :=
  let g := lsGov s n
  let recent := s.time.life :: (s.pd.ls[g].shutdowns.filter (fun l => (s.time.life - l).toNat ≤ secs 60))
  let latch := lsKey s g .thermal == 1 || decide (9 ≤ recent.length)
  .next (ifDo (decide (170 ≤ celsius) && s.pd.ls[g].trip == .none && s.pd.started) (fun s => s
    |> forEach (lsMembers s g) (fun m => modLs m (fun c => { c with celsius, shutdowns := recent }))
    |> (if latch then lsTrip g .latched 3 none else lsTrip g .restart 2 none)) s)

/-- A thermal restart at 150 °C (R479). -/
def execThermalRestart (n : Fin 32) (celsius : Nat) (s : State) : Out :=
  let g := lsGov s n
  .next (ifDo (decide (celsius ≤ 150)) (fun s => s
    |> forEach (lsMembers s g) (fun m => modLs m (fun c => { c with
          celsius, trip := if c.trip = .restart then .none else c.trip }))
    |> applyLs) s)

/-- A changed pair takes effect once both channels are off (R473, Table 13.5). -/
def execLsPairApply (n : Fin 32) (s : State) : Out :=
  let m : Fin 32 := Fin.ofNat 32 (n.val + 1)
  .next (ifDo (n.val % 2 == 0 && !s.pd.ls[n].out && !s.pd.ls[m].out)
    (modLs n (fun c => { c with paired := lsKey s n .pair == 1 })) s)

/-- A closing failure (R496): PERMIT_APP falls with cause SESSION, and the session goes to state 10. -/
def closingFailure (d : Driver) (s : State) : State :=
  let o := outletOf d
  s |> withdrawApp o |> enterFault o .contactor

/-- Pull-in ends (R485, R487). -/
def execPullInEnd (d : Driver) (peakMa : Nat) (s : State) : Out :=
  .next (ifDo (s.pd.drv[d].phase == .pullIn && passedSince s (some s.pd.drv[d].driveStart) (msecs s.pd.drv[d].pullMs)) (fun s => s
    |> modDrv d (fun r => { r with phase := .hold, coilMa := peakMa })
    |> ifDo (decide (peakMa < s.pd.drv[d].pullMinMa)) (closingFailure d)) s)

/-- The driver is closed by its mirror while driven (R488). -/
def closedOk (s : State) (d : Driver) : Bool := s.pd.drv[d].phase != .off && !mainOpen s d

/-- The DC+ driver follows once the DC- mirror reports closed (R489). -/
def closeSecond (d : Driver) (s : State) : State :=
  let o := outletOf d
  let f := firstDriver o
  ifDo (isDc s o && d == secondDriver o && closedOk s d && stateIn s o [.insulation, .preCharge, .transfer]
      && !s.pd.drv[f].permits.app) (grant f .app) s

/-- A mirror contact sensed (R488), in RUN and IDLE (03 Table 3.9): a new state on 3 equal readings. A reading between
500 Ω and 5 kΩ counts as one of the state taken (log 88, DEDUCED). -/
def execMirrorSense (d : Driver) (ohm : Nat) (s : State) : Out :=
  let r := s.pd.drv[d]
  let reading := if ohm < 500 then true else if 5000 < ohm then false else r.mirrorClosed
  let run := if r.mirrorFilter.cand = reading then r.mirrorFilter.run + 1 else 1
  let closed := if 3 ≤ run then reading else r.mirrorClosed
  .next (ifDo (s.pwr.state == .run || s.pwr.state == .idle) (fun s => s
    |> modDrv d (fun r => { r with mirrorFilter := ⟨reading, run⟩, mirrorClosed := closed })
    |> (fun s => modDrv d (fun r => { r with
          mirrorDue := r.mirrorDue && !(if r.phase = .off then mainOpen s d else !mainOpen s d)
          weldGoodSince := if mainOpen s d then r.weldGoodSince else none }) s)
    |> closeSecond d
    |> settle (outletOf d)) s)

/-- The mirror has not reported closed in time (R488, R496). -/
def execMirrorTimeout (d : Driver) (s : State) : Out :=
  let due := cfgNat (outCfg s (outletOf d)) s.fab (.cd d .mirrorMs)
  .next (ifDo (s.pd.drv[d].phase != .off && s.pd.drv[d].mirrorDue && mainOpen s d &&
    passedSince s (some s.pd.drv[d].driveStart) (msecs due)) (closingFailure d) s)

/-- A coil held at the 5 A limit (R496). -/
def execCoilCurrentLimit (d : Driver) (s : State) : Out :=
  .next (ifDo (s.pd.drv[d].phase != .off) (safTrip [d] causeCoilDriver) s)

/-- The shunt-trip pulse ends after 500 ms (R475). -/
def execShuntTripPulseEnd (o : Outlet) (s : State) : Out :=
  .next (ifDo (passedSince s (s.pd.shunt.get o) (msecs 500))
    (fun s => s |> modPd (fun p => { p with shunt := p.shunt.modify o (fun _ => none) }) |> applyLs) s)

end Sys2Proof.Machine
end

