-- ==== Sys2Proof/Machine/Tick.lean ====
section
/-! DEFINITION. The AO32 cycle: what advances with the module's own clock (04 R131, R146; log 4, DESIGN CHOICE). -/

namespace Sys2Proof.Machine

/-- The charger in an AO32 cycle with VAUX present (03 R97, R120; log 86, DESIGN CHOICE): 40 mA raise the capacitor towards
33 V; while the self-test has not measured it, its rise is free. -/
def chargeTick (s : State) : State :=
  if !(s.pwr.vauxUp && (s.pwr.state == .run || s.pwr.state == .idle)) || s.pwr.capMv = 33000 then s
  else if s.pwr.selfTest == .pending then
    s |> draw |> modPwr (fun p => { p with capMv := min 33000 (p.capMv + Config.capRise s.nd) })
  else if s.pwr.uF = 0 then modPwr (fun p => { p with capMv := 33000, capRem := 0 }) s
  else modPwr (fun p =>
    let q := p.capRem + 1221
    { p with capMv := min 33000 (p.capMv + q / p.uF), capRem := q % p.uF }) s

/-- An AO32 cycle (04 R131, R133, R146), where any supply is present: LIFE counts, the RTC counts, the adjustments of the cycle take
effect, and the timers advance. The hold-up charges, the rinse's time and the time in IDLE's conditions count, and idle ports
take what they may send. Healthy time counts (19 R664), and a restart that waited for commands is made. -/
def execAo32Tick (s : State) : Out :=
  .next (ifDo (s.pwr.state != .off) (fun s => s
    |> modTime (fun t => rtcTick { t with life := t.life + 1 }) |> applyWrite |> timersTick
    |> chargeTick
    |> ifDo (baseRuns s) (fun s => s
        |> modWch (fun w => { w with rinseTime := w.rinseTime + 1 }) |> noteIdle |> startPorts)
    |> ifDo (baseRuns s && s.pwr.state == .run) (modDisp (fun d => { d with runTime := d.runTime + 1 }))
    |> ifDo (healthy s) (fun s => { s with run := { s.run with healthy := s.run.healthy + 1 } })
    |> restartNow) s)

end Sys2Proof.Machine
end

