-- ==== Sys2Proof/Machine/Dispatch.lean ====
section
/-! DEFINITION. The dispatch: one arm for each command. -/

namespace Sys2Proof.Machine

/-- The meaning of a command: its effect on everything but the queue. -/
def exec (i : Instr) (s : State) : Host.Outcome State Fault Refusal :=
  match i with
  | .registerWrite opcode addr words => Sys2Proof.Machine.execRegisterWrite opcode addr words s
  | .badOpcode opcode => Sys2Proof.Machine.execBadOpcode opcode s
  | .setCmdWidth word => Sys2Proof.Machine.execSetCmdWidth word s
  | .resetCmdWidth => Sys2Proof.Machine.execResetCmdWidth s
  | .readDataReady opcode addr words => Sys2Proof.Machine.execReadDataReady opcode addr words s
  | .busyTimeout opcode addr served busy wordsLeft => Sys2Proof.Machine.execBusyTimeout opcode addr served busy wordsLeft s
  | .earlySelectRelease opcode addr words cut => Sys2Proof.Machine.execEarlySelectRelease opcode addr words cut s
  | .transactionNotReady => Sys2Proof.Machine.execTransactionNotReady s
  | .writeBufferDrained => Sys2Proof.Machine.execWriteBufferDrained s
  | .cmdDoorbell word => Sys2Proof.Machine.execCmdDoorbell word s
  | .cmdRelease word => Sys2Proof.Machine.execCmdRelease word s
  | .evtAck word => Sys2Proof.Machine.execEvtAck word s
  | .hifStatusClear word => Sys2Proof.Machine.execHifStatusClear word s
  | .eventRaise code fields => Sys2Proof.Machine.execEventRaise code fields s
  | .resetKeyAppCores word => Sys2Proof.Machine.execResetKeyAppCores word s
  | .resetKeyRstN word => Sys2Proof.Machine.execResetKeyRstN word s
  | .lcRequestProvisioned word => Sys2Proof.Machine.execLcRequestProvisioned word s
  | .lcRequestField word => Sys2Proof.Machine.execLcRequestField word s
  | .lcRequestRetired word => Sys2Proof.Machine.execLcRequestRetired word s
  | .updActivate word => Sys2Proof.Machine.execUpdActivate word s
  | .updConfirm word => Sys2Proof.Machine.execUpdConfirm word s
  | .updFallback word => Sys2Proof.Machine.execUpdFallback word s
  | .moduleVersionGet mb => Sys2Proof.Machine.execModuleVersionGet mb s
  | .commandListGet mb => Sys2Proof.Machine.execCommandListGet mb s
  | .moduleStatusGet mb => Sys2Proof.Machine.execModuleStatusGet mb s
  | .timeGet mb => Sys2Proof.Machine.execTimeGet mb s
  | .timeSet mb => Sys2Proof.Machine.execTimeSet mb s
  | .timeAdjust mb => Sys2Proof.Machine.execTimeAdjust mb s
  | .timeTrimSet mb => Sys2Proof.Machine.execTimeTrimSet mb s
  | .configCandidateOpen mb => Sys2Proof.Machine.execConfigCandidateOpen mb s
  | .configCandidateWrite mb => Sys2Proof.Machine.execConfigCandidateWrite mb s
  | .configKeySet mb => Sys2Proof.Machine.execConfigKeySet mb s
  | .configKeyGet mb => Sys2Proof.Machine.execConfigKeyGet mb s
  | .configCommit mb => Sys2Proof.Machine.execConfigCommit mb s
  | .configRevert mb => Sys2Proof.Machine.execConfigRevert mb s
  | .configInfoGet mb => Sys2Proof.Machine.execConfigInfoGet mb s
  | .updateBegin mb => Sys2Proof.Machine.execUpdateBegin mb s
  | .updateBlockWrite mb => Sys2Proof.Machine.execUpdateBlockWrite mb s
  | .stagedBlockCommit block readBackOk => Sys2Proof.Machine.execStagedBlockCommit block readBackOk s
  | .updateStatusGet mb => Sys2Proof.Machine.execUpdateStatusGet mb s
  | .updateVerify mb => Sys2Proof.Machine.execUpdateVerify mb s
  | .updateAbort mb => Sys2Proof.Machine.execUpdateAbort mb s
  | .keyEnvelopeApply mb => Sys2Proof.Machine.execKeyEnvelopeApply mb s
  | .keySlotStatusGet mb => Sys2Proof.Machine.execKeySlotStatusGet mb s
  | .lifecycleGet mb => Sys2Proof.Machine.execLifecycleGet mb s
  | .deviceCertGet mb => Sys2Proof.Machine.execDeviceCertGet mb s
  | .measurementLogGet mb => Sys2Proof.Machine.execMeasurementLogGet mb s
  | .syncTrigger mb => Sys2Proof.Machine.execSyncTrigger mb s
  | .channelStatusGet mb => Sys2Proof.Machine.execChannelStatusGet mb s
  | .channelSatClear mb => Sys2Proof.Machine.execChannelSatClear mb s
  | .samplesRead mb => Sys2Proof.Machine.execSamplesRead mb s
  | .calibrationStatusGet mb => Sys2Proof.Machine.execCalibrationStatusGet mb s
  | .meterRead mb => Sys2Proof.Machine.execMeterRead mb s
  | .harmonicsRead mb => Sys2Proof.Machine.execHarmonicsRead mb s
  | .billingRegistersRead mb => Sys2Proof.Machine.execBillingRegistersRead mb s
  | .demandRead mb => Sys2Proof.Machine.execDemandRead mb s
  | .tariffTableLoad mb => Sys2Proof.Machine.execTariffTableLoad mb s
  | .tariffSwitch mb => Sys2Proof.Machine.execTariffSwitch mb s
  | .legalLogRead mb => Sys2Proof.Machine.execLegalLogRead mb s
  | .sessionRecordRead mb => Sys2Proof.Machine.execSessionRecordRead mb s
  | .sessionStart mb => Sys2Proof.Machine.execSessionStart mb s
  | .sessionStop mb => Sys2Proof.Machine.execSessionStop mb s
  | .sessionStatusGet mb => Sys2Proof.Machine.execSessionStatusGet mb s
  | .setpointSet mb => Sys2Proof.Machine.execSetpointSet mb s
  | .safetyStatusGet mb => Sys2Proof.Machine.execSafetyStatusGet mb s
  | .tripCauseRead mb => Sys2Proof.Machine.execTripCauseRead mb s
  | .safetyRearmRequest mb => Sys2Proof.Machine.execSafetyRearmRequest mb s
  | .loadSwitchSet mb => Sys2Proof.Machine.execLoadSwitchSet mb s
  | .loadSwitchStatusGet mb => Sys2Proof.Machine.execLoadSwitchStatusGet mb s
  | .loadSwitchRestart mb => Sys2Proof.Machine.execLoadSwitchRestart mb s
  | .wearCountersRead mb => Sys2Proof.Machine.execWearCountersRead mb s
  | .portStatusGet mb => Sys2Proof.Machine.execPortStatusGet mb s
  | .stringStatusGet mb => Sys2Proof.Machine.execStringStatusGet mb s
  | .rsdKeepaliveSet mb => Sys2Proof.Machine.execRsdKeepaliveSet mb s
  | .pairRoleSwapRequest mb => Sys2Proof.Machine.execPairRoleSwapRequest mb s
  | .pairStatusGet mb => Sys2Proof.Machine.execPairStatusGet mb s
  | .powerModuleStatusGet mb => Sys2Proof.Machine.execPowerModuleStatusGet mb s
  | .authIdentitySubmit mb => Sys2Proof.Machine.execAuthIdentitySubmit mb s
  | .solarFollowSet mb => Sys2Proof.Machine.execSolarFollowSet mb s
  | .displayRegionWrite mb => Sys2Proof.Machine.execDisplayRegionWrite mb s
  | .displayUpdate mb => Sys2Proof.Machine.execDisplayUpdate mb s
  | .segmentSet mb => Sys2Proof.Machine.execSegmentSet mb s
  | .displayStatusGet mb => Sys2Proof.Machine.execDisplayStatusGet mb s
  | .pspTransfer mb => Sys2Proof.Machine.execPspTransfer mb s
  | .pspTransferRun port groups clocks => Sys2Proof.Machine.execPspTransferRun port groups clocks s
  | .pspBusyTimeout port => Sys2Proof.Machine.execPspBusyTimeout port s
  | .gpioSet mb => Sys2Proof.Machine.execGpioSet mb s
  | .gpioGet mb levels => Sys2Proof.Machine.execGpioGet mb levels s
  | .watchStatusGet mb => Sys2Proof.Machine.execWatchStatusGet mb s
  | .rtcAdjMsWrite master word whole => Sys2Proof.Machine.execRtcAdjMsWrite master word whole s
  | .rtcSetLoWrite master hi lo whole => Sys2Proof.Machine.execRtcSetLoWrite master hi lo whole s
  | .rtcTrimWrite master word => Sys2Proof.Machine.execRtcTrimWrite master word s
  | .tmrPeriodWrite master n period => Sys2Proof.Machine.execTmrPeriodWrite master n period s
  | .tmrPeriodEvent n => Sys2Proof.Machine.execTmrPeriodEvent n s
  | .ao32Tick => Sys2Proof.Machine.execAo32Tick s
  | .slewAbsorbed => Sys2Proof.Machine.execSlewAbsorbed s
  | .rtcRangeEnd => Sys2Proof.Machine.execRtcRangeEnd s
  | .metTimeReport => Sys2Proof.Machine.execMetTimeReport s
  | .ao32Fault => Sys2Proof.Machine.execAo32Fault s
  | .aofFault => Sys2Proof.Machine.execAofFault s
  | .refFault => Sys2Proof.Machine.execRefFault s
  | .metClockFault => Sys2Proof.Machine.execMetClockFault s
  | .safClockFault => Sys2Proof.Machine.execSafClockFault s
  | .appClockFault => Sys2Proof.Machine.execAppClockFault s
  | .fltFault => Sys2Proof.Machine.execFltFault s
  | .pllDomainFault domain => Sys2Proof.Machine.execPllDomainFault domain s
  | .domainReadmitted domain => Sys2Proof.Machine.execDomainReadmitted domain s
  | .vauxStartDebounced vauxMv => Sys2Proof.Machine.execVauxStartDebounced vauxMv s
  | .modulePowerOn start => Sys2Proof.Machine.execModulePowerOn start s
  | .startStep9 gates => Sys2Proof.Machine.execStartStep9 gates s
  | .holdupSelftestComplete uF mOhm uA => Sys2Proof.Machine.execHoldupSelftestComplete uF mOhm uA s
  | .holdupSelftestTimeout uF capMv => Sys2Proof.Machine.execHoldupSelftestTimeout uF capMv s
  | .startRepeat => Sys2Proof.Machine.execStartRepeat s
  | .vauxOvCut vauxMv => Sys2Proof.Machine.execVauxOvCut vauxMv s
  | .vauxOvRelease vauxMv => Sys2Proof.Machine.execVauxOvRelease vauxMv s
  | .vauxLow vauxMv => Sys2Proof.Machine.execVauxLow vauxMv s
  | .saveEntry clamped cut => Sys2Proof.Machine.execSaveEntry clamped cut s
  | .saveComplete capMv => Sys2Proof.Machine.execSaveComplete capMv s
  | .lastCall step items => Sys2Proof.Machine.execLastCall step items s
  | .converterStop step items => Sys2Proof.Machine.execConverterStop step items s
  | .holdupLow capMv => Sys2Proof.Machine.execHoldupLow capMv s
  | .railFault => Sys2Proof.Machine.execRailFault s
  | .watchSourceChange capMv vbatMv => Sys2Proof.Machine.execWatchSourceChange capMv vbatMv s
  | .rstNLow lowNs held => Sys2Proof.Machine.execRstNLow lowNs held s
  | .watchDomainPor => Sys2Proof.Machine.execWatchDomainPor s
  | .appCoreReset => Sys2Proof.Machine.execAppCoreReset s
  | .appWatchdogExpiry => Sys2Proof.Machine.execAppWatchdogExpiry s
  | .safCoreReset => Sys2Proof.Machine.execSafCoreReset s
  | .permitWithdrawal d stage code => Sys2Proof.Machine.execPermitWithdrawal d stage code s
  | .tripWindowClose d => Sys2Proof.Machine.execTripWindowClose d s
  | .permitGrant d stage => Sys2Proof.Machine.execPermitGrant d stage s
  | .safRearm d gate => Sys2Proof.Machine.execSafRearm d gate s
  | .powerDieLinkLoss => Sys2Proof.Machine.execPowerDieLinkLoss s
  | .firewallBlock access => Sys2Proof.Machine.execFirewallBlock access s
  | .cryptoRequest req => Sys2Proof.Machine.execCryptoRequest req s
  | .cryptoRequestDone channel => Sys2Proof.Machine.execCryptoRequestDone channel s
  | .tamperSample covOhm trmOhm => Sys2Proof.Machine.execTamperSample covOhm trmOhm s
  | .crackCheck ohm => Sys2Proof.Machine.execCrackCheck ohm s
  | .vbatCheck vbatMv => Sys2Proof.Machine.execVbatCheck vbatMv s
  | .pilotWakeSample cpOutOfA ppMoved outlet => Sys2Proof.Machine.execPilotWakeSample cpOutOfA ppMoved outlet s
  | .theftBurst valid bits => Sys2Proof.Machine.execTheftBurst valid bits s
  | .segmentUpdateStart celsius => Sys2Proof.Machine.execSegmentUpdateStart celsius s
  | .segmentUpdateEnd => Sys2Proof.Machine.execSegmentUpdateEnd s
  | .segmentPatternWrite m pattern => Sys2Proof.Machine.execSegmentPatternWrite m pattern s
  | .segmentRedrive => Sys2Proof.Machine.execSegmentRedrive s
  | .wdgService master word whole => Sys2Proof.Machine.execWdgService master word whole s
  | .wdgLate => Sys2Proof.Machine.execWdgLate s
  | .heartbeatTick => Sys2Proof.Machine.execHeartbeatTick s
  | .permitWchRefreshTimeout => Sys2Proof.Machine.execPermitWchRefreshTimeout s
  | .metCarryRing => Sys2Proof.Machine.execMetCarryRing s
  | .watchSettingsApply => Sys2Proof.Machine.execWatchSettingsApply s
  | .rtcAlarmFire => Sys2Proof.Machine.execRtcAlarmFire s
  | .gpWakeEdge pin rising => Sys2Proof.Machine.execGpWakeEdge pin rising s
  | .networkWakeFrame port kind frame => Sys2Proof.Machine.execNetworkWakeFrame port kind frame s
  | .arpReplyIdle port => Sys2Proof.Machine.execArpReplyIdle port s
  | .metWakeRequest => Sys2Proof.Machine.execMetWakeRequest s
  | .safWakeRequest => Sys2Proof.Machine.execSafWakeRequest s
  | .wakeComplete => Sys2Proof.Machine.execWakeComplete s
  | .idleEntry => Sys2Proof.Machine.execIdleEntry s
  | .appIslandRemoved => Sys2Proof.Machine.execAppIslandRemoved s
  | .rinseGranule region outcome => Sys2Proof.Machine.execRinseGranule region outcome s
  | .calibrationDue k m => Sys2Proof.Machine.execCalibrationDue k m s
  | .darningCompare k => Sys2Proof.Machine.execDarningCompare k s
  | .darningReferenceDone k offset gain => Sys2Proof.Machine.execDarningReferenceDone k offset gain s
  | .darningRelease k => Sys2Proof.Machine.execDarningRelease k s
  | .m8SelfCalibration k offset gain pass => Sys2Proof.Machine.execM8SelfCalibration k offset gain pass s
  | .comparatorSelftest k step => Sys2Proof.Machine.execComparatorSelftest k step s
  | .egressFrameDone port => Sys2Proof.Machine.execEgressFrameDone port s
  | .telemetryEnqueue port frame => Sys2Proof.Machine.execTelemetryEnqueue port frame s
  | .islandFrame k frame loads => Sys2Proof.Machine.execIslandFrame k frame loads s
  | .islandLinkLoss k => Sys2Proof.Machine.execIslandLinkLoss k s
  | .islandRestartRetry k => Sys2Proof.Machine.execIslandRestartRetry k s
  | .islandLinkResync k => Sys2Proof.Machine.execIslandLinkResync k s
  | .weaveFrame => Sys2Proof.Machine.execWeaveFrame s
  | .weaveThresholdTrip ch => Sys2Proof.Machine.execWeaveThresholdTrip ch s
  | .comparatorTrip ch high => Sys2Proof.Machine.execComparatorTrip ch high s
  | .syncInEdge highNs => Sys2Proof.Machine.execSyncInEdge highNs s
  | .synchronisationInstant refCycles => Sys2Proof.Machine.execSynchronisationInstant refCycles s
  | .mainsCycleEnd milliHz rmsPermille refCycles => Sys2Proof.Machine.execMainsCycleEnd milliHz rmsPermille refCycles s
  | .modulatorFailed k m => Sys2Proof.Machine.execModulatorFailed k m s
  | .openInputTest ch isOpen => Sys2Proof.Machine.execOpenInputTest ch isOpen s
  | .channelReadmit ch => Sys2Proof.Machine.execChannelReadmit ch s
  | .metSampleAccumulate sel => Sys2Proof.Machine.execMetSampleAccumulate sel s
  | .testPulseEnd => Sys2Proof.Machine.execTestPulseEnd s
  | .integrationPeriodEnd => Sys2Proof.Machine.execIntegrationPeriodEnd s
  | .harmonicWindowEnd => Sys2Proof.Machine.execHarmonicWindowEnd s
  | .syncBridge sel => Sys2Proof.Machine.execSyncBridge sel s
  | .measurementGap sel ms => Sys2Proof.Machine.execMeasurementGap sel ms s
  | .gapSessionEnd o => Sys2Proof.Machine.execGapSessionEnd o s
  | .metCoreReset => Sys2Proof.Machine.execMetCoreReset s
  | .calibrationAgeExceeded k m => Sys2Proof.Machine.execCalibrationAgeExceeded k m s
  | .startupRotationComplete k => Sys2Proof.Machine.execStartupRotationComplete k s
  | .metRequestWrite m req => Sys2Proof.Machine.execMetRequestWrite m req s
  | .checkpoint => Sys2Proof.Machine.execCheckpoint s
  | .tariffEntryStart entry => Sys2Proof.Machine.execTariffEntryStart entry s
  | .remoteSwitchEffect => Sys2Proof.Machine.execRemoteSwitchEffect s
  | .demandIntervalEnd => Sys2Proof.Machine.execDemandIntervalEnd s
  | .slidingSubEnd => Sys2Proof.Machine.execSlidingSubEnd s
  | .demandPeriodClose => Sys2Proof.Machine.execDemandPeriodClose s
  | .logEntryWrite => Sys2Proof.Machine.execLogEntryWrite s
  | .sessionRecordSigned o ok => Sys2Proof.Machine.execSessionRecordSigned o ok s
  | .cpStateChange o highMv => Sys2Proof.Machine.execCpStateChange o highMv s
  | .ppChange o ohm => Sys2Proof.Machine.execPpChange o ohm s
  | .diodeFault o lowMv => Sys2Proof.Machine.execDiodeFault o lowMv s
  | .pwmDutyChange o => Sys2Proof.Machine.execPwmDutyChange o s
  | .cmSlacParam o runId => Sys2Proof.Machine.execCmSlacParam o runId s
  | .cmMnbcSound o attenDb => Sys2Proof.Machine.execCmMnbcSound o attenDb s
  | .cmSlacMatch o => Sys2Proof.Machine.execCmSlacMatch o s
  | .sdpRequest o tls => Sys2Proof.Machine.execSdpRequest o tls s
  | .supportedAppProtocol o offered => Sys2Proof.Machine.execSupportedAppProtocol o offered s
  | .cableCheck o vehMaxMv outletMv => Sys2Proof.Machine.execCableCheck o vehMaxMv outletMv s
  | .insulationTestStable o outletMv => Sys2Proof.Machine.execInsulationTestStable o outletMv s
  | .preCharge o requestMv outletMv => Sys2Proof.Machine.execPreCharge o requestMv outletMv s
  | .powerDelivery o start => Sys2Proof.Machine.execPowerDelivery o start s
  | .chargeLoopRequest o veh => Sys2Proof.Machine.execChargeLoopRequest o veh s
  | .directionRenegotiation o accepted => Sys2Proof.Machine.execDirectionRenegotiation o accepted s
  | .setpointRampTick o currentMa => Sys2Proof.Machine.execSetpointRampTick o currentMa s
  | .powerTargetConvert o outletMv => Sys2Proof.Machine.execPowerTargetConvert o outletMv s
  | .acHoldoffEnd o => Sys2Proof.Machine.execAcHoldoffEnd o s
  | .bptDwellEnd o => Sys2Proof.Machine.execBptDwellEnd o s
  | .stopTimeout o => Sys2Proof.Machine.execStopTimeout o s
  | .pauseTimeout o => Sys2Proof.Machine.execPauseTimeout o s
  | .handshakeTimeout o => Sys2Proof.Machine.execHandshakeTimeout o s
  | .protocolTimeout o kind => Sys2Proof.Machine.execProtocolTimeout o kind s
  | .outletOvercurrent o currentMa => Sys2Proof.Machine.execOutletOvercurrent o currentMa s
  | .outletReenable o => Sys2Proof.Machine.execOutletReenable o s
  | .safCycle inp => Sys2Proof.Machine.execSafCycle inp s
  | .estopOpen aOpen bOpen disagreeMs => Sys2Proof.Machine.execEstopOpen aOpen bOpen disagreeMs s
  | .residualDcCycle o => Sys2Proof.Machine.execResidualDcCycle o s
  | .rcdRefOut o perMille => Sys2Proof.Machine.execRcdRefOut o perMille s
  | .rcdSensorTest o riseUa windingOhm => Sys2Proof.Machine.execRcdSensorTest o riseUa windingOhm s
  | .insulationMeasurement o plusOhm minusOhm outletMv => Sys2Proof.Machine.execInsulationMeasurement o plusOhm minusOhm outletMv s
  | .imdSelfCheck o changeMv computedMv => Sys2Proof.Machine.execImdSelfCheck o changeMv computedMv s
  | .peLoopFault o loopMilliohm => Sys2Proof.Machine.execPeLoopFault o loopMilliohm s
  | .penFault nPeMv phasePeMv => Sys2Proof.Machine.execPenFault nPeMv phasePeMv s
  | .temperatureReading o sensor deciC => Sys2Proof.Machine.execTemperatureReading o sensor deciC s
  | .dcOvervoltage o outletMv => Sys2Proof.Machine.execDcOvervoltage o outletMv s
  | .dischargeCheck o outletMv => Sys2Proof.Machine.execDischargeCheck o outletMv s
  | .inputUnavailable ch => Sys2Proof.Machine.execInputUnavailable ch s
  | .dividerPlausibility o converter readMv secondMv => Sys2Proof.Machine.execDividerPlausibility o converter readMv secondMv s
  | .weldCheck d coilMa mirrorMs phasesMv => Sys2Proof.Machine.execWeldCheck d coilMa mirrorMs phasesMv s
  | .coilReadback d hMv lMv coilMa => Sys2Proof.Machine.execCoilReadback d hMv lMv coilMa s
  | .cpForceFEnd o => Sys2Proof.Machine.execCpForceFEnd o s
  | .seamFrameSend change => Sys2Proof.Machine.execSeamFrameSend change s
  | .seamFrameReceive path frame => Sys2Proof.Machine.execSeamFrameReceive path frame s
  | .seamPathTimeout path => Sys2Proof.Machine.execSeamPathTimeout path s
  | .seamDegradedTimeout => Sys2Proof.Machine.execSeamDegradedTimeout s
  | .safInternalFault => Sys2Proof.Machine.execSafInternalFault s
  | .comparatorSelftestAge k => Sys2Proof.Machine.execComparatorSelftestAge k s
  | .dieOvertemp powerDie celsius => Sys2Proof.Machine.execDieOvertemp powerDie celsius s
  | .lsCurrentSample n mA celsius => Sys2Proof.Machine.execLsCurrentSample n mA celsius s
  | .i2tTrip n clampUj => Sys2Proof.Machine.execI2tTrip n clampUj s
  | .currentLimitTrip n => Sys2Proof.Machine.execCurrentLimitTrip n s
  | .thermalShutdown n celsius => Sys2Proof.Machine.execThermalShutdown n celsius s
  | .thermalRestart n celsius => Sys2Proof.Machine.execThermalRestart n celsius s
  | .lsPairApply n => Sys2Proof.Machine.execLsPairApply n s
  | .pullInEnd d peakMa => Sys2Proof.Machine.execPullInEnd d peakMa s
  | .mirrorSense d ohm => Sys2Proof.Machine.execMirrorSense d ohm s
  | .mirrorTimeout d => Sys2Proof.Machine.execMirrorTimeout d s
  | .coilCurrentLimit d => Sys2Proof.Machine.execCoilCurrentLimit d s
  | .shuntTripPulseEnd o => Sys2Proof.Machine.execShuntTripPulseEnd o s
  | .canBusOffRestart n => Sys2Proof.Machine.execCanBusOffRestart n s
  | .linkChange port up kbps errors high => Sys2Proof.Machine.execLinkChange port up kbps errors high s
  | .stringPoll j addr => Sys2Proof.Machine.execStringPoll j addr s
  | .stringReply j frame => Sys2Proof.Machine.execStringReply j frame s
  | .stringAttemptTimeout j => Sys2Proof.Machine.execStringAttemptTimeout j s
  | .optimiserRemoved j addr => Sys2Proof.Machine.execOptimiserRemoved j addr s
  | .discoveryRound j heard garbled => Sys2Proof.Machine.execDiscoveryRound j heard garbled s
  | .keepaliveStop j coupler => Sys2Proof.Machine.execKeepaliveStop j coupler s
  | .keepaliveResume j => Sys2Proof.Machine.execKeepaliveResume j s
  | .sunspecRead k points => Sys2Proof.Machine.execSunspecRead k points s
  | .sunspecTimeout k => Sys2Proof.Machine.execSunspecTimeout k s
  | .pmSetpointCycle bus => Sys2Proof.Machine.execPmSetpointCycle bus s
  | .pmStatusReceive bus node payload => Sys2Proof.Machine.execPmStatusReceive bus node payload s
  | .pmIdentReceive bus node payload => Sys2Proof.Machine.execPmIdentReceive bus node payload s
  | .pmLost bus node => Sys2Proof.Machine.execPmLost bus node s
  | .pairFrameSend => Sys2Proof.Machine.execPairFrameSend s
  | .pairFrameReceive frame => Sys2Proof.Machine.execPairFrameReceive frame s
  | .pairHandover => Sys2Proof.Machine.execPairHandover s
  | .peerLost => Sys2Proof.Machine.execPeerLost s
  | .leaderShareRaise => Sys2Proof.Machine.execLeaderShareRaise s
  | .ocppReconnect accepted => Sys2Proof.Machine.execOcppReconnect accepted s
  | .bootNotificationResponse status second interval => Sys2Proof.Machine.execBootNotificationResponse status second interval s
  | .heartbeatSend => Sys2Proof.Machine.execHeartbeatSend s
  | .authorizeResponse id result expiry => Sys2Proof.Machine.execAuthorizeResponse id result expiry s
  | .authOfflineTimeout id => Sys2Proof.Machine.execAuthOfflineTimeout id s
  | .remoteStart o kind id => Sys2Proof.Machine.execRemoteStart o kind id s
  | .reserveNow outlet reservation id parent expiry => Sys2Proof.Machine.execReserveNow outlet reservation id parent expiry s
  | .reservationExpire reservation => Sys2Proof.Machine.execReservationExpire reservation s
  | .changeConfiguration name value => Sys2Proof.Machine.execChangeConfiguration name value s
  | .tariffTableDatatransfer entries => Sys2Proof.Machine.execTariffTableDatatransfer entries s
  | .tariffSwitchDatatransfer tariff boundary second => Sys2Proof.Machine.execTariffSwitchDatatransfer tariff boundary second s
  | .keyEnvelopeDatatransfer envelope => Sys2Proof.Machine.execKeyEnvelopeDatatransfer envelope s
  | .updateFirmware header image ocppSigOk install => Sys2Proof.Machine.execUpdateFirmware header image ocppSigOk install s
  | .operatorActivation => Sys2Proof.Machine.execOperatorActivation s
  | .sendLocalList version full entries => Sys2Proof.Machine.execSendLocalList version full entries s
  | .clearCache => Sys2Proof.Machine.execClearCache s
  | .setChargingProfile o profile => Sys2Proof.Machine.execSetChargingProfile o profile s
  | .meterValuesSend o => Sys2Proof.Machine.execMeterValuesSend o s
  | .recordDelivery record => Sys2Proof.Machine.execRecordDelivery record s
  | .tlsFailure => Sys2Proof.Machine.execTlsFailure s
  | .idleOcppWindow => Sys2Proof.Machine.execIdleOcppWindow s
  | .readerPoll answer => Sys2Proof.Machine.execReaderPoll answer s
  | .identityLapse => Sys2Proof.Machine.execIdentityLapse s
  | .solarProductionTick => Sys2Proof.Machine.execSolarProductionTick s
  | .solarUpdate => Sys2Proof.Machine.execSolarUpdate s
  | .solarStopTimer o => Sys2Proof.Machine.execSolarStopTimer o s
  | .solarStartTimer o => Sys2Proof.Machine.execSolarStartTimer o s
  | .displayUpdateStart deciC => Sys2Proof.Machine.execDisplayUpdateStart deciC s
  | .displayFrame => Sys2Proof.Machine.execDisplayFrame s
  | .displayUpdateEnd slot => Sys2Proof.Machine.execDisplayUpdateEnd slot s
  | .legalUpdateRequest => Sys2Proof.Machine.execLegalUpdateRequest s
  | .outputTest charges => Sys2Proof.Machine.execOutputTest charges s
  | .ageingSensing charges => Sys2Proof.Machine.execAgeingSensing charges s
  | .tileCounterWrite => Sys2Proof.Machine.execTileCounterWrite s
  | .displayDieFault => Sys2Proof.Machine.execDisplayDieFault s
  | .tempChannelStale => Sys2Proof.Machine.execTempChannelStale s
  | .debugChallenge => Sys2Proof.Machine.execDebugChallenge s
  | .debugSignature slot signature => Sys2Proof.Machine.execDebugSignature slot signature s
  | .lcAuthorisationExpire => Sys2Proof.Machine.execLcAuthorisationExpire s
  | .rngHealthFail => Sys2Proof.Machine.execRngHealthFail s
  | .rngRestart passed => Sys2Proof.Machine.execRngRestart passed s
  | .trialConfirmAuto => Sys2Proof.Machine.execTrialConfirmAuto s
  | .powerDieLinkRestored => Sys2Proof.Machine.execPowerDieLinkRestored s
  | .protocolMessage o msg => Sys2Proof.Machine.execProtocolMessage o msg s
  | .ocppConnectionLost => Sys2Proof.Machine.execOcppConnectionLost s
  | .operatorStop session => Sys2Proof.Machine.execOperatorStop session s
  | .heartbeatResponse second => Sys2Proof.Machine.execHeartbeatResponse second s
  | .ntpReply second millis => Sys2Proof.Machine.execNtpReply second millis s
  | .transactionResponse record idInfo => Sys2Proof.Machine.execTransactionResponse record idInfo s
  | .cancelReservation reservation => Sys2Proof.Machine.execCancelReservation reservation s
  | .installCertificate op => Sys2Proof.Machine.execInstallCertificate op s
  | .watchSramScrub granule uncorrectable => Sys2Proof.Machine.execWatchSramScrub granule uncorrectable s
  | .chargingProfilePeriod o => Sys2Proof.Machine.execChargingProfilePeriod o s

end Sys2Proof.Machine
end

