-- ==== Sys2Proof/Safety.lean ====
section
/-! DEFINITION. What counts as a safe run: no command stops the machine; and what the statements say of the host
port: when it takes a word, when a mailbox's command is served, and what always holds of the mailbox unit. -/

namespace Sys2Proof.Machine

/-- The step from `s` answers a next state. -/
def stepsOn (s : State) : Bool :=
  match step s with
  | .next _ => true
  | _ => false

/-- `n` steps from `s` all answer next states. -/
def runsOn : Nat → State → Bool
  | 0, _ => true
  | n + 1, s =>
    match step s with
    | .next t => runsOn n t
    | _ => false

/-- What always holds of the mailbox unit: the windows are in canonical form and list no address outside
0x1000 to 0x2FFF (06 Table 6.3), at most 128 events are queued (R228), an event waits in the queue only while
every event mailbox is full (R225, R227), at most two reports are kept for the host (R229), and no response is
longer than a window (Table 6.4). -/
structure MailOk (m : Mbx) : Prop where
  canonical : Memory.wf m.win = true
  inWindows : ∀ c ∈ m.win, 0x1000 ≤ c.1 ∧ c.1 < 0x3000
  queued : m.queue.length ≤ 128
  inOrder : m.queue ≠ [] → ∀ i : Mailbox, m.evt[i].full = true
  kept : m.kept.length ≤ 2
  response : ∀ mb : Mailbox, m.cmd[mb].rlen.toNat ≤ 512
  keptResponse : ∀ (mb : Mailbox) (k : Kept), m.cmd[mb].kept = some k → k.resp.length ≤ 512

/-- The port takes words (06 R217, R243). -/
abbrev portOpen (s : State) : Prop := s.hif.rdy = true ∧ s.hif.ignored = false

/-- Mailbox `mb` holds command `c` with argument `b`, to be taken up now as a new command that passes the checks of
its header (06 R221 to R224, R240). -/
abbrev serves (c : Cmd) (mb : Mailbox) (b : Bytes) (s : State) : Prop :=
  mayTake s mb = true ∧ boxCode s mb = c.code ∧ (s.mbx.cmd[mb].kept.map (·.seq)) ≠ some s.mbx.cmd[mb].seq ∧
    headerFails (takeUp mb s) mb c = none ∧ argBytes (takeUp mb s) mb = b

/-- No step changes the fuses and sealed data, the queue of commands or, but to go on, the lifecycle. -/
structure Keeps (s t : State) : Prop where
  fab : t.fab = s.fab
  pending : t.pending = s.pending
  mail : MailOk s.mbx → MailOk t.mbx
  provisioned : s.keys.provisioned ≠ 0 → t.keys.provisioned ≠ 0
  field : s.keys.field ≠ 0 → t.keys.field ≠ 0
  retired : s.keys.retired ≠ 0 → t.keys.retired ≠ 0

end Sys2Proof.Machine
end

