-- ==== Sys2Proof/WellFormed.lean ====
section
/-! DEFINITION. Well-formed commands: the operands that spell a command of the row. Every other command is
stopped by its meaning with the fault `illFormed`. -/

namespace Sys2Proof

/-- The operands spell the command. -/
def Instr.wellFormed : Instr → Bool
  | .registerWrite op _ ws => Machine.writeShape op ws.length
  | .badOpcode op => Machine.opInvalid op
  | .readDataReady op a ws => Machine.readShape op ws.length && Machine.readFits a.toNat ws
  | .busyTimeout op a served busy left => Machine.timeoutShape op a.toNat served busy left
  | .earlySelectRelease op _ ws cut => Machine.cutShape op ws.length cut
  | .pllDomainFault d => Machine.lesserPll d
  | .gpWakeEdge pin _ => decide (56 ≤ pin.val)
  | .theftBurst _ bits => bits.length == 8
  | .eventRaise _ fields => decide (fields.length ≤ 492)
  | .ageingSensing charges => charges.length == 16
  | _ => true

end Sys2Proof
end

