-- ==== Sys2Proof/Certificates/Slice0/Obligations.lean ====
section
/-! DEFINITION. The statements for the provers. -/

open Sys2Proof Sys2Proof.Machine

/-- A step runs exec on the command at the front of the queue; an empty queue idles (the model's choice, log 4). For every
command c, rest of the queue and state s whose queue is c followed by that rest, the step from s is exec of c on s
with its queue replaced by the rest. The step from a state whose queue is empty answers that same state. That nothing
happens between commands is the choice of the model that log 4 names; the rows of the table carry what time does. -/
def Obligations.StepOfTheQueue : Prop :=
  (∀ (c : Instr) (rest : List Instr) (s : State), s.pending = c :: rest →
    step s = exec c { s with pending := rest }) ∧
  (∀ s : State, s.pending = [] → step s = .next s)

/-- Every well-formed command has a next state; every other one stops with the fault illFormed. For every command i and
state s: if the operands of i spell a command of its row, exec answers a next state; if they do not (a write or read
whose words do not fit its opcode or its address, a busy time-out outside the windows, an opcode that is no invalid
one in BAD_OPCODE, a cut that its transaction cannot have, a domain that is no lesser PLL domain, a wake edge on a pin
below GP56, lists of another length than the row has, an event payload above 512 bytes), it is stopped by the fault
illFormed. An output test spells its row where it has one charge for each output of the panel of the module, and is
stopped so otherwise. So no command of the table is refused, and no other state stops one. -/
def Obligations.WellFormedCommandsComplete : Prop :=
  ∀ (i : Instr) (s : State),
    (i.wellFormed = true → (∀ c, i = .outputTest c → panelFits s c = true) → ∃ t, exec i s = .next t) ∧
    (i.wellFormed = false → exec i s = .fault .illFormed) ∧
    (∀ c, i = .outputTest c → panelFits s c = false → exec i s = .fault .illFormed)

/-- No step breaks what always holds of the mailbox unit: canonical windows, bounded queue, order of events. From every
state whose mailbox unit meets MailOk, every step that answers a next state leaves one that meets it: the windows stay
in canonical form and list only addresses 0x1000 to 0x2FFF, at most 128 events are queued and only while all eight
event mailboxes are full, at most two power reports are kept for the host, and no response or kept response is longer
than the 512 bytes of a window. -/
def Obligations.MailboxUnitInvariant : Prop :=
  ∀ s t : State, MailOk s.mbx → step s = .next t → MailOk t.mbx

/-- State.reset: the values the spec gives after a watch-domain power-on reset, and the mailbox unit's invariant.
State.reset meets MailOk (nothing listed in the windows, queued, kept or presented), its queue of commands is empty,
and it has the values that 04 Table 4.3, 05 Tables 5.6 and 5.7, 06 Tables 6.3 and 6.4, 01 R61 and 13 R497 give: the
RTC 0 and not valid with LIFE_RESTART alone set, all segments in their first colour, watch settings with the theft
watch off and both tamper inputs enabled, wake bits 0, 6 and 7, an empty record ring, the crack loop unverified, every
trip latch set and every permit withdrawn, every coil and load switch off, the host registers as listed and HIF_RDY
low. LIFE 0 is R163's. What the spec gives no value is the model's choice and stands in no clause here. -/
def Obligations.ResetState : Prop :=
  MailOk State.reset.mbx ∧ State.reset.pending = [] ∧
  (let t := State.reset.time
   t.life = 0 ∧ t.rtcSec = 0 ∧ t.rtcSub = 0 ∧ t.valid = false ∧ t.slewing = false ∧ t.holdover = false ∧ t.rangeEnd = false ∧
    t.lifeRestart = true ∧ t.adjRefused = false ∧ t.trimClipped = false ∧ t.trim = 0) ∧
  (State.reset.tb.setHi = 0 ∧ State.reset.tb.clkFault = 0 ∧
    ∀ n : Fin 16, State.reset.tb.timers[n].count = 0 ∧ State.reset.tb.timers[n].period = 0 ∧ State.reset.tb.timers[n].evt = false ∧
      State.reset.tb.timers[n].periodRefused = false ∧ State.reset.tb.timers[n].overrun = false ∧ State.reset.tb.timers[n].irqEn = false) ∧
  (let w := State.reset.wch
   w.settings.theftChannels = 0 ∧ w.settings.tamperCov = true ∧ w.settings.tamperTrm = true ∧ w.wakeEn = 0xC1 ∧ w.crackOk = false ∧
    w.covOpen = false ∧ w.trmOpen = false ∧ w.ring = [] ∧ w.rinsePos = 0 ∧ w.segReq = 0 ∧ w.segShown = 0) ∧
  (State.reset.wb.wakeCause = 0 ∧ State.reset.wb.wdgToken = 0 ∧ State.reset.wb.wdgStatus = 0 ∧ State.reset.wb.wdgLast = none) ∧
  (∀ d : Driver, State.reset.pd.drv[d].latch = true ∧ State.reset.pd.drv[d].permits = {} ∧ State.reset.pd.drv[d].phase = .off) ∧
  (∀ n : Fin 32, State.reset.pd.ls[n].out = false) ∧
  (let h := State.reset.hif
   h.status = 0 ∧ h.irqEn = 0xFF ∧ h.stateChg = false ∧ h.cmdWidth = 0 ∧ h.evtLost = 0 ∧ h.scratch = 0 ∧ h.rdy = false ∧ h.startStep = 0 ∧
    h.power = 0 ∧ h.fwReady = false ∧ h.bootServed = false ∧ h.legalFault = false ∧ h.trial = false)

/-- No step changes the sealed data, and a lifecycle state once reached is never left backwards. For every step that
answers a next state: the fuses and sealed data of manufacture are as before, a lifecycle fuse pair that reads blown
still reads blown, and so the lifecycle code (MANUFACTURE 0, PROVISIONED 1, FIELD 2, RETIRED 3) never falls. -/
def Obligations.FusesAndSealedDataStay : Prop :=
  ∀ s t : State, step s = .next t →
    t.fab = s.fab ∧ lifecycle s ≤ lifecycle t ∧
      (s.keys.provisioned ≠ 0 → t.keys.provisioned ≠ 0) ∧ (s.keys.field ≠ 0 → t.keys.field ≠ 0) ∧
      (s.keys.retired ≠ 0 → t.keys.retired ≠ 0)

/-- A step takes exactly the front command out of the queue, and no effect puts one in. If a step answers a next state,
its queue is the queue before it without the command at its front (an empty queue stays empty): no meaning of a
command reads, adds or removes waiting commands. -/
def Obligations.StepTakesOneCommand : Prop :=
  ∀ s t : State, step s = .next t → t.pending = s.pending.tail

/-- Windows read what was last written; a burst into a FREE mailbox's window stores its words and nothing else. For
windows in canonical form: bytes written from an address read back at their places, every byte outside them reads as
before, and the form is kept; a window written whole reads the bytes given and zeros beyond them. On an open port
outside the module reset, with the windows in canonical form and mailbox mb FREE: a burst of words from an aligned
offset that stays within the command window of mb stores each word least significant byte first at its address; every
byte of the windows outside the words reads as before; the windows stay in canonical form; HIF_STATUS is unchanged, the
port drives its phases' words alone, and the write buffer holds the words, up to its 128. -/
def Obligations.WindowBytes : Prop :=
  (∀ m : List Host.Cell, Memory.wf m = true →
    (∀ (a b : Nat) (vs : Bytes), Memory.read (Memory.writeBytes m a vs) b =
      if a ≤ b ∧ b < a + vs.length then vs.getD (b - a) 0 else Memory.read m b) ∧
    (∀ (a : Nat) (vs : Bytes), Memory.wf (Memory.writeBytes m a vs) = true) ∧
    (∀ (base a : Nat) (vs : Bytes), vs.length ≤ 512 → Memory.read (writeWindow m base vs) a =
      if base ≤ a ∧ a < base + 512 then vs.getD (a - base) 0 else Memory.read m a)) ∧
  (∀ (s : State) (op : Byte) (mb : Mailbox) (off : Nat) (ws : List Word32), portOpen s → s.pwr.inReset = false →
    Memory.wf s.mbx.win = true → s.mbx.cmd[mb].state = .free → writeShape op ws.length = true →
    off % 4 = 0 → off + 4 * ws.length ≤ 512 →
    let base := cmdWindow mb + off
    ∃ t, exec (.registerWrite op (BitVec.ofNat 16 base) ws) s = .next t ∧
      (∀ a, Memory.read t.mbx.win a =
        if base ≤ a ∧ a < base + 4 * ws.length then ((ws.getD ((a - base) / 4) 0) >>> (8 * ((a - base) % 4))).setWidth 8
        else Memory.read s.mbx.win a) ∧
      Memory.wf t.mbx.win = true ∧
      t = { s with
        hif := { s.hif with buffered := min 128 (s.hif.buffered + ws.length), rdy := false, sent := phases op s }
        mbx := { s.mbx with win := t.mbx.win, badWords := t.mbx.badWords } })

/-- Opcodes of the host port, their errors and busy reads; and a port that is closed or opens. On an open port, in every
transaction the port drives HIF_D1 in the phases of x1 opcode and x1 address, and: an invalid opcode sets
HIF_STATUS.BAD_OPCODE (bit 0) and changes nothing else; SET_CMD_WIDTH takes bits 1:0 of its word as the command width
and RESET_CMD_WIDTH sets x1; an unaligned read sends the ready marker and a zero word for every word asked and sets
UNALIGNED (bit 1); an aligned read of one word without an uncorrectable error sends its busy bytes, the marker and the
word that the host reads there, and a burst sends the words at the successive addresses, which wrap; a busy stretch at
its limit sends its busy bytes, the marker and the error word for every word left and sets BUSY_TIMEOUT (bit 2);
HIF_SEL low before the first data bit sets SHORT (bit 6) and has no other effect. TRANSACTION_NOT_READY, which only a
closed port has, changes nothing on an open one. With HIF_RDY low and the inputs not ignored: a transaction begun
leaves its lanes undriven, sets NOT_READY (bit 10) where the mailbox unit runs (START_STEP not 0), and nothing else; a
well-shaped write, a doorbell, a release, an acknowledgement, a read and a SET_CMD_WIDTH all do exactly that. When the
write buffer has drained, it holds no word and HIF_RDY is high again while the mailbox unit runs and the inputs are
not ignored. -/
def Obligations.HostPortTransactions : Prop :=
  (∀ s : State, portOpen s →
    (∀ op : Byte, opInvalid op = true → exec (.badOpcode op) s =
      .next { s with hif := { s.hif with status := s.hif.status ||| 0x001, sent := phases op s } }) ∧
    (∀ w : Word32, exec (.setCmdWidth w) s =
      .next { s with hif := { s.hif with cmdWidth := w.setWidth 2, sent := phases 0x0F s } }) ∧
    exec .resetCmdWidth s = .next { s with hif := { s.hif with cmdWidth := 0, sent := phases 0xFF s } } ∧
    (∀ (op : Byte) (a : BitVec 16) (ws : List ReadWord), readShape op ws.length = true → readFits a.toNat ws = true →
      let h : Hif := { s.hif with sentBits := opDataBits op }
      (a.toNat % 4 ≠ 0 → exec (.readDataReady op a ws) s = .next { s with hif := { h with
        status := s.hif.status ||| 0x002, sent := phases op s ++ .marker :: List.replicate ws.length (.data 0) } }) ∧
      (a.toNat % 4 = 0 → s.mbx.badWords = [] → ws.all (fun r => !r.bad) = true →
        (∀ n, ws = [⟨n, false⟩] → exec (.readDataReady op a ws) s = .next { s with hif := { h with
          sent := phases op s ++ (List.replicate n .busy ++ [.marker, .data (hostRead s a.toNat)]) } }) ∧
        ∃ l : List Sent, exec (.readDataReady op a ws) s = .next { s with hif := { h with sent := l } } ∧
          l.filterMap (fun x => match x with | .data w => some w | _ => none) =
            (List.range ws.length).map (fun i => hostRead s (addrPlus a.toNat i)))) ∧
    (∀ (op : Byte) (a : BitVec 16) (busy left : Nat), timeoutShape op a.toNat [] busy left = true →
      exec (.busyTimeout op a [] busy left) s = .next { s with hif := { s.hif with
        status := s.hif.status ||| 0x004, sentBits := opDataBits op
        sent := phases op s ++ (List.replicate busy .busy ++ .marker :: List.replicate left (.data 0xEEEE0040)) } }) ∧
    (∀ (op : Byte) (a : BitVec 16), (opTransfer op || op == 0x0F) = true →
      exec (.earlySelectRelease op a [] .beforeData) s =
        .next { s with hif := { s.hif with status := s.hif.status ||| 0x040, sent := phases op s } }) ∧
    exec .transactionNotReady s = .next s) ∧
  (∀ s : State,
    (s.hif.rdy = false → s.hif.ignored = false →
      exec .transactionNotReady s = .next { s with hif := { s.hif with
          sent := [], status := if s.hif.startStep = 0 then s.hif.status else s.hif.status ||| 0x400 } } ∧
        (∀ (op : Byte) (a : BitVec 16) (ws : List Word32), writeShape op ws.length = true →
          exec (.registerWrite op a ws) s = exec .transactionNotReady s) ∧
        (∀ w : Word32, exec (.cmdDoorbell w) s = exec .transactionNotReady s ∧
          exec (.cmdRelease w) s = exec .transactionNotReady s ∧ exec (.evtAck w) s = exec .transactionNotReady s ∧
          exec (.setCmdWidth w) s = exec .transactionNotReady s) ∧
        (∀ (op : Byte) (a : BitVec 16) (ws : List ReadWord), readShape op ws.length = true → readFits a.toNat ws = true →
          exec (.readDataReady op a ws) s = exec .transactionNotReady s)) ∧
    exec .writeBufferDrained s =
      .next { s with hif := { s.hif with buffered := 0, rdy := s.hif.startStep != 0 && !s.hif.ignored } })

/-- Writes of the host registers, and the doorbell, release and acknowledgement that move one mailbox. On an open port
outside the module reset, a write of one word takes one place of the write buffer (HIF_RDY falls until it drains) and
acts: HIF_IRQ_EN takes bits 17:0, HIF_SCRATCH the word, HIF_STATUS loses the bits written as 1 (with EVT_LOST the
counter too), CMB_CMDn and CMB_LENn of a FREE mailbox take code, sequence and length. A write to CMB_CMDn of a mailbox
that is not FREE, or to a reserved address, only sets WRITE_IGNORED (bit 3); an unaligned address only sets UNALIGNED.
On an open port outside the module reset, with a host present: a doorbell of a FREE mailbox makes it PENDING, last in
the order of doorbells, and in IDLE or its entry fires wake bit 2, unless its kept result has its SEQ; of any other
mailbox it sets DOORBELL_BUSY (bit 7). A release of a DONE mailbox makes it FREE with REPEAT clear (that ST and RLEN
stay is the model's choice, log 90); of any other it sets DOORBELL_BUSY. An acknowledgement of a full event mailbox
empties it while nothing is queued (that its words stay is the model's choice, log 90); of an empty one it sets
DOORBELL_BUSY. A doorbell of a FREE mailbox whose kept result has its SEQ, while its command is served, presents that
result again at once (log 18). -/
def Obligations.RegistersAndMailboxes : Prop :=
  (∀ (s : State) (op : Byte) (w : Word32), portOpen s → s.pwr.inReset = false → writeShape op 1 = true →
    let h : Hif := { s.hif with buffered := min 128 (s.hif.buffered + 1), rdy := false, sent := phases op s }
    exec (.registerWrite op 0x14 [w]) s = .next { s with hif := { h with irqEn := w &&& 0x3FFFF } } ∧
    exec (.registerWrite op 0x3C [w]) s = .next { s with hif := { h with scratch := w } } ∧
    exec (.registerWrite 0x08 0x10 [w]) s = exec (.hifStatusClear w) s ∧
    exec (.registerWrite op 0x10 [w]) s = .next { s with hif := { h with
      status := s.hif.status &&& ~~~w, evtLost := if w.getLsbD 9 && s.hif.status.getLsbD 9 then 0 else s.hif.evtLost } } ∧
    (∀ mb : Mailbox, s.mbx.cmd[mb].state = .free →
      exec (.registerWrite op (BitVec.ofNat 16 (0x40 + 4 * mb.val)) [w]) s = .next { s with hif := h, mbx := { s.mbx with
        cmd := vmod s.mbx.cmd mb (fun b => { b with code := w.setWidth 16, seq := (w >>> 16).setWidth 16 }) } } ∧
      exec (.registerWrite op (BitVec.ofNat 16 (0x60 + 4 * mb.val)) [w]) s = .next { s with hif := h, mbx := { s.mbx with
        cmd := vmod s.mbx.cmd mb (fun b => { b with len := w.setWidth 10 }) } }) ∧
    (∀ mb : Mailbox, s.mbx.cmd[mb].state ≠ .free →
      exec (.registerWrite op (BitVec.ofNat 16 (0x40 + 4 * mb.val)) [w]) s =
        .next { s with hif := { h with status := s.hif.status ||| 0x008 } }) ∧
    exec (.registerWrite op 0x4000 [w]) s = .next { s with hif := { h with status := s.hif.status ||| 0x008 } } ∧
    exec (.registerWrite op 0x15 [w]) s =
      .next { s with hif := { s.hif with status := s.hif.status ||| 0x002, sent := phases op s } }) ∧
  (∀ (s : State) (mb : Mailbox), portOpen s → s.pwr.inReset = false → s.hif.hostPresent = true →
    let h : Hif := { s.hif with buffered := min 128 (s.hif.buffered + 1), rdy := false, sent := phases 0x08 s }
    let bit : Word32 := BitVec.ofNat 32 (2 ^ mb.val)
    let rung : Vector CmdBox 8 := vmod s.mbx.cmd mb (fun b => { b with state := .pending })
    (s.mbx.cmd[mb].state = .free → (s.mbx.cmd[mb].kept.map (·.seq)) ≠ some s.mbx.cmd[mb].seq → exec (.cmdDoorbell bit) s =
      .next (ifDo (s.pwr.state == .idle || s.pwr.idleEntry) (fireWake 2)
        { s with hif := h, mbx := { s.mbx with cmd := rung, order := s.mbx.order ++ [mb] } })) ∧
    (∀ k : Kept, s.mbx.cmd[mb].state = .free → s.mbx.cmd[mb].kept = some k → k.seq = s.mbx.cmd[mb].seq → mb ∉ s.mbx.order →
      servesNow s (boxCode s mb) = true → s.pwr.idleEntry = false → exec (.cmdDoorbell bit) s =
        .next (presentKept mb k { s with hif := h, mbx := { s.mbx with cmd := rung } })) ∧
    (s.mbx.cmd[mb].state ≠ .free → exec (.cmdDoorbell bit) s =
      .next { s with hif := { h with status := s.hif.status ||| 0x080 } }) ∧
    (s.mbx.cmd[mb].state = .done → exec (.cmdRelease bit) s = .next { s with hif := h, mbx := { s.mbx with
        cmd := vmod s.mbx.cmd mb (fun b => { b with state := .free, rep := false }) } }) ∧
    (s.mbx.cmd[mb].state ≠ .done → exec (.cmdRelease bit) s =
      .next { s with hif := { h with status := s.hif.status ||| 0x080 } }) ∧
    (s.mbx.evt[mb].full = true → s.mbx.queue = [] → exec (.evtAck bit) s = .next { s with hif := h, mbx := { s.mbx with
        evt := vmod s.mbx.evt mb (fun e => { e with full := false }) } }) ∧
    (s.mbx.evt[mb].full = false → exec (.evtAck bit) s =
      .next { s with hif := { h with status := s.hif.status ||| 0x080 } }))

/-- An event takes the next sequence number and goes to the lowest-numbered empty mailbox, or the queue, or drops the
oldest. While the control base runs, with a host present and the mailbox unit started, EVENT_RAISE with at most 492
bytes of fields gives the event the next value of the event sequence and: with an event mailbox empty, puts code,
sequence, length and the payload (header of Table 7.2 and fields, with zeros after them, log 90) into the
lowest-numbered empty one and its window, whose words then hold no error;
with all full and fewer than 128 queued, puts it last in the queue; with the queue full, drops the oldest queued
event, counts it in HIF_EVT_LOST (which saturates) and sets EVT_LOST (bit 9). Nothing else changes. -/
def Obligations.EventsInOrder : Prop :=
  ∀ (s : State) (code : BitVec 16) (fields : Bytes), fields.length ≤ 492 → baseRuns s = true → s.hif.startStep ≠ 0 →
    s.hif.hostPresent = true →
    let e : QEvent := ⟨code, s.mbx.nextSeq, eventHeader s ++ fields⟩
    (∀ i, emptyEvt s.mbx = some i → exec (.eventRaise code fields) s = .next { s with mbx := { s.mbx with
      nextSeq := s.mbx.nextSeq + 1
      evt := s.mbx.evt.set i { code, seq := s.mbx.nextSeq, len := BitVec.ofNat 10 e.payload.length, full := true }
      win := writeWindow s.mbx.win (evtWindow i) e.payload
      badWords := s.mbx.badWords.filter (fun a => !(evtWindow i ≤ a && a < evtWindow i + 512)) } }) ∧
    (emptyEvt s.mbx = none → s.mbx.queue.length < 128 → exec (.eventRaise code fields) s =
      .next { s with mbx := { s.mbx with nextSeq := s.mbx.nextSeq + 1, queue := s.mbx.queue ++ [e] } }) ∧
    (emptyEvt s.mbx = none → 128 ≤ s.mbx.queue.length → exec (.eventRaise code fields) s =
      .next { s with
        mbx := { s.mbx with nextSeq := s.mbx.nextSeq + 1, queue := s.mbx.queue.drop 1 ++ [e] }
        hif := { s.hif with evtLost := satAdd 16 s.hif.evtLost 1, status := s.hif.status ||| 0x200 } })

/-- MODULE_VERSION_GET, COMMAND_LIST_GET and MODULE_STATUS_GET answer ST_OK with the fields of their tables. A served
command (taken up as a new one that passes its header checks) completes: MODULE_VERSION_GET with the part number,
silicon and mask fields, device identity, variant, image versions (all 0 for the application while the boot ROM
serves), boot ROM version, lifecycle, running bank and flags; COMMAND_LIST_GET with the bitmap of the commands served
now for groups 0x01 to 0x10, of the events for groups 0x81 to 0x90, and ST_ARG_RANGE for any other group;
MODULE_STATUS_GET with power state, start step, lifecycle, flags, permits, latches, LIFE and EPOCH. The application
minor version and build are free values of Config. -/
def Obligations.ModuleReads : Prop :=
  ∀ (mb : Mailbox) (b : Bytes) (s : State),
    (serves .moduleVersionGet mb b s → exec (.moduleVersionGet mb) s =
      let boot := s.hif.bootServed || !s.hif.fwReady
      .next (complete mb .ok (u16 0x0048 ++ u8 3 ++ u8 1 ++ beBytes 8 s.fab.deviceId.toNat ++
        u8 (match s.fab.variant with | .ad => 0 | .dd => 1 | .aa => 2) ++ u8 (b1 s.fab.minusE) ++ str "C1A2B0A1B1" ++ u8 2 ++ u8 1 ++
        (if boot then u8 0 ++ u8 0 ++ u16 0 ++ u16 0x0001
          else u8 4 ++ u8 Config.appMinor.val ++ u16 Config.appBuild.toNat ++ u16 (0x0400 + Config.appMinor.val)) ++
        u32 s.fab.bootRomVersion.toNat ++ u8 (lifecycle s) ++ u8 ((s.run.running.map Bank.num).getD 0xFF) ++
        u8 (b1 s.hif.trial + 2 * b1 s.hif.legalFault + 4 * b1 s.hif.bootServed) ++ u8 0) (takeUp mb s))) ∧
    (serves .commandListGet mb b s →
      (0x01 ≤ rd b 0 2 → rd b 0 2 ≤ 0x10 → exec (.commandListGet mb) s =
        .next (complete mb .ok (groupMap (rd b 0 2) (servedCodes (takeUp mb s))) (takeUp mb s))) ∧
      (0x81 ≤ rd b 0 2 → rd b 0 2 ≤ 0x90 → exec (.commandListGet mb) s =
        .next (complete mb .ok (groupMap (rd b 0 2) Ev.codes) (takeUp mb s))) ∧
      (rd b 0 2 = 0 ∨ (0x10 < rd b 0 2 ∧ rd b 0 2 < 0x81) ∨ 0x90 < rd b 0 2 → exec (.commandListGet mb) s =
        .next (complete mb .argRange [] (takeUp mb s)))) ∧
    (serves .moduleStatusGet mb b s → exec (.moduleStatusGet mb) s =
      .next (complete mb .ok (u8 s.hif.power.toNat ++ u8 s.hif.startStep.toNat ++ u8 (lifecycle s) ++
        u8 (b1 s.hif.legalFault + 2 * b1 s.hif.trial + 4 * b1 s.disp.verified +
          8 * b1 (s.pwr.selfTest == .failed || s.pwr.holdupFailed) + 16 * b1 s.time.valid) ++
        u32 (permitWord s) ++ u8 (latchBits s) ++ u8 0 ++ u16 0 ++ u64 s.time.life.toNat ++ u16 s.legal.epoch.toNat ++ u16 0)
        (takeUp mb s)))

/-- The time commands and the RTC and timer registers: responses, owners, periods, and completion with the AO32 cycle. A
served TIME_GET answers LIFE, RTC, EPOCH, RTC_STATUS, trim and adjustment limit. TIME_SET of a second up to
8,078,572,799 stays RUNNING and stands as the absolute write of the next AO32 cycle, its offset the second in AO32
cycles less the RTC count; a later second completes with ST_RTC_RANGE and sets ADJ_REFUSED. TIME_ADJUST whose result
lies in range, with no write yet in the cycle, stays RUNNING and stands as a relative write; out of range it completes
with ST_RTC_RANGE and sets ADJ_REFUSED. TIME_TRIM_SET writes the value held at plus or minus 500 and answers it, with
ST_TRIM_CLIPPED where it was clipped. RTC_ADJ_MS, RTC_SET_HI/LO and RTC_TRIM act for the application cores: with no
write yet in the cycle an adjustment in range, or an absolute second in range, stands for the next AO32 cycle, and the
trim takes bits 9:0, held at plus or minus 500; a partial word to RTC_ADJ_MS or RTC_SET_LO has no effect there, and
another master's write does nothing. TMRn_PERIOD, written by the
timer's owner, stops the period function with 0, refuses 1 to 63 (PERIOD_REFUSED), starts a stopped one and otherwise
waits for the running period's end; another master's write does nothing. A running timer's period that ends in the
present AO32 cycle (at most 1,508 REF cycles of it are left) sets EVENT,
OVERRUN where EVENT stood, raises the interrupt to a running owner that enabled it and takes up the period last
written. -/
def Obligations.TimeOfDay : Prop :=
  (∀ (mb : Mailbox) (b : Bytes) (s : State),
    let t := takeUp mb s
    (serves .timeGet mb b s → exec (.timeGet mb) s = .next (complete mb .ok (u64 s.time.life.toNat ++
      u64 s.time.rtcSec.toNat ++ u16 s.time.rtcSub.toNat ++ u16 s.legal.epoch.toNat ++ u32 (rtcStatus s.time) ++
      i32 s.time.trim.toInt ++ u32 s.time.adjLimit) t)) ∧
    (serves .timeSet mb b s →
      (rd b 0 8 ≤ 8078572799 → exec (.timeSet mb) s = .next { t with
        time := { s.time with write := some ⟨true, rd b 0 8 * 32768 - rtcCount s.time⟩ }
        tb := { s.tb with waiting := s.tb.waiting ++ [mb] } }) ∧
      (8078572799 < rd b 0 8 → exec (.timeSet mb) s =
        .next (complete mb .rtcRange [] { t with time := { s.time with adjRefused := true } }))) ∧
    (serves .timeAdjust mb b s → s.time.write = none →
      let c := msToCycles (rdI32 b 0)
      (rtcInRange (rtcCount s.time + s.time.slewLeft + c) = true → exec (.timeAdjust mb) s = .next { t with
        time := { s.time with write := some ⟨false, c⟩ }, tb := { s.tb with waiting := s.tb.waiting ++ [mb] } }) ∧
      (rtcInRange (rtcCount s.time + s.time.slewLeft + c) = false → exec (.timeAdjust mb) s =
        .next (complete mb .rtcRange [] { t with time := { s.time with adjRefused := true } }))) ∧
    (serves .timeTrimSet mb b s →
      let v := rdI32 b 0
      let w := max (-500) (min 500 v)
      exec (.timeTrimSet mb) s = .next (complete mb (if w = v then .ok else .trimClipped) (i32 w) { t with
        time := { s.time with trim := BitVec.ofInt 10 w, trimClipped := s.time.trimClipped || w != v } }))) ∧
  (∀ (s : State) (m : Master),
    ((m = .app0 ∨ m = .app1) → s.time.write = none →
      (∀ w : Word32, rtcInRange (rtcCount s.time + s.time.slewLeft + msToCycles w.toInt) = true →
        exec (.rtcAdjMsWrite m w true) s = .next { s with time := { s.time with write := some ⟨false, msToCycles w.toInt⟩ } }) ∧
      (∀ (hi : BitVec 1) (lo : Word32), (hi ++ lo).toNat ≤ 8078572799 → exec (.rtcSetLoWrite m hi lo true) s =
        .next { s with
          tb := { s.tb with setHi := hi }
          time := { s.time with write := some ⟨true, (hi ++ lo).toNat * 32768 - rtcCount s.time⟩ } }) ∧
      (∀ (w : Word32) (hi : BitVec 1), exec (.rtcAdjMsWrite m w false) s = .next s ∧
        exec (.rtcSetLoWrite m hi w false) s = .next { s with tb := { s.tb with setHi := hi } }) ∧
      (∀ w : Word32, -500 ≤ (w.setWidth 10 : BitVec 10).toInt → (w.setWidth 10 : BitVec 10).toInt ≤ 500 →
        exec (.rtcTrimWrite m w) s = .next { s with time := { s.time with trim := w.setWidth 10 } })) ∧
    (m ≠ .app0 → m ≠ .app1 → ∀ (w lo : Word32) (hi : BitVec 1) (whole : Bool), exec (.rtcAdjMsWrite m w whole) s = .next s ∧
      exec (.rtcSetLoWrite m hi lo whole) s = .next s ∧ exec (.rtcTrimWrite m w) s = .next s) ∧
    (∀ (n : Fin 16) (p : Word32), ownsTimer m n = true → exec (.tmrPeriodWrite m n p) s =
      .next { s with tb := { s.tb with timers := vmod s.tb.timers n (fun t =>
        if p = 0 then { t with period := 0, running := 0, due := 0, evt := false, irq := false }
        else if p.toNat < 64 then { t with periodRefused := true }
        else if t.running = 0 then { t with period := p, running := p, due := p.toNat }
        else { t with period := p }) } }) ∧
    (∀ (n : Fin 16) (p : Word32), ownsTimer m n = false → exec (.tmrPeriodWrite m n p) s = .next s) ∧
    (∀ n : Fin 16, s.tb.timers[n].running ≠ 0 → s.tb.timers[n].due ≤ 1508 → exec (.tmrPeriodEvent n) s =
      .next { s with tb := { s.tb with timers := vmod s.tb.timers n (fun t => { t with
        evt := true, overrun := t.overrun || t.evt, irq := t.irq || (t.irqEn && ownerRuns s n), running := t.period
        due := t.due + t.period.toNat }) } }))

/-- An AO32 cycle: LIFE, the RTC, timers and restarts; range end, and the reports that MET takes. Where any supply is
present and no RTC write stands: AO32_TICK raises LIFE by 1, counts the RTC (unless it stands at its range end; without
slew and trim by exactly 1, up to its last count), advances every timer by the REF cycles of the cycle while the control
base is powered, charges the hold-up, counts the rinse's and IDLE's times and starts idle ports while the control base
runs, counts the display's time of RUN and a healthy cycle of a trial, and makes the restart that waited for commands
once none runs. With every supply lost nothing happens. SLEW_ABSORBED clears SLEWING once the offset is absorbed. With
the RTC at its last count and the range end not yet met, RTC_RANGE_END sets RANGE_END, clears VALID, raises
EV_RTC_RANGE_END and, where MET runs, writes legal log entry 0x0014. MET_TIME_REPORT, with MET running, takes the oldest
waiting report and acts on it as a step or as a slew; with none waiting nothing happens. -/
def Obligations.ClockAndReports : Prop :=
  (∀ s : State,
    (s.pwr.state ≠ .off → s.time.write = none → exec .ao32Tick s =
      let t := chargeTick (timersTick { s with time := rtcTick { s.time with life := s.time.life + 1 } })
      let u := if baseRuns t then startPorts (noteIdle { t with wch := { t.wch with rinseTime := t.wch.rinseTime + 1 } }) else t
      let v := if baseRuns u && u.pwr.state == .run then { u with disp := { u.disp with runTime := u.disp.runTime + 1 } } else u
      .next (restartNow (if healthy v then { v with run := { v.run with healthy := v.run.healthy + 1 } } else v))) ∧
    (∀ t : Time, t.rangeEnd = false → t.slewLeft = 0 → t.trim = 0 → t.trimAcc = 0 →
      rtcTick t = { t with
        slewPhase := 0
        rtcSec := BitVec.ofNat 33 ((min rtcMaxCount (rtcCount t + 1)).toNat / 32768)
        rtcSub := BitVec.ofNat 15 ((min rtcMaxCount (rtcCount t + 1)).toNat % 32768) }) ∧
    (∀ t : Time, t.rangeEnd = true → rtcTick t = t) ∧
    (s.pwr.state = .off → exec .ao32Tick s = .next s) ∧
    (s.time.slewing = true → s.time.slewLeft = 0 →
      exec .slewAbsorbed s = .next { s with time := { s.time with slewing := false } })) ∧
  (∀ s : State,
    (s.time.rangeEnd = false → rtcCount s.time = rtcMaxCount → exec .rtcRangeEnd s =
      let t := raise .rtcRangeEnd [] { s with time := { s.time with rangeEnd := true, valid := false } }
      .next (if s.met.running then log 0x0014 noSubject [] t else t)) ∧
    (∀ (r : TimeReport) (rest : List TimeReport), s.tb.reports = r :: rest → s.met.running = true →
      exec .metTimeReport s = .next (if r.step then stepReport r { s with tb := { s.tb with reports := rest } }
        else slewReport r { s with tb := { s.tb with reports := rest } })) ∧
    (s.tb.reports = [] → exec .metTimeReport s = .next s))

/-- What stops when a clock fails, and what comes back when a domain is readmitted. A fault of a domain that is off does
nothing. AO32: HOLDOVER is set, the fault recorded and reported, and, where MET runs and holdover is new, log entry
0x0013 written. AOF: its lock falls. REF: PERMIT_WCH falls and the control base is reset without the save. MET: MET
has its core reset and PERMIT_WCH falls. SAF: PERMIT_WCH falls and SAF has its core reset. APP: the powered
application cores have a core reset. In SAVE the part of the save that the core would write goes no further. FLT: all
drivers trip with the clock cause, every channel is taken out with reason 3, a waiting synchronisation ends and the
weave stops. A lesser PLL domain (first fault) is recorded with its LIFE and stops what it clocks. A faulted domain
not left off is readmitted, reported, and what waited for it resumes. Which domains are on in which power state is
read from 04 Table 4.1 (log 87). -/
def Obligations.ClockFaults : Prop :=
  ∀ s : State,
    (domainOn s .ao32 = true → exec .ao32Fault s = (let t := clockFault .ao32 { s with time := { s.time with holdover := true } }
      .next (if s.met.running && !s.time.holdover then log 0x0013 noSubject (u8 0) t else t))) ∧
    (domainOn s .aof = true → exec .aofFault s = .next (clockFault .aof { s with time := { s.time with aofFault := true } })) ∧
    (domainOn s .ref = true → exec .refFault s =
      let t := skipSave (railFaultNow (clockFault .ref (withdraw allDrivers [.wch] causeClock s)))
      .next (afterSave { t with pwr := { t.pwr with resetAfterSave := t.pwr.vauxUp } })) ∧
    (domainOn s .met = true → s.pwr.inReset = false → exec .metClockFault s =
      let t := clockFault .met (withdraw allDrivers [.wch] causeClock (if s.met.running then metReset s else s))
      .next { t with pwr := { t.pwr with savesMet := false } }) ∧
    (domainOn s .saf = true → exec .safClockFault s =
      let t := safReset causeClock (clockFault .saf (withdraw allDrivers [.wch] causeClock s))
      .next { t with pwr := { t.pwr with savesSaf := false } }) ∧
    (domainOn s .app = true → s.pwr.inReset = false → exec .appClockFault s =
      let t := clockFault .app s
      let u := if coresPowered s then appReset t else t
      .next { u with pwr := { u.pwr with savesApp := false } }) ∧
    (domainOn s .flt = true → s.pwr.inReset = false → exec .fltFault s =
      let t := dropSync (forEach (List.finRange 48) (fun i => takeOut i 3) (safTrip allDrivers causeClock (clockFault .flt s)))
      .next { t with weave := { t.weave with running := false } }) ∧
    (∀ d, lesserPll d = true → domainOn s d = true → s.pwr.inReset = false → s.tb.lastPll = [] → exec (.pllDomainFault d) s =
      let t := clockFault d s
      .next (pllStops d false { t with tb := { t.tb with lastPll := (d, s.time.life) :: t.tb.lastPll.filter (fun x => x.1 != d) } })) ∧
    (∀ d, domainOut s d = true → s.tb.off.contains d = false → d ≠ .mod → exec (.domainReadmitted d) s = .next (raise .clockFault
      (u8 (domainCode d) ++ u8 1) (domainResumes d { s with tb := { s.tb with faulted := s.tb.faulted.filter (fun x => x != d) } }))) ∧
    (domainOut s .mod = true → s.tb.off.contains .mod = false → (∀ k : Island, s.isl[k].linkUp = true) →
      exec (.domainReadmitted .mod) s = .next (raise .clockFault (u8 6 ++ u8 1)
        { s with tb := { s.tb with faulted := s.tb.faulted.filter (fun x => x != .mod) } })) ∧
    (∀ c ∈ [(Instr.ao32Fault, Domain.ao32), (.aofFault, .aof), (.refFault, .ref), (.metClockFault, .met), (.safClockFault, .saf),
        (.appClockFault, .app), (.fltFault, .flt)], domainOn s c.2 = false → exec c.1 s = .next s)

/-- VAUX, the save and its ends, a debounced start; hold-up self-test, rail faults and the watch domain's source.
VAUX_OV_CUT of a supplied module cuts coil drive with cause VAUX_OV, turns the load switches off and raises
EV_VAUX_HIGH; the release ends the cut and gives the switches back; VAUX_LOW raises EV_VAUX_LOW while the base runs.
SAVE_ENTRY of a supplied module runs the save, and in SAVE it says that VAUX is gone. In SAVE, SAVE_COMPLETE writes
what is left and the record as complete (step 9), LAST_CALL writes what the steps reached and the record as ended at
that step, with the capacitor at 11 V, CONVERTER_STOP leaves the record at its last copy, at 9 V, and each then leaves
SAVE. A debounced VAUX in WATCH or OFF holds the module in its power-on reset in RUN; in SAVE, RUN and IDLE VAUX is
back and no more happens. While the base runs with the self-test pending, a measurement at 33 V gives the outcome of
Table 3.5 (failed below 235 uF, above 1 ohm or above 500 uA; worn below 282 uF; else pass) and a time-out gives failed
with no ESR and leakage (reported as 0, log 86); each is recorded, reported and lets step 9 follow. A capacitor below
31 V after the self-test marks the hold-up as failed until the next start, raises EV_HOLDUP_FAILED, shows the module
out of service and stops every open session. A rail fault of a supplied module withdraws PERMIT_WCH, counts among the
faults of 10 min, and begins the save that a reset follows. Which items LAST_CALL and CONVERTER_STOP have written is
their operand (log 30). -/
def Obligations.SuppliesAndHoldUp : Prop :=
  (∀ (s : State) (mv : Nat),
    (s.pwr.state = .run ∨ s.pwr.state = .idle → exec (.vauxOvCut mv) s = .next (raise .vauxHigh (u32 mv)
      (applyLs (withdraw allDrivers [] causeVauxOv { s with pwr := { s.pwr with vauxMv := mv, ovCut := true } })))) ∧
    exec (.vauxOvRelease mv) s = .next (applyLs { s with pwr := { s.pwr with vauxMv := mv, ovCut := false } }) ∧
    (baseRuns s = true → exec (.vauxLow mv) s = .next (raise .vauxLow (u32 mv) { s with pwr := { s.pwr with vauxMv := mv } })) ∧
    (∀ (clamped : BitVec 32) (cut : Option HifCut),
      let t := { s with pwr := { s.pwr with vauxUp := false } }
      (s.pwr.state = .run ∨ s.pwr.state = .idle → exec (.saveEntry clamped cut) s =
        .next (beginSave (fun n => some (clamped.getLsbD n.val)) cut t)) ∧
      (s.pwr.state = .save → exec (.saveEntry clamped cut) s = .next t)) ∧
    (s.pwr.state = .save →
      (∀ cap : Nat, exec (.saveComplete cap) s = .next (afterSave (writeSave .complete 9 (drainTo cap (runSave 8 0 s))))) ∧
      (∀ step items : Nat, let t := drainTo 11000 (runSave step items s)
        exec (.lastCall step items) s = .next (afterSave (writeSave .endedAt t.wch.saveStep t)) ∧
        exec (.converterStop step items) s = .next (afterSave (drainTo 9000 (runSave step items s))))) ∧
    (s.pwr.state = .watch ∨ s.pwr.state = .off → s.pwr.baseHeldOff = false → exec (.vauxStartDebounced mv) s =
      .next { s with pwr := { s.pwr with vauxMv := mv, vauxUp := true, state := .run, inReset := true } }) ∧
    (s.pwr.state = .run ∨ s.pwr.state = .idle ∨ s.pwr.state = .save → exec (.vauxStartDebounced mv) s =
      .next { s with pwr := { s.pwr with vauxMv := mv, vauxUp := true } })) ∧
  (∀ (s : State) (uF mOhm uA mv : Nat),
    selfTestOutcome uF mOhm uA = (if uF < 235 ∨ 1000 < mOhm ∨ 500 < uA then .failed else if uF < 282 then .worn else .pass) ∧
    (baseRuns s = true → s.pwr.selfTest = .pending →
      exec (.holdupSelftestComplete uF mOhm uA) s = .next (endSelfTest (selfTestOutcome uF mOhm uA) uF mOhm uA
        { s with pwr := { s.pwr with capMv := 33000, capRem := 0 } }) ∧
      exec (.holdupSelftestTimeout uF mv) s =
        .next (endSelfTest .failed uF 0 0 { s with pwr := { s.pwr with capMv := min mv 30999, capRem := 0 } })) ∧
    (baseRuns s = true → s.pwr.selfTest ≠ .pending → s.pwr.holdupFailed = false → exec (.holdupLow mv) s =
      let t := showOutOfService (raise .holdupFailed (u32 s.pwr.uF ++ u32 s.pwr.mOhm ++ u32 s.pwr.uA)
        { s with pwr := { s.pwr with capMv := mv, capRem := 0, holdupFailed := true } })
      .next (forEach (Outlet.all.filter (sessionOpen s)) (fun o => stopSession o .holdupFailed .normal) t)) ∧
    (s.pwr.state = .run ∨ s.pwr.state = .idle → exec .railFault s =
      let t := railFaultNow (withdraw allDrivers [.wch] causeRail s)
      .next (beginSave (fun _ => none) none { t with pwr := { t.pwr with resetAfterSave := true } })))

/-- RST_N, loss of every supply, the application and safety core resets, and what each of them leaves. A low pulse of
RST_N of 10 us or more on a supplied module resets the control base and leaves RUN, in reset; one of 1 us or less only
shows the level; in WATCH and SAVE the pin is ignored. The reset of the base clears the port, mailboxes, chain, metering
run, safety run, display, pins, networks and the set in force, and leaves the module in reset with every driver
untouched by permits and latched. Loss of every supply does the same and clears the TIME block, the watch domain and the
power die. A core reset of the powered application cores by their own request or their watchdog, and one by the reset
key, is the application reset; the safety core's reset withdraws with its cause. A start below -25 C that has not come
up begins again. -/
def Obligations.ModuleResets : Prop :=
  ∀ (s : State) (ns : Nat) (held : Bool),
    (10000 ≤ ns → s.pwr.state = .run ∨ s.pwr.state = .idle → exec (.rstNLow ns held) s =
      let t := resetBase { s with pwr := { s.pwr with rstNLow := held } }
      .next { t with pwr := { t.pwr with state := .run } }) ∧
    (ns ≤ 1000 → exec (.rstNLow ns held) s = .next { s with pwr := { s.pwr with rstNLow := held } }) ∧
    (10000 ≤ ns → s.pwr.state = .save → s.pwr.baseHeldOff = false →
      exec (.rstNLow ns held) s = .next { s with pwr := { s.pwr with rstNLow := held } }) ∧
    (let t := resetBase s
     t.hif = {} ∧ t.mbx = {} ∧ t.wb = {} ∧ t.weave = {} ∧ t.met = {} ∧ t.bill = {} ∧ t.saf = {} ∧ t.disp = {} ∧ t.pins = {} ∧
       t.net = {} ∧ t.key = {} ∧ t.cfg = [] ∧ t.pwr.inReset = true ∧ t.pwr.appIsland = false ∧
       ∀ d : Driver, t.pd.drv[d].permits = {} ∧ t.pd.drv[d].latch = true) ∧
    (∃ t, exec .watchDomainPor s = .next t ∧ t.time = {} ∧ t.wch = {} ∧ t.pd = {} ∧ t.pwr.state = .off ∧ t.hif = {} ∧ t.mbx = {} ∧ t.met = {}) ∧
    (coresPowered s = true → exec .appCoreReset s = .next (appReset s) ∧ exec .appWatchdogExpiry s = .next (appReset s)) ∧
    (s.pwr.inReset = false → portOpen s →
      exec (.resetKeyAppCores 0xA5C30001) s = .next (appReset { s with hif := { s.hif with
        buffered := min 128 (s.hif.buffered + 1), rdy := false, sent := phases 0x08 s } }) ∧
      exec (.resetKeyRstN 0xA5C30002) s = .next (resetBase { s with hif := { s.hif with
        buffered := min 128 (s.hif.buffered + 1), rdy := false, sent := phases 0x08 s } })) ∧
    (s.fab.minusE = false → s.pwr.state = .run → s.hif.fwReady = false → s.hif.bootServed = false → exec .startRepeat s =
      let t := resetBase s
      .next { t with pwr := { t.pwr with repeats := t.pwr.repeats + 1 } })

/-- The watch core's samples: tamper loop, crack loop, backup cell, pilots in IDLE and theft bursts. While the watch domain
is supplied: a cover loop above 10 kohm, or one whose sense fails, opens the input at its second reading, with its
ring record and the wake and strip of an opening; a first such reading only counts; between 2 and 10 kohm it reads as
the state in force (log 88); disabled inputs are not sensed. A crack loop above 2,000 ohm at its second reading
withdraws the good state: ring record, segment 6, and the display is judged while the base runs; at 1,800 ohm or less
it comes back at the tenth. A backup cell below 2.6 V at its fourth reading is low, and where the cell is fitted
EV_VBAT_LOW is raised while the base runs. A control pilot that left state A, or a proximity that moved, at its own
second reading in IDLE fires wake bit 0 and powers the modem. A valid theft burst that is due in WATCH judges each of
the 8 channels; the third invalid one in a row suspends theft watch with a record; outside WATCH, or before its period
is over, a burst is nothing. Without any supply nothing is sampled. -/
def Obligations.WatchSampling : Prop :=
  ∀ s : State,
    (watchOn s = true → s.wch.settings.tamperTrm = false → s.wch.settings.tamperCov = true → ∀ t : Option Nat,
      (∀ c : Option Nat, (c = none ∨ ∃ r, c = some r ∧ 10000 < r) → s.wch.covOpen = false →
        (s.wch.covFilter = ⟨true, 1⟩ → exec (.tamperSample c t) s =
          .next (tamperChange .cover false true { s with wch := { s.wch with covFilter := ⟨true, 2⟩, covOpen := true } })) ∧
        (s.wch.covFilter = ⟨false, 5⟩ → exec (.tamperSample c t) s =
          .next { s with wch := { s.wch with covFilter := ⟨true, 1⟩, covOpen := false } })) ∧
      (∀ r : Nat, 2000 ≤ r → r ≤ 10000 → exec (.tamperSample (some r) t) s =
        .next { s with wch := { s.wch with covFilter := filterNext s.wch.covFilter s.wch.covOpen } })) ∧
    (s.wch.settings.tamperTrm = false → s.wch.settings.tamperCov = false → ∀ c t, exec (.tamperSample c t) s = .next s) ∧
    (watchOn s = true → ∀ ohm : Nat, 2000 < ohm → s.wch.crackOk = true → s.wch.crackBad = 1 → exec (.crackCheck ohm) s =
      let t := ringRecord .crack true none (min ohm 10000) { s with wch := { s.wch with
        crackOhm := BitVec.ofNat 14 (min ohm 10000), crackBad := 2, crackGood := 0, crackOk := false } }
      let u := putSegment 6 true { t with wch := { t.wch with segUrgent := true } }
      .next (if baseRuns s then judgeDisplay u else u)) ∧
    (watchOn s = true → ∀ ohm : Nat, ohm ≤ 1800 → s.wch.crackOk = false → s.wch.crackGood = 8 → exec (.crackCheck ohm) s =
      .next { s with wch := { s.wch with crackOhm := BitVec.ofNat 14 (min ohm 10000), crackBad := 0, crackGood := 9 } }) ∧
    (watchOn s = true → ∀ mv : Nat, mv < 2600 → 2500 ≤ mv → s.wch.vbatLow = false → s.wch.vbatLowRun = 3 → s.wch.vbatAbsent = false →
      s.wch.settings.vbatFitted = true → exec (.vbatCheck mv) s =
        let t := { s with wch := { s.wch with vbatLow := true, vbatLowRun := 0, vbatAbsentRun := 0, vbatEvent := some mv } }
        .next (if baseRuns s then raise .vbatLow (u16 mv) t else t)) ∧
    (∀ (o : Outlet) (cp pp : Bool), s.pwr.state = .idle →
      (cp = true ∧ s.wch.cpFilter.get o = ⟨true, 1⟩) ∨ (pp = true ∧ s.wch.ppFilter.get o = ⟨true, 1⟩) →
      exec (.pilotWakeSample cp pp o) s =
        let t := fireWake 0 { s with wch := { s.wch with
          cpFilter := s.wch.cpFilter.modify o (fun _ => filterNext (s.wch.cpFilter.get o) cp)
          ppFilter := s.wch.ppFilter.modify o (fun _ => filterNext (s.wch.ppFilter.get o) pp) } }
        .next { t with pwr := { t.pwr with modem := t.pwr.modem.modify o (fun _ => true) } }) ∧
    (∀ bits : List (List Bool), bits.length = 8 → s.pwr.state = .watch → s.wch.settings.theftChannels ≠ 0 → s.wch.theftSusp = false →
      s.time.aofFault = false → theftDue s = true →
      exec (.theftBurst true bits) s = .next (forEach (List.finRange 8) (fun i => theftBurst i (bits.getD i.val []))
        { s with wch := { s.wch with theftLast := some s.time.life, theftFails := 0 } }) ∧
      (s.wch.theftFails = 2 → exec (.theftBurst false bits) s = .next (ringRecord .theftSusp true none 0
        { s with wch := { s.wch with theftLast := some s.time.life, theftFails := 3, theftSusp := true } }))) ∧
    (∀ (v : Bool) (bits : List (List Bool)), bits.length = 8 → s.pwr.state ≠ .watch ∨ theftDue s = false →
      exec (.theftBurst v bits) s = .next s) ∧
    (s.pwr.state = .off → (∀ c t, exec (.tamperSample c t) s = .next s) ∧ (∀ ohm, exec (.crackCheck ohm) s = .next s) ∧
      ∀ mv, exec (.vbatCheck mv) s = .next s)

/-- The segment strip; the safety core's watchdog window, its faults, the heartbeat and the PERMIT_WCH refresh. While the
control base is powered MET writes bits 7:0 of the requested pattern and the application bits 63:8; no other master
writes any. An update starts, where the watch domain is supplied, when the requested pattern is not the one shown and
none is under way (in WATCH only when urgent or 10 s after the last), carries the requested pattern and drives the
segments that change for the frames of its temperature; once these have passed, its end makes it the pattern shown.
The redrive drives every segment of the shown pattern again 24 h after the last, when no update is under way. With the
safety core running, a whole service word by SAF that holds the token and its complement between 5 ms (164 cycles of
LIFE) and 15 ms (491) after the last, or the first one, is accepted: the token changes to a free value, and the second
good service in a row ends a fault. Too early, too late or wrong, it is a watchdog fault with its bits; a partial
word, another master's, or one while the core does not run, is nothing. 492 cycles without a service are a late fault.
Each millisecond advances the heartbeat; a lost refresh withdraws PERMIT_WCH with the line cause. The core's reset
takes effect while the base runs, its internal fault while it runs. -/
def Obligations.SegmentsAndWatchdog : Prop :=
  (∀ s : State,
    (∀ p : BitVec 64,
      (basePowered s = true →
        exec (.segmentPatternWrite .met p) s = .next { s with wch := { s.wch with segReq := (s.wch.segReq &&& ~~~0xFF) ||| (p &&& 0xFF) } } ∧
        (∀ m, m = .app0 ∨ m = .app1 → exec (.segmentPatternWrite m p) s =
          .next { s with wch := { s.wch with segReq := (s.wch.segReq &&& 0xFF) ||| (p &&& ~~~0xFF) } })) ∧
      (∀ m, m ≠ .met → m ≠ .app0 → m ≠ .app1 → exec (.segmentPatternWrite m p) s = .next s)) ∧
    (∀ c : Int, watchOn s = true → s.wch.segReq ≠ s.wch.segShown → s.wch.segUpdating = none →
      s.pwr.state ≠ .watch ∨ s.wch.segUrgent = true ∨ s.wch.segLast = none → exec (.segmentUpdateStart c) s =
        .next { s with wch := { s.wch with
          segUpdating := some s.wch.segReq, segDriven := s.wch.segReq ^^^ s.wch.segShown, segUrgent := false
          segFrames := if 40 < c then 8 else if c < 10 then 16 else 12, segLast := some s.time.life, celsius := c } }) ∧
    (∀ p l, s.wch.segUpdating = some p → s.wch.segLast = some l → s.wch.segFrames * 655 ≤ (s.time.life - l).toNat →
      exec .segmentUpdateEnd s = .next { s with wch := { s.wch with segShown := p, segUpdating := none, segDriven := 0 } }) ∧
    (watchOn s = true → s.wch.segUpdating = none → 86400 * 32768 ≤ (s.time.life - s.wch.segRedriven).toNat →
      exec .segmentRedrive s = .next { s with wch := { s.wch with
        segUpdating := some s.wch.segShown, segDriven := ~~~0, segLast := some s.time.life, segRedriven := s.time.life
        segFrames := if 40 < s.wch.celsius then 8 else if s.wch.celsius < 10 then 16 else 12 } })) ∧
  (∀ s : State,
    (s.saf.running = true → ∀ w : Word32, w.toNat = s.wb.wdgToken.toNat + (65535 - s.wb.wdgToken.toNat) * 65536 →
      (∀ l, s.wb.wdgLast = some l → 164 ≤ (s.time.life - l).toNat ∧ (s.time.life - l).toNat ≤ 491) →
      exec (.wdgService .saf w true) s = .next { s with nd := s.nd + 1, wb := { s.wb with
          wdgLast := some s.time.life, wdgToken := Config.wdgToken s.nd, wdgGood := s.wb.wdgGood + 1
          wdgFaulted := s.wb.wdgFaulted && decide (s.wb.wdgGood + 1 < 2) } }) ∧
    (s.saf.running = true → s.wb.wdgLast = none → ∀ w : Word32,
      w.toNat ≠ s.wb.wdgToken.toNat + (65535 - s.wb.wdgToken.toNat) * 65536 →
      exec (.wdgService .saf w true) s = .next (watchdogFault 2 s)) ∧
    (∀ l, s.saf.running = true → s.wb.wdgLast = some l → ∀ w : Word32,
      w.toNat = s.wb.wdgToken.toNat + (65535 - s.wb.wdgToken.toNat) * 65536 →
      ((s.time.life - l).toNat < 164 → exec (.wdgService .saf w true) s = .next (watchdogFault 1 s)) ∧
      (491 < (s.time.life - l).toNat → exec (.wdgService .saf w true) s = .next (watchdogFault 4 s))) ∧
    (∀ (m : Master) (w : Word32) (whole : Bool), m ≠ .saf ∨ whole = false ∨ s.saf.running = false →
      exec (.wdgService m w whole) s = .next s) ∧
    (∀ l, s.wb.wdgLast = some l → 492 ≤ (s.time.life - l).toNat → exec .wdgLate s = .next (watchdogFault 4 s)) ∧
    (watchOn s = true → exec .heartbeatTick s =
      .next { s with wch := { s.wch with heartbeat := s.wch.heartbeat + 1, refreshed := true } }) ∧
    exec .permitWchRefreshTimeout s = .next (withdraw allDrivers [.wch] causeLine
      { s with wch := { s.wch with refreshed := false }, saf := { s.saf with lineGood := Vector.replicate 4 none } }) ∧
    (baseRuns s = true → exec .safCoreReset s = .next (safReset causeInternal s)) ∧
    (s.saf.running = true → exec .safInternalFault s =
      .next (safReset causeInternal (countInternal causeInternal (safTrip allDrivers causeInternal s)))))

/-- Wake sources, the entry into IDLE and the way back. The RTC alarm fires wake bit 4 once its second has come with the
RTC valid, and disarms. An edge on a wake pin, of a kind that its settings name, in IDLE or during the entry, fires
bit 5; MET and SAF, running, fire bits 6 and 7. A frame that matches its port's rule, in IDLE on a port that is up, is
held and fires bit 1; an ARP request of such a port with an IPv4 address is answered. IDLE_ENTRY, where the module may
go, has met the conditions for its time and leads no pair link, writes the checkpoint and begins the entry;
APP_ISLAND_REMOVED ends it in IDLE: application SRAM's samples and the crypto engine's work are gone, the pilots are
sensed afresh, a wake that fired in the entry begins, and the display die is off. WAKE_COMPLETE returns to RUN where
the running bank has the digest of the start, takes the held frames and raises the held timer events, and resets the
base where it has another. An applied settings block keeps wake bits 0, 6 and 7. The watch core's source follows its
sources; a scrub that cannot correct is recorded. -/
def Obligations.WakesAndIdle : Prop :=
  ∀ s : State,
    (s.wch.alarmEn = true → s.time.valid = true → s.wch.alarmSec.toNat ≤ s.time.rtcSec.toNat →
      exec .rtcAlarmFire s = .next (fireWake 4 { s with wch := { s.wch with alarmEn := false } })) ∧
    (∀ pin : Fin 64, 56 ≤ pin.val → s.pwr.state = .idle → s.wch.settings.wakePins.getLsbD (pin.val - 56) = true →
      (s.wch.settings.wakeRising.getLsbD (pin.val - 56) = true → exec (.gpWakeEdge pin true) s = .next (fireWake 5 s)) ∧
      (s.wch.settings.wakeFalling.getLsbD (pin.val - 56) = true → exec (.gpWakeEdge pin false) s = .next (fireWake 5 s))) ∧
    (s.met.running = true → exec .metWakeRequest s = .next (fireWake 6 s)) ∧
    (s.saf.running = true → exec .safWakeRequest s = .next (fireWake 7 s)) ∧
    (∀ (p : Fin 4) (kind : WakeFrame) (f : Bytes), s.pwr.state = .idle → s.net.port[p].up = true → wakesPort s p kind = true →
      exec (.networkWakeFrame p kind f) s = .next (fireWake 1 (modPort (Fin.ofNat 8 p.val) (fun x => { x with held := x.held ++ [f] }) s))) ∧
    (∀ p : Fin 4, s.pwr.state = .idle → s.net.port[p].up = true → hasAddress s p = true →
      exec (.arpReplyIdle p) s = .next (modPort (Fin.ofNat 8 p.val) (fun x => { x with arpReplies := x.arpReplies + 1 }) s)) ∧
    (idleHeld s = true → pairPort s = none → exec .idleEntry s =
      let t := closeForIdle s
      .next (requestLegal false 0 (writeTiles { t with
        pwr := { t.pwr with idleEntry := true }, app := { t.app with idleCheckpoint := some s.time.life } }))) ∧
    (s.pwr.idleEntry = true → s.pwr.state = .run → anyUpdate s = false → exec .appIslandRemoved s =
      let t := changeState (fun h => { h with power := 1 }) { s with
        pwr := { s.pwr with state := .idle, idleEntry := false, idleSince := none, appIsland := false, modem := ⟨false, false⟩, wakeWaits := false }
        wch := { s.wch with cpFilter := ⟨{}, {}⟩, ppFilter := ⟨{}, {}⟩ }
        key := { s.key with jobs := [] }
        ch := s.ch.map (fun c => { c with appPort := {} }) }
      .next (modulesIdle (judgeDisplay (dieOff (if s.pwr.wakeWaits then startWake t else t))))) ∧
    (s.pwr.state = .idle → s.hif.power = 2 →
      (bankIntact s = true → exec .wakeComplete s =
        let t := changeState (fun h => { h with power := 0 }) { s with pwr := { s.pwr with state := .run, appIsland := true, modem := ⟨true, true⟩ } }
        let u := raiseHeldTimers (presentRepeats { t with net := { t.net with
          port := t.net.port.map (fun p => { p with taken := p.held, held := [] }) } })
        .next (judgeDisplay { u with disp := { u.disp with powered := true } })) ∧
      (bankIntact s = false → exec .wakeComplete s = (let t := resetBase s; .next { t with pwr := { t.pwr with state := .run } }))) ∧
    (∀ b, s.wch.settingsNew = some b → exec .watchSettingsApply s =
      .next { s with wch := { s.wch with settings := b, wakeEn := b.wakeEn ||| 0xC1, settingsNew := none } }) ∧
    (∀ cap vb : Nat, s.pwr.state = .watch → exec (.watchSourceChange cap vb) s = .next { s with
      wch := { s.wch with source :=
        if s.pwr.vauxUp then .vaux else if 4000 ≤ cap then .holdup else if 2500 ≤ vb then .vbat else s.wch.source }
      pwr := { s.pwr with capMv := cap, capRem := 0 } }) ∧
    (watchOn s = true → ∀ g : Nat, exec (.watchSramScrub g false) s = .next { s with wch := { s.wch with scrubPos := g } } ∧
      exec (.watchSramScrub g true) s = .next (ringRecord .lostRange true none g { s with wch := { s.wch with scrubPos := g } }))

/-- MODULE_POWER_ON runs the start order to step 8 (or the boot ROM's service), START_STEP_9 grants and re-arms. A
module in reset, in RUN, with RST_N high and the base not held off, starts when the reset is released: the hold-up is
bled below 10 V (to 9,999 mV where it held more, log 86), the port is ready, the body in force is read, the report of
the last power-down is kept and, where a bank will run, raised as EV_POWER_RESTORED number 1; then keys, MET and chain
start, the bank is chosen, and with a bank the safety core and the application, else the boot ROM serves at step 6. Step
9 with a passed or worn hold-up self-test, the safety core through its diagnostics, no watchdog fault and every
monitored clock good: second report, PERMIT_WCH of the four drivers, PERMIT_SAF and re-arm of each, the keep-alive's
enable, and step 15; with a failed self-test no driver gets PERMIT_SAF. -/
def Obligations.StartOrder : Prop :=
  ∀ s : State,
    (s.pwr.inReset = true → s.pwr.rstNLow = false → s.pwr.baseHeldOff = false → s.pwr.state = .run → ∀ x : StartInputs,
      let runs := (startPreview x s).run.running.isSome
      let begun := s |> modPwr (fun p => { p with
          inReset := false, appIsland := true, saveOutstanding := 0, capMv := min 9999 p.capMv, capRem := 0 })
        |> modHif (fun h => { h with rdy := true }) |> changeState (fun h => { h with startStep := 1 })
        |> (fun t => { t with cfg := cfgOfBody t.fab (bodyInForce (startPreview x s)), save := powerReport s })
        |> modWch (fun w => { w with saveStep := 0, theftSusp := false, theftFails := 0 })
        |> ifDo s.time.lifeRestart (modLegal (fun l => { l with epoch := l.epoch + 1 }))
        |> modTime (fun t => { t with lifeRestart := false }) |> ifDo runs (powerRestored 1)
      let measured := begun |> startKeys x |> startMet x s.time.lifeRestart |> startChain x
      let set := mendActive measured
      let booted := startBank set.1
      let logged := modKey (fun k => { k with boot := bootLog booted }) booted
      (runs = true → exec (.modulePowerOn x) s = .next (startApp set.2 (startSaf x logged))) ∧
      (runs = false → exec (.modulePowerOn x) s =
        .next (changeState (fun h => { h with startStep := 6, bootServed := true }) logged))) ∧
    (baseRuns s = true → s.hif.startStep = 9 → ∀ gates : List GateTest,
      let u := powerRestored 2 s
      let v := { u with saf := { u.saf with step9 := true } }
      (s.pwr.selfTest = .pass ∨ s.pwr.selfTest = .worn → s.saf.running = true → s.saf.diagPassed = true → s.saf.moduleSafe = false →
        s.wb.wdgFaulted = false → clocksGood s = true → exec (.startStep9 gates) s =
          .next (changeState (fun h => { h with startStep := 15 })
            (modNet (fun n => { n with str := n.str.map (fun y => { y with enable := true }) })
              (forEach allDrivers (startDriver gates) (forEach allDrivers (fun d => grant d .wch) v))))) ∧
      (s.pwr.selfTest = .failed → s.wb.wdgFaulted = true → exec (.startStep9 gates) s =
        .next (changeState (fun h => { h with startStep := 15 }) v)))

/-- A withdrawn permit trips its driver; the window closes into one EV_TRIP; links and grants. A permit of a driver that
was granted, withdrawn while the latch is clear: the permit falls, the latch is set, the coil drive is off, the trip
cause word holds that permit and the code with LIFE, and every other driver's record is as before. PERMIT_WITHDRAWAL of
a stage but SAF is this withdrawal with the sessions' reaction; of SAF it is held for its cause. With the controller
link up the window's close marks the trip recorded and, unless PERMIT_APP alone caused it, counts it, logs it and raises
EV_TRIP with the first permits and up to four codes; with the link down it only closes. A stage that may grant grants
its permit and the waiting session goes on. The lost controller link withdraws all five permits of the four drivers with
POWER_DIE_LINK and switches the load switches; its return shows the link up and reports each trip whose window closed
meanwhile. -/
def Obligations.PermitsAndTrips : Prop :=
  ∀ (s : State) (d : Driver) (st : Stage) (code : BitVec 16),
    (s.pd.drv[d].latch = false → s.pd.drv[d].permits.get st = true → code ≠ causeLink →
      let t := trip d [st] code s
      t.pd.drv[d].permits.get st = false ∧ t.pd.drv[d].latch = true ∧ t.pd.drv[d].phase = .off ∧ t.pd.drv[d].window = true ∧
        t.safStore.trips[d].codes = [code] ∧ t.safStore.trips[d].firstPermits = stageBits [st] ∧
        t.safStore.trips[d].life = s.time.life ∧ (∀ e : Driver, e ≠ d → t.pd.drv[e] = s.pd.drv[e])) ∧
    (code ≠ causeLine → exec (.permitWithdrawal d st code) s = .next (if st = .saf then safTrip [d] code s else withdraw [d] [st] code s)) ∧
    (s.pd.drv[d].window = true → s.pd.linkUp = false → exec (.tripWindowClose d) s =
      .next (modDrv d (fun r => { r with window := false }) s)) ∧
    (s.pd.drv[d].window = true → s.pd.linkUp = true →
      let w := s.safStore.trips[d]
      let t := modDrv d (fun r => { r with window := false, fresh := false, recorded := true }) s
      let c := fun (i : Nat) => u16 (w.codes.getD i 0).toNat
      (s.pd.drv[d].fresh = true → w.firstPermits ≠ stageBits [.app] → exec (.tripWindowClose d) s =
        .next (settle (outletOf d) (raise .trip (u8 d.val ++ u8 w.firstPermits.toNat ++ c 0 ++ c 0 ++ c 1 ++ c 2 ++ c 3)
          (faultLog (w.codes.getD 0 0) d.val (modTrip d (fun w => { w with count := satAdd 32 w.count 1 }) t))))) ∧
      (s.pd.drv[d].fresh = true → w.firstPermits = stageBits [.app] → exec (.tripWindowClose d) s = .next (settle (outletOf d) t))) ∧
    (st ≠ .saf → mayGrant s d st = true → exec (.permitGrant d st) s =
      .next (advance (outletOf d) (grant d st (modSafCore
        (fun c => { c with lineGood := vmod c.lineGood d (fun l => l.orElse (fun _ => some s.time.life)) }) s)))) ∧
    (mayGrant s d .saf = true → exec (.permitGrant d .saf) s =
      .next (advance (outletOf d) (grantSaf d (modSafCore
        (fun c => { c with lineGood := vmod c.lineGood d (fun l => l.orElse (fun _ => some s.time.life)) }) s)))) ∧
    (s.pd.linkUp = true → exec .powerDieLinkLoss s =
      .next (applyLs (withdraw allDrivers Stage.all causeLink { s with pd := { s.pd with linkUp := false, linkHold := true } }))) ∧
    exec .powerDieLinkRestored s = .next (forEach (allDrivers.filter (fun e => !s.pd.drv[e].window && !s.pd.drv[e].recorded))
      reportTrip { s with pd := { s.pd with linkUp := true } })

/-- A re-arm without PERMIT_ISL, _WV, _SAF or _WCH has no effect and reads refused; PERMIT_APP does not block it. The
safety core, running with its diagnostics passed, re-arms a latched driver whose trip is recorded, whose gate test has
not failed and whose causes meet their conditions. With one of PERMIT_ISL, PERMIT_WV, PERMIT_SAF and PERMIT_WCH
withdrawn the latch stays set, the coil drive and the permits are as before, and the driver's status shows the re-arm
refused. With the four granted and the gate test passed (each cut element read open, and each whose permit
is granted read closed again) the latch is cleared, whether PERMIT_APP is granted or not. -/
def Obligations.RearmNeedsFourPermits : Prop :=
  ∀ (s : State) (d : Driver) (gate : GateTest), s.saf.running = true → s.saf.diagPassed = true → s.pd.drv[d].latch = true →
    s.pd.drv[d].recorded = true → s.pd.drv[d].gateFailed = false → causesMet s false d = true →
    (rearmPermits s.pd.drv[d].permits = false → ∃ t, exec (.safRearm d gate) s = .next t ∧ t.pd.drv[d].latch = true ∧
      t.pd.drv[d].phase = s.pd.drv[d].phase ∧ t.pd.drv[d].rearmRefused = true) ∧
    (rearmPermits s.pd.drv[d].permits = true → gate.opened = 31 → gate.closed &&& permitBits s.pd.drv[d].permits = permitBits s.pd.drv[d].permits →
      ∃ t, exec (.safRearm d gate) s = .next t ∧ t.pd.drv[d].latch = false)

/-- TRIP_CAUSE_READ, SAFETY_STATUS_GET and SAFETY_REARM_REQUEST; a blocked access and the egress queues. A served
TRIP_CAUSE_READ answers the driver's trip cause word: first permits and codes with LIFE, following permits with their
LIFE, and the count; a driver above 3 is ST_ARG_RANGE. SAFETY_STATUS_GET answers permits, latches, seam paths,
residual currents, insulation, earth, hold-up capacitance and LIFE. SAFETY_REARM_REQUEST of a driver without a latch
completes with ST_OK; of a latched one, where the causes are met, the trip is recorded, the gate is good and the four
permits are granted or PERMIT_SAF may be, it is kept as requested, PERMIT_SAF returns where it may and the request
stays RUNNING for the gate test; else it completes with ST_REARM_REFUSED and changes nothing. An access that Table 1.3
does not give its master is blocked: it is answered with a bus error and 0, recorded with master, address, direction
and LIFE, EV_FIREWALL_BLOCKED is raised, and for an address of the legal partition MET, running, logs it; one that its
master cannot form does nothing; an allowed read of the TIME block answers the register. The application cores and DMA
have no access to the legal MRAM or metrology SRAM. A frame transmitted lets its port take its next one: a safety
frame within its share, else session before telemetry unless telemetry's share is due; a telemetry frame that fits
into 65,536 bytes goes into its busy port's telemetry queue, and one that does not drops the oldest telemetry first. -/
def Obligations.SafetyReadsAndEgress : Prop :=
  (∀ (mb : Mailbox) (b : Bytes) (s : State),
    let t := takeUp mb s
    (serves .tripCauseRead mb b s →
      (3 < rd b 0 2 → exec (.tripCauseRead mb) s = .next (complete mb .argRange [] t)) ∧
      (∀ d : Driver, rd b 0 2 = d.val → exec (.tripCauseRead mb) s =
        let w := s.safStore.trips[d]
        let c := fun (i : Nat) => u16 (w.codes.getD i 0).toNat
        .next (complete mb .ok (u8 d.val ++ u8 w.firstPermits.toNat ++ c 0 ++ u64 w.life.toNat ++ u8 w.followPermits.toNat ++
          u8 0 ++ u16 0 ++ u64 w.followLife.toNat ++ u32 w.count.toNat ++ u32 0 ++ c 0 ++ c 1 ++ c 2 ++ c 3) t))) ∧
    (serves .safetyStatusGet mb b s → exec (.safetyStatusGet mb) s =
      let kohm := fun (o : Outlet) => min (s.saf.out.get o).imd.plusOhm (s.saf.out.get o).imd.minusOhm / 1000
      .next (complete mb .ok (u32 (permitWord s) ++ u8 (latchBits s) ++ u8 (seamPathState s .a + 4 * seamPathState s .b) ++ u16 0 ++
        u32 (s.saf.out.get .a).rcd.rmsUa ++ u32 (s.saf.out.get .b).rcd.rmsUa ++ u32 (kohm .a) ++ u32 (kohm .b) ++
        u8 (b1 (!(s.saf.out.get .a).peFault) + 2 * b1 (!(s.saf.out.get .b).peFault)) ++ flag (!s.saf.penFault) ++ u16 0 ++
        u32 s.pwr.uF ++ u64 s.time.life.toNat) t)) ∧
    (serves .safetyRearmRequest mb b s → ∀ d : Driver, rd b 0 2 = d.val →
      (s.pd.drv[d].latch = false → exec (.safetyRearmRequest mb) s = .next (complete mb .ok [] t)) ∧
      (s.pd.drv[d].latch = true →
        let u := modDrv d (fun r => { r with requested := true }) t
        let p := { u.pd.drv[d].permits with saf := u.pd.drv[d].permits.saf || safMayGrant u false d }
        let may := causesMet u false d && rearmPermits p && u.pd.drv[d].recorded && !u.pd.drv[d].gateFailed
        (may = true → exec (.safetyRearmRequest mb) s =
          .next (modDrv d (fun r => { r with askers := r.askers ++ [mb] }) (if safMayGrant u false d then grantSaf d u else u))) ∧
        (may = false → exec (.safetyRearmRequest mb) s = .next (complete mb .rearmRefused [] t))))) ∧
  (∀ (s : State) (a : BusAccess), basePowered s = true →
    (blocks s a = true → exec (.firewallBlock a) s =
      let t := raise .firewallBlocked (u8 (masterCode a.master) ++ u8 (b1 a.write) ++ u16 0 ++ u32 a.addr.toNat)
        { s with bus := some ⟨a.master, true, 0⟩, blocked := ⟨a.master, a.addr, a.write, s.time.life⟩ :: s.blocked }
      .next (if legalRegion a.region && s.met.running then log 0x0050 (masterCode a.master) (u8 (b1 a.write) ++ u32 a.addr.toNat) t else t)) ∧
    (notFormed a = true → exec (.firewallBlock a) s = .next s) ∧
    (blocks s a = false → notFormed a = false → a.region = .timeBlock → a.write = false → exec (.firewallBlock a) s =
      .next { s with bus := some ⟨a.master, false, BitVec.ofNat 32 (timeReg s (a.addr.toNat % 0x1000))⟩ }) ∧
    (isApp a.master = true → a.region = .legalMram ∨ a.region = .metrologySram ∨ (a.region = .publication ∧ a.write = true) →
      blocks s a = true)) ∧
  (∀ (s : State) (p : Fin 8) (f : Bytes),
    exec (.egressFrameDone p) s = .next (portNext p s) ∧
    (baseRuns s = true → f.length ≤ 65536 →
      (telemetryBytes s + f.length ≤ 65536 → (s.net.port[p]).sending ≠ none → exec (.telemetryEnqueue p f) s =
        .next { s with net := { s.net with
          port := vmod s.net.port p (portPut s.time.life .telemetry f), telOrder := s.net.telOrder ++ [p] } }) ∧
      exec (.telemetryEnqueue p f) s = .next (enqueue p .telemetry f (makeRoom f.length (telemetryCount s) s)))) ∧
  (∀ (life : Life) (q : Port),
    (∀ a l, q.safety = a :: l → safetyMay life q a = true → nextFrame life q = sendSafety life a q) ∧
    ((∀ a, q.safety.head? = some a → safetyMay life q a = false) →
      (∀ a l, q.session = a :: l → telemetryDue life q = false → nextFrame life q = sendSession a q) ∧
      (∀ a l, q.telemetry = a :: l → q.session = [] ∨ telemetryDue life q = true → nextFrame life q = sendTelemetry life a q) ∧
      (q.session = [] → q.telemetry = [] → nextFrame life q = { q with sending := none })))

/-- HIF_LC_TRIGGER: the three requests, their conditions, and what a success and a refusal do. While the port takes words,
a word 0x3C5A with action 1, 2 or 3 requests PROVISIONED, FIELD or RETIRED; any other word sets KEY_REFUSED.
PROVISIONED is allowed from MANUFACTURE with slots 0 to 4 valid and no fault of the seal; FIELD from PROVISIONED with
an operation 4 for it within 60 s of LIFE, no session open and the RTC valid; RETIRED from MANUFACTURE, or from
PROVISIONED or FIELD with an operation 4 for it within 60 s and no session open. A success blows both bits, retires
the keys where it is RETIRED, consumes the authorisation, ends the debug session and raises EV_LIFECYCLE_CHANGED and
EV_TRIGGER_DONE with ST_OK; a refusal raises EV_TRIGGER_DONE with ST_LC_REFUSED and changes nothing else. An
authorisation older than 60 s expires. -/
def Obligations.LifecycleRequests : Prop :=
  ∀ (s : State) (w : Word32),
    (portOpen s → ∀ i, i = .lcRequestProvisioned w ∨ i = .lcRequestField w ∨ i = .lcRequestRetired w →
      let t := { s with hif := { s.hif with buffered := min 128 (s.hif.buffered + 1), rdy := false, sent := phases 0x08 s } }
      (∀ n, (n = 1 ∨ n = 2 ∨ n = 3) → w.toNat = 0x3C5A * 65536 + n → exec i s = .next (lcRequest n w t)) ∧
      (w.toNat / 65536 ≠ 0x3C5A ∨ w.toNat % 65536 = 0 ∨ 3 < w.toNat % 65536 → exec i s = .next (setStatus stKeyRefused t))) ∧
    (∀ n, lcAllowed s n = false → lcRequest n w s = raise .triggerDone (u32 w.toNat ++ u16 Status.lcRefused.code.toNat) s) ∧
    (∀ n, lcAllowed s n = true → n ≠ 3 → lcRequest n w s =
      let t := { s with keys := blow n s.keys, key := { s.key with auth := none, debugOpen := false, challenge := none } }
      raise .triggerDone (u32 w.toNat ++ u16 Status.ok.code.toNat) (raise .lifecycleChanged (u8 n) t)) ∧
    (lcAllowed s 3 = true → lcRequest 3 w s =
      let t := retire { s with keys := { s.keys with retired := 3 } }
      raise .triggerDone (u32 w.toNat ++ u16 Status.ok.code.toNat) (raise .lifecycleChanged (u8 3)
        { t with key := { t.key with auth := none, debugOpen := false, challenge := none } })) ∧
    (lifecycle s = 3 → ∀ n, lcAllowed s n = false) ∧
    (lcAllowed s 1 = true ↔ lifecycle s = 0 ∧ (∀ i : Fin 64, i.val ≤ 4 → slotValid s.keys i = true) ∧ s.legal.fault ≠ some 0) ∧
    (lcAllowed s 2 = true ↔ lifecycle s = 1 ∧ lcAuthorised s 2 = true ∧ anySession s = false ∧ s.time.valid = true) ∧
    (lcAllowed s 3 = true ↔ lifecycle s = 0 ∨ ((lifecycle s = 1 ∨ lifecycle s = 2) ∧ lcAuthorised s 3 = true ∧ anySession s = false)) ∧
    (∀ (n : Nat) (l : Life), s.key.auth = some (n, l) →
      (60 * 32768 < (s.time.life - l).toNat → exec .lcAuthorisationExpire s = .next { s with key := { s.key with auth := none } }) ∧
      ((s.time.life - l).toNat ≤ 60 * 32768 → exec .lcAuthorisationExpire s = .next s))

/-- Reads of key slots, lifecycle, certificate, measurements, channels, samples and calibration. A served
KEY_SLOT_STATUS_GET answers four bytes for each of the 64 slots: state (empty 0, valid 1, orphaned 2, failed 3),
binding, parent, zero. LIFECYCLE_GET answers the lifecycle code, the debug port's state of Table 18.5, the envelope
counter and the device identity, most significant byte first. DEVICE_CERT_GET answers length, offset and up to 504
bytes of certificate 0, 1 or 2 from an offset within it; a number above 2 or an offset beyond the end is ST_ARG_RANGE.
MEASUREMENT_LOG_GET answers three entries of 48 bytes. A served CHANNEL_STATUS_GET answers four bytes for each of the
48 channels: mode, the flags saturated, OOS, STALE, SETTLING, darned and woven, the range and zero. CHANNEL_SAT_CLEAR
clears the sticky saturation of the channels of its mask. SAMPLES_READ of a visible channel in service answers the
LIFE of its first word and the newest words of the application port's ring, by the count of the port's descriptor,
oldest first; a channel that the application may not see is
ST_NOT_PERMITTED, a channel above 47 or a count of 0 or above 124 ST_ARG_RANGE, a channel out of service
ST_CHANNEL_OOS. CALIBRATION_STATUS_GET answers 16 bytes for each island: number, state of M8 and the channel it
covers, deferrals, last calibration and count. -/
def Obligations.KeyAndChannelReads : Prop :=
  (∀ (mb : Mailbox) (b : Bytes) (s : State),
    let t := takeUp mb s
    (serves .keySlotStatusGet mb b s → exec (.keySlotStatusGet mb) s = .next (complete mb .ok ((List.finRange 64).flatMap (fun i =>
      u8 (match s.keys.slots[i].state with | .empty => 0 | .valid => 1 | .orphaned => 2 | .failed => 3) ++
        u8 s.keys.slots[i].binding ++ u8 s.keys.slots[i].parent ++ u8 0)) t)) ∧
    (serves .lifecycleGet mb b s → exec (.lifecycleGet mb) s =
      let n := if s.keys.retired ≠ 0 then 3 else if s.keys.field ≠ 0 then 2 else if s.keys.provisioned ≠ 0 then 1 else 0
      .next (complete mb .ok (u8 n ++ u8 (if n = 0 then 2 else if n = 3 then 0 else 1) ++ u16 0 ++ u32 s.keys.counter.toNat ++
        beBytes 8 s.fab.deviceId.toNat) t)) ∧
    (serves .deviceCertGet mb b s →
      (2 < rd b 0 2 → exec (.deviceCertGet mb) s = .next (complete mb .argRange [] t)) ∧
      (rd b 0 2 ≤ 2 → ((s.fab.certs.getD (rd b 0 2) []).length < rd b 4 4 →
          exec (.deviceCertGet mb) s = .next (complete mb .argRange [] t)) ∧
        (rd b 4 4 ≤ (s.fab.certs.getD (rd b 0 2) []).length → exec (.deviceCertGet mb) s =
          .next (complete mb .ok (u32 (s.fab.certs.getD (rd b 0 2) []).length ++ u32 (rd b 4 4) ++
            ((s.fab.certs.getD (rd b 0 2) []).drop (rd b 4 4)).take 504) t)))) ∧
    (serves .measurementLogGet mb b s → exec (.measurementLogGet mb) s = .next (complete mb .ok (u32 3 ++ u32 0 ++
      padTo 48 s.key.boot.metrology ++ padTo 48 s.key.boot.safety ++ padTo 48 s.key.boot.application) t))) ∧
  (∀ (mb : Mailbox) (b : Bytes) (s : State),
    let t := takeUp mb s
    (serves .channelStatusGet mb b s → exec (.channelStatusGet mb) s = .next (complete mb .ok ((List.finRange 48).flatMap (fun i =>
      u8 (modeCode s.ch[i].cfg.mode) ++ u8 (b1 s.ch[i].sat + 2 * b1 (isOut s.ch[i]) + 4 * b1 (decide (0 < s.ch[i].staleFrames)) +
        8 * b1 (decide (0 < s.ch[i].settle)) + 16 * b1 (darnedNow s i) + 32 * b1 s.ch[i].cfg.woven) ++
        u8 (rangeCode s.ch[i].cfg.range) ++ u8 0)) t)) ∧
    (serves .channelSatClear mb b s → exec (.channelSatClear mb) s = .next (complete mb .ok []
      (forEach ((List.finRange 48).filter (fun i => (rd b 0 8).testBit i.val)) (fun i => modCh i (fun c => { c with sat := false })) t))) ∧
    (serves .samplesRead mb b s → ∀ i : Channel, rd b 0 1 = i.val →
      (appVisible s i = false → exec (.samplesRead mb) s = .next (complete mb .notPermitted [] t)) ∧
      (appVisible s i = true → rd b 2 2 = 0 ∨ 124 < rd b 2 2 → exec (.samplesRead mb) s = .next (complete mb .argRange [] t)) ∧
      (appVisible s i = true → 1 ≤ rd b 2 2 → rd b 2 2 ≤ 124 → isOut s.ch[i] = true →
        exec (.samplesRead mb) s = .next (complete mb .channelOos [] t)) ∧
      (appVisible s i = true → 1 ≤ rd b 2 2 → rd b 2 2 ≤ 124 → isOut s.ch[i] = false → exec (.samplesRead mb) s =
        .next (complete mb .ok (u64 (sampleLife s.ch[i].appPort.desc i (s.ch[i].appPort.desc.count.toNat + 1 - rd b 2 2)) ++
          (List.range (rd b 2 2)).reverse.flatMap (fun k => u32 (s.ch[i].appPort.ring.getD
            ((s.ch[i].appPort.desc.count - 1 - BitVec.ofNat 32 k).toNat % 256) 0).toNat)) t))) ∧
    (serves .samplesRead mb b s → 47 < rd b 0 1 → exec (.samplesRead mb) s = .next (complete mb .argRange [] t)) ∧
    (serves .calibrationStatusGet mb b s → exec (.calibrationStatusGet mb) s = .next (complete mb .ok ((List.finRange 6).flatMap (fun k =>
      u8 k.val ++ (match s.isl[k].spare with
        | .idle => u8 0 ++ u8 0
        | .covering m => u8 1 ++ u8 (channelOf k m.val).val
        | .faulty => u8 2 ++ u8 0) ++
      u8 s.isl[k].deferrals.toNat ++ u64 s.isl[k].lastCal.toNat ++ u32 s.isl[k].calibrations.toNat)) t)))

/-- Key envelopes: the order of the checks, the operations, and that a refused envelope changes nothing. An envelope is
refused, with the first status that applies and with nothing changed: in RETIRED ST_NOT_PERMITTED; a wrong magic,
version, count, length or operation list ST_ENV_FORMAT; another device ST_ENV_DEVICE; an unreadable counter
ST_KEY_SLOT_FAILED; a counter not above the stored one ST_ENV_COUNTER; a slot 2 that is not valid ST_KEY_SLOT_FAILED;
an authentication tag that is wrong under the key derived from slot 2's for this
envelope ST_ENV_SIGNATURE. Whatever status but ST_OK an envelope gets, keys, counter and
authorisation are as before. An accepted one sets the counter to its own. Outside MANUFACTURE an operation 1, 2 or 3
on a slot below 8 is ST_NOT_PERMITTED. KEY_ENVELOPE_APPLY, served, and the operator's DataTransfer of an envelope of a
possible length, apply it; the latter answers Accepted or Rejected. -/
def Obligations.EnvelopesInOrder : Prop :=
  ∀ (s : State) (env : Bytes),
    let x := gcmOpen (hkdf sha256Of ((env.drop 8).take 12) (slotKey s 2) (str "IKEV envelope") 32) ((env.drop 20).take 12)
      (env.take 32) (env.drop 32)
    let r := applyEnvelope env s
    (r.1 ≠ .ok → r.2.2 = s ∧ r.2.1 = []) ∧
    (r.1 = .ok → lifecycle s ≠ 3 ∧ s.keys.counter.toNat < rd env 16 4 ∧ x.1 = true ∧
      r.2.2.keys.counter = BitVec.ofNat 32 (rd env 16 4) ∧ beNat ((env.drop 8).take 8) = s.fab.deviceId.toNat) ∧
    (lifecycle s = 3 → r.1 = .notPermitted) ∧
    (lifecycle s ≠ 3 → rd env 0 4 = 0x56454B49 → rd env 4 2 = 1 → 1 ≤ rd env 6 1 → rd env 6 1 ≤ 16 →
      (parseOps (rd env 6 1) x.2).isSome = true → x.2.length + 48 = env.length →
      (beNat ((env.drop 8).take 8) ≠ s.fab.deviceId.toNat → r.1 = .envDevice) ∧
      (beNat ((env.drop 8).take 8) = s.fab.deviceId.toNat → s.keys.counterOk = true →
        (rd env 16 4 ≤ s.keys.counter.toNat → r.1 = .envCounter) ∧
        (s.keys.counter.toNat < rd env 16 4 → slotValid s.keys 2 = true → x.1 = false → r.1 = .envSignature))) ∧
    (∀ (o : EnvOp) (e : EnvState) (l : Life), o.op ≠ 4 → o.slot < 8 → applyOp false l o e = .error .notPermitted) ∧
    (∀ mb : Mailbox, serves .keyEnvelopeApply mb env s →
      let q := applyEnvelope env (takeUp mb s)
      exec (.keyEnvelopeApply mb) s = .next (complete mb q.1 q.2.1 q.2.2)) ∧
    (s.svc.connected = true → appRuns s = true → Cmd.keyEnvelopeApply.lenOk env.length env = true →
      exec (.keyEnvelopeDatatransfer env) s = .next (answer (r.1 == .ok) r.2.2)) ∧
    (s.svc.connected = true → appRuns s = true → Cmd.keyEnvelopeApply.lenOk env.length env = false →
      exec (.keyEnvelopeDatatransfer env) s = .next (answer false s))

/-- What a slot's usage byte allows; crypto requests and their ends, the debug port, the random source. A request to the
engine, while it is powered (base and application island), for an operation whose bit of the slot's usage byte is
clear, or that the slot's kind does not have (sign bit 0 and TLS authentication bit 1 for kinds 3 and 4, encryption and
decryption bit 2 for kind 1, verify bit 4 for kinds 5 and 6, TLS release bit 6 for kind 7), answers refused and starts
nothing. A slot that is not of kind 2 with bit 3 is no parent: a derivation from it fails. A written slot has no usage
bit that its kind does not have: those, and bit 5 for kind 6. While the engine is powered, a request that its channel,
slot and usage allow joins the operations under way with its slot and key as they stand; any other is answered refused;
an operation under way that ends leaves the list and gives its result, computed from the slot and key as they stood and
one draw of the random source. A powered-off engine takes and ends nothing. In PROVISIONED and FIELD with fewer than
three failed signatures and a good random source, the debugger is given a challenge of 32 free bytes; after three
failures it is refused with a security event. A signature over challenge, device identity and lifecycle code that
verifies with slot 4 or an owner slot of kind 6 with usage bit 5 opens the port; any other counts a failure. A failed
health test marks the source bad; a restart marks it as its tests say. -/
def Obligations.CryptoRequests : Prop :=
  ((∀ (s : State) (r : CryptoReq), basePowered s = true → s.pwr.appIsland = true →
    let k := s.keys.slots[r.slot].kind
    let u := s.keys.slots[r.slot].usage
    (r.op = .sign ∧ (u.getLsbD 0 = false ∨ (k ≠ 3 ∧ k ≠ 4))) ∨ (r.op = .tlsAuth ∧ (u.getLsbD 1 = false ∨ (k ≠ 3 ∧ k ≠ 4))) ∨
      ((r.op = .encrypt ∨ r.op = .decrypt) ∧ (u.getLsbD 2 = false ∨ k ≠ 1)) ∨ (r.op = .verify ∧ (u.getLsbD 4 = false ∨ (k ≠ 5 ∧ k ≠ 6))) ∨
      (r.op = .tlsRelease ∧ (u.getLsbD 6 = false ∨ k ≠ 7)) →
    exec (.cryptoRequest r) s = .next { s with key := { s.key with results := s.key.results ++ [⟨r.channel, false, []⟩] } }) ∧
  (∀ (e : EnvState) (o : EnvOp) (l : Life) (man : Bool), o.op = 2 → o.parent < 64 →
    e.keys.slots[Fin.ofNat 64 o.parent].kind ≠ 2 ∨ e.keys.slots[Fin.ofNat 64 o.parent].usage.getLsbD 3 = false →
      ∃ st, applyOp man l o e = .error st) ∧
  (∀ (kind : Nat) (u : BitVec 8), usageOk kind u = true →
    (u.getLsbD 0 = true ∨ u.getLsbD 1 = true → kind = 3 ∨ kind = 4) ∧ (u.getLsbD 2 = true → kind = 1) ∧ (u.getLsbD 3 = true → kind = 2) ∧
    (u.getLsbD 4 = true → kind = 5 ∨ kind = 6) ∧ (u.getLsbD 5 = true → kind = 6) ∧ (u.getLsbD 6 = true → kind = 7))) ∧
  (∀ s : State,
    (basePowered s = true → s.pwr.appIsland = true →
      (∀ r : CryptoReq,
        (requestAllowed s r = true → exec (.cryptoRequest r) s =
          .next { s with key := { s.key with jobs := s.key.jobs ++ [⟨r, s.keys.slots[r.slot], slotKey s r.slot⟩] } }) ∧
        (requestAllowed s r = false → exec (.cryptoRequest r) s =
          .next { s with key := { s.key with results := s.key.results ++ [⟨r.channel, false, []⟩] } })) ∧
      (∀ (c : Nat) (j : CryptoJob) (js : List CryptoJob), s.key.jobs = j :: js → j.req.channel = c →
        exec (.cryptoRequestDone c) s = .next { s with nd := s.nd + 1, key := { s.key with
          jobs := js, results := s.key.results ++ [⟨c, (cryptoResult s.nd j).1, (cryptoResult s.nd j).2⟩] } })) ∧
    (basePowered s = false ∨ s.pwr.appIsland = false →
      (∀ r, exec (.cryptoRequest r) s = .next s) ∧ ∀ c, exec (.cryptoRequestDone c) s = .next s) ∧
    (baseRuns s = true → lifecycle s = 1 ∨ lifecycle s = 2 →
      (s.key.debugFails < 3 → s.key.rngOk = true → exec .debugChallenge s =
        .next { s with nd := s.nd + 1, key := { s.key with challenge := some (Config.random s.nd 32) } }) ∧
      (3 ≤ s.key.debugFails → exec .debugChallenge s = .next (securityMsg "DebugRefused" s))) ∧
    (∀ c, s.key.challenge = some c → s.key.debugFails < 3 → ∀ (i : Fin 64) (sig : Bytes),
      let ok := slotVerifies s i (c ++ beBytes 8 s.fab.deviceId.toNat ++ u8 (lifecycle s)) sig
      (debugSlot s i = true → ok = true → exec (.debugSignature i sig) s =
        .next (securityMsg "DebugOpened" { s with key := { s.key with debugOpen := true, challenge := none } })) ∧
      (debugSlot s i = false ∨ ok = false → exec (.debugSignature i sig) s =
        .next (securityMsg "DebugRefused" { s with key := { s.key with debugFails := s.key.debugFails + 1, challenge := none } }))) ∧
    exec .rngHealthFail s = .next { s with key := { s.key with rngOk := false } } ∧
    (∀ p, exec (.rngRestart p) s = .next { s with key := { s.key with rngOk := p } }))

/-- Island frames, the loss and return of an island's link, comparators, and failed modulators. On a powered island with
its link up, a good frame (pattern 0xA, right CRC-8, toggled status bit) takes modulator, comparator and standby bits,
counts each modulator's unchanged bit, feeds the chains of its slots and the fast paths, marks SAT on what an overloaded
modulator carries, trips each comparator newly set, and fails a modulator after 64 cycles without a transition; a bad
one counts, feeds mid-scale zero, marks the island's channels STALE, and at the fifth in a row loses the link. The loss
of the link abandons darning and self-test, begins the restart, faults MOD, withdraws PERMIT_ISL of the drivers mapped
to its comparators and takes its eight channels out with reason 1; while it stays down the restart repeats; its return
lets those channels return. A comparator trip latches the high or low comparator of its channel and withdraws PERMIT_ISL
of its drivers. A failed modulator Mn is covered by an idle M8, with its outputs STALE, and else takes its channel out;
a failed M8 is faulty and what it covered is out. An open input is taken out with reason 2 and a closed one returns; a
divider is not tested. -/
def Obligations.IslandFramesAndLinks : Prop :=
  ∀ (s : State) (k : Island),
    let x := s.isl[k]
    let lost (t : State) : State := forEach (channelsOf k) (fun i => takeOut i 1) (withdraw
      (allDrivers.filter (fun d => (channelsOf k).any (fun i => chMapped t .cmpDrivers i d))) [.isl] causeIslandLink
      (clockFault .mod (modIsl k (fun (x : Isl) => { x with
          linkUp := false, restarting := true, lastStatus := none, cmpBits := 0, selfTest := none
          spare := match x.spare with
            | .covering m => if x.covered.contains m then Spare.covering m else .idle
            | y => y }) (abandonDarning k t))))
    (x.powered = true → x.linkUp = true →
      (∀ (f : BitVec 40) (loads : BitVec 9), frameGood x.lastStatus f = false → exec (.islandFrame k f loads) s =
        let t := forEach (channelsOf k) markStale (feedIsland k (fun _ => 0) (modIsl k (fun x => { x with
          failRun := x.failRun + 1, lastStatus := statusAfter x.lastStatus f }) s))
        .next (if x.failRun < 4 then t else lost t)) ∧
      (∀ (f : BitVec 40) (loads : BitVec 9), frameGood x.lastStatus f = true → exec (.islandFrame k f loads) s =
        let stuck (m : Fin 9) : Nat := if (frameMods f).getLsbD m.val = x.modBits.getLsbD m.val then x.stuckRun[m] + 1 else 0
        .next (forEach ((List.finRange 9).filter (fun m => decide (64 ≤ stuck m) && !x.failed.contains m)) (modulatorFails k)
          (frameTrips k f (fastPaths k (frameMods f)
            (forEach ((List.finRange 9).filter (fun m => loads.getLsbD m.val)) (overload k)
              (feedIsland k (fun m => if (frameMods f).getLsbD m then 1 else -1) (modIsl k (fun x => { x with
                failRun := 0, lastStatus := some (frameStatus f), modBits := frameMods f, cmpBits := frameCmps f
                standby := frameStandby f, stuckRun := Vector.ofFn stuck }) s))))))) ∧
      exec (.islandLinkLoss k) s = .next (lost s) ∧
      (∀ (i : Channel) (high : Bool), islandOf i = k → exec (.comparatorTrip i high) s =
        .next (comparatorTrip i high (modIsl k (fun x => { x with
          cmpBits := x.cmpBits ||| BitVec.ofNat 16 (2 ^ (2 * (i.val % 8) + b1 (!high))) }) s))) ∧
      (∀ m : Fin 9, x.failed.contains m = false →
        let t := modIsl k (fun x => { x with failed := x.failed ++ [m] }) s
        (m = 8 → exec (.modulatorFailed k m) s = .next (forEach x.covered (fun n => takeOut (channelOf k n.val) 1)
          (modIsl k (fun x => { x with spare := .faulty }) (abandonDarning k t)))) ∧
        (m ≠ 8 → x.spare = .idle → x.darning = none → x.selfTest = none → exec (.modulatorFailed k m) s =
          let n : Fin 8 := Fin.ofNat 8 m.val
          .next (markStale (channelOf k m.val)
            (modIsl k (fun x => { x with spare := .covering n, covered := x.covered ++ [n], darning := none }) t))) ∧
        (m ≠ 8 → x.spare = .faulty → exec (.modulatorFailed k m) s = .next (takeOut (channelOf k m.val) 1 t)))) ∧
    (x.powered = true → x.linkUp = false →
      exec (.islandRestartRetry k) s = .next (modIsl k (fun x => { x with restarting := true, failRun := 0, lastStatus := none }) s) ∧
      exec (.islandLinkResync k) s = .next (returnAll (channelsOf k) 1
        (modIsl k (fun x => { x with linkUp := true, restarting := false, failRun := 0, lastStatus := none }) s))) ∧
    (∀ (i : Channel) (bad : Bool), s.ch[i].cfg.range = .divider → exec (.openInputTest i bad) s = .next s) ∧
    (∀ i : Channel, s.ch[i].cfg.range ≠ .divider →
      exec (.openInputTest i true) s = .next (takeOut i 2 s) ∧ exec (.openInputTest i false) s = .next (returnAll [i] 2 s)) ∧
    (∀ i : Channel,
      comparatorTrip i true s =
        withdraw (allDrivers.filter (chMapped s .cmpDrivers i)) [.isl] causeComparator (modCh i (fun c => { c with cmpHigh := true }) s) ∧
      comparatorTrip i false s =
        withdraw (allDrivers.filter (chMapped s .cmpDrivers i)) [.isl] causeComparator (modCh i (fun c => { c with cmpLow := true }) s))

/-- Weave frames and their words, thresholds, synchronisation, the mains tracker, and readmission. A frame of the running
weave advances the chains of its slots, takes each of the 48 channels in order, moves each darning at every fourth frame,
and advances the frame number, the resampler's phase by its increment and its wraps. A word carries value, SAT, SETTLING,
STALE, SPARE, OOS and the low three bits of its count; an OOS word carries the value 0. A weave threshold trip latches the
channel and withdraws PERMIT_WV of its mapped drivers with WEAVE_THRESHOLD. An edge on SYNC_IN of 163 ns or more abandons
darning and, unless channels still settle, makes a synchronisation due; at its instant counters restart, channels settle,
SYNC_TRIGGERs complete with LIFE. A mains cycle, once its 256 outputs are out, moves the tracker at most 0.05 Hz toward a
usable fundamental within 45 to 65 Hz; without one the tracker holds, and before its first lock moves to nominal. A
returning channel that neither is STALE nor settles is readmitted with EV_CHANNEL_READMITTED. SYNC_TRIGGER while channels
settle is ST_STATE, and else makes a synchronisation due. -/
def Obligations.WeaveAndSynchronisation : Prop :=
  ∀ s : State,
    (s.weave.running = true → exec .weaveFrame s =
      let total := s.weave.wraps * 4294967296 + s.weave.phase.toNat + s.weave.increment.toNat
      let t := forEach (List.finRange 48) (channelFrame s.weave total)
        (modWeave (fun w => { w with slots := w.slots.map (advanceSlot (s.weave.frame + 1)) }) s)
      .next (modWeave (fun w => { w with
          frame := w.frame + 1, phase := BitVec.ofNat 32 (total % 4294967296), wraps := total / 4294967296 })
        (if (s.weave.frame + 1) % 4 = 0 then forEach (List.finRange 6) darnSample t else t))) ∧
    (∀ (v : BitVec 24) (sat settling stale spare : Bool) (n : BitVec 32),
      sampleWord v sat settling stale spare false n = BitVec.ofNat 32 (v.toNat * 256 + 128 * b1 sat + 64 * b1 settling +
        32 * b1 stale + 16 * b1 spare + n.toNat % 8) ∧
      sampleWord v sat settling stale spare true n = BitVec.ofNat 32 (128 * b1 sat + 64 * b1 settling + 32 * b1 stale +
        16 * b1 spare + 8 + n.toNat % 8)) ∧
    (∀ i : Channel, driversMapped s .wvDrivers i ≠ [] → s.weave.running = true → isOut s.ch[i] = false → s.ch[i].stale48 = 0 →
      exec (.weaveThresholdTrip i) s = .next (withdraw (driversMapped s .wvDrivers i) [.wv] causeWeave
        (modCh i (fun c => { c with wvTrip := true, wvRun := cfgNat s.cfg s.fab (.ch i .wvCount) }) s))) ∧
    (s.weave.running = true → ∀ ns, 163 ≤ ns → exec (.syncInEdge ns) s =
      let t := forEach (List.finRange 6) abandonDarning s
      .next { t with weave := { t.weave with lastSyncIn := some s.time.life, syncDue := t.weave.syncDue || !stillSettling s } }) ∧
    (∀ ns, ns < 163 → exec (.syncInEdge ns) s = .next s) ∧
    (s.weave.running = true → s.weave.syncDue = true → ∀ ref : Word32, exec (.synchronisationInstant ref) s =
      .next (modWeave (fun w => { w with syncWaiting := [] })
        (forEach s.weave.syncWaiting (completeRunning .ok (u64 s.time.life.toNat)) (synchronise ref s)))) ∧
    (∀ now target : Nat, trackNext false now target = now ∧
      (45000 ≤ now → now ≤ 65000 → trackNext true now target ≤ now + 50 ∧ now ≤ trackNext true now target + 50 ∧
        45000 ≤ trackNext true now target ∧ trackNext true now target ≤ 65000)) ∧
    (s.weave.running = true → 256 * (s.weave.cycles + 1) ≤ s.weave.wraps → s.weave.everLocked = false ∨ s.met.running = false →
      ∀ f rms ref : Nat,
      let c := s.ch[Fin.ofNat 48 (cfgNat s.cfg s.fab (.gen .mainsRef))]
      let usable := c.service == .inService && decide (50 ≤ rms)
      let lk := usable && decide (45000 ≤ f) && decide (f ≤ 65000)
      let now := trackNext (usable || !s.weave.everLocked) s.weave.milliHz (if usable then f else 1000 * cfgNat s.cfg s.fab (.gen .mainsHz))
      exec (.mainsCycleEnd f rms ref) s = .next { s with weave := { s.weave with
        locked := lk, everLocked := s.weave.everLocked || lk, milliHz := now, increment := mainsIncrement now
        cycles := s.weave.cycles + 1, cycleRef := s.weave.cycleRef + BitVec.ofNat 32 ref, cycleLen := BitVec.ofNat 32 (256 * ref) } }) ∧
    (∀ f rms ref, s.weave.wraps < 256 * (s.weave.cycles + 1) → exec (.mainsCycleEnd f rms ref) s = .next s) ∧
    (s.met.running = true → ∀ i : Channel, s.ch[i].service = .returning → s.ch[i].staleFrames = 0 → s.ch[i].settle = 0 →
      exec (.channelReadmit i) s = .next (raise .channelReadmitted (u8 i.val)
        (modCh i (fun c => { c with service := .inService, lostSince := none }) s))) ∧
    (∀ (mb : Mailbox) (b : Bytes), serves .syncTrigger mb b s →
      (s.weave.running = true → stillSettling s = false → exec (.syncTrigger mb) s =
        let t := takeUp mb s
        .next { t with weave := { t.weave with syncDue := true, syncWaiting := t.weave.syncWaiting ++ [mb] } }) ∧
      (stillSettling s = true → exec (.syncTrigger mb) s = .next (complete mb .state [] (takeUp mb s))))

/-- Darning: when a calibration starts or is deferred, the steps of the handover, M8's own, and the comparators'
self-test. On a powered island with its link up, the calibration that is due in the rotation flushes M8's chain and starts
the comparison with M8 covering, or is deferred with EV_CAL_DEFERRED and its reason: 1 M8 faulty, 2 M8 busy, 3 the
channel out or saturated, 4 within 1 s of SYNC_IN; either way the next modulator's turn comes. A comparison is judged
over 256 pairs, of which every one agrees within 0.05 % of full scale plus 0.05 % of reading: passed before the
reference it goes on to the blend, failed it ends, the modulator is suspect, and M8 is faulty where another was suspect
before; passed after it, the blend back begins, failed, M8 keeps covering a failed modulator. A finished reference takes
the coefficients and flushes Mn's chain. The release, at weight 0, returns the channel and counts the calibration with
its LIFE and MET's coefficients. M8, idle, calibrates itself once a rotation or is faulty. A comparator self-test goes
channel by channel, waits for darning, is missed with M8 faulty; a wrong outcome trips PERMIT_SAF of the drivers mapped
to its channel with SELF_TEST, and after the last channel it has passed if none was wrong. -/
def Obligations.Darning : Prop :=
  ∀ (s : State) (k : Island) (m : Fin 8),
    let turn (x : Isl) : Isl := { x with
      calNext := m + 1, calAt := vmod x.calAt m (fun _ => some s.time.life), spareDone := x.spareDone && m != 7 }
    let wrong (t : PairTest) : State :=
      safTrip (allDrivers.filter (chMapped s .cmpDrivers (channelOf k t.m.val))) causeSelfTest (modIsl k (fun x => { x with
        selfTest := if t.m.val < 7 then some ⟨t.m, false, true⟩ else none, selfTestFailed := true }) s)
    (calDue s k m = true →
      (∀ r, deferReason s k m = some r → exec (.calibrationDue k m) s =
        .next (raise .calDeferred (u8 k.val ++ u8 r) (modIsl k (fun x => { turn x with deferrals := satAdd 8 x.deferrals 1 }) s))) ∧
      (deferReason s k m = none → exec (.calibrationDue k m) s = .next (modSlotChain (spareSlot k) flushSlot
        (modIsl k (fun x => { turn x with darning := some ⟨m, .compare, [], 0⟩, spare := .covering m }) s)))) ∧
    (∀ d : Sys2Proof.Darning, s.isl[k].darning = some d → d.m = m →
      (d.pairs.length < 256 → exec (.darningCompare k) s = .next s) ∧
      (256 ≤ d.pairs.length → d.step = .compare →
        ((∀ p ∈ d.pairs, |p.1 - p.2| ≤ (1 + |p.1|) / 2000) → exec (.darningCompare k) s =
          .next (modIsl k (fun x => { x with darning := some { d with step := .blend, pairs := [] }, suspect := none }) s)) ∧
        ((∃ p ∈ d.pairs, ¬ |p.1 - p.2| ≤ (1 + |p.1|) / 2000) → exec (.darningCompare k) s =
          .next (modIsl k (fun x => { x with
            darning := none, suspect := some m, spare := match x.suspect with
              | none => .idle
              | some n => if n = m then .idle else .faulty }) s))) ∧
      (256 ≤ d.pairs.length → d.step = .compareBack →
        ((∀ p ∈ d.pairs, |p.1 - p.2| ≤ (1 + |p.2|) / 2000) → exec (.darningCompare k) s =
          .next (modIsl k (fun x => { x with darning := some { d with step := .blendBack, pairs := [] } }) s)) ∧
        ((∃ p ∈ d.pairs, ¬ |p.1 - p.2| ≤ (1 + |p.2|) / 2000) → exec (.darningCompare k) s =
          .next (modIsl k (fun x => { x with
            darning := none, covered := x.covered ++ [m], failed := x.failed ++ [Fin.ofNat 9 m.val] }) s))) ∧
      (d.step = .reference → ∀ o g : Int, exec (.darningReferenceDone k o g) s =
        .next (modSlotChain (slotOf (channelOf k m.val)) flushSlot (modIsl k (fun x => { x with
          darning := some { d with step := .compareBack, pairs := [] }
          coef := vmod x.coef (Fin.ofNat 9 m.val) (fun _ => ⟨o, g⟩) }) s))) ∧
      (d.step = .blendBack → d.weight = 0 → exec (.darningRelease k) s =
        .next (calibrated k (Fin.ofNat 9 m.val) (modIsl k (fun x => { x with darning := none, spare := .idle }) s)))) ∧
    (∀ n : Fin 9, ((calibrated k n s).isl[k]).calLife[n] = s.time.life ∧ ((calibrated k n s).met.coef[k])[n] = (s.isl[k]).coef[n] ∧
      ((calibrated k n s).isl[k]).calibrations = (s.isl[k]).calibrations + 1) ∧
    (s.isl[k].spare = .idle → s.isl[k].darning = none → s.isl[k].selfTest = none → s.isl[k].linkUp = true → s.isl[k].spareDone = false →
      ∀ o g : Int,
        exec (.m8SelfCalibration k o g true) s =
          .next (calibrated k 8 (modIsl k (fun x => { x with coef := vmod x.coef 8 (fun _ => ⟨o, g⟩), spareDone := true }) s)) ∧
        exec (.m8SelfCalibration k o g false) s = .next (modIsl k (fun x => { x with spare := .faulty }) s)) ∧
    (s.isl[k].powered = true → s.isl[k].linkUp = true → s.isl[k].darning = none → s.isl[k].selfTest = none →
      (s.isl[k].spare = .faulty → exec (.comparatorSelftest k (.takeUp 0)) s =
        .next (modIsl k (fun x => { x with selfTestMissed := true, selfTest := none }) s)) ∧
      (s.isl[k].spare ≠ .faulty → exec (.comparatorSelftest k (.takeUp 0)) s =
        .next (modIsl k (fun x => { x with selfTest := some ⟨0, true, false⟩ }) s))) ∧
    (s.isl[k].darning ≠ none → ∀ n, exec (.comparatorSelftest k (.takeUp n)) s = .next s) ∧
    (∀ t : PairTest, s.isl[k].selfTest = some t → t.under = true →
      (∀ a b c : Bool, (a && b && c) = false → exec (.comparatorSelftest k (.outcomes a b c)) s = .next (wrong t)) ∧
      (t.m.val < 7 → exec (.comparatorSelftest k (.outcomes true true true)) s =
        .next (modIsl k (fun x => { x with selfTest := some { t with under := false } }) s)) ∧
      (t.m = 7 → t.wrong = false → exec (.comparatorSelftest k (.outcomes true true true)) s = .next (modIsl k (fun x => { x with
        selfTest := none, selfTestLife := some s.time.life, selfTestFailed := false, selfTestMissed := false }) s)))

/-- Energy is booked in whole microwatt-hours and never lost: the remainder is carried, and the sign chooses the
direction. A remainder from 0 to below 1 uWh and a non-negative energy give a whole number of uWh and a new remainder
from 0 to below 1 whose sum is the old remainder and the energy. Rows whose total active power is zero book nothing.
Rows with positive total power book import of the tariff in force and with negative total power export: the other
direction, every other tariff and every other selector keep their registers. MET takes no row of a sample of which a
word is STALE, SETTLING or OOS: the registers and the rows accumulated stay as they are. -/
def Obligations.EnergyBooking : Prop :=
  (∀ rem x : Rat, 0 ≤ rem → 0 ≤ x →
    ((carry rem x).1 : Rat) + (carry rem x).2 = rem + x ∧ 0 ≤ (carry rem x).2 ∧ (carry rem x).2 < 1) ∧
  (∀ (s : State) (sel : Selector) (ref : Rat) (rows : List Row),
    let w := (powersOf (selProfile s sel) rows).active
    let t := bookRows sel ref rows s
    (w = 0 → t = s) ∧
    (∀ o, o ≠ sel → t.bill.regs.get o = s.bill.regs.get o) ∧
    (∀ n : Fin 8, n ≠ Fin.ofNat 8 s.bill.tariff → (t.bill.regs.get sel)[n] = (s.bill.regs.get sel)[n]) ∧
    (∀ n : Fin 8, (0 < w → ((t.bill.regs.get sel)[n]).exp = ((s.bill.regs.get sel)[n]).exp) ∧
      (w < 0 → ((t.bill.regs.get sel)[n]).imp = ((s.bill.regs.get sel)[n]).imp))) ∧
  (∀ (s : State) (sel : Selector), s.met.running = true → s.met.waitPeriod = false → isWired (selProfile s sel) = true →
    ((selChannels (selProfile s sel)).map (newest s)).any wordBad = true →
    ∃ t, exec (.metSampleAccumulate sel) s = .next t ∧ t.bill = s.bill ∧ (t.met.acc.get sel).rows = (s.met.acc.get sel).rows)

/-- Samples, periods, harmonic windows, bridges, gaps, MET's core reset and requests. A good sample of a wired selector
joins its rows, and counts for the test output. A period's end after MET's start only opens the next; else it judges
absent phases, books, counts for the test output, publishes the window, adds the cycle's spectrum, judges tamper, takes
the end readings due, and opens the next period. A harmonic window's end, after 10 cycles at 50 Hz and else 12,
publishes each channel of the spectrum and takes the order limit that waits; before, nothing. The first good sample
after a synchronisation in a billed session interpolates and books the span. A measurement gap is logged with its
length and its estimate and marks the record; where none is open, nothing happens. A billed session without samples for
more than 1 s ends as a fault. A core reset takes MET to its checkpoint. A metered modulator past four calibration
intervals is marked and logged once. An island's start-up rotation is complete. A request of an application core is
judged at once while MET runs, and waits in the port's queue of 16 while it does not (log 85); another master's is
none. -/
def Obligations.MeteringRows : Prop :=
  ∀ (s : State) (sel : Selector),
    let p := selProfile s sel
    let ws := (selChannels p).map (newest s)
    let a := s.met.acc.get sel
    (s.met.running = true → s.met.waitPeriod = false → isWired p = true → ws.any wordBad = false →
      (selChannels p).any (fun i => s.ch[i].service != .inService) = false → a.held = false →
      exec (.metSampleAccumulate sel) s = .next (endOverload sel (accumulate sel (newRow s p) (ws.any wordSat) s))) ∧
    (s.met.running = true → s.met.waitPeriod = true → exec .integrationPeriodEnd s = .next { s with met := { s.met with waitPeriod := false } }) ∧
    (s.met.running = true → s.met.waitPeriod = false → exec .integrationPeriodEnd s =
      let t := publishWindow (testPeriod (splitPeriod (forEach allSelectors judgeAbsent s)))
      let v := forEach Outlet.all endReading (forEach allSelectors judgeTampers (addSpectrum
        (allSelectors.any (fun x => (s.met.acc.get x).synced || (s.met.acc.get x).bridged)) t))
      .next (modMet (fun m => { m with acc := ⟨nextAcc v .supply m.acc.supply, nextAcc v .a m.acc.a, nextAcc v .b m.acc.b⟩ }) v)) ∧
    (s.met.running = true → (if cfgNat s.cfg s.fab (.gen .mainsHz) = 50 then 10 else 12) ≤ s.met.windowCycles →
      ∃ hs : List (Channel × List (Nat × Int) × Nat),
        hs.map (·.1) = s.met.spectrum.map (·.1) ∧ exec .harmonicWindowEnd s = .next { s with met := { s.met with
          win := { s.met.win with seq := s.met.win.seq + 2, windows := s.met.win.windows + 1, harmonics := hs, h := s.met.h, harmonicsOff := s.met.h == 0 }
          spectrum := [], windowCycles := 0, h := s.met.hNext } }) ∧
    (s.met.windowCycles < 10 → exec .harmonicWindowEnd s = .next s) ∧
    exec .testPulseEnd s = .next { s with met := { s.met with testHigh := false } } ∧
    (∀ (o : Outlet) (l : Row), sel = selOfOutlet o → s.met.running = true → s.met.waitPeriod = false → isWired p = true → a.last = some l →
      a.synced = true → a.skipped ≠ 0 → a.broken = false → a.held = false → ws.any wordBad = false → bridges s sel = true →
      exec (.syncBridge sel) s =
        let tail := max 0 (Config.bridgeTail s.nd)
        let mid := (List.range a.skipped).map (fun k => between l (newRow s p) ((tail + (k + 1 : Nat)) / (tail + (a.skipped + 1 : Nat))))
        let span := (tail + (a.skipped + 1 : Nat)) * outputPeriod s p
        let t := accumulate sel (newRow s p) (ws.any wordSat) (modAcc sel (fun a => { a with
          gapSince := none, skipped := 0, synced := false, bridged := true }) (bookRows sel span mid { s with nd := s.nd + 1 }))
        .next (raise .syncBridged (u32 (t.veh.out.get o).id.toNat ++ u16 a.skipped ++ u8 o.num) t)) ∧
    (∀ (o : Outlet) (ms : Nat), sel = selOfOutlet o → s.met.running = true → isWired p = true →
      a.gap = true ∨ a.gapSince.isSome = true → exec (.measurementGap sel ms) s =
      let start : Life := s.time.life - BitVec.ofNat 64 (ms * 32768 / 1000)
      .next (modRecord o (fun r => { r with gap := true }) (modAcc sel (fun a => { a with
          gap := true, gapSince := none, skipped := 0, broken := false, synced := false })
        (logAt 0x0030 (selNum sel) (u32 ms ++ i32 (Config.publish (a.lastPower * (ms : Rat) / 3600))) start s.legal.epoch false s)))) ∧
    (a.gap = false → a.gapSince = none → ∀ ms, exec (.measurementGap sel ms) s = .next s) ∧
    (∀ (o : Outlet) (l : Life), sessionOpen s o = true → (s.veh.out.get o).billed = true →
      (s.met.acc.get (selOfOutlet o)).gapSince = some l →
      ((s.time.life - l).toNat ≤ 32768 → exec (.gapSessionEnd o) s = .next s) ∧
      (32768 < (s.time.life - l).toNat → exec (.gapSessionEnd o) s = .next (stopSession o .measurementFault .fault (modRecord o (fun r => { r with gap := true }) s)))) ∧
    (baseRuns s = true → exec .metCoreReset s = .next (metReset s)) ∧
    (∀ (k : Island) (m : Fin 9), s.met.running = true → s.met.aged.contains (k, m) = false →
      allSelectors.any (fun x => usesModulator s (selProfile s x) k m) = true →
      240 * cfgNat s.cfg s.fab (.gen .calInterval) * 32768 < (s.time.life - (s.isl[k]).calLife[m]).toNat →
      exec (.calibrationAgeExceeded k m) s = .next (log 0x0034 k.val (u8 m.val) { s with met := { s.met with aged := s.met.aged ++ [(k, m)] } })) ∧
    (∀ k : Island, exec (.startupRotationComplete k) s = .next (modIsl k (fun x => { x with rotated := true }) s)) ∧
    (∀ (m : Master) (r : MetRequest),
      (m = .app0 ∨ m = .app1 → s.met.running = true → s.met.requests = [] → exec (.metRequestWrite m r) s = .next (metRequest r s)) ∧
      (m = .app0 ∨ m = .app1 → s.met.running = false → exec (.metRequestWrite m r) s = .next (if s.met.requests.length < 16
        then { s with met := { s.met with requests := s.met.requests ++ [r] } } else s)) ∧
      (m ≠ .app0 → m ≠ .app1 → exec (.metRequestWrite m r) s = .next s)) ∧
    (∀ h, (h ≤ 63 → metRequest (.orderLimit h) s = { s with met := { s.met with hNext := h } }) ∧ (63 < h → metRequest (.orderLimit h) s = s))

/-- METER_READ, HARMONICS_READ and the billing reads: what each answers. A served METER_READ of selector 0, 1 or 2
answers the window's sequence, the selector's valid and harmonics-off flags, three phase records (Vrms, Irms, P, Q1, S,
angle), the totals, the frequency and the DC quantities as last published; a selector above 2 is ST_ARG_RANGE.
HARMONICS_READ refuses, in this order, a channel that is not mains-synchronous (ST_STATE), a channel above 47, a first
order above 63, a count of 0 or too long, a phase flag above 1 (ST_ARG_RANGE) and harmonics off (ST_HARMONICS_OFF); else
it answers sequence, THD, count and the entries asked for. A served BILLING_REGISTERS_READ of tariff 0 to 7 answers
sequence, tariff in force and, for import and export, the six energies of the outlets together in thousandths, as the
publication window holds them; above 7 is ST_ARG_RANGE. DEMAND_READ of kind 0 or 1 and period 0 to 11 answers interval,
sub-intervals, the maxima with their seconds, start and stop; else ST_ARG_RANGE. LEGAL_LOG_READ of 1 to 15 entries that
are all readable answers first and last number and 32 bytes for each; another count is ST_ARG_RANGE, a missing or
damaged entry ST_LOG_RANGE. SESSION_RECORD_READ answers length, offset and up to 504 bytes of a readable record's text;
no such record is ST_RECORD_ABSENT, an offset beyond the end ST_ARG_RANGE. -/
def Obligations.MeterAndBillingReads : Prop :=
  (∀ (mb : Mailbox) (b : Bytes) (s : State),
    let t := takeUp mb s
    (serves .meterRead mb b s →
      (2 < rd b 0 2 → exec (.meterRead mb) s = .next (complete mb .argRange [] t)) ∧
      (∀ sel : Selector, rd b 0 2 = selNum sel → exec (.meterRead mb) s =
        let r := s.met.win.sel.get sel
        .next (complete mb .ok (u32 s.met.win.seq.toNat ++ u32 (b1 r.valid + 2 * b1 r.harmonicsOff) ++
          meterPhase r 0 ++ meterPhase r 1 ++ meterPhase r 2 ++ i32 (r.totals.getD 0 0) ++ i32 (r.totals.getD 2 0) ++
          i32 (r.totals.getD 4 0) ++ u32 r.milliHz ++ i32 r.dcMv ++ i32 r.dcMa ++ i32 r.dcP) t))) ∧
    (serves .harmonicsRead mb b s →
      (∀ i : Channel, rd b 0 1 = i.val →
        (s.ch[i].cfg.mode ≠ .mains → exec (.harmonicsRead mb) s = .next (complete mb .state [] t)) ∧
        (s.ch[i].cfg.mode = .mains → 63 < rd b 1 1 ∨ rd b 2 1 = 0 ∨ 64 < rd b 1 1 + rd b 2 1 ∨ (63 < rd b 2 1 ∧ rd b 3 1 = 1) ∨ 1 < rd b 3 1 →
          exec (.harmonicsRead mb) s = .next (complete mb .argRange [] t)) ∧
        (s.ch[i].cfg.mode = .mains → rd b 1 1 ≤ 63 → 1 ≤ rd b 2 1 → (rd b 2 1 ≤ 63 ∨ rd b 3 1 = 0) → rd b 1 1 + rd b 2 1 ≤ 64 → rd b 3 1 ≤ 1 →
          (s.met.h = 0 → exec (.harmonicsRead mb) s = .next (complete mb .harmonicsOff [] t)) ∧
          (s.met.h ≠ 0 → exec (.harmonicsRead mb) s =
            let x := (s.met.win.harmonics.find? (fun h => h.1 == i)).map (·.2)
            let entry := fun (h : Nat) =>
              let e := ((x.map (·.1)).getD []).getD h (0, 0)
              let mag := ((e.1 % 4096 : Nat) : Rat) * (2 : Rat) ^ (e.1 / 4096) / 67108864 * channelScale s i * 1000000
              u32 (Config.publish mag).toNat ++ (if rd b 3 1 = 1 then i32 (Config.publish ((e.2 : Rat) * 360000 / 65536)) else [])
            .next (complete mb .ok (u32 s.met.win.seq.toNat ++ u16 ((x.map (·.2)).getD 0) ++ u16 (rd b 2 1) ++
              ((List.range (rd b 2 1)).map (· + rd b 1 1)).flatMap entry) t)))) ∧
      (47 < rd b 0 1 → exec (.harmonicsRead mb) s = .next (complete mb .argRange [] t)))) ∧
  (∀ (mb : Mailbox) (b : Bytes) (s : State),
    let t := takeUp mb s
    (serves .billingRegistersRead mb b s →
      (7 < rd b 0 2 → exec (.billingRegistersRead mb) s = .next (complete mb .argRange [] t)) ∧
      (∀ n : Fin 8, rd b 0 2 = n.val → exec (.billingRegistersRead mb) s =
        let side := fun (f : TariffRegs → Energies) =>
          let x := f s.met.win.post.a[n]
          let y := f s.met.win.post.b[n]
          u64 ((x.active + y.active) / 1000) ++ u64 ((x.fund + y.fund) / 1000) ++ u64 ((x.lag + y.lag) / 1000) ++
            u64 ((x.lead + y.lead) / 1000) ++ u64 ((x.apparent + y.apparent) / 1000) ++ u64 ((x.dc + y.dc) / 1000)
        .next (complete mb .ok (u32 s.met.win.seq.toNat ++ u8 s.met.win.post.tariff ++ padTo 3 [] ++ side TariffRegs.imp ++ side TariffRegs.exp) t))) ∧
    (serves .demandRead mb b s →
      (1 < rd b 0 2 ∨ 11 < rd b 2 2 → exec (.demandRead mb) s = .next (complete mb .argRange [] t)) ∧
      (rd b 0 2 ≤ 1 → rd b 2 2 ≤ 11 → exec (.demandRead mb) s =
        let p := ((if rd b 0 2 = 0 then s.met.win.post.fixedPeriods else s.met.win.post.slidingPeriods)[rd b 2 2]?).getD { intervalMin := 0, subs := 0 }
        .next (complete mb .ok (u32 s.met.win.seq.toNat ++ u16 p.intervalMin ++ u16 p.subs ++ u32 p.impMax ++ u32 0 ++ u64 p.impSecond ++
          u32 p.expMax ++ u32 0 ++ u64 p.expSecond ++ u64 p.start ++ u64 p.stop) t))) ∧
    (serves .legalLogRead mb b s →
      (rd b 4 2 = 0 ∨ 15 < rd b 4 2 → exec (.legalLogRead mb) s = .next (complete mb .argRange [] t)) ∧
      (1 ≤ rd b 4 2 → rd b 4 2 ≤ 15 →
        ((∃ k < rd b 4 2, damaged s.legal.badEntries (rd b 0 4 + k) = true ∨ ∀ e ∈ s.legal.log, e.number ≠ rd b 0 4 + k) →
          exec (.legalLogRead mb) s = .next (complete mb .logRange [] t)) ∧
        (∀ es : List LogEntry, es.length = rd b 4 2 →
          (∀ (k : Nat) (hk : k < es.length), damaged s.legal.badEntries (rd b 0 4 + k) = false ∧
            s.legal.log.find? (fun e => e.number == rd b 0 4 + k) = some es[k]) →
          exec (.legalLogRead mb) s = .next (complete mb .ok (u32 (rd b 0 4) ++ u32 (s.legal.nextEntry - 1) ++ es.flatMap entryBytes) t)))) ∧
    (serves .sessionRecordRead mb b s →
      (s.legal.records.find? (fun r => r.number == rd b 0 4 && !r.text.isEmpty) = none →
        exec (.sessionRecordRead mb) s = .next (complete mb .recordAbsent [] t)) ∧
      (∀ r : Record, s.legal.records.find? (fun r => r.number == rd b 0 4 && !r.text.isEmpty) = some r →
        (damaged s.legal.badRecords (rd b 0 4) = true → exec (.sessionRecordRead mb) s = .next (complete mb .recordAbsent [] t)) ∧
        (damaged s.legal.badRecords (rd b 0 4) = false → r.text.length < rd b 4 4 → exec (.sessionRecordRead mb) s = .next (complete mb .argRange [] t)) ∧
        (damaged s.legal.badRecords (rd b 0 4) = false → rd b 4 4 ≤ r.text.length → exec (.sessionRecordRead mb) s =
          .next (complete mb .ok (u32 r.text.length ++ u32 (rd b 4 4) ++ (r.text.drop (rd b 4 4)).take 504) t)))))

/-- Checkpoints, the tariff table and remote switches, demand intervals and periods, and waiting log entries. MET,
running, copies its working state into legal MRAM at a checkpoint, and writes the oldest waiting log entry into the ring
under the next number. With the RTC valid: a table entry that starts at this second ends a held remote tariff and puts
its tariff in force, unless a remote switch is due, which then takes effect; at a whole multiple of its length the fixed
interval ends, which splits and closes it, lets a due switch and then a waiting table take effect, and checkpoints, and
so the sub-interval ends, which closes it; once the reset day has come since period 0 began, the close of a demand
period closes both running intervals, logs the maxima, takes the keys that wait, turns both lists of twelve periods and
checkpoints; at other times these do nothing. A tariff that is already in force changes nothing; another splits the
period, is logged with its cause, and gives a reading and a checkpoint. -/
def Obligations.TariffAndDemand : Prop :=
  ∀ s : State, s.met.running = true →
    exec .checkpoint s = .next (checkpoint s) ∧
    (∀ (e : LogEntry) (rest : List LogEntry), s.bill.logWait = e :: rest → exec .logEntryWrite s = .next { s with
      bill := { s.bill with logWait := rest }
      legal := { s.legal with
        log := ({ e with number := s.legal.nextEntry } :: s.legal.log).take 16128, nextEntry := s.legal.nextEntry + 1 } }) ∧
    (s.time.valid = true →
      (∀ (n : Nat) (e : TableEntry), s.bill.table.entries[n]? = some e →
        (remoteDue s = false → entryStarts s e = true → (s.bill.held.map (·.second)) ≠ some s.time.rtcSec.toNat → exec (.tariffEntryStart n) s =
          .next (setTariff e.tariff 0 { s with bill := { s.bill with held := none } })) ∧
        (remoteDue s = false → entryStarts s e = false → exec (.tariffEntryStart n) s = .next s) ∧
        (remoteDue s = true → exec (.tariffEntryStart n) s = .next (remoteEffect s))) ∧
      (remoteDue s = true → exec .remoteSwitchEffect s = .next (remoteEffect s)) ∧
      (s.time.rtcSec.toNat % (60 * s.bill.demand.keys.intervalMin) = 0 → exec .demandIntervalEnd s =
        (let t := closeFixed false s.time.life s.time.rtcSec.toNat (splitPeriod s)
         let u := if remoteDue t then remoteEffect t else t
         .next (checkpoint (takeTable u)))) ∧
      (s.time.rtcSec.toNat % (60 * s.bill.demand.keys.intervalMin) ≠ 0 → exec .demandIntervalEnd s = .next s) ∧
      (s.time.rtcSec.toNat % (60 * s.bill.demand.keys.subMin) = 0 → exec .slidingSubEnd s =
        .next (closeSub false s.time.life s.time.rtcSec.toNat (splitPeriod s))) ∧
      (s.time.rtcSec.toNat % (60 * s.bill.demand.keys.subMin) ≠ 0 → exec .slidingSubEnd s = .next s) ∧
      (let now := s.time.rtcSec.toNat
       let reset := lastReset s.bill.demand.keys.resetDay now
       let begun := (s.bill.demand.fixedPeriods.headD {}).start
       (reset ≤ begun → exec .demandPeriodClose s = .next s) ∧
       (begun < reset → exec .demandPeriodClose s =
         (let t := closeSub false s.time.life now (closeFixed false s.time.life now (splitPeriod s))
          let u := log 0x0022 noSubject (u32 ((t.bill.demand.fixedPeriods.head?.map (·.impMax)).getD 0) ++
            u32 ((t.bill.demand.fixedPeriods.head?.map (·.expMax)).getD 0)) t
          .next (checkpoint (modDemand (fun d => { d with
            keys := d.next, subs := []
            fixedPeriods := turnPeriod reset d.next.resetDay d.next.intervalMin 1 d.fixedPeriods
            slidingPeriods := turnPeriod reset d.next.resetDay d.next.subMin d.next.subCount d.slidingPeriods }) u)))))) ∧
    (∀ c : Nat, setTariff s.bill.tariff c s = s) ∧
    (∀ n c : Nat, n ≠ s.bill.tariff → setTariff n c s = checkpoint (tariffReadings (modBill (fun b => { b with tariff := n })
      (log 0x0020 noSubject (u8 s.bill.tariff ++ u8 n ++ u8 c ++ u32 s.bill.table.version.toNat) (splitPeriod s))))) ∧
    (∀ t : State, checkpoint t = { t with legal := { t.legal with cp := {
      life := t.time.life, regs := t.bill.regs, demand := t.bill.demand, tariff := t.bill.tariff, table := t.bill.table
      nextTable := t.bill.nextTable, remote := t.bill.remote, held := t.bill.held, coef := t.met.coef, running := t.bill.running } } })

/-- TARIFF_TABLE_LOAD and TARIFF_SWITCH, the ring carried into the legal log, and the signing of records. A served
TARIFF_TABLE_LOAD refuses, in this order, more than 63 entries, an entry without a day, with the reserved day bit or
above minute 1439, or two that start together (ST_ARG_RANGE), an empty table (ST_EMPTY_TABLE) and a tariff above 7
(ST_TARIFF_RANGE); else it passes the local time, keeps the table under the next version, logs it and answers the
version. TARIFF_SWITCH refuses a boundary code above 1 or a second more than 400 days away (ST_ARG_RANGE), a tariff
above 7, an invalid RTC (ST_TIME_INVALID) and a second that has passed (ST_BOUNDARY_PAST); else it waits for its second,
replaces one that waits, and answers the second. MET, running, carries the ring's entries in order and the LOST count,
and empties the ring. MET, running, takes the oldest closed record of the outlet that has neither signature nor text.
Without a fault a good signature of its payload under slot 0's key gives the record its OCMF text and log entry 0x0060
with number and energy, raises EV_SESSION_RECORD_READY with number and length, and sends the end of the session. A first
failure is counted; a second stores the text without a signature, declares the legal partition fault with cause 3 and
sends the end. Under a fault the text is stored without a signature. With no such record nothing happens. -/
def Obligations.TariffCommandsAndRecords : Prop :=
  (∀ s : State,
    (∀ (mb : Mailbox) (b : Bytes), serves .tariffTableLoad mb b s →
      (∀ st, tableFails (tableArgs b) = some st → exec (.tariffTableLoad mb) s = .next (complete mb st [] (takeUp mb s))) ∧
      (tableFails (tableArgs b) = none → exec (.tariffTableLoad mb) s =
        let t := takeUp mb s
        let u := { t with bill := { t.bill with utcOffsetMin := cfgInt s.cfg s.fab (.gen .utcOffset), dstRule := cfgText s.cfg s.fab (.gen .dstRule) } }
        let v := acceptTable (tableArgs b) u
        .next (complete mb .ok (u32 (tableVersion v).toNat) v))) ∧
    (∀ es : List (Nat × BitVec 8 × Nat), es.length ≤ 63 →
      tableVersion (acceptTable es s) = tableVersion s + 1 ∧ (acceptTable es s).legal.cp.nextTable = (acceptTable es s).bill.nextTable) ∧
    (tableFails [] = some .emptyTable ∧ (∀ t m, m ≤ 1439 → tableFails [(t, 0x7F, m)] = if 7 < t then some .tariffRange else none) ∧
      (∀ t m, tableFails [(t, 0x00, m)] = some .argRange ∧ tableFails [(t, 0x80, m)] = some .argRange) ∧
      (∀ t m, 1439 < m → tableFails [(t, 0x7F, m)] = some .argRange) ∧ ∀ t u m, tableFails [(t, 0x01, m), (u, 0x03, m)] = some .argRange) ∧
    (∀ (mb : Mailbox) (b : Bytes), serves .tariffSwitch mb b s →
      (∀ st, switchFails s (rd b 0 1) (rd b 1 1) (rd b 4 8) = some st → exec (.tariffSwitch mb) s = .next (complete mb st [] (takeUp mb s))) ∧
      (switchFails s (rd b 0 1) (rd b 1 1) (rd b 4 8) = none → exec (.tariffSwitch mb) s =
        let t := takeUp mb s
        let n := switchSecond s (rd b 1 1) (rd b 4 8)
        .next (complete mb .ok (u64 n) { t with bill := { t.bill with remote := some ⟨rd b 0 1, n⟩ } }))) ∧
    (s.time.valid = true → ∀ t n : Nat, t ≤ 7 →
      (n ≤ s.time.rtcSec.toNat → switchFails s t 1 n = some .boundaryPast) ∧
      (s.time.rtcSec.toNat < n → n ≤ s.time.rtcSec.toNat + 34560000 → switchFails s t 1 n = none) ∧
      (s.time.rtcSec.toNat + 34560000 < n → switchFails s t 1 n = some .argRange) ∧ switchFails s t 0 n = none) ∧
    (s.met.running = true → exec .metCarryRing s =
      let t := forEach s.wch.ring carryEntry s
      let u := if s.wch.lost != 0 then log 0x0053 noSubject (u16 s.wch.lost.toNat) t else t
      .next { u with wch := { u.wch with ring := [], lost := 0 } })) ∧
  (∀ (s : State) (o : Outlet) (r : Record) (ok : Bool), s.met.running = true →
    let failed := if r.failures = 0 then modClosed r.number (fun r => { r with failures := 1 }) s
      else endMessages r [] (declareFault 3 (modClosed r.number (fun r => { r with failures := 2, text := recordText s.fab r none }) s))
    (unsignedRecord s o = none → exec (.sessionRecordSigned o ok) s = .next s) ∧
    (unsignedRecord s o = some r →
      (s.legal.fault ≠ none → exec (.sessionRecordSigned o ok) s =
        .next (endMessages r [] (modClosed r.number (fun r => { r with text := recordText s.fab r none }) s))) ∧
      (s.legal.fault = none →
        exec (.sessionRecordSigned o true) s = .next (match legalSignature s (payloadText s.fab r) with
          | some sig =>
            let text := recordText s.fab r (some sig)
            endMessages r text (raise .sessionRecordReady (u32 r.number ++ u32 text.length)
              (log 0x0060 o.num (u32 r.number ++ u32 (recordWh r)) (modClosed r.number (fun r => { r with signed := true, text }) s)))
          | none => failed) ∧
        exec (.sessionRecordSigned o false) s = .next failed)) ∧
    (s.legal.fault = none → declareFault 3 s = changeState (fun h => { h with legalFault := true })
      (log 0x0051 noSubject (u8 3) { s with legal := { s.legal with fault := some 3 } })) ∧
    (s.legal.fault ≠ none → declareFault 3 s = s))

/-- Pilot and cable states: bands, hysteresis, resistances, and what a change, a fault and the PWM do. The pilot reads A
from 10.5 V, B from 7.5 V, C from 4.5 V, D from 1.5 V, E from -1.5 V, else invalid, and keeps its state within 0.3 V
of an edge; the cable is a fault below 60 ohm, 63 A below 160, 32 A below 400, 20 A below 1,000, 13 A to 2,400 ohm and
no cable above. While the application reads the pilot, a changed state is taken with the time of A, raises EV_PLUG
where A begins or ends, and acts on the session; the same state does nothing. A changed cable from step 8 in RUN, where
the outlet reads its cable, raises EV_PLUG, does nothing more on a DC outlet, begins a session of an idle outlet and is
a fault of one that lost its cable; an outlet that reads none ignores it. A decided drive takes effect with the next
period. A low level above -10.8 V under PWM in B, C or D is a pilot fault of the session. CP at A for 2 s ends a
lockout. -/
def Obligations.PilotAndCable : Prop :=
  ∀ (s : State) (o : Outlet),
    let x := s.veh.out.get o
    (∀ (old : CpState) (mv : Int), (10800 < mv → cpNext old mv = .a) ∧ (7800 < mv → mv < 10200 → cpNext old mv = .b) ∧
      (4800 < mv → mv < 7200 → cpNext old mv = .c) ∧ (1800 < mv → mv < 4200 → cpNext old mv = .d) ∧
      (-1200 < mv → mv < 1200 → cpNext old mv = .e) ∧ (mv < -1800 → cpNext old mv = .invalid) ∧
      ((mv - 10500).natAbs ≤ 300 ∨ (mv - 7500).natAbs ≤ 300 ∨ (mv - 4500).natAbs ≤ 300 ∨ (mv - 1500).natAbs ≤ 300 ∨
        (mv + 1500).natAbs ≤ 300 → cpNext old mv = old)) ∧
    (∀ ohm : Nat, ppOf ohm = if ohm < 60 then .fault else if ohm < 160 then .cable 63 else if ohm < 400 then .cable 32
      else if ohm < 1000 then .cable 20 else if ohm ≤ 2400 then .cable 13 else .noCable) ∧
    (∀ mv : Int, pilotRead s o = true →
      (cpNext x.cp mv = x.cp → exec (.cpStateChange o mv) s = .next s) ∧
      (cpNext x.cp mv ≠ x.cp → exec (.cpStateChange o mv) s =
        let new := cpNext x.cp mv
        let t := modOut o (fun y => { y with
          cp := new, cpASince := if new = .a then some s.time.life else none, lastA := if x.cp = .a then some s.time.life else y.lastA }) s
        .next (pilotReact o x.cp new (if x.cp = .a ∨ new = .a then plugEvent o t else t)))) ∧
    (∀ ohm : Nat, outNat s o .ppMode ≠ 0 ∨ s.pwr.state ≠ .run → exec (.ppChange o ohm) s = .next s) ∧
    (∀ ohm : Nat, ppOf ohm ≠ x.pp → 8 ≤ s.hif.startStep.toNat → s.pwr.state = .run → outNat s o .ppMode = 0 →
      (isDc s o = true → exec (.ppChange o ohm) s = .next (plugEvent o (modOut o (fun y => { y with pp := ppOf ohm }) s))) ∧
      (isDc s o = false → x.state = .idle → exec (.ppChange o ohm) s =
        .next (pluggedIn o (plugIn o (plugEvent o (modOut o (fun y => { y with pp := ppOf ohm }) s))))) ∧
      (isDc s o = false → x.state = .transfer → ppOf ohm = .fault ∨ ppOf ohm = .noCable → exec (.ppChange o ohm) s =
        .next (pilotFault o causeCable .cable (plugEvent o (modOut o (fun y => { y with pp := ppOf ohm }) s))))) ∧
    (exec (.pwmDutyChange o) s = .next (modOut o (fun y => { y with drive := y.driveNext.getD y.drive, driveNext := none }) s)) ∧
    (∀ (d : Nat) (mv : Int), x.drive = .pwm d → x.force = none → x.cp = .b ∨ x.cp = .c ∨ x.cp = .d →
      x.state ≠ .idle → x.state ≠ .ended → x.state ≠ .fault →
      (-10800 < mv → exec (.diodeFault o mv) s = .next (pilotFault o causePilotFault .pilotFault s)) ∧
      (mv ≤ -10800 → exec (.diodeFault o mv) s = .next s)) ∧
    (∀ l, x.lockout = true → x.cp = .a → x.cpASince = some l → exec (.outletReenable o) s = .next (if 65536 ≤ (s.time.life - l).toNat
      then modOut o (fun y => { y with lockout := false }) s else s))

/-- SLAC, SDP, the protocol list, the vehicle's messages, and the handshake's timers. Where high-level communication may
go on: CM_SLAC_PARAM takes the run identifier; sounding gives its attenuation; a match within the limit, with the
other outlet not better and a good random source, draws a network key, and else is refused; SDP over TLS, or TCP where
TLS is not required, begins the negotiation; the first configured protocol that the vehicle offers and the outlet can
run is taken, and with none the session falls back to PWM or stops. Where no protocol matches and the outlet may fall
back it is basic. A message of a high-level session acts: limits retarget, pause and resume, authorisation leads to
state 3, stop stops. 60 s in a handshake state, 24 h in state 7, and the protocol's timers end the session with their
reasons; in the stop sequence the configured time-out opens the contactors; before these times nothing happens. -/
def Obligations.Handshake : Prop :=
  ∀ (s : State) (o : Outlet),
    let x := s.veh.out.get o
    (linkUsable s o = true →
      (∀ r, exec (.cmSlacParam o r) s = .next (modOut o (fun y => { y with slac := .param, runId := r, attenDb := 0 }) s)) ∧
      (x.slac = .param → ∀ a, exec (.cmMnbcSound o a) s = .next (modOut o (fun y => { y with slac := .sounded, attenDb := a }) s)) ∧
      (x.slac = .sounded → s.key.rngOk = true →
        (x.attenDb ≤ cfgNat (outCfg s o) s.fab (.gen .slacAtten) → betterElsewhere s o = false → exec (.cmSlacMatch o) s =
          .next (modOut o (fun y => { y with slac := .matched, nmk := padTo 16 (Config.random s.nd 16) }) { s with nd := s.nd + 1 })) ∧
        (cfgNat (outCfg s o) s.fab (.gen .slacAtten) < x.attenDb ∨ betterElsewhere s o = true → exec (.cmSlacMatch o) s =
          .next (modOut o (fun y => { y with slac := .idle }) s))) ∧
      (x.slac = .matched → x.state = .plugged → exec (.sdpRequest o true) s =
        .next (enter o .negotiating .none (modOut o (fun y => { y with sdp := .tls }) s))) ∧
      (x.slac = .matched → outBool s o .tlsRequired = true → exec (.sdpRequest o false) s = .next s) ∧
      (x.sdp ≠ .none → x.state = .negotiating → ∀ l : List Protocol,
        let first := ((cfgItems (outCfg s o) s.fab (.out o .protocols)).map protocolOf).find? (fun p => l.contains p && protocolFits s o p)
        (∀ p, first = some p → exec (.supportedAppProtocol o l) s = .next (modOut o (fun y => { y with protocol := some p }) s)) ∧
        (first = none → isDc s o = true ∨ outBool s o .pwmFallback = false → exec (.supportedAppProtocol o l) s =
          .next (stopSession o .noProtocol .normal s)) ∧
        (first = none → isDc s o = false → outBool s o .pwmFallback = true → exec (.supportedAppProtocol o l) s = .next (basic o s)))) ∧
    (isHlc x = true → x.state ≠ .idle → x.state ≠ .stopping → x.state ≠ .ended → x.state ≠ .fault →
      (∀ (v : VehLimits) (b : Bool), exec (.protocolMessage o (.parameters v b)) s =
        .next (retarget o false (modOut o (fun y => { y with veh := some v, bidir := b && y.protocol == some .iso20 }) s))) ∧
      exec (.protocolMessage o .pause) s = .next (pauseOrResume o (modOut o (fun y => { y with vehPaused := true }) s)) ∧
      exec (.protocolMessage o .resume) s = .next (pauseOrResume o (modOut o (fun y => { y with vehPaused := false }) s)) ∧
      exec (.protocolMessage o .stop) s = .next (stopSession o .vehicleStop .normal s) ∧
      (x.authorised = true → x.state = .authorising → exec (.protocolMessage o .authorisation) s = .next (enter o .negotiating .none s))) ∧
    (∀ l, x.state = .paused → x.pauseSince = some l → exec (.pauseTimeout o) s =
      .next (if 86400 * 32768 ≤ (s.time.life - l).toNat then stopSession o .pauseTimeout .normal s else s)) ∧
    (∀ l, x.state = .stopping → x.stopSince = some l → exec (.stopTimeout o) s =
      .next (if cfgNat (outCfg s o) s.fab (.gen .stopTimeout) * 32768 ≤ (s.time.life - l).toNat then openForStop o s else s)) ∧
    (x.state = .authorising ∨ x.state = .negotiating ∨ x.state = .insulation ∨ x.state = .preCharge →
      let late := if 60 * 32768 ≤ (s.time.life - x.since).toNat then stopSession o .handshakeTimeout .normal s else s
      exec (.handshakeTimeout o) s = .next late ∧ exec (.protocolTimeout o .handshake) s = .next late) ∧
    (x.state = .insulation → exec (.protocolTimeout o .cableCheck) s = .next (enterFault o .insulation s)) ∧
    (x.state = .preCharge → x.preReady = false → exec (.protocolTimeout o .preCharge) s = .next (enterFault o .preCharge s)) ∧
    (x.state = .transfer → x.slac = .matched → exec (.protocolTimeout o .message) s = .next (communicationEnd o s) ∧
      exec (.protocolTimeout o .session) s = .next (communicationEnd o s))

/-- Cable check, insulation test and pre-charge, PowerDelivery, targets, ramps, direction changes and overcurrent. On a
DC outlet in state 3 that is authorised and ready, CableCheck above 60 V is a fault, and else begins the insulation test
at the vehicle's or 500 V, at most the outlet's, voltage. A test voltage within 5 % is stable; a measurement below 100
ohm per volt trips with INSULATION and faults, and a good one leads to pre-charge, with a warning up to 500 ohm per volt
(how it is logged and reported is log 96); outside the test the second low one in a row trips. Pre-charge is ready
within 20 V; PowerDelivery then starts the transfer, and its stop stops. The charge loop takes the vehicle's limits. A
ramp tick moves the DC limit at most 10 ms of slew toward its goal, through zero, and opens a stopping outlet below 5 A.
A power target becomes a current. The hold-off and the dwell end; an accepted direction retargets, a refused one pauses.
More than the limit by a tenth and 2 A (1 A on AC, 5 s after the offer) is an overcurrent fault. -/
def Obligations.Energising : Prop :=
  ∀ (s : State) (o : Outlet),
    let x := s.veh.out.get o
    (isDc s o = true → isHlc x = true → sessionOpen s o = true → x.authorised = true → x.state = .negotiating → ready s o = true → ∀ vmax mv : Nat,
      (60000 ≤ mv → exec (.cableCheck o vmax mv) s = .next (enterFault o .vehicleContactor (modOut o (fun y => { y with outletMv := mv }) s))) ∧
      (mv < 60000 → exec (.cableCheck o vmax mv) s =
        let t := modOut o (fun y => { y with outletMv := mv }) s
        .next (modSaf o (fun f => { f with imd := { f.imd with badRun := 0 } }) (modOut o (fun y => { y with
          insTest := .ramping, testMv := min (max vmax 500000) (1000 * outNat s o .maxV), preMv := none, preReady := false })
          (grantApp o (enter o .insulation .none t)))))) ∧
    (x.state = .insulation → x.insTest = .ramping → ∀ mv : Nat, 20 * ((mv : Int) - x.testMv).natAbs ≤ x.testMv →
      exec (.insulationTestStable o mv) s = .next (modOut o (fun y => { y with insTest := .stable, outletMv := mv }) s)) ∧
    (isDc s o = true → s.saf.running = true → ∀ p m mv : Nat,
      (x.state = .insulation → x.insTest = .stable →
        (100 * x.testMv ≤ min p m * 1000 → exec (.insulationMeasurement o p m mv) s =
          let t := modOut o (fun y => { y with outletMv := mv })
            (modSaf o (fun f => { f with outletMv := mv, imd := { f.imd with plusOhm := p, minusOhm := m, badRun := 0 } }) s)
          let u := if min p m * 1000 ≤ 500 * x.testMv then
            putMsg { kind := .security, outlet := some o, text := str "InsulationWarning" } (faultLog causeInsulation (min p m) t) else t
          .next (enter o .preCharge .none (modOut o (fun y => { y with insTest := .passed }) u))) ∧
        (min p m * 1000 < 100 * x.testMv → exec (.insulationMeasurement o p m mv) s =
          .next (enterFault o .insulation (safTrip (driversOf o) causeInsulation (modOut o (fun y => { y with outletMv := mv })
            (modSaf o (fun f => { f with outletMv := mv, imd := { f.imd with plusOhm := p, minusOhm := m, badRun := f.imd.badRun + 1 } }) s)))))) ∧
      (x.state = .transfer → 60000 ≤ mv → min p m * 1000 < 100 * mv → (s.saf.out.get o).imd.badRun = 1 → exec (.insulationMeasurement o p m mv) s =
        .next (safTrip (driversOf o) causeInsulation (modOut o (fun y => { y with outletMv := mv })
          (modSaf o (fun f => { f with outletMv := mv, imd := { f.imd with plusOhm := p, minusOhm := m, badRun := 2 } }) s))))) ∧
    (isDc s o = true → x.state = .preCharge → ∀ q mv : Nat, exec (.preCharge o q mv) s = .next (modOut o (fun y => { y with
      preMv := some q, outletMv := mv, preReady := decide (((mv : Int) - q).natAbs ≤ 20000) }) s)) ∧
    (isHlc x = true → (x.state = .preCharge → x.preReady = true → ready s o = true → exec (.powerDelivery o true) s = .next (enterTransfer o s)) ∧
      (x.state = .transfer → exec (.powerDelivery o false) s = .next (stopSession o .vehicleStop .normal s)) ∧
      (x.state = .transfer ∨ x.state = .paused → ∀ v, exec (.chargeLoopRequest o v) s =
        .next (retarget o false (modOut o (fun y => { y with veh := some v }) s)))) ∧
    (isDc s o = false → ∀ ma : Int, exec (.setpointRampTick o ma) s = .next (modOut o (fun y => { y with presentMa := ma }) s)) ∧
    (isDc s o = true → x.state = .transfer → x.reversing = false → ∀ ma : Int, exec (.setpointRampTick o ma) s =
      .next (pauseOrResume o (modOut o (fun y => { y with delivered := rampStep s x.delivered (rampGoal s o), dwell := x.dwell })
        (modOut o (fun y => { y with presentMa := ma }) s)))) ∧
    (x.targetW = none → ∀ mv, exec (.powerTargetConvert o mv) s = .next (modOut o (fun y => { y with outletMv := mv }) s)) ∧
    (isDc s o = false → x.held = true → exec (.acHoldoffEnd o) s = .next (if holdoffOver s o then advance o (offerNow o s) else s)) ∧
    (∀ l, x.dwell = some l → exec (.bptDwellEnd o) s = .next (if msecs (cfgNat (outCfg s o) s.fab (.gen .bptDwell)) ≤ (s.time.life - l).toNat
      then modOut o (fun y => { y with dwell := none, negotiating := true }) s else s)) ∧
    (x.negotiating = true → x.state = .paused →
      exec (.directionRenegotiation o true) s = .next (pauseOrResume o (retarget o false (modOut o (fun y => { y with
        negotiating := false, reversing := false, dwell := none, exporting := decide (y.target < 0) }) s))) ∧
      exec (.directionRenegotiation o false) s = .next (enter o .paused .directionRefused (modOut o (fun y => { y with
        negotiating := false, reversing := false, dwell := none, refused := true, target := 0, targetW := none }) s))) ∧
    (x.state = .transfer → isDc s o = true ∨ holdoffOver s o = true → ∀ ma : Int, x.delivered.natAbs + x.delivered.natAbs / 10 + (if isDc s o then 2000 else 1000) < ma.natAbs →
      exec (.outletOvercurrent o ma) s = .next (enterFault o .overcurrent (modOut o (fun y => { y with presentMa := ma }) s)))

/-- SESSION_START, SESSION_STOP, SESSION_STATUS_GET and SETPOINT_SET. A served SESSION_START that passes its checks in
their order (lifecycle, the outlet's own state, ranges, then fault, busy, authorisation, time, display, seam and
hold-up) opens the session with the identity and the list's source, or 3, takes the reservation it names and answers the
session's number; the first check that fails gives its status. SESSION_STOP of an open session stops it with the
host's reason; another number is ST_SESSION_UNKNOWN. SESSION_STATUS_GET of outlet 0 or 1 answers number, state,
protocol, pilot, cable, target, current, limit, energy and start. SETPOINT_SET of a current within the limit of an
open session ends solar following, sets the target and answers it with the ramp's time; without an open session it is
ST_STATE. -/
def Obligations.SessionCommands : Prop :=
  ∀ (mb : Mailbox) (b : Bytes) (s : State),
    let t := takeUp mb s
    (serves .sessionStart mb b s → ∀ o : Outlet, rd b 0 1 = o.num → rd b 1 1 ≤ 1 → rd b 2 1 ≤ 3 →
      let billed := decide (rd b 1 1 = 1)
      let id := (b.drop 8).take (rd b 3 1)
      let entry := if rd b 3 1 = 0 then none else findEntry s id
      let bad := ((entry.bind (fun e => entryResult s e.1)).map (fun r => r != 0)).getD false
      (lifecycle s = 3 ∨ (billed = true ∧ lifecycle s ≠ 2) → exec (.sessionStart mb) s = .next (complete mb .notPermitted [] t)) ∧
      (lifecycle s = 2 → startBarred s o billed = true → exec (.sessionStart mb) s = .next (complete mb .state [] t)) ∧
      (lifecycle s = 2 → startBarred s o billed = false → (∀ c ∈ startChecks s o billed id bad, c.1 = false) →
        exec (.sessionStart mb) s =
          let u := modOut o (fun x => { x with reservation := rd b 4 4 }) (startSession o billed (rd b 2 1) id ((entry.map Prod.snd).getD 3) t)
          .next (complete mb .ok (u32 (u.veh.out.get o).id.toNat) u)) ∧
      (lifecycle s = 2 → startBarred s o billed = false → ∀ (st : Status) (l r : List (Bool × Status)),
        startChecks s o billed id bad = l ++ (true, st) :: r → (∀ c ∈ l, c.1 = false) →
        exec (.sessionStart mb) s = .next (complete mb st [] t))) ∧
    (serves .sessionStop mb b s →
      (sessionOf s (rd b 0 4) = none → exec (.sessionStop mb) s = .next (complete mb .sessionUnknown [] t)) ∧
      (∀ o, sessionOf s (rd b 0 4) = some o → exec (.sessionStop mb) s =
        .next (complete mb .ok [] (stopSession o (.host (BitVec.ofNat 16 (rd b 4 2))) .requested t)))) ∧
    (serves .sessionStatusGet mb b s →
      (1 < rd b 0 2 → exec (.sessionStatusGet mb) s = .next (complete mb .argRange [] t)) ∧
      (∀ o : Outlet, rd b 0 2 = o.num → exec (.sessionStatusGet mb) s =
        let x := s.veh.out.get o
        .next (complete mb .ok (u32 x.id.toNat ++ u8 (stateNum x.state) ++ u8 (protocolCode x.protocol) ++ u8 (cpCode x) ++
          u8 (Config.ppCode x.pp).toNat ++ i32 x.target ++ i32 x.presentMa ++ i32 (limitMa s o x.exporting) ++
          u32 (if x.id = 0 then 0 else sessionWh s o) ++ u64 x.startLife.toNat) t))) ∧
    (serves .setpointSet mb b s → ∀ o : Outlet, rd b 0 1 = o.num →
      (sessionOpen s o = false → exec (.setpointSet mb) s = .next (complete mb .state [] t)) ∧
      (sessionOpen s o = true → stateIn s o [.stopping, .ended, .fault] = false → rd b 1 1 = 0 → 0 < rdI32 b 4 →
        (rdI32 b 4).natAbs ≤ limitMa s o false → (s.veh.out.get o).exporting = false → exec (.setpointSet mb) s =
          .next (complete mb .ok (i32 (rdI32 b 4) ++ u32 (rampMs s o (rdI32 b 4)))
            (setTarget o (rdI32 b 4) none (modSolar o (fun y => { y with mode := 0 }) t)))))

/-- SF01 to SF05: residual current and its sensor, the insulation monitor's check, PE and PEN. With the safety core
running, a mains cycle of residual current on an AC outlet with the function enabled takes the usable words among the
newest 256 of the safety core's own port at the sensor's sensitivity and counts its three tiers (4.5 mA for 400 cycles,
45 mA for 10, 150 mA for 2; a SAT sample beyond every tier), a cycle below a tier clears it, and a reached count trips
with RESIDUAL_DC; without a usable word nothing is counted. A sensor reference outside 40 to 60 percent trips with
RCD_SENSOR; a sensor test passes with a rise of 7 to 13 mA and a winding of 1 to 200 ohm, is dated, and else trips. A
monitor beyond ten percent at its check trips a DC outlet with INSULATION. A PE loop above its limit trips with PE_LOOP
and a good one is dated; N to PE above the limit or a phase above 115 percent of the nominal voltage trips all drivers
with PEN_FAULT. An outlet without the function is left alone. -/
def Obligations.ResidualEarthAndInsulation : Prop :=
  ∀ (s : State) (o : Outlet), s.saf.running = true →
    (∀ (mvPerMa : Nat) (ws : List Word32) (r : Rcd), ws ≠ [] →
      let n := rcdNext mvPerMa ws r
      let beyond (ua : Nat) : Prop := ws.any wordSat = true ∨
        ua * (ws.length * (8388608 * mvPerMa)) ≤ 2500000 * ((ws.map wordValue).foldl (· + ·) 0).natAbs
      (beyond 4500 → n.tier1 = r.tier1 + 1) ∧ (¬ beyond 4500 → n.tier1 = 0) ∧
      (beyond 45000 → n.tier2 = r.tier2 + 1) ∧ (¬ beyond 45000 → n.tier2 = 0) ∧
      (beyond 150000 → n.tier3 = r.tier3 + 1) ∧ (¬ beyond 150000 → n.tier3 = 0) ∧
      (rcdTrips n = true ↔ 400 ≤ n.tier1 ∨ 10 ≤ n.tier2 ∨ 2 ≤ n.tier3)) ∧
    (∀ (mvPerMa : Nat) (r : Rcd), rcdNext mvPerMa [] r = r) ∧
    (hasRcd s o = true →
      let ws := (portWords s.ch[(Fin.ofNat 48 (outNat s o .rcdChannel) : Channel)].safPort 256).filter
        (fun (w : Word32) => !w.getLsbD 5 && !w.getLsbD 3)
      let n := rcdNext (outNat s o .rcdMvPerMa) ws (s.saf.out.get o).rcd
      (rcdTrips n = false → exec (.residualDcCycle o) s = .next (modSaf o (fun x => { x with rcd := n }) s)) ∧
      (rcdTrips n = true → exec (.residualDcCycle o) s =
        .next (safTrip (driversOf o) causeResidual (modSaf o (fun x => { x with rcd := n }) s)))) ∧
    (hasRcd s o = true → ∀ k : Nat,
      (400 ≤ k → k ≤ 600 → exec (.rcdRefOut o k) s = .next (modSaf o (fun x => { x with rcd := { x.rcd with refOut := false } }) s)) ∧
      (k < 400 ∨ 600 < k → exec (.rcdRefOut o k) s =
        .next (safTrip (driversOf o) causeRcdSensor (modSaf o (fun x => { x with rcd := { x.rcd with refOut := true } }) s)))) ∧
    (hasRcd s o = true → ∀ (rise : Int) (ohm : Nat),
      (7000 ≤ rise → rise ≤ 13000 → 1 ≤ ohm → ohm ≤ 200 → exec (.rcdSensorTest o rise ohm) s =
        .next (advance o (modSaf o (fun x => { x with rcd := { x.rcd with passed := some s.time.life, failed := false } }) s))) ∧
      (rise < 7000 ∨ 13000 < rise ∨ ohm = 0 ∨ 200 < ohm → exec (.rcdSensorTest o rise ohm) s =
        .next (safTrip (driversOf o) causeRcdSensor (modSaf o (fun x => { x with rcd := { x.rcd with failed := true } }) s)))) ∧
    (hasRcd s o = false → ∀ (rise : Int) (k ohm : Nat), exec (.residualDcCycle o) s = .next s ∧
      exec (.rcdRefOut o k) s = .next s ∧ exec (.rcdSensorTest o rise ohm) s = .next s) ∧
    (isDc s o = true → ∀ mv want : Nat,
      (9 * want ≤ 10 * mv → 10 * mv ≤ 11 * want → exec (.imdSelfCheck o mv want) s =
        .next (modSaf o (fun x => { x with imd := { x.imd with checked := some s.time.life, checkFailed := false } }) s)) ∧
      (10 * mv < 9 * want ∨ 11 * want < 10 * mv → exec (.imdSelfCheck o mv want) s = .next (safTrip (driversOf o) causeInsulation
        (modSaf o (fun x => { x with imd := { x.imd with checkFailed := true } }) s)))) ∧
    (∀ limit mOhm : Nat, peLimit s o = some limit →
      (mOhm ≤ limit → exec (.peLoopFault o mOhm) s = .next (modSaf o (fun x => { x with
        loopMilliohm := mOhm, peFault := false, peGood := x.peGood.orElse (fun _ => some s.time.life) }) s)) ∧
      (limit < mOhm → exec (.peLoopFault o mOhm) s = .next (safTrip (driversOf o) causePe
        (modSaf o (fun x => { x with loopMilliohm := mOhm, peFault := true, peGood := none }) s)))) ∧
    (penRuns s = true → ∀ n ph : Nat,
      (n ≤ 1000 * cfgNat (safCfg s) s.fab (.gen .penV) → 100 * ph ≤ 115 * s.fab.profile.sel.supply.unMv → exec (.penFault n ph) s =
        .next { s with saf := { s.saf with penFault := false, penGood := s.saf.penGood.orElse (fun _ => some s.time.life) } }) ∧
      (1000 * cfgNat (safCfg s) s.fab (.gen .penV) < n ∨ 115 * s.fab.profile.sel.supply.unMv < 100 * ph → exec (.penFault n ph) s =
        .next (safTrip allDrivers causePen { s with saf := { s.saf with penFault := true, penGood := none } })))

/-- SF06 to SF12 and the die: temperature, overvoltage, discharge, inputs, divider, weld, coils, forced CP, comparators.
With the safety core running: a named sensor's reading keeps its runs, derates the outlet by its hottest sensor and,
at the fifth reading at the trip level or out of range, trips with OVERTEMPERATURE; a DC voltage above the vehicle's
maximum plus 2 percent plus 5 V trips with OVERVOLTAGE; 60 V or more 1 s after an opening trips with DISCHARGE; a
safety channel without samples for 100 ms, or a divider that disagrees with its second source by more than its limit
for closed or open contactors, trips its outlets with INPUT_UNAVAILABLE. With the coil off a weld check that was due and
found no mirror in time, or a phase of 50 V or more on AC, counts and trips the outlet with WELD, and a good one is
dated. An idle coil land near a rail holds the driver off with COIL_DRIVER; a good one only takes the current. The
forced state F ends after 3 s in +12 V. A comparator self-test older than 24 h is marked. A die that passes its limit
goes to the module safe state; 10 K below it the time is dated. -/
def Obligations.OutletSupervision : Prop :=
  ∀ (s : State) (o : Outlet), s.saf.running = true →
    (∀ (n : Nat) (c : Int), (cfgItems (outCfg s o) s.fab (.out o .tempChannels)).contains n = true →
      let old := (s.saf.out.get o).temps
      let t := tempNext (outNat s o .tempTripC) c ((old.find? (fun t => t.sensor == n)).getD ⟨n, 0, 0, 0⟩)
      let all := t :: old.filter (fun t => t.sensor != n)
      let u := retarget o true (modSaf o (fun x => { x with
        temps := all, derate := (all.map (fun t => derateOf (outNat s o .tempDerateC) (outNat s o .tempTripC) t.deciC)).foldl min 1000 }) s)
      exec (.temperatureReading o n c) s = .next (if 5 ≤ t.overRun ∨ 5 ≤ t.faultRun then safTrip (driversOf o) causeOvertemp u else u)) ∧
    (∀ (v : VehLimits) (mv : Nat), (s.veh.out.get o).veh = some v → isDc s o = true →
      (v.maxMv + v.maxMv / 50 + 5000 < mv → exec (.dcOvervoltage o mv) s =
        .next (safTrip (driversOf o) causeOvervoltage (modSaf o (fun x => { x with outletMv := mv }) s))) ∧
      (mv ≤ v.maxMv + v.maxMv / 50 + 5000 → exec (.dcOvervoltage o mv) s = .next s)) ∧
    (isDc s o = true → ∀ mv : Nat, (s.saf.out.get o).dischargeDue = true →
      exec (.dischargeCheck o mv) s = .next (settle o (modOut o (fun x => { x with outletMv := mv })
        (modSaf o (fun x => { x with outletMv := mv, dischargeDue := false }) (if 60000 ≤ mv then safTrip (driversOf o) causeDischarge s else s))))) ∧
    (∀ (i : Channel) (l : Life), usesChannel s o i = true → s.saf.lost.contains i = false → s.ch[i].lostSince = some l →
      ((s.time.life - l).toNat < msecs 100 → exec (.inputUnavailable i) s = .next s) ∧
      (msecs 100 ≤ (s.time.life - l).toNat → exec (.inputUnavailable i) s = .next (safTrip ((Outlet.all.filter (fun o => usesChannel s o i)).flatMap driversOf) causeInput
        { s with saf := { s.saf with lost := s.saf.lost ++ [i], lostGood := s.saf.lostGood.filter (fun p => p.1 != i) } }))) ∧
    (let bad := .next (safTrip (driversOf o) causeInput { s with saf := { s.saf with
       divider := s.saf.divider.modify o (fun _ => true), dividerGood := s.saf.dividerGood.modify o (fun _ => none) } })
     (contactorsClosed s o = true → ∀ (c : Bool) (mv second : Nat),
       let off := ((mv : Int) - second).natAbs
       (isDc s o = true → exec (.dividerPlausibility o c mv second) s = if second + 250000 < 50 * off then bad else .next s) ∧
       (isDc s o = false → exec (.dividerPlausibility o c mv second) s =
         if (selProfile s (selOfOutlet o)).unMv < 20 * off then bad else .next s)) ∧
     (contactorsClosed s o = false → ∀ mv second : Nat,
       (isDc s o = true → exec (.dividerPlausibility o true mv second) s =
         if second + 200000 < 20 * ((mv : Int) - second).natAbs then bad else .next s) ∧
       ((s.veh.out.get o).cp = .a → exec (.dividerPlausibility o false mv second) s = if 60000 ≤ mv then bad else .next s))) ∧
    (∀ (d : Driver) (ma : Nat), s.pd.drv[d].phase = .off →
      let limit := cfgNat (outCfg s (outletOf d)) s.fab (.cd d .mirrorMs)
      (∀ (m : Nat) (vs : List Nat), (s.pd.drv[d].weldDue = true → m ≤ limit) → (isDc s (outletOf d) = false → ∀ v ∈ vs, v < 50000) →
        exec (.weldCheck d ma (some m) vs) s = .next (settle (outletOf d) (modDrv d (fun r => { r with
          coilMa := ma, weldDue := false, weldFailed := false, weldGoodSince := r.weldGoodSince.orElse (fun _ => some s.time.life) }) s))) ∧
      (s.pd.drv[d].weldDue = true → ∀ (at_ : Option Nat) (vs : List Nat),
        (∀ m, at_ = some m → limit < m ∨ (isDc s (outletOf d) = false ∧ ∃ v ∈ vs, 50000 ≤ v)) →
        exec (.weldCheck d ma at_ vs) s = .next (settle (outletOf d) (weldTrip (outletOf d)
          (modWear (fun w => { w with weldFails := bump w.weldFails d })
            (modDrv d (fun r => { r with coilMa := ma, weldDue := false, weldFailed := true, weldGoodSince := none }) s)))))) ∧
    (baseRuns s = true → ∀ (d : Driver) (h l ma : Nat), s.pd.drv[d].phase = .off →
      (h + 3000 < s.pwr.vauxMv → l + 3000 < s.pwr.vauxMv → 3000 ≤ h → 3000 ≤ l → 20 * ma ≤ s.pd.drv[d].holdMa →
        exec (.coilReadback d h l ma) s = .next (modDrv d (fun r => { r with coilMa := ma }) s)) ∧
      (s.pwr.vauxMv ≤ h + 3000 ∨ s.pwr.vauxMv ≤ l + 3000 ∨ h < 3000 ∨ l < 3000 → exec (.coilReadback d h l ma) s =
        .next (safTrip [d] causeCoilDriver (modDrv d (fun r => { r with heldOff := true }) (modDrv d (fun r => { r with coilMa := ma }) s))))) ∧
    ((s.veh.out.get o).force = some .stateF → exec (.cpForceFEnd o) s = .next (if 3 * 32768 ≤ (s.time.life - (s.veh.out.get o).forceSince).toNat
      then modOut o (fun x => { x with force := some .plus12 }) s else s)) ∧
    (∀ (k : Island) (l : Life), s.isl[k].selfTestLife = some l → 86400 * 32768 < (s.time.life - l).toNat →
      exec (.comparatorSelftestAge k) s = .next { s with isl := vmod s.isl k (fun i => { i with selfTestMissed := true }) }) ∧
    (∀ (p : Bool) (c : Nat),
      let limit := if p then 160 else 130
      let die := if p then s.saf.pwrDie else s.saf.ctlDie
      let put (d : Die) : State := { s with saf := if p then { s.saf with pwrDie := d } else { s.saf with ctlDie := d } }
      (limit < c → die.hot = false → exec (.dieOvertemp p c) s =
        .next (moduleSafe causeInternal (countInternal causeInternal (faultLog causeInternal c (put ⟨true, none⟩))))) ∧
      (c + 10 ≤ limit → die.hot = true → exec (.dieOvertemp p c) s =
        .next (put ⟨true, die.cool.orElse (fun _ => some s.time.life)⟩)))

/-- The safety core's cycle, the emergency stop, and the seam check's frames, time-outs and degraded running. A cycle of
the running core whose known-answer test or signature fails is an internal fault; a good one completes the
diagnostics, reads the heartbeat, compares the gates, takes back inputs, clears latches and holds the hold-up. With
both emergency-stop inputs configured, one read open twice or a disagreement of more than 100 ms leads to the module
safe state; otherwise the record is as the inputs were read last. A seam frame has 28 bytes of version, kind, nodes,
sequence, LIFE, word and fault, and their CRC-32C; it is sent on each configured path whose nodes are known, on CAN
behind the identifier of a SAFETY message, under the next sequence number. A received
frame that does not parse, or of no companion, does nothing; a fresh one of a companion is accepted. A path without
frames for 20 ms is out of service, and a companion left without a path trips the dependent outlets with SEAM_LOST; 60
s of degraded running stop their sessions. -/
def Obligations.SafetyCycleAndSeam : Prop :=
  ∀ s : State, s.saf.running = true →
    (∀ i : SafInputs, (i.katOk = false ∨ i.signatureOk = false → exec (.safCycle i) s = .next (internalFault s)) ∧
      (i.katOk = true → i.signatureOk = true → exec (.safCycle i) s = .next (holdupHeld (forEach allDrivers clearLatched (inputsBack
        (forEach allDrivers (gateCompare i.gates) (heartbeatRead { s with saf := { s.saf with diagPassed := true } })))))) ) ∧
    (hasEstop s = true → ∀ (a b : Bool × Bool) (ms : Nat),
      (a = (true, true) ∨ b = (true, true) → ms ≤ 100 → exec (.estopOpen a b ms) s =
        .next (moduleSafe causeEstop { s with saf := { s.saf with estopA := a.2, estopB := b.2, estop := true } })) ∧
      (100 < ms → exec (.estopOpen a b ms) s =
        .next (moduleSafe causeEstop { s with saf := { s.saf with estopA := true, estopB := true, estop := true } })) ∧
      (a ≠ (true, true) → b ≠ (true, true) → ms ≤ 100 → exec (.estopOpen a b ms) s =
        .next { s with saf := { s.saf with estopA := a.2, estopB := b.2, estop := false } })) ∧
    (∀ (kind src dst seq word fault : Nat) (l : Life), (seamFrame kind src dst seq l word fault).length = 32 ∧
      (seamFrame kind src dst seq l word fault).drop 28 = u32 (crc32c ((seamFrame kind src dst seq l word fault).take 28)).toNat) ∧
    (seamExists s = true → ∀ change : Bool, exec (.seamFrameSend change) s =
      let t := { s with saf := { s.saf with seam := { s.saf.seam with ownSeq := s.saf.seam.ownSeq + 1 } } }
      .next (forEach ([SeamPath.a, .b].filterMap (seamPort s)) (fun p t =>
        match seamNodes s p with
        | none => t
        | some n =>
          let f := seamFrame (if change then 2 else 1) n.1 n.2 s.saf.seam.ownSeq.toNat s.time.life (seamWord s) (seamFault s)
          enqueue p .safety (if 4 ≤ p.val then u16 63 ++ f else f) { t with saf := { t.saf with seam := { t.saf.seam with sent := f } } }) t)) ∧
    (seamExists s = true → ∀ (path : SeamPath) (n : Nat × Nat) (f : Bytes), (seamPort s path).bind (seamNodes s) = some n →
      (seamParse n.1 f = none → exec (.seamFrameReceive path f) s = .next s) ∧
      (∀ (x : SeamFields) (p : SeamPeer), n.1 = 0 → seamParse 0 f = some x → x.src ≠ 0 → (seamPeers s).find? (fun q => q.node == x.src) = some p →
        exec (.seamFrameReceive path f) s = .next (if seamFresh s.time.life p path x f then seamAccept p path x f s else s))) ∧
    (seamExists s = true → ∀ path : SeamPath, exec (.seamPathTimeout path) s =
      let peers := (seamPeers s).map (fun p => match path with
        | .a => { p with a := sideTimeout s.time.life p.a }
        | .b => { p with b := sideTimeout s.time.life p.b })
      let lost := ((seamPeers s).zip peers).any (fun q => (q.1.a.state == 2 || q.1.b.state == 2) && !(q.2.a.state == 2 || q.2.b.state == 2))
      let t := { s with saf := { s.saf with seam := { s.saf.seam with peers } } }
      .next (seamEvents s (markDegraded (if lost then seamTrip causeSeamLost t else t)))) ∧
    (∀ l, s.saf.seam.degradedSince = some l → 60 * 32768 ≤ (s.time.life - l).toNat → seamDegraded s = true →
      exec .seamDegradedTimeout s = .next (forEach (seamOutlets s) (fun o => stopSession o .seamDegraded .normal) s))

/-- LOAD_SWITCH_SET, RESTART and STATUS_GET, WEAR_COUNTERS_READ, and what applying the outputs leaves. A served
LOAD_SWITCH_SET whose mask names an owned channel answers ST_SWITCH_OWNED and changes no channel. Otherwise each named
channel that is not held by a trip takes its commanded bit, odd channels of pairs being passed over, and the outputs
are applied; the answer is the outputs as a mask, with ST_SWITCH_LATCHED where a named channel is held.
LOAD_SWITCH_RESTART clears the trip of the named channels whose heat is at most 0.605 or, latched, whose die is at 150
degrees or less, and answers their mask. STATUS_GET answers eight bytes a channel, WEAR_COUNTERS_READ sixteen a driver
and four a clamp. Applying the outputs makes every output what its target says and leaves the trips and commanded
states; a tripped channel, and every channel before step 8, in SAVE, WATCH and OFF, has the target off; an owned one
its owner's. -/
def Obligations.SwitchCommands : Prop :=
  (∀ (s : State) (mb : Mailbox) (b : Bytes), serves .loadSwitchSet mb b s →
    let u := takeUp mb s
    let named := lsNamed u (rd b 0 4)
    let held := fun (n : Fin 32) => u.pd.ls[n].trip == .i2t || u.pd.ls[n].trip == .latched
    let t := applyLs (forEach (named.filter (fun n => !held n)) (fun n => modLs n (fun c => { c with commanded := (rd b 4 4).testBit n.val })) u)
    (named.any (fun n => (lsOwner u n).isSome) = true → exec (.loadSwitchSet mb) s = .next (complete mb .switchOwned [] u)) ∧
    (named.any (fun n => (lsOwner u n).isSome) = false → named.any held = true →
      exec (.loadSwitchSet mb) s = .next (complete mb .switchLatched (u32 (lsWord t)) t)) ∧
    (named.any (fun n => (lsOwner u n).isSome) = false → named.any held = false →
      exec (.loadSwitchSet mb) s = .next (complete mb .ok (u32 (lsWord t)) t))) ∧
  (∀ (s : State) (mb : Mailbox) (b : Bytes), serves .loadSwitchRestart mb b s →
    let u := takeUp mb s
    let go := (lsNamed u (rd b 0 4)).filter (fun n =>
      (u.pd.ls[n].trip == .i2t && decide (u.pd.ls[n].theta ≤ 605000000)) || (u.pd.ls[n].trip == .latched && decide (u.pd.ls[n].celsius ≤ 150)))
    exec (.loadSwitchRestart mb) s = .next (complete mb .ok (u32 (go.foldl (fun w n => w + 2 ^ n.val) 0))
      (applyLs (forEach go (fun n s => forEach (lsMembers s n) (fun m => modLs m (fun c => { c with trip := .none })) s) u)))) ∧
  (∀ (s : State) (mb : Mailbox) (b : Bytes), serves .loadSwitchStatusGet mb b s →
    let u := takeUp mb s
    exec (.loadSwitchStatusGet mb) s = .next (complete mb .ok ((List.finRange 32).flatMap (fun n =>
      u16 (if lsGov u n = n then u.pd.ls[lsGov u n].mA else 0) ++ u8 (lsStateCode u.pd.ls[lsGov u n])
        ++ u8 (u.pd.ls[lsGov u n].celsius + 40) ++ u32 (u.safStore.wear.switchOns[n]).toNat)) u)) ∧
  (∀ (s : State) (mb : Mailbox) (b : Bytes), serves .wearCountersRead mb b s →
    let w := (takeUp mb s).safStore.wear
    exec (.wearCountersRead mb) s = .next (complete mb .ok ((List.finRange 4).flatMap (fun d =>
      u32 (w.closings[d]).toNat ++ u32 (w.openings[d]).toNat ++ u32 (w.weldFails[d]).toNat ++ u32 0)
        ++ w.clamps.toList.flatMap (fun c => u32 c.toNat)) (takeUp mb s))) ∧
  (∀ (s : State) (n : Fin 32), (applyLs s).pd.ls[n].out = lsTarget s (lsGov s n) ∧ (applyLs s).pd.ls[n].trip = s.pd.ls[n].trip ∧
    (applyLs s).pd.ls[n].commanded = s.pd.ls[n].commanded ∧ (applyLs s).mbx = s.mbx ∧ (applyLs s).pd.drv = s.pd.drv) ∧
  (∀ (s : State) (n : Fin 32),
    (s.pd.started = false ∨ s.pwr.state = .save ∨ s.pwr.state = .watch ∨ s.pwr.state = .off → lsTarget s n = false) ∧
    (s.pd.ls[n].trip ≠ .none ∨ s.pwr.ovCut = true → lsTarget s n = false) ∧
    (∀ o : Outlet, s.pd.started = true → s.pwr.state = .run → s.pd.ls[n].trip = .none → s.pwr.ovCut = false → s.pd.linkUp = true → s.pd.linkHold = false →
      (lsOwner s n = none → s.pd.lsFail = false → lsTarget s n = s.pd.ls[n].commanded) ∧
      (outOpt s .a .rcdSupplyLs = some n.val → lsTarget s n = true) ∧
      (lsOwner s n = some (s.pd.shunt.get o).isSome → lsTarget s n = (s.pd.shunt.get o).isSome)))

/-- Load-switch samples, trips, restart and pairs; contactor pull-in, mirror, coil limit and shunt pulse. A current
sample of a governing channel takes the current, steps the heat towards the square of current over rated current with
the wire's time constant, and counts samples in limit, 16 A or 32 A for a pair. A channel on, without a trip, whose heat
has reached 1.21, or whose limit lasted 40 samples (2 ms), trips as I2t with kind 1. At 170 degrees or more the channels
governed by the sensor's channel take the temperature and date, and trip with kind 3, latched, where the key says so or
nine shutdowns fall within 60 s, else with kind 2, restarting. At 150 degrees or less a restarting one has its trip
cleared. Before the start has set the switches nothing samples them. A changed pair takes effect once both channels are
off. At a current of at most 1.1 times rated, heat below the trip level stays below or at it. The end of the pull-in
time takes a pulling driver to hold with the peak as its coil current; a peak below cont.cdN.pull_min_ma is a closing
failure: PERMIT_APP withdrawn, state 10 with reason contactor. A mirror reading in RUN and IDLE below 500 ohm is closed,
above 5 kilohm open, between them counts as the state taken (log 88); a new state is taken on the third equal reading. A
driven coil whose mirror has not reported the main contacts closed within its time is a closing failure. A coil held at
5 A trips its driver with COIL_DRIVER; an idle one does nothing. After 500 ms the end of the shunt-trip pulse clears it
and applies the outputs. Where the mirror of a DC outlet's second driver (DC-) reports it closed while the session
prepares or transfers and the first has not PERMIT_APP, the first is granted it. -/
def Obligations.SwitchAndDriverEvents : Prop :=
  ((∀ (s : State) (n : Fin 32), lsGov s n = n →
    (s.pd.started = true → ∀ mA celsius : Nat, exec (.lsCurrentSample n mA celsius) s = .next (modLs n (fun c => { c with
      mA := mA, celsius := celsius
      theta := heatStep (lsKey s n .wire) mA c.theta
      limitRun := if (if s.pd.ls[n].paired ∧ n.val % 2 = 0 then 32000 else 16000) ≤ mA then c.limitRun + 1 else 0 }) s)) ∧
    (s.pd.ls[n].out = true → s.pd.ls[n].trip = .none →
      (∀ uj : Nat, 1210000000 ≤ s.pd.ls[n].theta → exec (.i2tTrip n uj) s = .next (lsTrip n .i2t 1 (some (decide (1000 < uj))) s)) ∧
      (∀ uj : Nat, s.pd.ls[n].theta < 1210000000 → exec (.i2tTrip n uj) s = .next s) ∧
      (40 ≤ s.pd.ls[n].limitRun → exec (.currentLimitTrip n) s = .next (lsTrip n .i2t 1 none s)) ∧
      (s.pd.ls[n].limitRun < 40 → exec (.currentLimitTrip n) s = .next s))) ∧
  (∀ (s : State) (n : Fin 32) (c : Nat),
    let g := lsGov s n
    let recent := s.time.life :: (s.pd.ls[g].shutdowns.filter (fun l => (s.time.life - l).toNat ≤ 60 * 32768))
    let t := forEach (lsMembers s g) (fun m => modLs m (fun x => { x with celsius := c, shutdowns := recent })) s
    (s.pd.started = true → 170 ≤ c → s.pd.ls[g].trip = .none → (lsKey s g .thermal = 1 ∨ 9 ≤ recent.length) →
      exec (.thermalShutdown n c) s = .next (lsTrip g .latched 3 none t)) ∧
    (s.pd.started = true → 170 ≤ c → s.pd.ls[g].trip = .none → lsKey s g .thermal ≠ 1 → recent.length < 9 →
      exec (.thermalShutdown n c) s = .next (lsTrip g .restart 2 none t)) ∧
    (c < 170 ∨ s.pd.ls[g].trip ≠ .none ∨ s.pd.started = false → exec (.thermalShutdown n c) s = .next s) ∧
    (c ≤ 150 → exec (.thermalRestart n c) s = .next (applyLs (forEach (lsMembers s g) (fun m => modLs m (fun x => { x with
      celsius := c, trip := if x.trip = .restart then .none else x.trip })) s)))) ∧
  (∀ (s : State) (n : Fin 32), n.val % 2 = 0 →
    (s.pd.ls[n].out = false ∧ s.pd.ls[Fin.ofNat 32 (n.val + 1)].out = false → exec (.lsPairApply n) s =
      .next (modLs n (fun c => { c with paired := lsKey s n .pair == 1 }) s)) ∧
    (s.pd.ls[n].out = true ∨ s.pd.ls[Fin.ofNat 32 (n.val + 1)].out = true → exec (.lsPairApply n) s = .next s)) ∧
  (∀ w mA theta : Nat, 10 * mA ≤ 11 * wireMa w → theta ≤ 1210000000 → heatStep w mA theta ≤ 1210000000) ∧
  (∀ w theta : Nat, 0 < theta → heatStep w 0 theta < theta)) ∧
  (∀ (s : State) (d : Driver),
    (∀ peak : Nat, s.pd.drv[d].phase = .pullIn → msecs s.pd.drv[d].pullMs ≤ (s.time.life - s.pd.drv[d].driveStart).toNat →
      let t := modDrv d (fun r => { r with phase := .hold, coilMa := peak }) s
      (s.pd.drv[d].pullMinMa ≤ peak → exec (.pullInEnd d peak) s = .next t) ∧
      (peak < s.pd.drv[d].pullMinMa → exec (.pullInEnd d peak) s = .next (enterFault (outletOf d) .contactor (withdrawApp (outletOf d) t)))) ∧
    (∀ peak : Nat, (s.time.life - s.pd.drv[d].driveStart).toNat < msecs s.pd.drv[d].pullMs → exec (.pullInEnd d peak) s = .next s) ∧
    (s.pd.drv[d].phase ≠ .off → s.pd.drv[d].mirrorDue = true → mainOpen s d = true →
      msecs (cfgNat (outCfg s (outletOf d)) s.fab (.cd d .mirrorMs)) ≤ (s.time.life - s.pd.drv[d].driveStart).toNat →
      exec (.mirrorTimeout d) s = .next (enterFault (outletOf d) .contactor (withdrawApp (outletOf d) s))) ∧
    (s.pd.drv[d].phase = .off ∨ s.pd.drv[d].mirrorDue = false ∨ mainOpen s d = false ∨
      (s.time.life - s.pd.drv[d].driveStart).toNat < msecs (cfgNat (outCfg s (outletOf d)) s.fab (.cd d .mirrorMs)) →
      exec (.mirrorTimeout d) s = .next s) ∧
    (s.pd.drv[d].phase ≠ .off → exec (.coilCurrentLimit d) s = .next (safTrip [d] causeCoilDriver s)) ∧
    (s.pd.drv[d].phase = .off → ∀ peak : Nat, exec (.coilCurrentLimit d) s = .next s ∧ exec (.pullInEnd d peak) s = .next s) ∧
    (∀ (o : Outlet) (l : Life), s.pd.shunt.get o = some l → exec (.shuntTripPulseEnd o) s =
      .next (if msecs 500 ≤ (s.time.life - l).toNat then applyLs { s with pd := { s.pd with shunt := s.pd.shunt.modify o (fun _ => none) } } else s)) ∧
    (s.pwr.state ≠ .run → s.pwr.state ≠ .idle → ∀ ohm, exec (.mirrorSense d ohm) s = .next s) ∧
    (s.pwr.state = .run ∨ s.pwr.state = .idle → ∀ ohm : Nat, let r := s.pd.drv[d]
      let reading := if ohm < 500 then true else if 5000 < ohm then false else r.mirrorClosed
      let run := if r.mirrorFilter.cand = reading then r.mirrorFilter.run + 1 else 1
      let t := modDrv d (fun r => { r with mirrorFilter := ⟨reading, run⟩, mirrorClosed := if 3 ≤ run then reading else r.mirrorClosed }) s
      let u := modDrv d (fun r => { r with
        mirrorDue := r.mirrorDue && !(if r.phase = .off then mainOpen t d else !mainOpen t d)
        weldGoodSince := if mainOpen t d then r.weldGoodSince else none }) t
      exec (.mirrorSense d ohm) s = .next (settle (outletOf d) (closeSecond d u))) ∧
    (∀ o : Outlet, isDc s o = true → s.pd.drv[secondDriver o].phase ≠ .off → mainOpen s (secondDriver o) = false →
      stateIn s o [.insulation, .preCharge, .transfer] = true → s.pd.drv[firstDriver o].permits.app = false →
      outletOf (secondDriver o) = o → closeSecond (secondDriver o) s = grant (firstDriver o) .app s))

/-- Links and CAN bus-off, the string link's polls, replies, missed polls and discovery. From step 8 on, a link that comes
up at a rate which its port serves, or goes down, takes the state and rate with EV_LINK, once, and its error count; a
CAN port that goes down is off its bus, and a restart brings it up at its data rate; another rate changes nothing. On a
string that runs, a POLL outside discovery to a known optimiser whose period has passed takes the next sequence number
and counts the attempt. A STATUS from the polled optimiser echoing that number ends the attempt, clears its missed count
and takes voltage, current, temperature and flags. An attempt fails when its air time and 20 ms have passed: it is
repeated up to twice; the third is a missed poll, and the third missed poll in a row marks the optimiser as not
answering. After either the string is free again 5 ms later. Removal drops an unnamed optimiser, unanswered for 3,600 s,
alone. A discovery round that is due enrols the optimisers heard in its 16 slots, as they acknowledge, and is followed by
another after a garbled slot, up to eight; a string holds at most 31. PORT_STATUS_GET answers eight bytes a port. -/
def Obligations.PortsAndStrings : Prop :=
  (∀ (s : State) (p : Fin 8) (u high : Bool) (k errors : Nat), baseRuns s = true → 8 ≤ s.hif.startStep.toNat →
    let rate := if u then k else 0
    let t := modPort p (fun x => { x with
      busOff := !u && decide (4 ≤ p.val), errors := BitVec.ofNat 16 (min 65535 (x.errors.toNat + errors)), high := u && linkHigh s p high }) s
    (u = true → portServes s p k = false → exec (.linkChange p u k errors high) s = .next s) ∧
    (u = false ∨ portServes s p k = true →
      (s.net.port[p].up = u ∧ s.net.port[p].kbps = rate → exec (.linkChange p u k errors high) s = .next t) ∧
      (s.net.port[p].up ≠ u ∨ s.net.port[p].kbps ≠ rate → exec (.linkChange p u k errors high) s =
        .next (raise .link (u8 p.val ++ flag u ++ u16 0 ++ u32 rate) (modPort p (fun x => { x with up := u, kbps := rate }) t))))) ∧
  (∀ (s : State) (n : Fin 4),
    (s.net.port[canPort n].busOff = true → exec (.canBusOffRestart n) s = .next (setLink (canPort n) true (cfgNat s.cfg s.fab (.can n .dataKbps))
      (modPort (canPort n) (fun p => { p with busOff := false }) s))) ∧
    (s.net.port[canPort n].busOff = false → exec (.canBusOffRestart n) s = .next s)) ∧
  (∀ (s : State) (j : Fin 4) (o : Optimiser), stringRuns s j = true → s.net.str[j].rounds = 0 → s.net.str[j].attempt = none →
    s.net.str[j].known.find? (fun x => x.addr == o.addr) = some o → s.net.str[j].freeAt.toNat ≤ s.time.life.toNat →
    (o.polledAt = none ∨ (∃ l, o.polledAt = some l ∧ secs (cfgNat s.cfg s.fab (.str j .pollS)) ≤ (s.time.life - l).toNat) →
      exec (.stringPoll j o.addr) s = .next (modStr j (fun x =>
        let f := stringFrame 1 o.addr (x.seq + 1) []
        { x with
          seq := x.seq + 1, sent := f, line := stringLine f, attempt := some ⟨o.addr, x.seq + 1, 1, true, s.time.life⟩
          known := x.known.map (fun y => if y.addr == o.addr then { y with polledAt := some s.time.life } else y) }) s)) ∧
    (∀ l, o.polledAt = some l → (s.time.life - l).toNat < secs (cfgNat s.cfg s.fab (.str j .pollS)) →
      exec (.stringPoll j o.addr) s = .next s)) ∧
  (∀ (s : State) (j : Fin 4) (a : Word32), s.net.str[j].rounds ≠ 0 ∨ s.time.life.toNat < s.net.str[j].freeAt.toNat →
    exec (.stringPoll j a) s = .next s) ∧
  (∀ (kind : Nat) (dst : Word32) (seq : BitVec 8) (b : Bytes), b.length ≤ 48 → kind < 16 → (stringFrame kind dst seq b).length = 14 + b.length) ∧
  (∀ (s : State) (j : Fin 4) (f : Bytes) (at_ : Attempt) (src : Word32) (q : BitVec 8) (b : Bytes), stringRuns s j = true → s.net.str[j].attempt = some at_ →
    at_.waits = true → parseString f = some (2, src, q, b) → src = at_.addr → q = at_.seq → b.length = 16 →
    exec (.stringReply j f) s = .next (modStr j (fun x => { x with attempt := none, freeAt := s.time.life + BitVec.ofNat 64 (msecs 5), known := x.known.map (fun o =>
      if o.addr == at_.addr then { o with missed := 0, silent := false, lastAnswer := s.time.life, mv := rdI32 b 0, ma := rdI32 b 4
                                          deciK := BitVec.ofNat 16 (rd b 8 2), flags := BitVec.ofNat 16 (rd b 10 2) &&& 0x1F } else o) }) s)) ∧
  (∀ (s : State) (j : Fin 4) (at_ : Attempt), s.net.str[j].attempt = some at_ → at_.waits = true →
    let wait := stringCycles s.net.str[j].sent + msecs 20
    let free : Life := s.time.life + BitVec.ofNat 64 (msecs 5)
    ((s.time.life - at_.at_).toNat < wait → exec (.stringAttemptTimeout j) s = .next s) ∧
    (wait ≤ (s.time.life - at_.at_).toNat →
      (at_.tries < 3 → exec (.stringAttemptTimeout j) s = .next (modStr j (fun x => { x with freeAt := free, attempt := some { at_ with waits := false } }) s)) ∧
      (3 ≤ at_.tries → exec (.stringAttemptTimeout j) s = .next (modStr j (fun x => { x with freeAt := free, attempt := none, known := x.known.map (fun o =>
        if o.addr == at_.addr then { o with missed := o.missed + 1, silent := o.silent || decide (3 ≤ o.missed + 1) } else o) }) s)))) ∧
  (∀ (s : State) (j : Fin 4) (a : Word32), exec (.optimiserRemoved j a) s = .next (modStr j (fun x => { x with
    known := x.known.filter (fun o => o.named || o.addr != a || decide ((s.time.life - o.lastAnswer).toNat < 3600 * 32768)) }) s)) ∧
  (∀ (s : State) (j : Fin 4) (heard : List (Word32 × Bool)) (g : Bool), stringRuns s j = true → cfgBool s.cfg s.fab (.str j .discover) = true →
    s.net.str[j].attempt = none →
    let x := s.net.str[j]
    (x.rounds ≠ 0 ∨ x.discoverAt = none → exec (.discoveryRound j heard g) s =
      .next (forEach (heard.take 16) (fun a => modStr j (enrol s.time.life a)) (modStr j (fun x =>
        let f := stringFrame 3 0xFFFFFFFF (x.seq + 1) (u8 16 ++ u8 40 ++ u16 (x.round + 1).toNat)
        { x with
          round := x.round + 1, seq := x.seq + 1, sent := f, line := stringLine f
          rounds := if g && decide (x.rounds + 1 < 8) then x.rounds + 1 else 0
          discoverAt := if x.rounds = 0 then some s.time.life else x.discoverAt }) s))) ∧
    (∀ l, x.rounds = 0 → x.discoverAt = some l → (s.time.life - l).toNat < secs (cfgNat s.cfg s.fab (.gen .pvDiscover)) →
      exec (.discoveryRound j heard g) s = .next s)) ∧
  (∀ (l : Life) (a : Word32 × Bool) (x : Str), x.known.length ≤ 31 → (enrol l a x).known.length ≤ 31) ∧
  (∀ (s : State) (mb : Mailbox) (b : Bytes), serves .portStatusGet mb b s → exec (.portStatusGet mb) s = .next (complete mb .ok
    ((List.finRange 8).flatMap (fun p => let x := (takeUp mb s).net.port[p]; u8 p.val ++ flag x.up ++ u16 x.errors.toNat ++ u32 x.kbps)) (takeUp mb s)))

/-- RSD_KEEPALIVE_SET, the keep-alive's stops and resumption, SunSpec devices and STRING_STATUS_GET. A served
RSD_KEEPALIVE_SET stores action 1 or 0 as the request of the strings in its mask; a mask above 15 or another action is
ST_ARG_RANGE. Without the request or its key (cause 0), or without the safety core's enable or with a coupler that
cannot transmit (cause 1), a keep-alive being sent goes silent, with one EV_RSD_STOPPED for each cause; one that is
silent raises nothing. It resumes only in RUN or IDLE with request, enable and key present and 10 s of silence past.
Once its period has passed, a device that is read replaces its record by its points as their scale factors give them and
clears its failures; an unanswered request is repeated twice, and then the period has failed. STRING_STATUS_GET answers
voltage, current and up to 31 records from the record named; a string above 3, or a record beyond the last, is
ST_ARG_RANGE. A device after three failed periods carries bit 15. -/
def Obligations.KeepAliveAndSunSpec : Prop :=
  (∀ (s : State) (mb : Mailbox) (b : Bytes), serves .rsdKeepaliveSet mb b s →
    (15 < rd b 0 1 ∨ 1 < rd b 1 1 → exec (.rsdKeepaliveSet mb) s = .next (complete mb .argRange [] (takeUp mb s))) ∧
    (rd b 0 1 ≤ 15 → rd b 1 1 ≤ 1 → ∃ t, exec (.rsdKeepaliveSet mb) s = .next (complete mb .ok [] t) ∧
      (∀ j : Fin 4, t.net.str[j] = { s.net.str[j] with
        request := if (rd b 0 1).testBit j.val then rd b 1 1 == 1 else s.net.str[j].request }) ∧
      { t with net := { t.net with str := s.net.str } } = takeUp mb s)) ∧
  (∀ (s : State) (j : Fin 4), s.net.str[j].sending = true →
    let t := modStr j (fun x => { x with sending := false, silentSince := some s.time.life }) s
    let ok := s.net.str[j].request && keepAliveKey s j
    let ev := fun c => raise .rsdStopped (u8 (2 ^ j.val) ++ u8 c)
    ∀ coupler : Bool,
    (ok = false → s.net.str[j].enable = true → coupler = false → exec (.keepaliveStop j coupler) s = .next (ev 0 t)) ∧
    (ok = true → s.net.str[j].enable = false ∨ coupler = true → exec (.keepaliveStop j coupler) s = .next (ev 1 t)) ∧
    (ok = false → s.net.str[j].enable = false ∨ coupler = true → exec (.keepaliveStop j coupler) s = .next (ev 1 (ev 0 t))) ∧
    (ok = true → s.net.str[j].enable = true → coupler = false → exec (.keepaliveStop j coupler) s = .next s)) ∧
  (∀ (s : State) (j : Fin 4) (c : Bool), s.net.str[j].sending = false → exec (.keepaliveStop j c) s = .next s) ∧
  (∀ (s : State) (j : Fin 4) (l : Life), s.net.str[j].silentSince = some l →
    (s.net.str[j].sending = false → s.net.str[j].request = true → s.net.str[j].enable = true → keepAliveKey s j = true → domainOut s .per = false → baseRuns s = true →
      10 * 32768 ≤ (s.time.life - l).toNat → exec (.keepaliveResume j) s = .next (modStr j (fun x => { x with sending := true, silentSince := none }) s)) ∧
    (s.net.str[j].request = false ∨ s.net.str[j].enable = false ∨ keepAliveKey s j = false ∨ (s.time.life - l).toNat < 10 * 32768 →
      exec (.keepaliveResume j) s = .next s)) ∧
  (∀ (s : State) (k : Fin 8), sunRuns s k = true →
    let d := s.net.sun[k]
    let begun := if d.repeats = 0 then some s.time.life else d.readAt
    (∀ l, d.repeats = 0 → d.readAt = some l → (s.time.life - l).toNat < secs (cfgNat s.cfg s.fab (.gen .sunS)) →
      (∀ r, exec (.sunspecRead k r) s = .next s) ∧ exec (.sunspecTimeout k) s = .next s) ∧
    (d.repeats ≠ 0 ∨ d.readAt = none ∨ (∃ l, d.readAt = some l ∧ secs (cfgNat s.cfg s.fab (.gen .sunS)) ≤ (s.time.life - l).toNat) →
      (∀ r : SunPoints, exec (.sunspecRead k r) s = .next (modSun k (fun _ => { record := some (sunScaled r), readAt := begun }) s)) ∧
      (d.repeats < 2 → exec (.sunspecTimeout k) s = .next (modSun k (fun d => { d with repeats := d.repeats + 1, readAt := begun }) s)) ∧
      (2 ≤ d.repeats → exec (.sunspecTimeout k) s =
        .next (modSun k (fun d => { d with repeats := 0, failed := d.failed + 1, readAt := begun }) s)))) ∧
  (∀ v sf : Int, (0 ≤ sf → scaleTen v sf = v * 10 ^ sf.toNat) ∧ (sf < 0 → scaleTen v sf = v.tdiv (10 ^ (-sf).toNat))) ∧
  (∀ (s : State) (mb : Mailbox) (b : Bytes), serves .stringStatusGet mb b s →
    let u := takeUp mb s
    let j : Fin 4 := Fin.ofNat 4 (rd b 0 2)
    let all := stringRecords u j
    let part := (all.drop (rd b 2 2)).take 31
    (3 < rd b 0 2 ∨ (0 < rd b 2 2 ∧ all.length ≤ rd b 2 2) → exec (.stringStatusGet mb) s = .next (complete mb .argRange [] u)) ∧
    (rd b 0 2 ≤ 3 → (rd b 2 2 = 0 ∨ rd b 2 2 < all.length) → exec (.stringStatusGet mb) s = .next (complete mb .ok
      (u8 (rd b 0 2) ++ flag u.net.str[j].sending ++ u8 part.length ++ u8 all.length ++ i32 (stringMv u j) ++ i32 (stringMa u j) ++ part.flatten) u)) ∧
    (∀ k : Fin 8, sunString u k = some j.val → 3 ≤ u.net.sun[k].failed → ∃ r ∈ all, (rd r 14 2).testBit 15 = true))

/-- Power modules: SETPOINT cycles, STATUS, IDENT, loss, and POWER_MODULE_STATUS_GET. On a power bus that runs, once the
cycle's time has passed, each present node of the bus counts a cycle without a STATUS, and, where the bus is not off, gets
a SETPOINT of CAN type 1 under its next sequence number: mode 0 and zero limits outside the budget; in it, its outlet's
mode, voltage target, its part of the current, and its available power. An IDENT of
version 1 takes the module's data and leaves it readmitting at zero. A STATUS with state 3, fault flags or a sequence
more than 3 behind loses the module: state 0, EV_POWER_MODULE, and its outlet's capability falls if it was in budget;
so do three missed cycles. A readmitting module enters the budget on a STATUS with state 1 and the latest sequence
after a full cycle since another such one, and not before. POWER_MODULE_STATUS_GET answers the nodes of a bus 0 to 3. -/
def Obligations.PowerModules : Prop :=
  (∀ (s : State) (b : Fin 4), isPower s b = true → appRuns s = true → domainOut s .per = false →
    (∀ l, s.net.pmAt[b] = some l → (s.time.life - l).toNat < msecs (cfgNat s.cfg s.fab (.gen .pmCycle)) → exec (.pmSetpointCycle b) s = .next s) ∧
    (s.net.pmAt[b] = none ∨ (∃ l, s.net.pmAt[b] = some l ∧ msecs (cfgNat s.cfg s.fab (.gen .pmCycle)) ≤ (s.time.life - l).toNat) →
      exec (.pmSetpointCycle b) s =
        let begun := { s with net := { s.net with pmAt := vmod s.net.pmAt b (fun _ => some s.time.life) } }
        .next (forEach (busNodes s b) (fun n t =>
          let q := s.net.pm[b][n].seq + 1
          let u := modPm b n (fun m => { m with quiet := if m.state = 0 then 0 else m.quiet + 1 }) t
          if s.net.port[canPort b].busOff then u
          else enqueue (canPort b) .session (u16 (64 + n.val) ++ nodeSetpoint s b n q)
            (modPm b n (fun m => { m with seq := q, sent := nodeSetpoint s b n q, cycleBegun := m.firstGood }) u)) begun)) ∧
    (∀ (n : Fin 32) (p : Bytes), p.length = 32 → n.val ≠ 0 →
      (rd p 0 1 = 1 → exec (.pmIdentReceive b n p) s =
        let t := moduleState b n 1 (modPm b n (fun m => { m with
          identity := BitVec.ofNat 64 (beNat ((p.drop 4).take 8)), ratedW := rd p 12 4, maxMv := rdI32 p 16, maxMa := rdI32 p 20, minMa := rdI32 p 24
          firstGood := false, cycleBegun := false, quiet := 0 }) s)
        .next (if s.net.pm[b][n].state = 2 then capabilityFell (nodeOutlet s b n) t else t)) ∧
      (s.net.pm[b][n].state ≠ 0 →
        let m := s.net.pm[b][n]
        let q := BitVec.ofNat 8 (rd p 1 1)
        let bad := rd p 0 1 = 3 ∨ rd p 2 2 ≠ 0 ∨ 3 < (m.seq - q).toNat
        let good := rd p 0 1 == 1 && q == m.seq
        let t := modPm b n (fun x => { takeModule p x with firstGood := x.state == 1 && good, cycleBegun := x.cycleBegun && good }) s
        (bad → exec (.pmStatusReceive b n p) s = .next (loseModule b n (modPm b n (takeModule p) s))) ∧
        (¬ bad → m.state = 1 → good = true → m.firstGood = true → m.cycleBegun = true → exec (.pmStatusReceive b n p) s = .next (admitModule b n t)) ∧
        (¬ bad → m.state = 1 → good = false ∨ m.firstGood = false ∨ m.cycleBegun = false → exec (.pmStatusReceive b n p) s = .next t)))) ∧
  (∀ (s : State) (b : Fin 4) (n : Fin 32), exec (.pmLost b n) s = .next (if 3 ≤ s.net.pm[b][n].quiet then loseModule b n s else s)) ∧
  (∀ (s : State) (b : Fin 4) (n : Fin 32), (loseModule b n s).net.pm[b][n].state = 0) ∧
  (∀ (s : State) (b : Fin 4) (n : Fin 32) (q : BitVec 8), s.net.pm[b][n].state ≠ 2 ∨ nodeOutlet s b n = none →
    nodeSetpoint s b n q = [0, q] ++ List.replicate 14 0) ∧
  (∀ (s : State) (mb : Mailbox) (x : Bytes), serves .powerModuleStatusGet mb x s →
    let u := takeUp mb s
    let b : Fin 4 := Fin.ofNat 4 (rd x 0 2)
    (3 < rd x 0 2 → exec (.powerModuleStatusGet mb) s = .next (complete mb .argRange [] u)) ∧
    (rd x 0 2 ≤ 3 → exec (.powerModuleStatusGet mb) s = .next (complete mb .ok
      (u8 (rd x 0 2) ++ u8 (busNodes u b).length ++ u16 0 ++ (busNodes u b).flatMap (fun k =>
        let m := u.net.pm[b][k]
        u8 k.val ++ u8 m.state ++ u16 m.deciK.toNat ++ i32 m.mv ++ i32 m.ma ++ u32 (rd m.sent 12 4))) u)))

/-- The pair link: frames, the choice of the leader, shares within the budget, handover, and the lost peer. A frame has
48 bytes ending in its CRC-32C. A pair frame is sent as follower or as leader, by role; one that does not parse does
nothing; a valid one of a module alone makes it follower of a leader, leader of a follower, and between two alone ones
leader if it wins by priority, then by the lower identity. The shares that an owner sets never exceed the budget
together. A handover swaps the roles at the frame before H. A peer unheard for 100 ms that is not known to be idle
leaves the module alone with EV_PAIR_ROLE cause 2: a follower falls to at most its solo share; a leader keeps its share
and raises it 5 s later to at most the budget less the peer's solo share. PAIR_ROLE_SWAP_REQUEST answers ST_STATE,
ST_PAIR_ABSENT or ST_SWAP_COLLISION, or waits for its handover. PAIR_STATUS_GET answers the role, peer, priority, budget
and shares. -/
def Obligations.PairLink : Prop :=
  (∀ s : State, pairRuns s = true →
    (s.net.pair.role = .follower → exec .pairFrameSend s = .next (sendFollowing false s)) ∧
    (s.net.pair.role ≠ .follower → exec .pairFrameSend s = .next (sendLeading s)) ∧
    (∀ f, parsePair s f = none → exec (.pairFrameReceive f) s = .next s) ∧
    (∀ f x, parsePair s f = some x →
      let t := modPair (fun p => { p with
        peer := some x.id, known := some x.id, lastFrame := some x.number, lastLife := s.time.life
        peerPriority := x.priority, peerClaims := if x.role = 0 then .leader else if x.role = 1 then .follower else .alone
        peerRequest := if x.role = 0 then p.peerRequest else x.share, peerConsumption := x.consumption, peerSolo := x.solo
        peerIdle := x.flags.getLsbD 2 }) s
      (s.net.pair.role = .alone → x.role = 0 → exec (.pairFrameReceive f) s = .next (followerTakes x (takeRole .follower t))) ∧
      (s.net.pair.role = .alone → x.role = 1 → exec (.pairFrameReceive f) s = .next (leaderTakes x (takeRole .leader t))) ∧
      (s.net.pair.role = .alone → x.role = 2 → exec (.pairFrameReceive f) s = .next (takeRole (if wins t then .leader else .follower) t)) ∧
      (s.net.pair.role = .leader → exec (.pairFrameReceive f) s = .next (leaderTakes x t)) ∧
      (s.net.pair.role = .follower → exec (.pairFrameReceive f) s = .next (followerTakes x t)) ∧
      (wins t = true ↔ x.priority < s.net.pair.priority ∨ (s.net.pair.priority = x.priority ∧ s.fab.deviceId.toNat < x.id.toNat))) ∧
    (∀ h, s.net.pair.handover = some h → s.net.pair.role ≠ .alone →
      exec .pairHandover s = .next (swapRoles (modPair (fun p => { p with frame := h - 1 }) s)))) ∧
  (∀ (id : BitVec 64) (p : Pair) (f : Word32) (i a : Bool) (n : Option Word32) (r c : Nat),
    (pairFrame id p f i a n r c).length = 48 ∧ (pairFrame id p f i a n r c).drop 44 = u32 (crc32c ((pairFrame id p f i a n r c).take 44)).toNat) ∧
  (∀ (r c : Nat) (p : Pair), p.owns = true →
    (leaderShares r c p).ownShare + (leaderShares r c p).peerShare ≤ (leaderShares r c p).budget) ∧
  (∀ (b o q : Nat), (splitBudget b o q).1 ≤ o ∧ (splitBudget b o q).2 ≤ q ∧ (splitBudget b o q).1 + (splitBudget b o q).2 ≤ b) ∧
  (∀ s : State, s.net.pair.peer = none ∨ s.net.pair.peerIdle = true ∨ (s.time.life - s.net.pair.lastLife).toNat < msecs 100 →
    exec .peerLost s = .next s) ∧
  (∀ s : State, s.net.pair.peer ≠ none → s.net.pair.peerIdle = false → msecs 100 ≤ (s.time.life - s.net.pair.lastLife).toNat → ∃ t, exec .peerLost s = .next t ∧ t.net.pair.role = .alone ∧
    t.net.pair.peer = none ∧ t.net.pair.owns = false ∧
    (s.net.pair.role = .follower → t.net.pair.ownShare = min s.net.pair.ownShare (cfgNat s.cfg s.fab (.gen .soloShare))) ∧
    (s.net.pair.role = .leader → t.net.pair.ownShare = s.net.pair.ownShare ∧ t.net.pair.lostAt = some s.time.life)) ∧
  (∀ (s : State) (l : Life), s.net.pair.lostAt = some l →
    ((s.time.life - l).toNat < 5 * 32768 → exec .leaderShareRaise s = .next s) ∧
    (5 * 32768 ≤ (s.time.life - l).toNat → exec .leaderShareRaise s =
      .next (setShare (max s.net.pair.ownShare (s.net.pair.budget - s.net.pair.peerSolo)) false (modPair (fun p => { p with lostAt := none }) s)))) ∧
  (∀ (s : State) (mb : Mailbox) (b : Bytes), serves .pairRoleSwapRequest mb b s →
    let u := takeUp mb s
    let p := u.net.pair
    let next := if p.role = .leader then p.frame + 1 else p.lastFrame.getD 0 + 1
    (p.role = .leader → p.reduction = true ∨ p.handover ≠ none → exec (.pairRoleSwapRequest mb) s = .next (complete mb .state [] u)) ∧
    (p.role = .alone → exec (.pairRoleSwapRequest mb) s = .next (complete mb .pairAbsent [] u)) ∧
    (p.role ≠ .alone → p.peer ≠ none → p.peerIdle = false → p.role = .leader → p.reduction = false → p.handover = none →
      (mayAsk p next = false → exec (.pairRoleSwapRequest mb) s = .next (complete mb .swapCollision [] u)) ∧
      (mayAsk p next = true → exec (.pairRoleSwapRequest mb) s =
        .next (modPair (fun p => { p with swapAsked := true, waiting := p.waiting ++ [⟨mb, none⟩] }) u)))) ∧
  (∀ (s : State) (mb : Mailbox) (b : Bytes), serves .pairStatusGet mb b s →
    let p := (takeUp mb s).net.pair
    exec (.pairStatusGet mb) s = .next (complete mb .ok (u8 (roleNow p.role) ++ flag p.peer.isSome ++ u16 p.priority ++ u32 p.budget ++
      beBytes 8 (p.peer.getD 0).toNat ++ u32 p.ownShare ++ u32 p.peerShare) (takeUp mb s)))

/-- The connection to the back office: waits, BootNotification, heartbeats, NTP, loss, TLS failure, idle windows. With
OCPP on and not retired, the end of a wait, with the link of ocpp.port up, connects, clears the waits, raises
EV_OCPP_CONNECTION and sends BootNotification; a refusal, or the link down, starts the next wait, and before a wait's
end nothing is tried. BootNotification answered Accepted takes its time, ends the hold and sends the queue; otherwise
messages but records are held and the retry interval is the answer's, or 60 s. A heartbeat is sent once booted when its
interval has passed; its answer's time is applied at most hourly, and never with NTP, whose reply is applied. A loss
requeues what may not be dropped, clears connected and booted, starts a wait and raises EV_OCPP_CONNECTION. A TLS
failure is a loss, or a wait, and a security event. A window of periodic IDLE is dated and sends a heartbeat and the
queue. -/
def Obligations.OperatorConnection : Prop :=
  ∀ s : State, appRuns s = true →
    (ocppVersion s ≠ none → lifecycle s ≠ 3 → s.svc.connected = false →
      (s.svc.waitMs = 0 ∨ msecs s.svc.waitMs ≤ (s.time.life - s.svc.waitAt).toNat) →
      ((s.net.port[(Fin.ofNat 8 (cfgNat s.cfg s.fab (.gen .ocppPort)) : Fin 8)]).up = true →
        exec (.ocppReconnect true) s = .next (sendBoot (connectionEvent { s with svc := { s.svc with connected := true, retries := 0, waitMs := 0 } }))) ∧
      ((s.net.port[(Fin.ofNat 8 (cfgNat s.cfg s.fab (.gen .ocppPort)) : Fin 8)]).up = false → exec (.ocppReconnect true) s = .next (startWait s)) ∧
      exec (.ocppReconnect false) s = .next (startWait s)) ∧
    (0 < s.svc.waitMs → (s.time.life - s.svc.waitAt).toNat < msecs s.svc.waitMs → ∀ b, exec (.ocppReconnect b) s = .next s) ∧
    (startWait s = { s with nd := s.nd + 1, svc := { s.svc with waitMs := nextWait s, retries := s.svc.retries + 1, waitAt := s.time.life } }) ∧
    (nextWait s ≤ 1250 * cfgNat s.cfg s.fab (.gen .retryMaxS) + 250) ∧
    (s.svc.connected = true → awaits s .boot = true → ∀ (st : BootStatus) (sec iv : Nat),
      let t := operatorTime sec (dropSent (fun m => m.kind == .boot) s)
      (st = .accepted → exec (.bootNotificationResponse st sec iv) s =
        .next (flush { t with svc := { t.svc with booted := true, held := false }, run := { t.run with booted := true } })) ∧
      (st ≠ .accepted → exec (.bootNotificationResponse st sec iv) s = .next (flush { t with svc := { t.svc with
        booted := false, held := true, retryS := if iv = 0 then 60 else iv, waitMs := 1000 * (if iv = 0 then 60 else iv)
        waitAt := s.time.life } }))) ∧
    (s.svc.connected = true → s.svc.booted = true →
      (cfgNat s.cfg s.fab (.gen .heartbeatS) * 32768 ≤ (s.time.life - s.svc.beatAt).toNat →
        exec .heartbeatSend s = .next { s with svc := { s.svc with
          last := some { kind := .heartbeat }, sent := s.svc.sent ++ [{ kind := .heartbeat }], beatAt := s.time.life } }) ∧
      ((s.time.life - s.svc.beatAt).toNat < cfgNat s.cfg s.fab (.gen .heartbeatS) * 32768 → exec .heartbeatSend s = .next s)) ∧
    (s.svc.connected = true → awaits s .heartbeat = true → ∀ sec : Nat,
      let t := dropSent (fun m => m.kind == .heartbeat) s
      (s.svc.lastTime = none → exec (.heartbeatResponse sec) s = .next (operatorTime sec t)) ∧
      (∀ l, s.svc.lastTime = some l → (3600 * 32768 ≤ (s.time.life - l).toNat → exec (.heartbeatResponse sec) s = .next (operatorTime sec t)) ∧
        ((s.time.life - l).toNat < 3600 * 32768 → exec (.heartbeatResponse sec) s = .next t))) ∧
    (usesNtp s = true → ∀ sec ms : Nat, operatorTime sec s = s ∧ exec (.ntpReply sec ms) s = .next (adjustMs ms (setSecond sec s).2).2) ∧
    (usesNtp s = false → ∀ sec ms : Nat, exec (.ntpReply sec ms) s = .next s) ∧
    (s.svc.connected = true → exec .ocppConnectionLost s = .next (connectionEvent (startWait { s with
      app := { s.app with queue := s.svc.sent.filter undroppable ++ s.app.queue }
      svc := { s.svc with sent := [], connected := false, booted := false, held := false, retries := 0 } }))) ∧
    (s.svc.connected = false → exec .ocppConnectionLost s = .next s) ∧
    (ocppVersion s ≠ none → exec .tlsFailure s = .next (securityMsg "TlsFailure" (if s.svc.connected then loseConnection s else startWait s))) ∧
    (ocppVersion s ≠ none → cfgNat s.cfg s.fab (.gen .idleMode) = 1 →
      let t := { s with svc := { s.svc with window := some s.time.life, waitMs := 0 } }
      (s.svc.connected = true → s.svc.booted = true → exec .idleOcppWindow s = .next (flush (sendNow { kind := .heartbeat } t))) ∧
      (s.svc.connected = false → exec .idleOcppWindow s = .next t))

/-- AUTH_IDENTITY_SUBMIT, Authorize answers and time-outs, the reader, and held identities. A served AUTH_IDENTITY_SUBMIT
in RETIRED answers ST_NOT_PERMITTED, and with an outlet above 1 but 0xFF, a kind other than 1 to 3, or no identity
ST_ARG_RANGE; kind 3 binds as authorised by the host; kinds 1 and 2 run R547. An identity that the list or the cache
says is blocked, expired or invalid is refused with that result and that source; an accepted one is accepted there
where pre-authorisation is on; any other is asked of the back office when it is connected and booted (result 5), and
decided offline otherwise. An Authorize answer enters the cache and ends the wait it belongs to. A time-out,
ocpp.message_timeout_s after the question, ends it by the offline rule. The reader is polled at its period; the third
failed poll in a row marks the reader absent; a good answer clears that; a card seen again
changes nothing more. Held identities lapse after auth.timeout_s. -/
def Obligations.AuthorisationAnswers : Prop :=
  (∀ (s : State) (mb : Mailbox) (b : Bytes), serves .authIdentitySubmit mb b s →
    let u := takeUp mb s
    let kind := rd b 1 1
    let id := (b.drop 4).take (rd b 2 1)
    let bad := (1 < rd b 0 1 ∧ rd b 0 1 ≠ 0xFF) ∨ kind = 0 ∨ 3 < kind ∨ rd b 2 1 = 0
    (lifecycle u = 3 → exec (.authIdentitySubmit mb) s = .next (complete mb .notPermitted [] u)) ∧
    (lifecycle u ≠ 3 → bad → exec (.authIdentitySubmit mb) s = .next (complete mb .argRange [] u)) ∧
    (lifecycle u ≠ 3 → ¬ bad → kind = 3 → exec (.authIdentitySubmit mb) s =
      .next (complete mb .ok [0, 3, 0, 0, 0, 0, 0, 0] (bindId (outletField (rd b 0 1)) 2 id 3 u))) ∧
    (lifecycle u ≠ 3 → ¬ bad → kind ≠ 3 →
      let r := authorise (outletField (rd b 0 1)) kind id true true u
      exec (.authIdentitySubmit mb) s = .next (complete mb .ok (u8 r.1 ++ u8 r.2.1 ++ u16 0 ++ u32 0) r.2.2))) ∧
  (∀ (s : State) (o : Option Outlet) (kind : Nat) (id : Bytes) (ev : Bool) (e : ListEntry) (src r : Nat), findEntry s id = some (e, src) → entryResult s e = some r →
    (r ≠ 0 → (authorise o kind id true ev s).1 = r ∧ (authorise o kind id true ev s).2.1 = src) ∧
    (r = 0 → cfgBool s.cfg s.fab (.gen .localPreAuthorize) = true → (authorise o kind id true ev s).1 = 0 ∧ (authorise o kind id true ev s).2.1 = src)) ∧
  (∀ (s : State) (o : Option Outlet) (kind : Nat) (id : Bytes) (ev : Bool), findEntry s id = none →
    (s.svc.connected = true → s.svc.booted = true →
      (authorise o kind id true ev s).1 = 5 ∧ (authorise o kind id true ev s).2.2 = askOperator { outlet := o, kind, id, locally := false, source := 2, event := ev } s) ∧
    (s.svc.connected = false → (authorise o kind id true ev s).1 = if cfgBool s.cfg s.fab (.gen .offlineUnknown) then 0 else 4)) ∧
  (∀ (s : State) (id : Bytes) (r : AuthStatus) (x : Nat), s.svc.connected = true → appRuns s = true →
    s.svc.sent.any (fun m => m.kind == .authorize && m.text == id) = true →
    let t := cachePut ⟨id, some r, x, parentOf s id⟩ (dropSent (fun m => m.kind == .authorize && m.text == id) s)
    (t.svc.waiting.find? (fun w => w.id == id) = none → exec (.authorizeResponse id r x) s = .next t) ∧
    (∀ w, t.svc.waiting.find? (fun w => w.id == id) = some w → exec (.authorizeResponse id r x) s = .next (authDone w
      (match r with | .accepted => 0 | .blocked => 1 | .expired => 2 | .invalid => 3 | .unknown => 4) 2
      { t with svc := { t.svc with waiting := t.svc.waiting.erase w } }))) ∧
  (∀ s : State, appRuns s = true →
    (∀ (id : Bytes) (w : AuthWait), s.svc.waiting.find? (fun w => w.id == id &&
        decide (cfgNat s.cfg s.fab (.gen .messageTimeoutS) * 32768 ≤ (s.time.life - w.asked).toNat)) = some w → exec (.authOfflineTimeout id) s =
      .next (authDone w (offlineResult s w (w.source != 2)).1 (offlineResult s w (w.source != 2)).2 { s with svc := { s.svc with waiting := s.svc.waiting.erase w } })) ∧
    (∀ id, (∀ w ∈ s.svc.waiting, w.id = id → (s.time.life - w.asked).toNat < cfgNat s.cfg s.fab (.gen .messageTimeoutS) * 32768) →
      exec (.authOfflineTimeout id) s = .next s) ∧
    (exec .identityLapse s = .next { s with svc := { s.svc with heldIds := s.svc.heldIds.filter (fun h =>
      !decide (cfgNat s.cfg s.fab (.gen .authTimeoutS) * 32768 ≤ (s.time.life - h.life).toNat)) } }) ∧
    (∀ l, s.svc.polledAt = some l → (s.time.life - l).toNat < msecs (cfgNat s.cfg s.fab (.gen .readerPollMs)) →
      ∀ a, exec (.readerPoll a) s = .next s) ∧
    (cfgOpt s.cfg s.fab (.gen .readerPort) ≠ none →
      (∀ l, s.svc.polledAt = some l → msecs (cfgNat s.cfg s.fab (.gen .readerPollMs)) ≤ (s.time.life - l).toNat) →
      (exec (.readerPoll none) s = .next { s with svc := { s.svc with
        polledAt := some s.time.life
        readerFails := s.svc.readerFails + 1, readerAbsent := s.svc.readerAbsent || decide (3 ≤ s.svc.readerFails + 1) } }) ∧
      (∀ b : Bytes, readerAnswer b = some none → ∃ x y, exec (.readerPoll (some b)) s =
        .next { s with svc := { s.svc with
          polledAt := some s.time.life, readerFails := 0, readerAbsent := false, noCardSince := some x, readerUid := y } }) ∧
      (∀ (b uid : Bytes), readerAnswer b = some (some uid) → s.svc.readerUid = some uid → exec (.readerPoll (some b)) s =
        .next { s with svc := { s.svc with polledAt := some s.time.life, readerFails := 0, readerAbsent := false, noCardSince := none } }))) ∧
  (∀ (e : ListEntry) (s : State), (cachePut e s).app.cache.length ≤ 2000 ∧ e ∈ (cachePut e s).app.cache)

/-- The back office's requests: lists, starts and stops, reservations, settings, tariffs, profiles, certificates. While
connected: SendLocalList with more than 500 entries, or giving more than 10,000, is answered Failed; else it takes the
version and the entries with a status, and is Accepted; one that carries more than 64 KiB is a violation of form.
ClearCache empties the cache alone. A remote start binds its identity to an outlet that may start and waits, or is idle
with none held for it; otherwise it is Rejected. A stop ends the session it names, or is Rejected. ReserveNow and
CancelReservation are NotSupported under 2.0.1; a possible reservation replaces one of its number, and ends at its
expiry. A name outside ocpp, auth and solar is NotSupported or UnknownVariable, and every change on trial is Rejected.
Tariff tables and switches are Accepted where MET takes them, else Rejected with the status. A profile above 24 periods
or 8 stored, or a transaction's without session, is Rejected. A period beginning works the schedule out anew. -/
def Obligations.OperatorRequests : Prop :=
  ∀ s : State, appRuns s = true →
    (∀ o, exec (.chargingProfilePeriod o) s = .next (reschedule o s)) ∧
    (∀ n : Nat, let waits := fun (r : Reservation) => s.svc.waiting.any (fun w => reservationFits s r w.id)
      exec (.reservationExpire n) s = .next (reportStatus s { s with svc := { s.svc with reservations := s.svc.reservations.filterMap (fun r =>
        if r.number ≠ n ∨ s.time.rtcSec.toNat < r.expiry then some r else if waits r then some { r with ended := true } else none) } })) ∧
    (s.svc.connected = true →
      (∀ (v : Nat) (full : Bool) (l : List ListEntry),
        let old := if full then [] else s.app.list.filter (fun e => !(l.map ListEntry.id).contains e.id)
        let new := old ++ l.filter (fun e => e.status.isSome)
        let bytes := (l.map (fun e => e.id.length + e.parent.length)).sum
        (65536 < bytes → exec (.sendLocalList v full l) s =
          .next (answerText (if ocppVersion s = some 0 then "FormationViolation" else "FormatViolation") s)) ∧
        (bytes ≤ 65536 → 500 < l.length ∨ 10000 < new.length → exec (.sendLocalList v full l) s = .next (answerText "Failed" s)) ∧
        (bytes ≤ 65536 → l.length ≤ 500 → new.length ≤ 10000 → exec (.sendLocalList v full l) s =
          .next (answer true { s with app := { s.app with list := new, listVersion := v } }))) ∧
      (exec .clearCache s = .next (answer true { s with app := { s.app with cache := [] } })) ∧
      (∀ (o : Outlet) (k : Nat) (id : Bytes),
        (mayStart s o id = true → waitsForId s o = true → exec (.remoteStart o k id) s = .next (answer true (bindId (some o) k id 2 s))) ∧
        (mayStart s o id = true → stateIn s o [.idle] = true → s.svc.heldIds.any (fun h => h.outlet == some o) = false →
          exec (.remoteStart o k id) s = .next (answer true (bindId (some o) k id 2 s))) ∧
        (mayStart s o id = false → exec (.remoteStart o k id) s = .next (answer false s))) ∧
      (∀ n : Nat, (∀ o, sessionOf s n = some o → exec (.operatorStop n) s = .next (answer true (stopSession o .operatorStop .requested s))) ∧
        (sessionOf s n = none → exec (.operatorStop n) s = .next (answer false s))) ∧
      (ocppVersion s ≠ some 0 → (∀ o n id p x, exec (.reserveNow o n id p x) s = .next (answerText "NotSupported" s)) ∧
        (∀ n, exec (.cancelReservation n) s = .next (answerText "NotSupported" s))) ∧
      (ocppVersion s = some 0 →
        (∀ (o : Option Outlet) (n : Nat) (id p : Bytes) (x : Nat),
          (mayReserve s o n x = true → exec (.reserveNow o n id p x) s = .next (reportStatus s (answer true { s with svc := { s.svc with
            reservations := s.svc.reservations.filter (fun r => r.number != n) ++ [{ number := n, outlet := o, id := id, parent := p, expiry := x }] } }))) ∧
          (mayReserve s o n x = false → exec (.reserveNow o n id p x) s = .next (answer false s))) ∧
        (∀ n : Nat, (s.svc.reservations.any (fun r => r.number == n) = true → exec (.cancelReservation n) s =
            .next (reportStatus s (answer true (dropReservation n s)))) ∧
          (s.svc.reservations.any (fun r => r.number == n) = false → exec (.cancelReservation n) s = .next (answer false s)))) ∧
      (∀ name v : Bytes, name.length + v.length ≤ 65536 → (operatorKey name = none → exec (.changeConfiguration name v) s =
          .next (answerText (if ocppVersion s = some 0 then "NotSupported" else "UnknownVariable") s)) ∧
        (∀ k, operatorKey name = some k → onTrial s = true → exec (.changeConfiguration name v) s = .next (answer false s)) ∧
        (∀ k, operatorKey name = some k → onTrial s = false → exec (.changeConfiguration name v) s = .next (changeKey k v s))) ∧
      (∀ t b x : Nat, (switchFails s t b x = none → exec (.tariffSwitchDatatransfer t b x) s = .next (answer true (metRequest (.tariffSwitch t b x) s))) ∧
        (∀ st, switchFails s t b x = some st → exec (.tariffSwitchDatatransfer t b x) s = .next (answerText ("Rejected " ++ tariffStatusName st) s))) ∧
      (∀ l : List TariffEntry, l.any (fun e => decide (255 < e.days)) = false →
        let m := l.map (fun e => (e.tariff, BitVec.ofNat 8 e.days, e.minute))
        (tableFails m = none → exec (.tariffTableDatatransfer l) s = .next (answer true (metRequest
          (.tariffTable m (cfgInt s.cfg s.fab (.gen .utcOffset)) (cfgText s.cfg s.fab (.gen .dstRule))) s))) ∧
        (∀ st, tableFails m = some st → exec (.tariffTableDatatransfer l) s = .next (answerText ("Rejected " ++ tariffStatusName st) s))) ∧
      (∀ (o : Outlet) (p : ChargingProfile),
        let l := storeProfile p (s.svc.profiles.get o)
        (24 < p.periods.length ∨ 8 < l.length ∨ (p.purpose = 2 ∧ sessionOpen s o = false) → exec (.setChargingProfile o p) s = .next (answer false s)) ∧
        (p.periods.length ≤ 24 → l.length ≤ 8 → p.purpose < 2 → exec (.setChargingProfile o p) s =
          .next (answer true (reschedule o { s with svc := { s.svc with profiles := s.svc.profiles.modify o (fun _ => l) } })))) ∧
      (∀ k der, der.length ≤ 65536 → exec (.installCertificate (.install k der)) s =
        .next (answer true { s with app := { s.app with certs := s.app.certs.filter (fun c => c != (k, der)) ++ [(k, der)] } })) ∧
      (∀ h, s.app.certs.any (fun c => Config.certHash c.2 == h) = false → exec (.installCertificate (.delete h)) s = .next (answerText "NotFound" s)))

/-- Meter values, record delivery, transaction answers, and solar following. In a billed session each meter interval queues
a meter message of the version with the session and its measurands. A record waiting for its answer is sent again;
otherwise the queue is sent. A transaction answer for a record ends its repetition, and an idTagInfo enters the cache.
SOLAR_FOLLOW_SET with outlet above 1 or mode above 2, or in mode 2 with a minimum below 6 A on AC or 1 A on DC or
above the limit, is ST_ARG_RANGE; else it sets mode and minimum and ends a pause. Each second keeps 60 productions and
works out the surplus: the mean over solar.filter_s less base load and reserve, not below zero. Each update, at
solar.update_s, turns both outlets' shares into targets. A share below the minimum for solar.stop_s pauses with target
zero; from the pause, one at or above it for solar.start_s resumes at the share. -/
def Obligations.MessagesAndSolar : Prop :=
  (∀ (s : State) (mb : Mailbox) (b : Bytes), serves .solarFollowSet mb b s →
    let u := takeUp mb s
    let o := outletOfNum (rd b 0 1)
    let v := rdI32 b 4
    let bad := 1 < rd b 0 1 ∨ 2 < rd b 1 1 ∨ (rd b 1 1 = 2 ∧ (v < (if isDc u o then 1000 else 6000) ∨ (limitMa u o false : Int) < v))
    (bad → exec (.solarFollowSet mb) s = .next (complete mb .argRange [] u)) ∧
    (¬ bad → exec (.solarFollowSet mb) s = .next (complete mb .ok []
      (modSolar o (fun x => { x with mode := rd b 1 1, minMa := v.toNat, below := none, above := none, paused := false }) u)))) ∧
  (∀ s : State, appRuns s = true →
    (∀ o : Outlet, (s.veh.out.get o).billed = true → sessionOpen s o = true →
      let n := cfgNat s.cfg s.fab (.gen .meterIntervalS)
      let since := (s.time.life - (if (s.veh.out.get o).startLife.toNat ≤ (s.svc.meterAt.get o).toNat then s.svc.meterAt.get o
        else (s.veh.out.get o).startLife)).toNat
      (n ≠ 0 → n * 32768 ≤ since → exec (.meterValuesSend o) s = .next (putMsg
        { kind := if ocppVersion s = some 1 then .txUpdate else .meter
          outlet := some o, nums := (s.veh.out.get o).id.toNat :: measurands s o }
        { s with svc := { s.svc with meterAt := s.svc.meterAt.modify o (fun _ => s.time.life) } })) ∧
      (n = 0 ∨ since < n * 32768 → exec (.meterValuesSend o) s = .next s)) ∧
    (s.svc.connected = true → ∀ n : Nat,
      (∀ m, s.svc.sent.find? (fun m => msgRecord m == some (n : Int)) = some m → exec (.recordDelivery n) s = .next { s with svc := { s.svc with last := some m } }) ∧
      (s.svc.sent.find? (fun m => msgRecord m == some (n : Int)) = none → exec (.recordDelivery n) s = .next (flush s)) ∧
      (∀ e : ListEntry, exec (.transactionResponse (some n) (some e)) s =
        .next (cachePut e { s with svc := { s.svc with sent := s.svc.sent.filter (fun m => msgRecord m != some (n : Int)) } })) ∧
      exec (.transactionResponse none none) s = .next (dropSent (fun m => m.kind == .txStart) s)) ∧
    (let l := (production s :: s.svc.production).take 60
     let f := l.take (cfgNat s.cfg s.fab (.gen .solarFilterS))
     (∀ l, s.svc.producedAt = some l → 32768 ≤ (s.time.life - l).toNat) → exec .solarProductionTick s = .next { s with svc := { s.svc with
       producedAt := some s.time.life, production := l, surplus := (if f.isEmpty then 0 else f.sum / f.length) - 1000000 * (cfgNat s.cfg s.fab (.gen .solarBaseLoad) + cfgNat s.cfg s.fab (.gen .solarReserve)) } }) ∧
    ((∀ l, s.svc.solarAt = some l → cfgNat s.cfg s.fab (.gen .solarUpdateS) * 32768 ≤ (s.time.life - l).toNat) →
      exec .solarUpdate s = .next (followSun .b (followSun .a { s with svc := { s.svc with solarAt := some s.time.life } }))) ∧
    (∀ l, s.svc.solarAt = some l → (s.time.life - l).toNat < cfgNat s.cfg s.fab (.gen .solarUpdateS) * 32768 → exec .solarUpdate s = .next s) ∧
    (∀ (o : Outlet) (l : Life), (s.svc.solar.get o).mode = 1 → followsSun s o = true →
      ((s.svc.solar.get o).paused = false → (s.svc.solar.get o).below = some l → cfgNat s.cfg s.fab (.gen .solarStopS) * 32768 ≤ (s.time.life - l).toNat →
        exec (.solarStopTimer o) s = .next (setTarget o 0 none (modSolar o (fun x => { x with paused := true, below := none, above := none }) s))) ∧
      ((s.svc.solar.get o).paused = true → (s.svc.solar.get o).above = some l → cfgNat s.cfg s.fab (.gen .solarStartS) * 32768 ≤ (s.time.life - l).toNat →
        exec (.solarStartTimer o) s = .next (solarTarget o (s.svc.solar.get o).share 0 (modSolar o (fun x => { x with paused := false, above := none, below := none }) s)))) ∧
    (∀ o : Outlet, (s.svc.solar.get o).mode ≠ 1 → exec (.solarStopTimer o) s = .next s ∧ exec (.solarStartTimer o) s = .next s)) ∧
  (∀ (s : State) (o : Outlet), (followsSun s o = false → shareOf s o = 0) ∧
    (followsSun s o = true → followsSun s o.other = false → shareOf s o = s.svc.surplus) ∧
    (followsSun s o = true → followsSun s o.other = true → shareOf s o = s.svc.surplus - min (s.svc.surplus / 2) (usable s o.other))) ∧
  (∀ (o : Outlet) (s : State), followsSun s o = true → freeTariff s = true → followSun o s =
    setTarget o (limitMa s o false : Nat) none (modSolar o (fun x => { x with share := shareOf s o, below := none, above := none, paused := false }) s))

/-- DISPLAY_REGION_WRITE and DISPLAY_UPDATE: the refusals of R588, and what an accepted rectangle does. A served
DISPLAY_REGION_WRITE whose rectangle reaches beyond W or H answers ST_ARG_RANGE; one within them, of at most 1,000
pixels, that touches the legal band answers ST_LEGAL_AREA; either changes nothing else. Any other one of non-zero size
writes its pixels to the target plane, low nibble first, row by row, and changes no other pixel. A served
DISPLAY_UPDATE, with the die good, answers ST_ARG_RANGE for a rectangle beyond W or H, ST_LEGAL_AREA for one that
touches the legal band, and, where it overlaps no update, ST_BUSY with all 7 application slots taken; with a free slot
it takes the first and completes with ST_OK. -/
def Obligations.DisplayRectangles : Prop :=
  (∀ (s : State) (mb : Mailbox) (b : Bytes), serves .displayRegionWrite mb b s →
    let u := takeUp mb s
    let f := u.fab.disp
    let x := rd b 0 2
    let y := rd b 2 2
    let w := rd b 4 2
    let h := rd b 6 2
    (f.width < x + w ∨ f.height < y + h → exec (.displayRegionWrite mb) s = .next (complete mb .argRange [] u)) ∧
    (0 < w → 0 < h → w * h ≤ 1000 → x + w ≤ f.width → y + h ≤ f.height →
      (f.height - f.legalRows < y + h → exec (.displayRegionWrite mb) s = .next (complete mb .legalArea [] u)) ∧
      (y + h ≤ f.height - f.legalRows → f.width ≤ 960 → Memory.wf u.disp.target = true → ∃ m,
        exec (.displayRegionWrite mb) s = .next (complete mb .ok [] { u with disp := { u.disp with target := m } }) ∧
        (∀ i j, i < w → j < h → Memory.read m ((y + j) * 960 + (x + i)) = nibble (b.drop 12) (j * w + i)) ∧
        (∀ p q, p < 960 → p < x ∨ x + w ≤ p ∨ q < y ∨ y + h ≤ q → Memory.read m (q * 960 + p) = Memory.read u.disp.target (q * 960 + p)) ∧
        Memory.wf m = true))) ∧
  (∀ (s : State) (mb : Mailbox) (b : Bytes), serves .displayUpdate mb b s →
    let u := takeUp mb s
    let f := u.fab.disp
    let x := rd b 0 2
    let y := rd b 2 2
    let w := rd b 4 2
    let h := rd b 6 2
    dieGood u = true →
    (f.width < x + w ∨ f.height < y + h → exec (.displayUpdate mb) s = .next (complete mb .argRange [] u)) ∧
    (0 < w → 0 < h → rd b 10 1 ≤ 1 → x + w ≤ f.width → y + h ≤ f.height →
      (f.height - f.legalRows < y + h → exec (.displayUpdate mb) s = .next (complete mb .legalArea [] u)) ∧
      (y + h ≤ f.height - f.legalRows → (∀ (i : Fin 8) (v : DispUpdate), u.disp.slots[i] = some v → overlaps x y w h v = false) →
        ((∀ i : Fin 8, i.val < 7 → u.disp.slots[i] ≠ none) → exec (.displayUpdate mb) s = .next (complete mb .busy [] u)) ∧
        (∀ i : Fin 8, i.val < 7 → u.disp.slots[i] = none → (∀ j : Fin 8, j.val < i.val → u.disp.slots[j] ≠ none) →
          exec (.displayUpdate mb) s = .next (complete mb .ok [] { u with disp := { u.disp with
            slots := u.disp.slots.set i (some { x := x, y := y, w := w, h := h, ident := BitVec.ofNat 16 (rd b 8 2), fast := rd b 10 1 == 1 }) } })))))

/-- Display updates: start, frames, end and the tiles' stress; the legal update; SEGMENT_SET and DISPLAY_STATUS_GET. At
a frame boundary with the display drivable every waiting update starts in slot order and the panel temperature is kept;
without driven pixels it ends at once with ST_OK and counts nothing. A frame selects the rows of driven pixels, gives
each started update's pixels the level of their code and every other pixel of those rows 0 V, and advances each update
up to its longest waveform. An update not started or not driven to its end does not end. One that ends frees its slot,
sets its pixels' current states, adds to every tile 16 times its non-zero driven pixel-frames over the tile's pixels,
and counts once. On a change, or when its cadence has passed, MET asks for the first page with a session or outside RUN,
and alternates the pages at the cadence otherwise. SEGMENT_SET with a mask that touches bits 0 to 7 answers
ST_LEGAL_AREA; else it sets the masked bits of the pattern requested. DISPLAY_STATUS_GET answers sixteen bytes. -/
def Obligations.DisplayEngine : Prop :=
  (∀ (s : State) (t : Option Int), dispDrives s = true → exec (.displayUpdateStart t) s =
    let u := forEach (List.finRange 8) (startUpdate (bandTemp s t)) s
    .next (judgeDisplay { u with disp := { u.disp with
      deciC := t.orElse (fun _ => u.disp.deciC), deciCAt := if t.isSome then some u.time.life else u.disp.deciCAt } })) ∧
  (∀ (s : State) (t : Option Int), dispDrives s = false → exec (.displayUpdateStart t) s = .next s ∧ exec .displayFrame s = .next s) ∧
  (∀ (s : State) (c : Int) (i : Fin 8) (u : DispUpdate), s.disp.slots[i] = some u → i.val < 7 → u.started = false →
    let px := (rectPixels u.x u.y u.w u.h).filterMap (pixelWave s u.fast c)
    (px = [] → startUpdate c i s = raise .displayUpdateDone (u16 u.ident.toNat ++ [0, 0])
      { s with disp := { s.disp with slots := s.disp.slots.set i none, lastIdent := u.ident } }) ∧
    (px ≠ [] → startUpdate c i s = { s with disp := { s.disp with slots := s.disp.slots.set i (some { u with
      started := true, pixels := px, longest := px.foldl (fun n p => max n p.codes.length) 0 }) } })) ∧
  (∀ s : State, dispDrives s = true → exec .displayFrame s =
    let l := s.disp.slots.toList.flatMap (fun u => (u.map frameCodes).getD [])
    .next { s with disp := { s.disp with
      scan := scanOf s.fab (l ++ testCodes s l)
      slots := s.disp.slots.map (fun u => u.map (fun x => if x.started && decide (x.frame < x.longest) then { x with frame := x.frame + 1 } else x)) } }) ∧
  (∀ (f : Fab) (l : List (Nat × Nat)) (y : Nat) (v : List Int), (y, v) ∈ scanOf f l →
    y ≤ f.disp.height ∧ (∃ p ∈ l, pixelY p.1 = y) ∧ v.length = f.disp.width ∧
    ∀ x, x < f.disp.width → (∀ p ∈ l, p.1 ≠ pixelAt x y) → v.getD x 1 = 0) ∧
  (∀ (s : State) (i : Fin 8),
    (s.disp.slots[i] = none → exec (.displayUpdateEnd i) s = .next s) ∧
    (∀ u, s.disp.slots[i] = some u → u.started = false ∨ u.frame < u.longest → exec (.displayUpdateEnd i) s = .next s) ∧
    (∀ u, s.disp.slots[i] = some u → u.started = true → u.longest ≤ u.frame → ∃ t, exec (.displayUpdateEnd i) s = .next t ∧
      t.dispStore.updates = s.dispStore.updates + 1 ∧ t.disp.stress = addStress s.fab u s.disp.stress ∧
      t.disp.current = u.pixels.foldl (fun m p => Memory.write m p.pixel (BitVec.ofNat 8 (p.new + 1))) s.disp.current ∧
      (i.val < 7 → t.disp.slots = s.disp.slots.set i none))) ∧
  (∀ s : State, s.met.running = true →
    (legalDue s = false → exec .legalUpdateRequest s = .next s) ∧
    (legalDue s = true → anySession s = true ∨ s.pwr.state ≠ .run → exec .legalUpdateRequest s = .next (requestLegal false 0 s)) ∧
    (legalDue s = true → anySession s = false → s.pwr.state = .run → exec .legalUpdateRequest s =
      .next (requestLegal false (if legalCadence s then 1 - s.disp.legal.page else s.disp.legal.page) s))) ∧
  (∀ (s : State) (mb : Mailbox) (b : Bytes), serves .segmentSet mb b s →
    let m := BitVec.ofNat 64 (rd b 8 8)
    let u := takeUp mb s
    (m &&& 0xFF ≠ 0 → exec (.segmentSet mb) s = .next (complete mb .legalArea [] u)) ∧
    (m &&& 0xFF = 0 → exec (.segmentSet mb) s = .next (complete mb .ok []
      { u with wch := { u.wch with segReq := (u.wch.segReq &&& ~~~m) ||| (BitVec.ofNat 64 (rd b 0 8) &&& m) } }))) ∧
  (∀ (s : State) (mb : Mailbox) (b : Bytes), serves .displayStatusGet mb b s →
    let u := takeUp mb s
    exec (.displayStatusGet mb) s = .next (complete mb .ok (u8 (b1 u.disp.verified) ++ u8 (b1 (anyUpdate u)) ++ u16 u.wch.crackOhm.toNat
      ++ u16 u.disp.lastIdent.toNat ++ [0, 0] ++ u32 u.dispStore.updates.toNat ++ [0, 0, 0, 0]) u))

/-- The display's output test, ageing sensing, stress counters, a die fault and a stale temperature. An output test of a
powered die, at start or, while no update runs, after 24 h of RUN, marks the start or the later test as its faulty
outputs, below 20 or above 300 percent of their group's median, unverify it (sources within W, gates of the legal rows,
the test row with ageing sensed, segments 0 to 7, SEG_COM), and keeps the faulty rows of the application area. Ageing
sensing with 16 charges, sensed ageing, a test row and no update, once per 24 h of RUN, keeps the first charges ever
taken and sets each column's factor; a charge below 30 or above 120 percent of the first gives none. The stress counters
of a powered die are written after each hour of RUN. A fault of the powered die cuts every update with ST_ABORTED, and
the display is judged anew. A temperature 10 minutes old is forgotten. Verification is exactly the conditions of R585;
its loss sets SEG06 and stops the running billed sessions. -/
def Obligations.DisplayFaults : Prop :=
  (∀ (s : State) (x : OutputCharges), panelFits s x = true → s.disp.powered = true →
      (s.disp.startTested = false ∨ (anyUpdate s = false ∧ s.disp.testAt + 86400 * 32768 ≤ s.disp.runTime)) →
    let l := faultyOutputs x
    let bad := l.any (unverifies s)
    exec (.outputTest x) s = .next (judgeDisplay { s with disp := { s.disp with
      startFault := if s.disp.startTested then s.disp.startFault else bad
      testFault := s.disp.startTested && bad
      startTested := true
      testAt := s.disp.runTime
      faulty := l
      badRows := (faultyRows l).filter (fun n => decide (n < legalTop s.fab))
      testRowFault := (faultyRows l).contains s.fab.disp.height } })) ∧
  (∀ (s : State) (x : OutputCharges), panelFits s x = true → s.disp.powered = false ∨
    (s.disp.startTested = true ∧ (anyUpdate s = true ∨ s.disp.runTime < s.disp.testAt + 86400 * 32768)) → exec (.outputTest x) s = .next s) ∧
  (∀ (g : List (DispOutput × Nat)) (o : DispOutput) (n : Nat), (o, n) ∈ g →
    (10 * n < twiceMedian (g.map Prod.snd) ∨ 3 * twiceMedian (g.map Prod.snd) < 2 * n) → o ∈ faultyOf g) ∧
  (∀ (s : State) (l : List Nat), l.length = 16 → dispDrives s = true → cfgNat s.cfg s.fab (.gen .ageing) = 1 → s.fab.disp.testRow = true → anyUpdate s = false →
    (∀ x, s.disp.sensedAt = some x → x + 86400 * 32768 ≤ s.disp.runTime) → ∃ t, exec (.ageingSensing l) s = .next t ∧ ∀ i : Fin 16, t.dispStore.firstCharge[i] = some ((s.dispStore.firstCharge[i]).getD (l.getD i.val 0)) ∧
      t.disp.sensed[i] = sensedFactor ((s.dispStore.firstCharge[i]).getD (l.getD i.val 0)) (l.getD i.val 0)) ∧
  (∀ first now : Nat, (10 * now < 3 * first ∨ 12 * first < 10 * now → sensedFactor first now = none) ∧
    (0 < now → 3 * first ≤ 10 * now → 10 * now ≤ 12 * first → ∃ x, sensedFactor first now = some x ∧ 256 ≤ x ∧ x ≤ 384)) ∧
  (∀ s : State, s.disp.powered = true →
    (s.pwr.state = .run → s.disp.tilesAt + 3600 * 32768 ≤ s.disp.runTime → exec .tileCounterWrite s = .next { s with
      dispStore := { s.dispStore with stress := s.disp.stress }, disp := { s.disp with tilesAt := s.disp.runTime } }) ∧
    exec .displayDieFault s = .next (judgeDisplay (cutUpdates true { s with disp := { s.disp with dieFault := true } }))) ∧
  (∀ s : State, s.disp.powered = false → exec .tileCounterWrite s = .next s ∧ exec .displayDieFault s = .next s) ∧
  (∀ (s : State) (l : Life), s.disp.deciCAt = some l →
    (600 * 32768 ≤ (s.time.life - l).toNat → exec .tempChannelStale s = .next { s with disp := { s.disp with deciC := none, deciCAt := none } }) ∧
    ((s.time.life - l).toNat < 600 * 32768 → exec .tempChannelStale s = .next s)) ∧
  (∀ s : State, (displayGood s = s.disp.verified → judgeDisplay s = s) ∧ (displayGood s = true ↔ s.wch.crackOk = true ∧ s.disp.powered = true ∧
      s.disp.dieFault = false ∧ cfgBool s.cfg s.fab (.gen .dispEnable) = true ∧ s.disp.startTested = true ∧ s.disp.startFault = false ∧ s.disp.testFault = false ∧ s.disp.startDone = true) ∧
    (displayGood s = true → s.disp.verified = false → judgeDisplay s =
      putSegment 6 false (raise .displayVerified (u8 1 ++ u8 0 ++ u16 s.wch.crackOhm.toNat) { s with disp := { s.disp with verified := true } })))

/-- PSP_TRANSFER and its run, the busy time-out, GPIO_SET, GPIO_GET and WATCH_STATUS_GET. A served PSP_TRANSFER on an
enabled port 0 to 2 without a select, whose transmit or receive width exceeds the wired lanes, answers ST_ARG_RANGE
and clocks nothing; with t and r zero it completes at once; otherwise it joins its port's queue. The head of a queue
that may run ends with ST_OK and its r received bytes, keeping its clocks, its time and the levels it drove; on a marker
port a receive phase follows the first group that is the marker, and without one before the time-out the transfer ends
with ST_PSP_BUSY_TIMEOUT. GPIO_SET naming a select pin or one that a module function owns answers ST_GP_OWNED
and changes no pin; else it sets the levels of the named pins of function out or od, and of no other. GPIO_GET answers
the levels at the lands and the pins that drive. WATCH_STATUS_GET answers status, last wake, crack loop, records
waiting and lost. -/
def Obligations.PortsAndPins : Prop :=
  (∀ (s : State) (mb : Mailbox) (b : Bytes), serves .pspTransfer mb b s →
    let u := takeUp mb s
    let p : Fin 3 := Fin.ofNat 3 (rd b 0 1)
    let t := rd b 4 2
    let r := rd b 6 2
    let lanes := max u.pins.psp[p].keys.lanes 1
    rd b 0 1 < 3 → u.pins.psp[p].keys.enable = true → domainOut u .per = false → rd b 1 1 = 0xFF → rd b 2 1 ≤ 1 →
    (lanes < pspBits (rd b 3 1) ∨ lanes < pspBits (rd b 3 1 / 4) → exec (.pspTransfer mb) s = .next (complete mb .argRange [] u)) ∧
    (pspBits (rd b 3 1) ≤ lanes → pspBits (rd b 3 1 / 4) ≤ lanes → (rd b 3 1).testBit 4 = false → t ≤ 500 → r ≤ 500 → 1 ≤ rd b 8 4 → rd b 8 4 ≤ 50000 →
      (t = 0 → r = 0 → exec (.pspTransfer mb) s = .next (complete mb .ok [] u)) ∧
      (t ≠ 0 ∨ r ≠ 0 → exec (.pspTransfer mb) s = .next (startTransfers { u with pins := { u.pins with
        tickets := u.pins.tickets + 1
        psp := vmod u.pins.psp p (fun x => { x with queue := x.queue ++ [{
          host := mb, ticket := u.pins.tickets, select := none, active := rd b 2 1 == 1, txBits := pspBits (rd b 3 1), rxBits := pspBits (rd b 3 1 / 4)
          fdx := false, firstX1 := (BitVec.ofNat 8 (rd b 3 1)).getLsbD 5, receive := r, k := pspDivisor (rd b 8 4), data := (b.drop 12).take t }] }) } })))) ∧
  (∀ (s : State) (p : Fin 3), s.pins.psp[p].queue = [] → ∀ (g : List Bytes) (l : List (List (Nat × Bool))), exec (.pspTransferRun p g l) s = .next s ∧ exec (.pspBusyTimeout p) s = .next s) ∧
  (∀ (s : State) (p : Fin 3) (t : Transfer) (q : List Transfer), s.pins.psp[p].queue = t :: q → mayRun s p t = true →
    (s.pins.psp[p].keys.marker = false ∨ t.receive = 0 ∨ t.fdx = true → ∀ (g : List Bytes) (l : List (List (Nat × Bool))),
      exec (.pspTransferRun p g l) s = .next (runTransfer p t 0 l s)) ∧
    (s.pins.psp[p].keys.marker = true → t.receive ≠ 0 → t.fdx = false → ∀ (g : List Bytes) (l : List (List (Nat × Bool))),
      (∀ n, busyBefore s.pins.psp[p].keys t g = some n → exec (.pspTransferRun p g l) s = .next (runTransfer p t n l s)) ∧
      (busyBefore s.pins.psp[p].keys t g = none → 50 * s.pins.psp[p].keys.timeoutUs ≤ g.length * t.k →
        exec (.pspTransferRun p g l) s = .next (endTransfer p t .pspBusyTimeout [] s)) ∧
      (busyBefore s.pins.psp[p].keys t g = none → g.length * t.k < 50 * s.pins.psp[p].keys.timeoutUs → exec (.pspTransferRun p g l) s = .next s)) ∧
    (s.pins.psp[p].keys.marker = true → t.receive ≠ 0 → t.fdx = false → exec (.pspBusyTimeout p) s = .next (endTransfer p t .pspBusyTimeout [] s)) ∧
    (s.pins.psp[p].keys.marker = false → exec (.pspBusyTimeout p) s = .next s)) ∧
  (∀ (s : State) (p : Fin 3) (t : Transfer) (n : Nat) (l : List (List (Nat × Bool))), runTransfer p t n l s =
    endTransfer p t .ok (receivedBytes t l) (modPsp p (fun x => { x with
      lastK := t.k, lastClocks := pspClocks t s.pins.psp[p].keys.marker n
      lastPs := transferPs t (pspClocks t s.pins.psp[p].keys.marker n), lastLanes := drivenLanes t }) s)) ∧
  (∀ (t : Transfer) (l : List (List (Nat × Bool))), (receivedBytes t l).length = t.receive) ∧
  (∀ (t : Transfer), t.txBits = 1 → t.fdx = false → (drivenLanes t).length = 8 * t.data.length) ∧
  (∀ (k : PspKeys) (t : Transfer) (g : List Bytes) (n : Nat), busyBefore k t g = some n →
    (∃ b, g[n]? = some b ∧ isMarker k t b = true) ∧ ∀ m, m < n → ∀ b, g[m]? = some b → isMarker k t b = false) ∧
  (∀ (s : State) (mb : Mailbox) (b : Bytes), serves .gpioSet mb b s →
    let u := takeUp mb s
    let named := fun (i : Fin 64) => (rd b 0 8).testBit i.val = true
    ((∃ i, named i ∧ (u.pins.fn[i] = .select ∨ pinOwned u i = true)) → exec (.gpioSet mb) s = .next (complete mb .gpOwned [] u)) ∧
    ((∀ i, named i → u.pins.fn[i] ≠ .select ∧ pinOwned u i = false) → ∃ w,
      exec (.gpioSet mb) s = .next (complete mb .ok [] { u with pins := { u.pins with out := w } }) ∧
      ∀ i : Fin 64, w.getLsbD i.val = if named i ∧ (u.pins.fn[i] = .out ∨ u.pins.fn[i] = .od) then (rd b 8 8).testBit i.val else u.pins.out.getLsbD i.val)) ∧
  (∀ (s : State) (mb : Mailbox) (b : Bytes) (l : BitVec 64), serves .gpioGet mb b s → ∃ w : BitVec 64,
    exec (.gpioGet mb l) s = .next (complete mb .ok (u64 l.toNat ++ u64 w.toNat) (takeUp mb s)) ∧
    ∀ i : Fin 64, w.getLsbD i.val = pinDrives (takeUp mb s) i) ∧
  (∀ (s : State) (mb : Mailbox) (b : Bytes), serves .watchStatusGet mb b s →
    let u := takeUp mb s
    exec (.watchStatusGet mb) s = .next (complete mb .ok (u32 (wchStatus u.wch) ++ u32 u.wb.wakeCause.toNat ++ u16 u.wch.crackOhm.toNat
      ++ u16 u.wch.ring.length ++ u16 u.wch.lost.toNat ++ u16 0) u))

/-- The candidate, CONFIG_KEY_SET and GET, CONFIG_INFO_GET, and what a commit and a revert do. Served commands:
CANDIDATE_OPEN with a source above 1 answers ST_ARG_RANGE and with a format other than the written one ST_CONFIG_FORMAT;
else a fresh candidate, empty or a copy of the set in force, takes the next sequence number, an earlier one being
discarded. CANDIDATE_WRITE without a candidate answers ST_CONFIG_NO_CANDIDATE, past 65,504 bytes ST_CONFIG_OVERSIZE;
else it writes its bytes at the offset, filling a gap with zeros, and answers the length. KEY_SET checks name and value
lengths, candidate, name and value (a rate against the channel's mode) in that order, then puts the line with the
value's canonical text. KEY_GET answers the text in force, of the previous set, or of the candidate, cut at 444 bytes.
INFO_GET answers a record of 16 bytes for each of the four roles. None of them changes the set in force. A served
CONFIG_COMMIT without a candidate answers ST_CONFIG_NO_CANDIDATE; one that fails a check answers ST_CONFIG_INVALID with
the length and name of what fails first, and changes nothing else. One that passes gets the next commit number, its body
becomes the set in force, its safety configuration is recorded, and EV_CONFIG_COMMITTED with cause 0 follows with ST_OK;
on trial it becomes the migration copy instead, with ST_CONFIG_ON_TRIAL, and no set is committed. CONFIG_REVERT without
a previous set that can be read answers ST_CONFIG_NO_PREVIOUS and changes nothing else; one of the written format is
committed anew and becomes the set in force, with cause 1. A committed slot becomes the active one. -/
def Obligations.ConfigurationCommands : Prop :=
  ((∀ (s : State) (mb : Mailbox) (b : Bytes), serves .configCandidateOpen mb b s →
    let u := takeUp mb s
    (1 < rd b 2 2 → exec (.configCandidateOpen mb) s = .next (complete mb .argRange [] u)) ∧
    (rd b 2 2 ≤ 1 → rd b 0 2 ≠ writesFormat u → exec (.configCandidateOpen mb) s = .next (complete mb .configFormat [] u)) ∧
    (rd b 2 2 ≤ 1 → rd b 0 2 = writesFormat u →
      let body := if rd b 2 2 = 1 then ((inForceSlot u).map (fun i => u.slots[i].body)).getD [] else []
      let t := match candidateSlot u with
        | some i => emptySlot i u
        | none => u
      exec (.configCandidateOpen mb) s = .next (complete mb .ok (u32 (maxSeq u + 1)) (modSlot (freeSlot t) (fun _ =>
        { state := .candidate, format := BitVec.ofNat 16 (rd b 0 2), seq := BitVec.ofNat 32 (maxSeq u + 1), body := body })
        { t with upd := { t.upd with trialCandidate := onTrial t } })))) ∧
  (∀ (s : State) (mb : Mailbox) (b : Bytes), serves .configCandidateWrite mb b s →
    let u := takeUp mb s
    let off := rd b 0 4
    (candidateSlot u = none → exec (.configCandidateWrite mb) s = .next (complete mb .configNoCandidate [] u)) ∧
    (∀ i, candidateSlot u = some i →
      (65504 < off + (b.length - 4) → exec (.configCandidateWrite mb) s = .next (complete mb .configOversize [] u)) ∧
      (off + (b.length - 4) ≤ 65504 → ∃ new : Bytes,
        exec (.configCandidateWrite mb) s = .next (complete mb .ok (u32 new.length) (modSlot i (fun x => { x with body := new }) u)) ∧
        new.length = max u.slots[i].body.length (off + (b.length - 4)) ∧
        ∀ n, n < new.length → new.getD n 0 = if off ≤ n ∧ n < off + (b.length - 4) then b.getD (4 + (n - off)) 0 else u.slots[i].body.getD n 0))) ∧
  (∀ (s : State) (mb : Mailbox) (b : Bytes), serves .configKeySet mb b s →
    let u := takeUp mb s
    let n := rd b 0 2
    let m := rd b 2 2
    let name := (b.drop 4).take n
    let value := (b.drop (4 + n)).take m
    (n = 0 ∨ 64 < n ∨ m = 0 ∨ 444 < m → exec (.configKeySet mb) s = .next (complete mb .argRange [] u)) ∧
    (1 ≤ n → n ≤ 64 → 1 ≤ m → m ≤ 444 →
      (candidateSlot u = none → exec (.configKeySet mb) s = .next (complete mb .configNoCandidate [] u)) ∧
      (∀ i, candidateSlot u = some i →
        (findKey name = none → exec (.configKeySet mb) s = .next (complete mb .configKeyUnknown [] u)) ∧
        (∀ k, findKey name = some k → parseKey u.fab k value = none → exec (.configKeySet mb) s = .next (complete mb .configValue [] u)) ∧
        (∀ k v, findKey name = some k → parseKey u.fab k value = some v → rateUnlisted u.fab u.slots[i].body k v = true →
          exec (.configKeySet mb) s = .next (complete mb .configValue [] u)) ∧
        (∀ k v, findKey name = some k → parseKey u.fab k value = some v → readyIsBusy u.fab u.slots[i].body k v = false →
          rateUnlisted u.fab u.slots[i].body k v = false →
          let body := putLine u.slots[i].body name (printVal (keyType u.fab k) v)
          body.length ≤ 65504 → exec (.configKeySet mb) s = .next (complete mb .ok [] (modSlot i (fun x => { x with body := body }) u)))))) ∧
  (∀ (s : State) (mb : Mailbox) (b : Bytes), serves .configKeyGet mb b s →
    let u := takeUp mb s
    let reply := fun (x : Bytes) => Host.Outcome.next (complete mb .ok (u16 (x.take 444).length ++ u16 0 ++ x.take 444) u)
    let name := (b.drop 4).take (rd b 2 2)
    (2 < rd b 0 2 ∨ rd b 2 2 = 0 ∨ 64 < rd b 2 2 → exec (.configKeyGet mb) s = .next (complete mb .argRange [] u)) ∧
    (rd b 0 2 ≤ 2 → 1 ≤ rd b 2 2 → rd b 2 2 ≤ 64 → findKey name = none → exec (.configKeyGet mb) s = .next (complete mb .configKeyUnknown [] u)) ∧
    (∀ k, rd b 0 2 = 0 → 1 ≤ rd b 2 2 → rd b 2 2 ≤ 64 → findKey name = some k → exec (.configKeyGet mb) s = reply (keyText u.cfg u.fab k)) ∧
    (∀ k i, rd b 0 2 = 2 → 1 ≤ rd b 2 2 → rd b 2 2 ≤ 64 → findKey name = some k → candidateSlot u = some i →
      exec (.configKeyGet mb) s = reply (bodyText u.fab u.slots[i].body k)) ∧
    (∀ k, rd b 0 2 = 1 → 1 ≤ rd b 2 2 → rd b 2 2 ≤ 64 → findKey name = some k → previousSlot u = none →
      exec (.configKeyGet mb) s = .next (complete mb .configNoPrevious [] u))) ∧
  (∀ (s : State) (mb : Mailbox) (b : Bytes), serves .configInfoGet mb b s →
    let u := takeUp mb s
    exec (.configInfoGet mb) s = .next (complete mb .ok (setRecord u (activeSlot u) ++ setRecord u (previousSlot u) ++ setRecord u (candidateSlot u)
      ++ setRecord u (migrationSlot u)) u)) ∧
  (∀ (s : State) (o : Option (Fin 4)), (setRecord s o).length = 16)) ∧
  ((∀ (s : State) (mb : Mailbox) (b : Bytes), serves .configCommit mb b s →
    let u := takeUp mb s
    (candidateSlot u = none → exec (.configCommit mb) s = .next (complete mb .configNoCandidate [] u)) ∧
    (∀ i, candidateSlot u = some i →
      (∀ name, commitFails u u.slots[i] = some name → exec (.configCommit mb) s = .next (complete mb .configInvalid (u16 name.length ++ name) u)) ∧
      (commitFails u u.slots[i] = none → onTrial u = false → exec (.configCommit mb) s =
        .next (complete mb .ok (u32 u.slots[i].seq.toNat) (committedEvent 0 (logSafetyCommit (enforce u.slots[i].body (commitSlot i u)))))) ∧
      (commitFails u u.slots[i] = none → onTrial u = true → migrationSlot u = none → exec (.configCommit mb) s =
        .next (complete mb .configOnTrial (u32 u.slots[i].seq.toNat) (logSafetyCommit (enforce u.slots[i].body
          (modSlot i (fun x => { x with state := .migration, tag := 0 }) u))))))) ∧
  (∀ (s : State) (mb : Mailbox) (b : Bytes), serves .configRevert mb b s →
    let u := takeUp mb s
    onTrial u = false →
      (previousSlot u = none → exec (.configRevert mb) s = .next (complete mb .configNoPrevious [] u)) ∧
      (∀ p, previousSlot u = some p → u.slots[p].readable = false → exec (.configRevert mb) s = .next (complete mb .configNoPrevious [] u)) ∧
      (∀ p, previousSlot u = some p → u.slots[p].readable = true → u.slots[p].format.toNat = writesFormat u →
        let t := committedEvent 1 (enforce u.slots[p].body (commitSlot p u))
        exec (.configRevert mb) s = .next (complete mb .ok (u32 (((inForceSlot t).map (fun i => t.slots[i].seq.toNat)).getD 0)) t))) ∧
  (∀ (s : State) (i : Fin 4), maxCommit s < 2 ^ 32 - 1 → activeSlot (commitSlot i s) = some i ∧
    (commitSlot i s).slots[i].body = s.slots[i].body ∧ (commitSlot i s).cfg = s.cfg) ∧
  (∀ (b : Bytes) (s : State), (enforce b s).cfg = cfgOfBody s.fab b ∧ (enforce b s).slots = s.slots))

/-- UPDATE_BEGIN, BLOCK_WRITE, VERIFY, ABORT and STATUS_GET, and the confirmation of staged blocks. Served commands in
RETIRED answer ST_NOT_PERMITTED. UPDATE_BEGIN in stage 5 answers ST_STATE, while the operator downloads ST_BUSY, and
with a header that fails the status of the first check of Table 19.3; else the download begins, or resumes under the
same header. BLOCK_WRITE outside a download answers ST_STATE, an offset off a word ST_ARG_RANGE, a block beyond the
image or bytes beyond it ST_UPD_BLOCK_RANGE; a confirmed block is left alone, and any other's bytes go into the
staging buffer. A staged block that is whole and reads back right is confirmed; the last one ends stage 1. VERIFY with
a block missing answers ST_UPD_INCOMPLETE; a good header and digests verify the bank, else ST_UPD_VERIFY_FAILED sends
the download back. ABORT discards it. -/
def Obligations.Downloads : Prop :=
  (∀ (s : State) (mb : Mailbox) (b : Bytes),
    (lifecycle (takeUp mb s) = 3 →
      (serves .updateBegin mb b s → exec (.updateBegin mb) s = .next (complete mb .notPermitted [] (takeUp mb s))) ∧
      (serves .updateBlockWrite mb b s → exec (.updateBlockWrite mb) s = .next (complete mb .notPermitted [] (takeUp mb s))) ∧
      (serves .updateVerify mb b s → exec (.updateVerify mb) s = .next (complete mb .notPermitted [] (takeUp mb s))) ∧
      (serves .updateAbort mb b s → exec (.updateAbort mb) s = .next (complete mb .notPermitted [] (takeUp mb s))))) ∧
  (∀ (s : State) (mb : Mailbox) (b : Bytes), serves .updateBegin mb b s →
    let u := takeUp mb s
    lifecycle u ≠ 3 →
    (u.upd.stage = 5 → exec (.updateBegin mb) s = .next (complete mb .state [] u)) ∧
    (u.upd.stage = 1 → u.upd.holder = .operator → exec (.updateBegin mb) s = .next (complete mb .busy [] u)) ∧
    (u.upd.stage ≠ 5 → (u.upd.stage ≠ 1 ∨ u.upd.holder ≠ .operator) →
      (∀ st, imageFails u b = some st → exec (.updateBegin mb) s = .next (complete mb st [] u)) ∧
      (imageFails u b = none → let t := beginDownload .host b u
        exec (.updateBegin mb) s = .next (complete mb .ok (u32 (blockCount b) ++ u32 (firstUnconfirmed t.upd)) t)))) ∧
  (∀ (s : State) (mb : Mailbox) (b : Bytes), serves .updateBlockWrite mb b s →
    let u := takeUp mb s
    let n := rd b 0 4
    let off := rd b 4 2
    lifecycle u ≠ 3 →
    (u.upd.stage = 0 ∨ u.upd.stage = 5 → exec (.updateBlockWrite mb) s = .next (complete mb .state [] u)) ∧
    (u.upd.stage ≠ 0 → u.upd.stage ≠ 5 → off % 4 ≠ 0 → exec (.updateBlockWrite mb) s = .next (complete mb .argRange [] u)) ∧
    (u.upd.stage ≠ 0 → u.upd.stage ≠ 5 → off % 4 = 0 → u.upd.holder = .host →
      (blockCount u.upd.header ≤ n ∨ blockLen u.upd.header n < off + (b.length - 8) → exec (.updateBlockWrite mb) s = .next (complete mb .updBlockRange [] u)) ∧
      (n < blockCount u.upd.header → off + (b.length - 8) ≤ blockLen u.upd.header n → ∃ l,
        exec (.updateBlockWrite mb) s = .next (complete mb .ok (u32 u.upd.confirmed.length ++ u32 (firstUnconfirmed u.upd)) { u with run := { u.run with staging := l } }) ∧
        l = if u.upd.confirmed.contains n then u.run.staging else stage n off (b.drop 8) u.run.staging))) ∧
  (∀ (s : State) (n : Nat) (x : Staged) (data : Bytes), s.run.staging.find? (fun x => x.block == n) = some x → stagedBytes s.upd.header x = some data →
    (s.upd.stage = 1 → n < blockCount s.upd.header → exec (.stagedBlockCommit n true) s = .next (confirmBlock n data s)) ∧
    exec (.stagedBlockCommit n false) s = .next s) ∧
  (∀ (n : Nat) (data : Bytes) (s : State), (confirmBlock n data s).upd.confirmed = n :: s.upd.confirmed ∧
    ((∀ k, k < blockCount s.upd.header → k = n ∨ k ∈ s.upd.confirmed) → (confirmBlock n data s).upd.stage = 2)) ∧
  (∀ (s : State) (mb : Mailbox) (b : Bytes), serves .updateVerify mb b s →
    let u := takeUp mb s
    lifecycle u ≠ 3 →
    (u.upd.stage = 5 → exec (.updateVerify mb) s = .next (complete mb .state [] u)) ∧
    (u.upd.stage = 0 → exec (.updateVerify mb) s = .next (complete mb .updIncomplete [] u)) ∧
    (u.upd.stage ≠ 5 → firstUnconfirmed u.upd ≠ blockCount u.upd.header → exec (.updateVerify mb) s = .next (complete mb .updIncomplete [] u)) ∧
    (u.upd.stage ≠ 5 → u.upd.stage ≠ 0 → firstUnconfirmed u.upd = blockCount u.upd.header →
      (imageFails u u.upd.header = none → digestsMatch (bankOf u u.upd.target) = true → exec (.updateVerify mb) s = .next (complete mb .ok [] (judgeBank true u))) ∧
      (imageFails u u.upd.header ≠ none ∨ digestsMatch (bankOf u u.upd.target) = false → exec (.updateVerify mb) s = .next (complete mb .updVerifyFailed [] (judgeBank false u))))) ∧
  (∀ (s : State) (mb : Mailbox) (b : Bytes), serves .updateAbort mb b s →
    let u := takeUp mb s
    lifecycle u ≠ 3 →
    (u.upd.stage = 5 → exec (.updateAbort mb) s = .next (complete mb .state [] u)) ∧
    (u.upd.stage = 0 → exec (.updateAbort mb) s = .next (complete mb .ok [] u)) ∧
    (u.upd.stage ≠ 0 → u.upd.stage ≠ 5 → exec (.updateAbort mb) s = .next (complete mb .ok [] (discardDownload u)))) ∧
  (∀ s : State, (discardDownload s).upd.stage = 0 ∧ (discardDownload s).upd.confirmed = [] ∧ (bankOf (discardDownload s) s.upd.target).verified = false ∧
    (judgeBank true s).upd.stage = 4 ∧ (bankOf (judgeBank true s) s.upd.target).verified = true ∧ (judgeBank false s).upd.stage = 1 ∧ (judgeBank false s).upd.confirmed = []) ∧
  (∀ (s : State) (mb : Mailbox) (b : Bytes), serves .updateStatusGet mb b s → ∃ x, exec (.updateStatusGet mb) s = .next (complete mb .ok x (takeUp mb s)) ∧ x.length = 24 ∧
    x.headD 0 = BitVec.ofNat 8 s.upd.stage)

/-- HIF_UPD_TRIGGER, the confirmation by time, the operator's update and activation, and the rinse. While the port takes
words, 0x5AC3 with action 1, 2 or 3 requests activation, confirmation or fallback; any other word sets KEY_REFUSED.
Activation is refused with its status in RETIRED, without a verified bank, or in a session; else it writes the record
armed and then on trial and restarts. Confirmation needs a trial (else ST_UPD_NOT_ON_TRIAL), fallback a trial (else
ST_UPD_NO_FALLBACK) and no session (else ST_STATE). 30 minutes of healthy time confirm a trial. A confirmation records
the running bank in both copies, ends the trial and raises EV_UPDATE_CONFIRMED. The operator's update is Rejected
where the host downloads; a bad signature or header is reported. Its activation waits for the install time. The
rinse, at its pace and until save step 9, takes a region's next granule: it counts a corrected one, reports an
uncorrectable one, passes over a foreground write, and at a region's end moves the rings. -/
def Obligations.TriggersAndTrials : Prop :=
  (∀ (s : State) (w : Word32) (i : Instr), portOpen s → i = .updActivate w ∨ i = .updConfirm w ∨ i = .updFallback w →
    let t := { s with hif := { s.hif with buffered := min 128 (s.hif.buffered + 1), rdy := false, sent := phases 0x08 s } }
    (∀ n, (n = 1 ∨ n = 2 ∨ n = 3) → w.toNat = 0x5AC3 * 65536 + n → exec i s = .next (updRequest n w t)) ∧
    (w.toNat / 65536 ≠ 0x5AC3 ∨ w.toNat % 65536 = 0 ∨ 3 < w.toNat % 65536 → exec i s = .next (setStatus stKeyRefused t))) ∧
  (∀ (s : State) (w : Word32),
    let done := fun (st : Status) (t : State) => raise .triggerDone (u32 w.toNat ++ u16 st.code.toNat) t
    (lifecycle s = 3 → updRequest 1 w s = done .notPermitted s) ∧
    (lifecycle s ≠ 3 → s.upd.stage ≠ 4 → updRequest 1 w s = done .updNotVerified s) ∧
    (lifecycle s ≠ 3 → s.upd.stage = 4 → anySession s = true → updRequest 1 w s = done .state s) ∧
    (lifecycle s ≠ 3 → s.upd.stage = 4 → anySession s = false → updRequest 1 w s = activate s) ∧
    (onTrial s = false → updRequest 2 w s = done .updNotOnTrial s ∧ updRequest 3 w s = done .updNoFallback s) ∧
    (onTrial s = true → updRequest 2 w s = done .ok (confirmTrial s)) ∧
    (onTrial s = true → anySession s = true → updRequest 3 w s = done .state s) ∧
    (onTrial s = true → anySession s = false → updRequest 3 w s = fallBack .ok s)) ∧
  (∀ s : State,
    (onTrial s = true → 1800 * 32768 ≤ s.run.healthy → exec .trialConfirmAuto s = .next (confirmTrial s)) ∧
    (onTrial s = false ∨ s.run.healthy < 1800 * 32768 → exec .trialConfirmAuto s = .next s) ∧
    (onTrial (confirmTrial s) = false ∧ (confirmTrial s).upd.stage = 0 ∧ (confirmTrial s).run.healthy = 0 ∧
      (selCurrent (confirmTrial s).upd).map BootSel.confirmed = some (s.run.running.getD .a) ∧ (selCurrent (confirmTrial s).upd).bind BootSel.trial = none ∨
      2 ^ 32 ≤ max s.upd.sel0.seq.toNat s.upd.sel1.seq.toNat + 2) ∧
    (installDue s = true → appRuns s = true → (activationFails s = none → exec .operatorActivation s = .next (activate s)) ∧
      (activationFails s ≠ none → exec .operatorActivation s = .next s)) ∧
    (installDue s = false → exec .operatorActivation s = .next s)) ∧
  (∀ (s : State) (h image : Bytes) (c : Bool) (n : Nat), s.svc.connected = true → appRuns s = true →
    let msg := fun (a b : String) (t : State) => putMsg { kind := .firmware, text := str (if ocppVersion s = some 0 then a else b) } t
    (lifecycle s = 3 ∨ s.upd.stage = 5 ∨ (s.upd.stage = 1 ∧ s.upd.holder = .host) → exec (.updateFirmware h image c n) s = .next (answer false s)) ∧
    (lifecycle s ≠ 3 → s.upd.stage ≠ 5 → (s.upd.stage ≠ 1 ∨ s.upd.holder ≠ .host) →
      (c = false ∨ imageFails s h = some .hdrSignature → exec (.updateFirmware h image c n) s = .next (msg "DownloadFailed" "InvalidSignature" (answer true s))) ∧
      (c = true → imageFails s h = none →
        let t := takeImage image (firmwareMsg "Downloading" "Downloading" (beginDownload .operator h (answer true s)))
        ∃ v, exec (.updateFirmware h image c n) s = .next v ∧
          if firstUnconfirmed t.upd ≠ blockCount t.upd.header then v = firmwareMsg "DownloadFailed" "DownloadFailed" t
          else if (imageFails t t.upd.header).isNone && digestsMatch (bankOf t t.upd.target) then
            v.svc.install = some n ∧ v.svc.updateWaits = true ∧ v.upd.stage = 4
          else v = firmwareMsg "InstallationFailed" "InvalidSignature" (judgeBank false (firmwareMsg "Downloaded" "Downloaded" t))))) ∧
  (∀ (s : State) (r : MemRegion), basePowered s = true → s.wch.rinsePos[regionIndex r] < granules r → rinsePaced s = true →
    let a := Config.regionBase r + BitVec.ofNat 32 (64 * s.wch.rinsePos[regionIndex r])
    exec (.rinseGranule r .foreground) s = .next (passGranule r s) ∧
    (r = .keyStore → exec (.rinseGranule r (.read 0)) s = .next (passGranule r (eraseOrphans s))) ∧
    (r ≠ .keyStore →
      exec (.rinseGranule r (.read 0)) s = .next (passGranule r s) ∧
      (∀ n, 0 < n → n ≤ correctable r → exec (.rinseGranule r (.read n)) s =
        .next (passGranule r { s with wch := { s.wch with rinsed := bump s.wch.rinsed (regionIndex r) } })) ∧
      (∀ n, correctable r < n → exec (.rinseGranule r (.read n)) s = .next (passGranule r (regionLost r a (memUncorrectable r a 0xFFFFFFFF s)))))) ∧
  (∀ (s : State) (r : MemRegion), basePowered s = false ∨ granules r ≤ s.wch.rinsePos[regionIndex r] ∨ rinsePaced s = false →
    ∀ x, exec (.rinseGranule r x) s = .next s) ∧
  (∀ (s : State) (r : MemRegion),
    let t := { s with wch := { s.wch with rinsePos := vmod s.wch.rinsePos (regionIndex r) (· + 1) } }
    granulesDone t.wch ≠ granulesAll →
      (s.wch.rinsePos[regionIndex r] + 1 ≠ granules r → passGranule r s = t) ∧
      (s.wch.rinsePos[regionIndex r] + 1 = granules r → passGranule r s = moveRings r t))

/-- A set or adjustment whose result leaves 2000 to 2255 is refused, by command and by register. A TIME_SET, or an
application core's write of an absolute second, above 8,078,572,799, and a TIME_ADJUST, or a write of RTC_ADJ_MS,
whose result with the offset that stands lies below zero or after that second's last count, change nothing of the RTC
but set RTC_STATUS.ADJ_REFUSED; the commands complete with ST_RTC_RANGE. The second 8,078,572,799 itself is accepted. -/
def Obligations.TimesOutOfRange : Prop :=
  (∀ (s : State) (mb : Mailbox) (b : Bytes), serves .timeSet mb b s → 8078572799 < rd b 0 8 →
    exec (.timeSet mb) s = .next (complete mb .rtcRange [] { takeUp mb s with time := { s.time with adjRefused := true } })) ∧
  (∀ (s : State) (mb : Mailbox) (b : Bytes), serves .timeAdjust mb b s →
    let n := rtcCount s.time + writtenOffset s.time + msToCycles (rdI32 b 0)
    n < 0 ∨ 8078572799 * 32768 + 32767 < n →
    exec (.timeAdjust mb) s = .next (complete mb .rtcRange [] { takeUp mb s with time := { s.time with adjRefused := true } })) ∧
  (∀ (s : State) (m : Master) (w : Word32), m = .app0 ∨ m = .app1 →
    let n := rtcCount s.time + writtenOffset s.time + msToCycles w.toInt
    n < 0 ∨ 8078572799 * 32768 + 32767 < n → exec (.rtcAdjMsWrite m w true) s = .next { s with time := { s.time with adjRefused := true } }) ∧
  (∀ (s : State) (m : Master) (hi : BitVec 1) (lo : Word32), m = .app0 ∨ m = .app1 → 8078572799 < (hi ++ lo).toNat →
    exec (.rtcSetLoWrite m hi lo true) s = .next { s with tb := { s.tb with setHi := hi }, time := { s.time with adjRefused := true } }) ∧
  (∀ s : State, setSecond 8078572799 s = (false, { s with time := { s.time with write := some ⟨true, 8078572799 * 32768 - rtcCount s.time⟩ } }) ∧
    rtcMaxCount = 8078572799 * 32768 + 32767)
end

