-- ==== Sys2Proof/Laws/Crypto.lean ====
section
/-! SUPPORT. What the crypto engine's functions give: the lengths of digests, derived keys and blocks, and that opening what
AES-256-GCM sealed gives the plaintext back with a right tag. -/

namespace Sys2Proof.Machine

theorem beBytes_length (n v : Nat) : (beBytes n v).length = n := by
  simp only [beBytes, List.length_reverse]
  induction n generalizing v with
  | zero => rfl
  | succ n _ => simp [leBytes]

/-! ### Digests -/

theorem shaRounds_length (h : Sha) (l : List (BitVec h.w)) (v : List (BitVec h.w) × List (BitVec h.w)) (hv : v.1.length = 8) :
    (l.foldl (shaRound h) v).1.length = 8 := by
  induction l generalizing v with
  | nil => exact hv
  | cons k l ih => exact ih _ rfl

theorem hash_length (h : Sha) (b : Bytes) (hi : h.init.length = 8) (hd : h.digest ≤ 8 * (h.w / 8)) : (hash h b).length = h.digest := by
  have key : ∀ (f : Bytes → List (BitVec h.w)) (ps : List Bytes) (s : List (BitVec h.w)), s.length = 8 →
      (ps.foldl (fun s p => List.zipWith (· + ·) s (h.consts.foldl (shaRound h) (s, f p)).1) s).length = 8 := by
    intro f ps
    induction ps with
    | nil => exact fun s hs => hs
    | cons p ps ih => exact fun s hs => ih _ (by simp [hs, shaRounds_length])
  have flat : ∀ l : List (BitVec h.w), (l.flatMap (fun x => beBytes (h.w / 8) x.toNat)).length = l.length * (h.w / 8) := by
    intro l
    induction l with
    | nil => simp
    | cons x l ih =>
      simp only [List.flatMap_cons, List.length_append, ih, beBytes_length, List.length_cons]
      ring
  simp only [hash, List.length_take, flat]
  rw [key _ _ _ hi]
  omega

theorem sha256Of_init : sha256Of.init.length = 8 := by decide +kernel
theorem sha384Of_init : sha384Of.init.length = 8 := by decide +kernel
theorem sha256_length (b : Bytes) : (sha256 b).length = 32 := hash_length _ b sha256Of_init (by decide)
theorem sha384_length (b : Bytes) : (sha384 b).length = 48 := hash_length _ b sha384Of_init (by decide)

/-- A derivation of 32 bytes with SHA-256. -/
theorem hkdf256_length (salt ikm info : Bytes) : (hkdf sha256Of salt ikm info 32).length = 32 := by
  have h : ∀ k m : Bytes, (hmac sha256Of k m).length = 32 := fun k m => hash_length _ _ sha256Of_init (by decide)
  have e : (32 + sha256Of.digest - 1) / sha256Of.digest = 1 := rfl
  simp only [hkdf, e, List.range_one, List.foldl_cons, List.foldl_nil, List.nil_append, List.length_take, h]
  rfl

/-! ### AES and GCM -/

theorem xorBytes_length (a b : Bytes) : (xorBytes a b).length = min a.length b.length := by simp [xorBytes]

theorem xorBytes_twice (a b : Bytes) (h : a.length ≤ b.length) : xorBytes (xorBytes a b) b = a := by
  induction a generalizing b with
  | nil => simp [xorBytes]
  | cons x a ih =>
    cases b with
    | nil => simp at h
    | cons y b =>
      have := ih b (by simpa using h)
      simp_all [xorBytes]

theorem xor3_length (a b c : Bytes) (n : Nat) (ha : a.length = n) (hb : b.length = n) (hc : c.length = n) :
    (xorBytes a (xorBytes b c)).length = n := by simp [xorBytes, ha, hb, hc]

/-- Every word of the key schedule has four bytes. -/
theorem schedule_words (l : List Nat) (t : List Bytes × Byte) (hl : 8 ≤ t.1.length) (hw : ∀ x ∈ t.1, x.length = 4) :
    let r := l.foldl (fun (t : List Bytes × Byte) j =>
      let prev := t.1.getD 0 []
      let old := t.1.getD 7 []
      if j % 8 = 0 then
        (xorBytes old (xorBytes ((prev.drop 1 ++ prev.take 1).map sub) [t.2, 0, 0, 0]) :: t.1, mulByte t.2 2)
      else if j % 8 = 4 then (xorBytes old (prev.map sub) :: t.1, t.2)
      else (xorBytes old prev :: t.1, t.2)) t
    r.1.length = t.1.length + l.length ∧ ∀ x ∈ r.1, x.length = 4 := by
  induction l generalizing t with
  | nil => exact ⟨rfl, hw⟩
  | cons j l ih =>
    have mem : ∀ i, i < t.1.length → (t.1.getD i []).length = 4 := by
      intro i hi
      simp only [List.getD_eq_getElem?_getD, List.getElem?_eq_getElem hi, Option.getD_some]
      exact hw _ (List.getElem_mem hi)
    have h0 := mem 0 (by omega)
    have h7 := mem 7 (by omega)
    have rot : ((t.1.getD 0 []).drop 1 ++ (t.1.getD 0 []).take 1).length = 4 := by simp only [List.length_append, List.length_drop, List.length_take, h0]; rfl
    simp only [List.foldl_cons]
    have step : ∀ (w : Bytes) (c : Byte), w.length = 4 → _ := fun w c hc => ih (w :: t.1, c) (by simp; omega) (by
      intro x hx
      rcases List.mem_cons.1 hx with rfl | hx
      · exact hc
      · exact hw x hx)
    have fin : ∀ (w : Bytes) (c : Byte), (w :: t.1, c).1.length + l.length = t.1.length + (j :: l).length := by intro w c; simp; omega
    split
    · rw [← fin]; exact step _ _ (xor3_length _ _ _ 4 h7 (by simpa using rot) rfl)
    · split
      · rw [← fin]; exact step _ _ (by rw [xorBytes_length, List.length_map, h7, h0]; rfl)
      · rw [← fin]; exact step _ _ (by rw [xorBytes_length, h7, h0]; rfl)

theorem flatten_length (n : Nat) (l : List Bytes) (h : ∀ x ∈ l, x.length = n) : l.flatten.length = n * l.length := by
  induction l with
  | nil => simp
  | cons x l ih =>
    rw [List.flatten_cons, List.length_append, h x (by simp), ih (fun y hy => h y (by simp [hy])), List.length_cons]
    ring

theorem pieces_length (n : Nat) (b : Bytes) (x : Bytes) (h : x ∈ pieces n b) : x.length = n := by
  simp only [pieces, List.mem_map, List.mem_range] at h
  obtain ⟨i, hi, rfl⟩ := h
  have : n * (i + 1) ≤ b.length := le_trans (Nat.mul_le_mul_left n hi) (Nat.mul_div_le _ _)
  simp only [List.length_take, List.length_drop]
  rw [Nat.mul_add] at this
  omega

theorem pieces_count (n : Nat) (b : Bytes) : (pieces n b).length = b.length / n := by simp [pieces]

/-- A 256-bit key has 15 round keys of 16 bytes. -/
theorem roundKeys_last (key : Bytes) (h : key.length = 32) : ((roundKeys key).getD 14 []).length = 16 := by
  have w := schedule_words (List.range 52) ((pieces 4 key).reverse, 1) (by rw [List.length_reverse, pieces_count, h])
    (fun x hx => pieces_length 4 key x (List.mem_reverse.1 hx))
  have e : (roundKeys key).length = 15 := by
    rw [roundKeys, pieces_count]
    erw [flatten_length 4 _ (fun x hx => w.2 x (List.mem_reverse.1 hx)), List.length_reverse, w.1]
    rw [List.length_reverse, pieces_count, h]
    rfl
  rw [List.getD_eq_getElem?_getD, List.getElem?_eq_getElem (by omega : 14 < (roundKeys key).length), Option.getD_some]
  exact pieces_length 16 _ _ (List.getElem_mem _)

theorem aesBlock_length (keys : List Bytes) (b : Bytes) (h : (keys.getD 14 []).length = 16) : (aesBlock keys b).length = 16 := by
  simp only [aesBlock, xorBytes_length, h, shiftRows, List.length_map, List.length_range]
  rfl

/-- A number of blocks added to a string of whole and part blocks. -/
def addBlocks : Nat → (Nat → Bytes) → Bytes → Bytes
  | 0, _, _ => []
  | n + 1, k, b => xorBytes (b.take 16) (k 0) ++ addBlocks n (fun i => k (i + 1)) (b.drop 16)

theorem addBlocks_eq (n : Nat) (k : Nat → Bytes) (b : Bytes) :
    (List.range n).flatMap (fun i => xorBytes ((b.drop (16 * i)).take 16) (k i)) = addBlocks n k b := by
  induction n generalizing k b with
  | zero => rfl
  | succ n ih =>
    rw [List.range_succ_eq_map, List.flatMap_cons, List.flatMap_map, addBlocks, ← ih]
    simp [Nat.mul_add, List.drop_drop, Nat.add_comm]

theorem addBlocks_length (n : Nat) (k : Nat → Bytes) (b : Bytes) (hk : ∀ i, (k i).length = 16) (hb : b.length ≤ 16 * n) :
    (addBlocks n k b).length = b.length := by
  induction n generalizing k b with
  | zero => simp [addBlocks]; omega
  | succ n ih =>
    rw [addBlocks, List.length_append, ih _ _ (fun i => hk _) (by simp; omega)]
    simp [xorBytes_length, hk]
    omega

theorem addBlocks_twice (n : Nat) (k : Nat → Bytes) (b : Bytes) (hk : ∀ i, (k i).length = 16) (hb : b.length ≤ 16 * n) :
    addBlocks n k (addBlocks n k b) = b := by
  induction n generalizing k b with
  | zero =>
    have : b = [] := List.length_eq_zero_iff.1 (by omega)
    simp [addBlocks, this]
  | succ n ih =>
    have hx : (xorBytes (b.take 16) (k 0)).length = min 16 b.length := by simp [xorBytes_length, hk]
    have ht : (b.drop 16).length ≤ 16 * n := by simp; omega
    have hy := addBlocks_length n (fun i => k (i + 1)) (b.drop 16) (fun i => hk _) ht
    have tk : (xorBytes (b.take 16) (k 0) ++ addBlocks n (fun i => k (i + 1)) (b.drop 16)).take 16 = xorBytes (b.take 16) (k 0) := by
      by_cases h : 16 ≤ b.length
      · rw [List.take_append_of_le_length (by omega), List.take_of_length_le (by omega)]
      · have e : addBlocks n (fun i => k (i + 1)) (b.drop 16) = [] := List.length_eq_zero_iff.1 (by rw [hy]; simp; omega)
        rw [e, List.append_nil, List.take_of_length_le (by omega)]
    have dr : (xorBytes (b.take 16) (k 0) ++ addBlocks n (fun i => k (i + 1)) (b.drop 16)).drop 16 = addBlocks n (fun i => k (i + 1)) (b.drop 16) := by
      by_cases h : 16 ≤ b.length
      · rw [List.drop_append_of_le_length (by omega), List.drop_of_length_le (by omega), List.nil_append]
      · have e : addBlocks n (fun i => k (i + 1)) (b.drop 16) = [] := List.length_eq_zero_iff.1 (by rw [hy]; simp; omega)
        rw [e, List.append_nil, List.drop_of_length_le (by omega)]
    simp only [addBlocks]
    rw [tk, dr, ih _ _ (fun i => hk _) ht, xorBytes_twice _ _ (by simp [hk]), List.take_append_drop]

theorem gcmCrypt_length (keys : List Bytes) (iv b : Bytes) (h : (keys.getD 14 []).length = 16) : (gcmCrypt keys iv b).length = b.length := by
  rw [gcmCrypt, addBlocks_eq _ (fun i => aesBlock keys (iv ++ beBytes 4 (i + 2)))]
  exact addBlocks_length _ _ _ (fun i => aesBlock_length _ _ h) (by omega)

theorem gcmCrypt_twice (keys : List Bytes) (iv b : Bytes) (h : (keys.getD 14 []).length = 16) : gcmCrypt keys iv (gcmCrypt keys iv b) = b := by
  have hl := gcmCrypt_length keys iv b h
  conv_lhs => rw [gcmCrypt, hl, addBlocks_eq _ (fun i => aesBlock keys (iv ++ beBytes 4 (i + 2)))]
  rw [gcmCrypt, addBlocks_eq _ (fun i => aesBlock keys (iv ++ beBytes 4 (i + 2)))]
  exact addBlocks_twice _ _ _ (fun i => aesBlock_length _ _ h) (by omega)

theorem gcmTag_length (keys : List Bytes) (iv aad ct : Bytes) (h : (keys.getD 14 []).length = 16) : (gcmTag keys iv aad ct).length = 16 := by
  simp [gcmTag, xorBytes_length, beBytes_length, aesBlock_length _ _ h]

/-- Opening a ciphertext with a tag: the tag is right exactly where it is the one that sealing gives, and the plaintext is what was
sealed. -/
theorem gcmOpen_sealed (key iv aad plain tag : Bytes) (h : key.length = 32) (ht : tag.length = 16) :
    gcmOpen key iv aad (gcmCrypt (roundKeys key) iv plain ++ tag) =
      (gcmTag (roundKeys key) iv aad (gcmCrypt (roundKeys key) iv plain) == tag, plain) := by
  have hk := roundKeys_last key h
  have hl : (gcmCrypt (roundKeys key) iv plain ++ tag).length - 16 = (gcmCrypt (roundKeys key) iv plain).length := by simp [ht]
  simp only [gcmOpen, hl, List.take_left', List.drop_left', gcmCrypt_twice _ _ _ hk]
  simp [ht]

theorem gcmOpen_gcmSeal (key iv aad plain : Bytes) (h : key.length = 32) : gcmOpen key iv aad (gcmSeal key iv aad plain) = (true, plain) := by
  rw [gcmSeal, gcmOpen_sealed _ _ _ _ _ h (gcmTag_length _ _ _ _ (roundKeys_last key h))]
  simp

end Sys2Proof.Machine
end

