-- ==== Sys2Proof/Laws/Keeps.lean ====
section
/-! SUPPORT. What every operation keeps (`Keeps`): the relation, and record updates away from what it speaks of. -/

namespace Sys2Proof.Machine

@[simp] theorem Keeps.refl (s : State) : Keeps s s := ⟨rfl, rfl, id, id, id, id⟩

theorem Keeps.trans {s t u : State} (h : Keeps s t) (k : Keeps t u) : Keeps s u :=
  ⟨k.fab.trans h.fab, k.pending.trans h.pending, fun x => k.mail (h.mail x), fun x => k.provisioned (h.provisioned x),
    fun x => k.field (h.field x), fun x => k.retired (h.retired x)⟩

/-- A state that differs from one kept only away from what `Keeps` speaks of. -/
theorem Keeps.of_eq {s x t : State} (h : Keeps s x) (h1 : t.fab = x.fab) (h2 : t.pending = x.pending)
    (h3 : t.mbx = x.mbx) (h4 : t.keys = x.keys) : Keeps s t :=
  ⟨h1.trans h.fab, h2.trans h.pending, fun m => h3 ▸ h.mail m, fun m => h4 ▸ h.provisioned m, fun m => h4 ▸ h.field m,
    fun m => h4 ▸ h.retired m⟩

@[simp] theorem keeps_nd {s x : State} (h : Keeps s x) (v) : Keeps s { x with nd := v } := h.of_eq rfl rfl rfl rfl
@[simp] theorem keeps_time {s x : State} (h : Keeps s x) (v) : Keeps s { x with time := v } := h.of_eq rfl rfl rfl rfl
@[simp] theorem keeps_wch {s x : State} (h : Keeps s x) (v) : Keeps s { x with wch := v } := h.of_eq rfl rfl rfl rfl
@[simp] theorem keeps_legal {s x : State} (h : Keeps s x) (v) : Keeps s { x with legal := v } := h.of_eq rfl rfl rfl rfl
@[simp] theorem keeps_safStore {s x : State} (h : Keeps s x) (v) : Keeps s { x with safStore := v } := h.of_eq rfl rfl rfl rfl
@[simp] theorem keeps_slots {s x : State} (h : Keeps s x) (v) : Keeps s { x with slots := v } := h.of_eq rfl rfl rfl rfl
@[simp] theorem keeps_upd {s x : State} (h : Keeps s x) (v) : Keeps s { x with upd := v } := h.of_eq rfl rfl rfl rfl
@[simp] theorem keeps_save {s x : State} (h : Keeps s x) (v) : Keeps s { x with save := v } := h.of_eq rfl rfl rfl rfl
@[simp] theorem keeps_app {s x : State} (h : Keeps s x) (v) : Keeps s { x with app := v } := h.of_eq rfl rfl rfl rfl
@[simp] theorem keeps_dispStore {s x : State} (h : Keeps s x) (v) : Keeps s { x with dispStore := v } := h.of_eq rfl rfl rfl rfl
@[simp] theorem keeps_pwr {s x : State} (h : Keeps s x) (v) : Keeps s { x with pwr := v } := h.of_eq rfl rfl rfl rfl
@[simp] theorem keeps_pd {s x : State} (h : Keeps s x) (v) : Keeps s { x with pd := v } := h.of_eq rfl rfl rfl rfl
@[simp] theorem keeps_hif {s x : State} (h : Keeps s x) (v) : Keeps s { x with hif := v } := h.of_eq rfl rfl rfl rfl
@[simp] theorem keeps_tb {s x : State} (h : Keeps s x) (v) : Keeps s { x with tb := v } := h.of_eq rfl rfl rfl rfl
@[simp] theorem keeps_wb {s x : State} (h : Keeps s x) (v) : Keeps s { x with wb := v } := h.of_eq rfl rfl rfl rfl
@[simp] theorem keeps_ch {s x : State} (h : Keeps s x) (v) : Keeps s { x with ch := v } := h.of_eq rfl rfl rfl rfl
@[simp] theorem keeps_isl {s x : State} (h : Keeps s x) (v) : Keeps s { x with isl := v } := h.of_eq rfl rfl rfl rfl
@[simp] theorem keeps_weave {s x : State} (h : Keeps s x) (v) : Keeps s { x with weave := v } := h.of_eq rfl rfl rfl rfl
@[simp] theorem keeps_met {s x : State} (h : Keeps s x) (v) : Keeps s { x with met := v } := h.of_eq rfl rfl rfl rfl
@[simp] theorem keeps_bill {s x : State} (h : Keeps s x) (v) : Keeps s { x with bill := v } := h.of_eq rfl rfl rfl rfl
@[simp] theorem keeps_saf {s x : State} (h : Keeps s x) (v) : Keeps s { x with saf := v } := h.of_eq rfl rfl rfl rfl
@[simp] theorem keeps_blocked {s x : State} (h : Keeps s x) (v) : Keeps s { x with blocked := v } := h.of_eq rfl rfl rfl rfl
@[simp] theorem keeps_bus {s x : State} (h : Keeps s x) (v) : Keeps s { x with bus := v } := h.of_eq rfl rfl rfl rfl
@[simp] theorem keeps_disp {s x : State} (h : Keeps s x) (v) : Keeps s { x with disp := v } := h.of_eq rfl rfl rfl rfl
@[simp] theorem keeps_pins {s x : State} (h : Keeps s x) (v) : Keeps s { x with pins := v } := h.of_eq rfl rfl rfl rfl
@[simp] theorem keeps_key {s x : State} (h : Keeps s x) (v) : Keeps s { x with key := v } := h.of_eq rfl rfl rfl rfl
@[simp] theorem keeps_veh {s x : State} (h : Keeps s x) (v) : Keeps s { x with veh := v } := h.of_eq rfl rfl rfl rfl
@[simp] theorem keeps_run {s x : State} (h : Keeps s x) (v) : Keeps s { x with run := v } := h.of_eq rfl rfl rfl rfl
@[simp] theorem keeps_net {s x : State} (h : Keeps s x) (v) : Keeps s { x with net := v } := h.of_eq rfl rfl rfl rfl
@[simp] theorem keeps_svc {s x : State} (h : Keeps s x) (v) : Keeps s { x with svc := v } := h.of_eq rfl rfl rfl rfl
@[simp] theorem keeps_cfg {s x : State} (h : Keeps s x) (v) : Keeps s { x with cfg := v } := h.of_eq rfl rfl rfl rfl

/-- The mailbox unit changed into one that meets `MailOk` too. -/
theorem keeps_mbx {s x : State} (h : Keeps s x) (v : Mbx) (hv : MailOk x.mbx → MailOk v) :
    Keeps s { x with mbx := v } :=
  ⟨h.fab, h.pending, fun m => hv (h.mail m), h.provisioned, h.field, h.retired⟩

@[simp] theorem keeps_ite (s : State) (c : Prop) [Decidable c] (a b : State) :
    Keeps s (if c then a else b) ↔ (c → Keeps s a) ∧ (¬c → Keeps s b) := by
  split <;> simp_all

@[simp] theorem keeps_ifDo {s x : State} (c : Bool) {f : State → State} (hf : Keeps s x → Keeps s (f x)) (h : Keeps s x) :
    Keeps s (ifDo c f x) := by
  unfold ifDo; split
  · exact hf h
  · exact h

@[simp] theorem keeps_forEach {α : Type} {s : State} (l : List α) {f : α → State → State}
    (hf : ∀ a x, Keeps s x → Keeps s (f a x)) {x : State} (h : Keeps s x) : Keeps s (forEach l f x) := by
  unfold forEach
  induction l generalizing x with
  | nil => exact h
  | cons a l ih => exact ih (hf a x h)

@[simp] theorem keeps_foldl {α : Type} {s : State} (l : List α) {f : State → α → State}
    (hf : ∀ a x, Keeps s x → Keeps s (f x a)) {x : State} (h : Keeps s x) : Keeps s (l.foldl f x) := by
  induction l generalizing x with
  | nil => exact h
  | cons a l ih => exact ih (hf a x h)

/-- A reply keeps it: the state it carries does. -/
def ReplyKeeps (s : State) : Reply → Prop
  | .done _ _ t => Keeps s t
  | .defer t => Keeps s t

/-- An outcome keeps it: a next state does. -/
def OutKeeps (s : State) : Out → Prop
  | .next t => Keeps s t
  | _ => True

@[simp] theorem replyKeeps_done (s : State) (st : Status) (r : Bytes) (t : State) :
    ReplyKeeps s (.done st r t) ↔ Keeps s t := Iff.rfl
@[simp] theorem replyKeeps_defer (s t : State) : ReplyKeeps s (.defer t) ↔ Keeps s t := Iff.rfl
@[simp] theorem replyKeeps_refuse (s : State) (st : Status) (t : State) : ReplyKeeps s (refuse st t) ↔ Keeps s t := Iff.rfl
@[simp] theorem replyKeeps_ok (s : State) (r : Bytes) (t : State) : ReplyKeeps s (ok r t) ↔ Keeps s t := Iff.rfl
@[simp] theorem replyKeeps_ite (s : State) (c : Prop) [Decidable c] (a b : Reply) :
    ReplyKeeps s (if c then a else b) ↔ (c → ReplyKeeps s a) ∧ (¬c → ReplyKeeps s b) := by
  split <;> simp_all
@[simp] theorem replyKeeps_guards {s x : State} (l : List (Bool × Status)) (k : Reply) (h : Keeps s x)
    (hk : ReplyKeeps s k) : ReplyKeeps s (guards l x k) := by
  unfold guards; split
  · exact h
  · exact hk
@[simp] theorem outKeeps_next (s t : State) : OutKeeps s (.next t) ↔ Keeps s t := Iff.rfl
@[simp] theorem outKeeps_fault (s : State) (f : Fault) : OutKeeps s (.fault f) ↔ True := Iff.rfl
@[simp] theorem outKeeps_refused (s : State) (f : Refusal) : OutKeeps s (.refused f) ↔ True := Iff.rfl
@[simp] theorem outKeeps_ite (s : State) (c : Prop) [Decidable c] (a b : Out) :
    OutKeeps s (if c then a else b) ↔ (c → OutKeeps s a) ∧ (¬c → OutKeeps s b) := by
  split <;> simp_all
@[simp] theorem outKeeps_when {s t : State} (c : Bool) (h : Keeps s t) : OutKeeps s (when_ c t) := by
  unfold when_; split
  · exact h
  · trivial

end Sys2Proof.Machine
end

