-- ==== Sys2Proof/Laws/Memory.lean ====
section
/-! SUPPORT. The windows' memory: every operation keeps the canonical form and touches only the bytes it writes. -/

namespace Sys2Proof.Machine

theorem Memory.wfFrom_mono {lo lo' : Nat} {m : List Host.Cell} (h : lo' ≤ lo) (w : Memory.wfFrom lo m = true) :
    Memory.wfFrom lo' m = true := by
  cases m with
  | nil => rfl
  | cons c m =>
    simp only [Memory.wfFrom, Bool.and_eq_true, decide_eq_true_eq] at w ⊢
    exact ⟨⟨by omega, w.1.2⟩, w.2⟩

/-- An address below the form's bound is not listed. -/
theorem Memory.read_below {lo a : Nat} {m : List Host.Cell} (w : Memory.wfFrom lo m = true) (h : a < lo) :
    Memory.read m a = 0 := by
  induction m generalizing lo with
  | nil => rfl
  | cons c m ih =>
    simp only [Memory.wfFrom, Bool.and_eq_true, decide_eq_true_eq] at w
    simp only [Memory.read]
    split
    · omega
    · exact ih w.2 (by omega)

theorem Memory.wfFrom_write {lo a : Nat} {m : List Host.Cell} (v : Byte) (w : Memory.wfFrom lo m = true) (h : lo ≤ a) :
    Memory.wfFrom lo (Memory.write m a v) = true := by
  induction m generalizing lo with
  | nil => unfold Memory.write; split <;> simp_all [Memory.wfFrom]
  | cons c m ih =>
    obtain ⟨b, x⟩ := c
    simp only [Memory.wfFrom, Bool.and_eq_true, decide_eq_true_eq] at w
    have w2 := w.2
    unfold Memory.write
    split
    · split
      · simp only [Memory.wfFrom, Bool.and_eq_true, decide_eq_true_eq]; exact w
      · simp only [Memory.wfFrom, Bool.and_eq_true, decide_eq_true_eq, bne_iff_ne, ne_eq] at w ⊢
        exact ⟨⟨h, by assumption⟩, ⟨⟨by omega, w.1.2⟩, w2⟩⟩
    · split
      · split
        · exact Memory.wfFrom_mono (by omega) w2
        · subst b
          simp only [Memory.wfFrom, Bool.and_eq_true, decide_eq_true_eq, bne_iff_ne, ne_eq] at w ⊢
          exact ⟨⟨h, by assumption⟩, w2⟩
      · simp only [Memory.wfFrom, Bool.and_eq_true, decide_eq_true_eq]
        exact ⟨w.1, ih w2 (by omega)⟩

/-- A write keeps the canonical form. -/
theorem Memory.wf_write {m : List Host.Cell} (a : Nat) (v : Byte) (w : Memory.wf m = true) :
    Memory.wf (Memory.write m a v) = true := Memory.wfFrom_write v w (Nat.zero_le a)

theorem Memory.wf_writeBytes (vs : Bytes) {m : List Host.Cell} (a : Nat) (w : Memory.wf m = true) :
    Memory.wf (Memory.writeBytes m a vs) = true := by
  induction vs generalizing m a with
  | nil => exact w
  | cons v vs ih => exact ih (a + 1) (Memory.wf_write a v w)

/-- What a byte written reads as, and every other byte reads as before. -/
theorem Memory.read_write {m : List Host.Cell} (w : Memory.wf m = true) (a b : Nat) (v : Byte) :
    Memory.read (Memory.write m a v) b = if b = a then v else Memory.read m b := by
  suffices ∀ lo, Memory.wfFrom lo m = true → lo ≤ a →
      Memory.read (Memory.write m a v) b = if b = a then v else Memory.read m b from this 0 w (Nat.zero_le a)
  clear w
  induction m with
  | nil =>
    intro lo w h
    unfold Memory.write
    by_cases hb : b = a
    · split
      · rename_i hv; simp [Memory.read, hb, hv]
      · simp [Memory.read, hb]
    · split
      · simp [Memory.read, hb]
      · simp [Memory.read, hb, Ne.symm hb]
  | cons c m ih =>
    intro lo w h
    obtain ⟨d, x⟩ := c
    simp only [Memory.wfFrom, Bool.and_eq_true, decide_eq_true_eq] at w
    have w2 := w.2
    have below : ∀ {y}, y ≤ d → Memory.read m y = 0 := fun hy => Memory.read_below w2 (by omega)
    unfold Memory.write
    split
    · rename_i had
      split
      · rename_i hv
        split
        · subst b; simp [Memory.read, hv, below (Nat.le_of_lt had)]; omega
        · rfl
      · by_cases hb : b = a
        · simp [Memory.read, hb]
        · simp [Memory.read, hb, Ne.symm hb]
    · split
      · rename_i hda; subst hda
        split
        · rename_i hv
          by_cases hb : b = a
          · simp [hb, hv, below (Nat.le_refl a)]
          · simp [Memory.read, hb, Ne.symm hb]
        · by_cases hb : b = a
          · simp [Memory.read, hb]
          · simp [Memory.read, hb, Ne.symm hb]
      · simp only [Memory.read]
        by_cases hb : d = b
        · simp [hb]; omega
        · simp only [hb, if_false]
          exact ih _ w2 (by omega)

/-- Bytes written in a row, read back; every byte outside them reads as before. -/
theorem Memory.read_writeBytes (vs : Bytes) {m : List Host.Cell} (w : Memory.wf m = true) (a b : Nat) :
    Memory.read (Memory.writeBytes m a vs) b =
      if a ≤ b ∧ b < a + vs.length then vs.getD (b - a) 0 else Memory.read m b := by
  induction vs generalizing m a with
  | nil => simp only [Memory.writeBytes, List.length_nil]; rw [if_neg (by omega)]
  | cons v vs ih =>
    simp only [Memory.writeBytes, ih (Memory.wf_write a v w), Memory.read_write w, List.length_cons]
    rcases Nat.lt_trichotomy b a with h | h | h
    · simp [show ¬ a + 1 ≤ b by omega, show ¬ b = a by omega, show ¬ a ≤ b by omega]
    · subst h; simp
    · obtain ⟨k, rfl⟩ : ∃ k, b = a + 1 + k := ⟨b - (a + 1), by omega⟩
      have e : a + 1 + k - a = k + 1 := by omega
      by_cases hk : k < vs.length
      · simp [e, hk, show a ≤ a + 1 + k by omega, show a + 1 + k < a + (vs.length + 1) by omega]
      · simp [hk, show ¬ a + 1 + k = a by omega, show ¬ a + 1 + k < a + (vs.length + 1) by omega]

theorem Memory.mem_write {m : List Host.Cell} {a : Nat} {v : Byte} {c : Host.Cell} (h : c ∈ Memory.write m a v) :
    c.1 = a ∨ c ∈ m := by
  induction m with
  | nil => unfold Memory.write at h; split at h <;> simp_all
  | cons d m ih =>
    obtain ⟨b, x⟩ := d
    unfold Memory.write at h
    split at h
    · split at h
      · exact .inr h
      · rcases List.mem_cons.1 h with h | h
        · exact .inl (by rw [h])
        · exact .inr h
    · split at h
      · split at h
        · exact .inr (List.mem_cons_of_mem _ h)
        · rcases List.mem_cons.1 h with h | h
          · exact .inl (by rw [h])
          · exact .inr (List.mem_cons_of_mem _ h)
      · rcases List.mem_cons.1 h with h | h
        · exact .inr (h ▸ List.mem_cons_self)
        · rcases ih h with k | k
          · exact .inl k
          · exact .inr (List.mem_cons_of_mem _ k)

/-- Only the addresses written are added. -/
theorem Memory.mem_writeBytes (vs : Bytes) {m : List Host.Cell} {a : Nat} {c : Host.Cell}
    (h : c ∈ Memory.writeBytes m a vs) : (a ≤ c.1 ∧ c.1 < a + vs.length) ∨ c ∈ m := by
  induction vs generalizing m a with
  | nil => exact .inr h
  | cons v vs ih =>
    rcases ih h with k | k
    · exact .inl ⟨by omega, by simp; omega⟩
    · rcases Memory.mem_write k with k | k
      · exact .inl ⟨by omega, by simp; omega⟩
      · exact .inr k

@[simp] theorem padTo_length (n : Nat) (b : Bytes) : (padTo n b).length = n := by
  simp [padTo]; omega

/-- A window written whole keeps the form. -/
theorem wf_writeWindow {m : List Host.Cell} (base : Nat) (b : Bytes) (w : Memory.wf m = true) :
    Memory.wf (writeWindow m base b) = true := Memory.wf_writeBytes _ base w

end Sys2Proof.Machine
end

