-- ==== Sys2Proof/Laws/Mail.lean ====
section
/-! SUPPORT. Every change of the mailbox unit keeps `MailOk`. -/

namespace Sys2Proof.Machine

theorem mailOk_empty : MailOk {} := by
  refine ⟨rfl, by simp, by simp, by simp, by simp, fun mb => ?_, fun mb k h => ?_⟩
  · simp
  · simp at h

/-- A window written whole lists nothing outside the windows. -/
theorem inWindows_writeWindow {m : List Host.Cell} {base : Nat} {b : Bytes} (h1 : 0x1000 ≤ base) (h2 : base + 512 ≤ 0x3000)
    (h : ∀ c ∈ m, 0x1000 ≤ c.1 ∧ c.1 < 0x3000) : ∀ c ∈ writeWindow m base b, 0x1000 ≤ c.1 ∧ c.1 < 0x3000 := by
  intro c hc
  rcases Memory.mem_writeBytes _ hc with k | k
  · rw [padTo_length] at k; omega
  · exact h c k

theorem cmdWindow_bounds (mb : Mailbox) : 0x1000 ≤ cmdWindow mb ∧ cmdWindow mb + 512 ≤ 0x3000 := by
  have := mb.isLt; unfold cmdWindow; omega

theorem evtWindow_bounds (mb : Mailbox) : 0x1000 ≤ evtWindow mb ∧ evtWindow mb + 512 ≤ 0x3000 := by
  have := mb.isLt; unfold evtWindow; omega

/-- No event mailbox is empty exactly when every one is full. -/
theorem emptyEvt_none {m : Mbx} : emptyEvt m = none ↔ ∀ i : Mailbox, m.evt[i].full = true := by
  simp [emptyEvt]

/-- An event put into an empty mailbox, where no event mailbox stood empty before it was emptied. -/
theorem mailOk_fillEvt {m : Mbx} (i : Mailbox) (e : QEvent) (h : MailOk m) : MailOk (fillEvt i e m) := by
  obtain ⟨h1, h2, h3, h4, h5, h6, h7⟩ := h
  refine ⟨wf_writeWindow _ _ h1, inWindows_writeWindow (evtWindow_bounds i).1 (evtWindow_bounds i).2 h2, h3, ?_, h5, h6, h7⟩
  intro hq j
  by_cases hij : i = j
  · subst hij; simp [fillEvt, putWindow]
  · have : (i : Nat) ≠ j := fun h => hij (Fin.ext h)
    simpa [fillEvt, putWindow, Vector.getElem_set, this] using h4 hq j

theorem mailOk_place {m : Mbx} {i : Mailbox} {e : QEvent} {n : BitVec 16} (h : MailOk m) :
    MailOk (fillEvt i e { m with nextSeq := n }) :=
  mailOk_fillEvt i e ⟨h.1, h.2, h.3, h.4, h.5, h.6, h.7⟩

/-- An event queued, where every event mailbox is full. -/
theorem mailOk_queue {m : Mbx} {q : List QEvent} {n : BitVec 16} (hq : q.length ≤ 128) (hm : emptyEvt m = none)
    (h : MailOk m) : MailOk { m with nextSeq := n, queue := q } :=
  ⟨h.1, h.2, hq, fun _ => emptyEvt_none.1 hm, h.5, h.6, h.7⟩

/-- A change of one command mailbox that keeps the bounds on its responses. -/
theorem mailOk_cmd {m : Mbx} (mb : Mailbox) (b : CmdBox) (hr : b.rlen.toNat ≤ 512)
    (hk : ∀ k, b.kept = some k → k.resp.length ≤ 512) (h : MailOk m) :
    MailOk { m with cmd := m.cmd.set mb b } := by
  refine ⟨h.1, h.2, h.3, h.4, h.5, fun j => ?_, fun j k hj => ?_⟩
  · by_cases hij : (mb : Nat) = j
    · simp [hij, hr]
    · simpa [Vector.getElem_set, hij] using h.6 j
  · by_cases hij : (mb : Nat) = j
    · simp [hij] at hj; exact hk k hj
    · simp [hij] at hj; exact h.7 j k hj

theorem mailOk_order {m : Mbx} (l : List Mailbox) (h : MailOk m) : MailOk { m with order := l } :=
  ⟨h.1, h.2, h.3, h.4, h.5, h.6, h.7⟩

theorem mailOk_badWords {m : Mbx} (l : List Nat) (h : MailOk m) : MailOk { m with badWords := l } :=
  ⟨h.1, h.2, h.3, h.4, h.5, h.6, h.7⟩

theorem mailOk_kept {m : Mbx} (l : List Bytes) (hl : l.length ≤ 2) (h : MailOk m) : MailOk { m with kept := l } :=
  ⟨h.1, h.2, h.3, h.4, hl, h.6, h.7⟩

theorem mailOk_win {m : Mbx} {w : List Host.Cell} (h1 : Memory.wf w = true) (h2 : ∀ c ∈ w, 0x1000 ≤ c.1 ∧ c.1 < 0x3000)
    (h : MailOk m) : MailOk { m with win := w } :=
  ⟨h1, h2, h.3, h.4, h.5, h.6, h.7⟩

/-- A change of one command mailbox and of the windows, with the bounds kept. -/
theorem mailOk_box {m m' : Mbx} (mb : Mailbox) (b : CmdBox) (h : MailOk m) (hc : m'.cmd = m.cmd.set mb b)
    (he : m'.evt = m.evt) (hq : m'.queue = m.queue) (hk : m'.kept = m.kept) (hw : Memory.wf m'.win = true)
    (hi : ∀ c ∈ m'.win, 0x1000 ≤ c.1 ∧ c.1 < 0x3000) (hr : b.rlen.toNat ≤ 512)
    (hb : ∀ k, b.kept = some k → k.resp.length ≤ 512) : MailOk m' := by
  have k := mailOk_cmd mb b hr hb h
  exact ⟨hw, hi, hq ▸ h.3, by rw [hq, he]; exact h.4, hk ▸ h.5, by rw [hc]; exact k.6, by rw [hc]; exact k.7⟩

theorem ofNat10_le {n : Nat} (h : n ≤ 512) : (BitVec.ofNat 10 n).toNat ≤ 512 := by
  rw [BitVec.toNat_ofNat]; exact (Nat.mod_le _ _).trans h

end Sys2Proof.Machine
end

