-- ==== Sys2Proof/Laws/KeepsOps.lean ====
section
/-! SUPPORT. The operations of Machine/Ops.lean keep what `Keeps` says. -/

set_option linter.unusedVariables false
set_option linter.unusedSimpArgs false
set_option linter.unusedTactic false
set_option linter.unreachableTactic false

namespace Sys2Proof.Machine

@[simp] theorem keeps_setStatus {s : State} (a0 : ℕ) {x : State} (h : Keeps s x) :
    Keeps s (setStatus a0 x) := by
  unfold setStatus
  try dsimp only
  repeat' split
  all_goals first | with_reducible exact h | (simp +contextual (maxDischargeDepth := 100) [*]; done) | exact h.of_eq (by with_reducible rfl) (by with_reducible rfl) (by with_reducible rfl) (by with_reducible rfl) | simp +contextual (maxDischargeDepth := 100) [*]

@[simp] theorem keeps_changeState {s : State} (a0 : Hif → Hif) {x : State} (h : Keeps s x) :
    Keeps s (changeState a0 x) := by
  unfold changeState
  try dsimp only
  repeat' split
  all_goals first | with_reducible exact h | (simp +contextual (maxDischargeDepth := 100) [*]; done) | exact h.of_eq (by with_reducible rfl) (by with_reducible rfl) (by with_reducible rfl) (by with_reducible rfl) | simp +contextual (maxDischargeDepth := 100) [*]

@[simp] theorem keeps_draw {s : State}  {x : State} (h : Keeps s x) :
    Keeps s (draw x) := by
  unfold draw
  try dsimp only
  repeat' split
  all_goals first | with_reducible exact h | (simp +contextual (maxDischargeDepth := 100) [*]; done) | exact h.of_eq (by with_reducible rfl) (by with_reducible rfl) (by with_reducible rfl) (by with_reducible rfl) | simp +contextual (maxDischargeDepth := 100) [*]

@[simp] theorem keeps_loseEvents {s : State} (a0 : ℕ) {x : State} (h : Keeps s x) :
    Keeps s (loseEvents a0 x) := by
  unfold loseEvents
  try dsimp only
  repeat' split
  all_goals first | with_reducible exact h | (simp +contextual (maxDischargeDepth := 100) [*]; done) | exact h.of_eq (by with_reducible rfl) (by with_reducible rfl) (by with_reducible rfl) (by with_reducible rfl) | simp +contextual (maxDischargeDepth := 100) [*]

@[simp] theorem keeps_placeEvent {s : State} (a0 : BitVec 16) (a1 : Bytes) {x : State} (h : Keeps s x) :
    Keeps s (placeEvent a0 a1 x) := by
  unfold placeEvent
  dsimp only
  split
  · exact keeps_mbx h _ mailOk_place
  · rename_i hm
    split
    · rename_i hq
      exact keeps_mbx h _ (mailOk_queue (by simp; exact hq) hm)
    · exact keeps_loseEvents 1 (keeps_mbx h _ fun k => mailOk_queue (by have := k.queued; simp; omega) hm k)

@[simp] theorem keeps_raiseCode {s : State} (a0 : BitVec 16) (a1 : Bytes) {x : State} (h : Keeps s x) :
    Keeps s (raiseCode a0 a1 x) := by
  unfold raiseCode
  dsimp only
  split
  · exact h
  · split
    · exact keeps_placeEvent _ _ h
    · split
      · rename_i hk
        exact keeps_mbx h _ (mailOk_kept _ (by have := hk.2; simp; omega))
      · exact h

@[simp] theorem keeps_raise {s : State} (a0 : Ev) (a1 : Bytes) {x : State} (h : Keeps s x) :
    Keeps s (raise a0 a1 x) := by
  unfold raise
  try dsimp only
  repeat' split
  all_goals first | with_reducible exact h | (simp +contextual (maxDischargeDepth := 100) [*]; done) | exact h.of_eq (by with_reducible rfl) (by with_reducible rfl) (by with_reducible rfl) (by with_reducible rfl) | simp +contextual (maxDischargeDepth := 100) [*]

@[simp] theorem keeps_complete {s : State} (a0 : Mailbox) (a1 : Status) (a2 : Bytes) {x : State} (h : Keeps s x) :
    Keeps s (complete a0 a1 a2 x) := by
  have hr : (a2.take 512).length ≤ 512 := by simp
  refine keeps_mbx h _ fun k => mailOk_box a0 _ k rfl rfl rfl rfl (wf_writeWindow _ _ k.canonical)
    (inWindows_writeWindow (cmdWindow_bounds a0).1 (cmdWindow_bounds a0).2 k.inWindows) (ofNat10_le hr) ?_
  intro y hy
  dsimp only at hy
  split at hy
  · exact k.keptResponse a0 y hy
  · cases hy; exact hr

@[simp] theorem keeps_completeRunning {s : State} (a0 : Status) (a1 : Bytes) (a2 : Mailbox) {x : State} (h : Keeps s x) :
    Keeps s (completeRunning a0 a1 a2 x) := by
  unfold completeRunning
  try dsimp only
  repeat' split
  all_goals first | with_reducible exact h | (simp +contextual (maxDischargeDepth := 100) [*]; done) | exact h.of_eq (by with_reducible rfl) (by with_reducible rfl) (by with_reducible rfl) (by with_reducible rfl) | simp +contextual (maxDischargeDepth := 100) [*]

theorem keeps_presentKept {s x : State} (mb : Mailbox) (y : Kept) (hy : x.mbx.cmd[mb].kept = some y) (h : Keeps s x) :
    Keeps s (presentKept mb y x) :=
  keeps_mbx h _ fun k => mailOk_box mb _ k rfl rfl rfl rfl (wf_writeWindow _ _ k.canonical)
    (inWindows_writeWindow (cmdWindow_bounds mb).1 (cmdWindow_bounds mb).2 k.inWindows)
    (ofNat10_le (k.keptResponse mb y hy)) (fun z hz => k.keptResponse mb z hz)

@[simp] theorem keeps_takeUp {s : State} (a0 : Mailbox) {x : State} (h : Keeps s x) :
    Keeps s (takeUp a0 x) := by
  exact keeps_mbx h _ fun k => mailOk_box a0 _ k rfl rfl rfl rfl k.canonical k.inWindows (k.response a0)
    (fun z hz => k.keptResponse a0 z hz)

@[simp] theorem keeps_apply {s : State} (mb : Mailbox) {r : Reply} (h : ReplyKeeps s r) : Keeps s (r.apply mb) := by
  cases r with
  | done st b t => exact keeps_complete mb st b h
  | defer t => exact h

theorem keeps_fresh {s x : State} (c : Cmd) (mb : Mailbox) {body : Bytes → State → Reply}
    (hb : ∀ b y, Keeps s y → ReplyKeeps s (body b y)) (n : Nat) (known : Bool) (h : Keeps s x) :
    Keeps s (runCommand.fresh c mb body n known x) := by
  unfold runCommand.fresh
  split
  · exact keeps_complete _ _ _ h
  · split
    · exact keeps_complete _ _ _ h
    · exact keeps_apply _ (hb _ _ h)

@[simp] theorem keeps_runCommand {s x : State} (c : Cmd) (mb : Mailbox) {body : Bytes → State → Reply}
    (hb : ∀ b y, Keeps s y → ReplyKeeps s (body b y)) (h : Keeps s x) : Keeps s (runCommand c mb body x) := by
  have ht := keeps_takeUp mb h
  unfold runCommand
  dsimp only
  split
  · exact h
  · split
    · rename_i k hk
      split
      · refine keeps_presentKept mb k ?_ ht
        simpa [takeUp] using hk
      · exact keeps_fresh c mb hb _ _ ht
    · exact keeps_fresh c mb hb _ _ ht

end Sys2Proof.Machine
end

