-- ==== Sys2Proof/Laws/KeepsTrips.lean ====
section
/-! SUPPORT. The operations of Machine/Trips.lean keep what `Keeps` says. -/

set_option linter.unusedVariables false
set_option linter.unusedSimpArgs false
set_option linter.unusedTactic false
set_option linter.unreachableTactic false

namespace Sys2Proof.Machine

@[simp] theorem keeps_modDrv {s : State} (a0 : Driver) (a1 : Drv → Drv) {x : State} (h : Keeps s x) :
    Keeps s (modDrv a0 a1 x) := by
  unfold modDrv
  try dsimp only
  repeat' split
  all_goals first | with_reducible exact h | (simp +contextual (maxDischargeDepth := 100) [*]; done) | exact h.of_eq (by with_reducible rfl) (by with_reducible rfl) (by with_reducible rfl) (by with_reducible rfl) | simp +contextual (maxDischargeDepth := 100) [*]

@[simp] theorem keeps_modTrip {s : State} (a0 : Driver) (a1 : TripWord → TripWord) {x : State} (h : Keeps s x) :
    Keeps s (modTrip a0 a1 x) := by
  unfold modTrip
  try dsimp only
  repeat' split
  all_goals first | with_reducible exact h | (simp +contextual (maxDischargeDepth := 100) [*]; done) | exact h.of_eq (by with_reducible rfl) (by with_reducible rfl) (by with_reducible rfl) (by with_reducible rfl) | simp +contextual (maxDischargeDepth := 100) [*]

@[simp] theorem keeps_modWear {s : State} (a0 : Wear → Wear) {x : State} (h : Keeps s x) :
    Keeps s (modWear a0 x) := by
  unfold modWear
  try dsimp only
  repeat' split
  all_goals first | with_reducible exact h | (simp +contextual (maxDischargeDepth := 100) [*]; done) | exact h.of_eq (by with_reducible rfl) (by with_reducible rfl) (by with_reducible rfl) (by with_reducible rfl) | simp +contextual (maxDischargeDepth := 100) [*]

@[simp] theorem keeps_modOut {s : State} (a0 : Outlet) (a1 : OutS → OutS) {x : State} (h : Keeps s x) :
    Keeps s (modOut a0 a1 x) := by
  unfold modOut
  try dsimp only
  repeat' split
  all_goals first | with_reducible exact h | (simp +contextual (maxDischargeDepth := 100) [*]; done) | exact h.of_eq (by with_reducible rfl) (by with_reducible rfl) (by with_reducible rfl) (by with_reducible rfl) | simp +contextual (maxDischargeDepth := 100) [*]

@[simp] theorem keeps_modSaf {s : State} (a0 : Outlet) (a1 : SafOut → SafOut) {x : State} (h : Keeps s x) :
    Keeps s (modSaf a0 a1 x) := by
  unfold modSaf
  try dsimp only
  repeat' split
  all_goals first | with_reducible exact h | (simp +contextual (maxDischargeDepth := 100) [*]; done) | exact h.of_eq (by with_reducible rfl) (by with_reducible rfl) (by with_reducible rfl) (by with_reducible rfl) | simp +contextual (maxDischargeDepth := 100) [*]

@[simp] theorem keeps_faultLog {s : State} (a0 : BitVec 16) (a1 : ℕ) {x : State} (h : Keeps s x) :
    Keeps s (faultLog a0 a1 x) := by
  unfold faultLog
  try dsimp only
  repeat' split
  all_goals first | with_reducible exact h | (simp +contextual (maxDischargeDepth := 100) [*]; done) | exact h.of_eq (by with_reducible rfl) (by with_reducible rfl) (by with_reducible rfl) (by with_reducible rfl) | simp +contextual (maxDischargeDepth := 100) [*]

@[simp] theorem keeps_coilOff {s : State} (a0 : Driver) {x : State} (h : Keeps s x) :
    Keeps s (coilOff a0 x) := by
  unfold coilOff
  try dsimp only
  repeat' split
  all_goals first | with_reducible exact h | (simp +contextual (maxDischargeDepth := 100) [*]; done) | exact h.of_eq (by with_reducible rfl) (by with_reducible rfl) (by with_reducible rfl) (by with_reducible rfl) | simp +contextual (maxDischargeDepth := 100) [*]

@[simp] theorem keeps_coilOn {s : State} (a0 : Driver) {x : State} (h : Keeps s x) :
    Keeps s (coilOn a0 x) := by
  unfold coilOn
  try dsimp only
  repeat' split
  all_goals first | with_reducible exact h | (simp +contextual (maxDischargeDepth := 100) [*]; done) | exact h.of_eq (by with_reducible rfl) (by with_reducible rfl) (by with_reducible rfl) (by with_reducible rfl) | simp +contextual (maxDischargeDepth := 100) [*]

@[simp] theorem keeps_addCode {s : State} (a0 : Driver) (a1 : BitVec 16) {x : State} (h : Keeps s x) :
    Keeps s (addCode a0 a1 x) := by
  unfold addCode
  try dsimp only
  repeat' split
  all_goals first | with_reducible exact h | (simp +contextual (maxDischargeDepth := 100) [*]; done) | exact h.of_eq (by with_reducible rfl) (by with_reducible rfl) (by with_reducible rfl) (by with_reducible rfl) | simp +contextual (maxDischargeDepth := 100) [*]

@[simp] theorem keeps_forceCp {s : State} (a0 : Driver) (a1 : BitVec 16) (a2 : Bool) {x : State} (h : Keeps s x) :
    Keeps s (forceCp a0 a1 a2 x) := by
  unfold forceCp
  try dsimp only
  repeat' split
  all_goals first | with_reducible exact h | (simp +contextual (maxDischargeDepth := 100) [*]; done) | exact h.of_eq (by with_reducible rfl) (by with_reducible rfl) (by with_reducible rfl) (by with_reducible rfl) | simp +contextual (maxDischargeDepth := 100) [*]

@[simp] theorem keeps_trip {s : State} (a0 : Driver) (a1 : List Stage) (a2 : BitVec 16) {x : State} (h : Keeps s x) :
    Keeps s (trip a0 a1 a2 x) := by
  unfold trip
  try dsimp only
  repeat' split
  all_goals first | with_reducible exact h | (simp +contextual (maxDischargeDepth := 100) [*]; done) | exact h.of_eq (by with_reducible rfl) (by with_reducible rfl) (by with_reducible rfl) (by with_reducible rfl) | simp +contextual (maxDischargeDepth := 100) [*]

@[simp] theorem keeps_grant {s : State} (a0 : Driver) (a1 : Stage) {x : State} (h : Keeps s x) :
    Keeps s (grant a0 a1 x) := by
  unfold grant
  try dsimp only
  repeat' split
  all_goals first | with_reducible exact h | (simp +contextual (maxDischargeDepth := 100) [*]; done) | exact h.of_eq (by with_reducible rfl) (by with_reducible rfl) (by with_reducible rfl) (by with_reducible rfl) | simp +contextual (maxDischargeDepth := 100) [*]

end Sys2Proof.Machine
end

