-- ==== Sys2Proof/Laws/KeepsLegalOps.lean ====
section
/-! SUPPORT. The operations of Machine/LegalOps.lean keep what `Keeps` says. -/

set_option linter.unusedVariables false
set_option linter.unusedSimpArgs false
set_option linter.unusedTactic false
set_option linter.unreachableTactic false

namespace Sys2Proof.Machine

@[simp] theorem keeps_modBill {s : State} (a0 : Bill → Bill) {x : State} (h : Keeps s x) :
    Keeps s (modBill a0 x) := by
  unfold modBill
  try dsimp only
  repeat' split
  all_goals first | with_reducible exact h | (simp +contextual (maxDischargeDepth := 100) [*]; done) | exact h.of_eq (by with_reducible rfl) (by with_reducible rfl) (by with_reducible rfl) (by with_reducible rfl) | simp +contextual (maxDischargeDepth := 100) [*]

@[simp] theorem keeps_modLegal {s : State} (a0 : Legal → Legal) {x : State} (h : Keeps s x) :
    Keeps s (modLegal a0 x) := by
  unfold modLegal
  try dsimp only
  repeat' split
  all_goals first | with_reducible exact h | (simp +contextual (maxDischargeDepth := 100) [*]; done) | exact h.of_eq (by with_reducible rfl) (by with_reducible rfl) (by with_reducible rfl) (by with_reducible rfl) | simp +contextual (maxDischargeDepth := 100) [*]

@[simp] theorem keeps_writeOldest {s : State}  {x : State} (h : Keeps s x) :
    Keeps s (writeOldest x) := by
  unfold writeOldest
  try dsimp only
  repeat' split
  all_goals first | with_reducible exact h | (simp +contextual (maxDischargeDepth := 100) [*]; done) | exact h.of_eq (by with_reducible rfl) (by with_reducible rfl) (by with_reducible rfl) (by with_reducible rfl) | simp +contextual (maxDischargeDepth := 100) [*]

@[simp] theorem keeps_putEntry {s : State} (a0 : LogEntry) {x : State} (h : Keeps s x) :
    Keeps s (putEntry a0 x) := by
  unfold putEntry
  try dsimp only
  repeat' split
  all_goals first | with_reducible exact h | (simp +contextual (maxDischargeDepth := 100) [*]; done) | exact h.of_eq (by with_reducible rfl) (by with_reducible rfl) (by with_reducible rfl) (by with_reducible rfl) | simp +contextual (maxDischargeDepth := 100) [*]

@[simp] theorem keeps_logAt {s : State} (a0 : ℕ) (a1 : ℕ) (a2 : Bytes) (a3 : Life) (a4 : BitVec 16) (a5 : Bool) {x : State} (h : Keeps s x) :
    Keeps s (logAt a0 a1 a2 a3 a4 a5 x) := by
  unfold logAt
  try dsimp only
  repeat' split
  all_goals first | with_reducible exact h | (simp +contextual (maxDischargeDepth := 100) [*]; done) | exact h.of_eq (by with_reducible rfl) (by with_reducible rfl) (by with_reducible rfl) (by with_reducible rfl) | simp +contextual (maxDischargeDepth := 100) [*]

@[simp] theorem keeps_log {s : State} (a0 : ℕ) (a1 : ℕ) (a2 : Bytes) {x : State} (h : Keeps s x) :
    Keeps s (log a0 a1 a2 x) := by
  unfold log
  try dsimp only
  repeat' split
  all_goals first | with_reducible exact h | (simp +contextual (maxDischargeDepth := 100) [*]; done) | exact h.of_eq (by with_reducible rfl) (by with_reducible rfl) (by with_reducible rfl) (by with_reducible rfl) | simp +contextual (maxDischargeDepth := 100) [*]

@[simp] theorem keeps_checkpoint {s : State}  {x : State} (h : Keeps s x) :
    Keeps s (checkpoint x) := by
  unfold checkpoint
  try dsimp only
  repeat' split
  all_goals first | with_reducible exact h | (simp +contextual (maxDischargeDepth := 100) [*]; done) | exact h.of_eq (by with_reducible rfl) (by with_reducible rfl) (by with_reducible rfl) (by with_reducible rfl) | simp +contextual (maxDischargeDepth := 100) [*]

@[simp] theorem keeps_modRecord {s : State} (a0 : Outlet) (a1 : Record → Record) {x : State} (h : Keeps s x) :
    Keeps s (modRecord a0 a1 x) := by
  unfold modRecord
  try dsimp only
  repeat' split
  all_goals first | with_reducible exact h | (simp +contextual (maxDischargeDepth := 100) [*]; done) | exact h.of_eq (by with_reducible rfl) (by with_reducible rfl) (by with_reducible rfl) (by with_reducible rfl) | simp +contextual (maxDischargeDepth := 100) [*]

@[simp] theorem keeps_openRecord {s : State} (a0 : Outlet) {x : State} (h : Keeps s x) :
    Keeps s (openRecord a0 x) := by
  unfold openRecord
  try dsimp only
  repeat' split
  all_goals first | with_reducible exact h | (simp +contextual (maxDischargeDepth := 100) [*]; done) | exact h.of_eq (by with_reducible rfl) (by with_reducible rfl) (by with_reducible rfl) (by with_reducible rfl) | simp +contextual (maxDischargeDepth := 100) [*]

@[simp] theorem keeps_storeRecord {s : State} (a0 : Record) {x : State} (h : Keeps s x) :
    Keeps s (storeRecord a0 x) := by
  unfold storeRecord
  try dsimp only
  repeat' split
  all_goals first | with_reducible exact h | (simp +contextual (maxDischargeDepth := 100) [*]; done) | exact h.of_eq (by with_reducible rfl) (by with_reducible rfl) (by with_reducible rfl) (by with_reducible rfl) | simp +contextual (maxDischargeDepth := 100) [*]

@[simp] theorem keeps_closeRecord {s : State} (a0 : Outlet) (a1 : ReadingKind) {x : State} (h : Keeps s x) :
    Keeps s (closeRecord a0 a1 x) := by
  unfold closeRecord
  try dsimp only
  repeat' split
  all_goals first | with_reducible exact h | (simp +contextual (maxDischargeDepth := 100) [*]; done) | exact h.of_eq (by with_reducible rfl) (by with_reducible rfl) (by with_reducible rfl) (by with_reducible rfl) | simp +contextual (maxDischargeDepth := 100) [*]

@[simp] theorem keeps_endRecord {s : State} (a0 : Outlet) (a1 : ReadingKind) {x : State} (h : Keeps s x) :
    Keeps s (endRecord a0 a1 x) := by
  unfold endRecord
  try dsimp only
  repeat' split
  all_goals first | with_reducible exact h | (simp +contextual (maxDischargeDepth := 100) [*]; done) | exact h.of_eq (by with_reducible rfl) (by with_reducible rfl) (by with_reducible rfl) (by with_reducible rfl) | simp +contextual (maxDischargeDepth := 100) [*]

@[simp] theorem keeps_tariffReadings {s : State}  {x : State} (h : Keeps s x) :
    Keeps s (tariffReadings x) := by
  exact keeps_forEach _ (fun o _ hy => keeps_modRecord o _ hy) h

@[simp] theorem keeps_declareFault {s : State} (a0 : ℕ) {x : State} (h : Keeps s x) :
    Keeps s (declareFault a0 x) := by
  unfold declareFault
  try dsimp only
  repeat' split
  all_goals first | with_reducible exact h | (simp +contextual (maxDischargeDepth := 100) [*]; done) | exact h.of_eq (by with_reducible rfl) (by with_reducible rfl) (by with_reducible rfl) (by with_reducible rfl) | simp +contextual (maxDischargeDepth := 100) [*]

@[simp] theorem keeps_openTamper {s : State} (a0 : ℕ) (a1 : ℕ) (a2 : Life) (a3 : BitVec 16) {x : State} (h : Keeps s x) :
    Keeps s (openTamper a0 a1 a2 a3 x) := by
  unfold openTamper
  try dsimp only
  repeat' split
  all_goals first | with_reducible exact h | (simp +contextual (maxDischargeDepth := 100) [*]; done) | exact h.of_eq (by with_reducible rfl) (by with_reducible rfl) (by with_reducible rfl) (by with_reducible rfl) | simp +contextual (maxDischargeDepth := 100) [*]

@[simp] theorem keeps_closeTamper {s : State} (a0 : ℕ) (a1 : ℕ) (a2 : Life) (a3 : BitVec 16) {x : State} (h : Keeps s x) :
    Keeps s (closeTamper a0 a1 a2 a3 x) := by
  unfold closeTamper
  try dsimp only
  repeat' split
  all_goals first | with_reducible exact h | (simp +contextual (maxDischargeDepth := 100) [*]; done) | exact h.of_eq (by with_reducible rfl) (by with_reducible rfl) (by with_reducible rfl) (by with_reducible rfl) | simp +contextual (maxDischargeDepth := 100) [*]

end Sys2Proof.Machine
end

