-- ==== Sys2Proof/Laws/KeepsMsgOps.lean ====
section
/-! SUPPORT. The operations of Machine/MsgOps.lean keep what `Keeps` says. -/

set_option linter.unusedVariables false
set_option linter.unusedSimpArgs false
set_option linter.unusedTactic false
set_option linter.unreachableTactic false

namespace Sys2Proof.Machine

@[simp] theorem keeps_modSvc {s : State} (a0 : Svc → Svc) {x : State} (h : Keeps s x) :
    Keeps s (modSvc a0 x) := by
  unfold modSvc
  try dsimp only
  repeat' split
  all_goals first | with_reducible exact h | (simp +contextual (maxDischargeDepth := 100) [*]; done) | exact h.of_eq (by with_reducible rfl) (by with_reducible rfl) (by with_reducible rfl) (by with_reducible rfl) | simp +contextual (maxDischargeDepth := 100) [*]

@[simp] theorem keeps_modApp {s : State} (a0 : AppStore → AppStore) {x : State} (h : Keeps s x) :
    Keeps s (modApp a0 x) := by
  unfold modApp
  try dsimp only
  repeat' split
  all_goals first | with_reducible exact h | (simp +contextual (maxDischargeDepth := 100) [*]; done) | exact h.of_eq (by with_reducible rfl) (by with_reducible rfl) (by with_reducible rfl) (by with_reducible rfl) | simp +contextual (maxDischargeDepth := 100) [*]

@[simp] theorem keeps_answer {s : State} (a0 : Bool) {x : State} (h : Keeps s x) :
    Keeps s (answer a0 x) := by
  unfold answer
  try dsimp only
  repeat' split
  all_goals first | with_reducible exact h | (simp +contextual (maxDischargeDepth := 100) [*]; done) | exact h.of_eq (by with_reducible rfl) (by with_reducible rfl) (by with_reducible rfl) (by with_reducible rfl) | simp +contextual (maxDischargeDepth := 100) [*]

@[simp] theorem keeps_sendNow {s : State} (a0 : OpMsg) {x : State} (h : Keeps s x) :
    Keeps s (sendNow a0 x) := by
  unfold sendNow
  try dsimp only
  repeat' split
  all_goals first | with_reducible exact h | (simp +contextual (maxDischargeDepth := 100) [*]; done) | exact h.of_eq (by with_reducible rfl) (by with_reducible rfl) (by with_reducible rfl) (by with_reducible rfl) | simp +contextual (maxDischargeDepth := 100) [*]

@[simp] theorem keeps_flush {s : State}  {x : State} (h : Keeps s x) :
    Keeps s (flush x) := by
  unfold flush
  try dsimp only
  repeat' split
  all_goals first | with_reducible exact h | (simp +contextual (maxDischargeDepth := 100) [*]; done) | exact h.of_eq (by with_reducible rfl) (by with_reducible rfl) (by with_reducible rfl) (by with_reducible rfl) | simp +contextual (maxDischargeDepth := 100) [*]

@[simp] theorem keeps_putMsg {s : State} (a0 : OpMsg) {x : State} (h : Keeps s x) :
    Keeps s (putMsg a0 x) := by
  unfold putMsg
  try dsimp only
  repeat' split
  all_goals first | with_reducible exact h | (simp +contextual (maxDischargeDepth := 100) [*]; done) | exact h.of_eq (by with_reducible rfl) (by with_reducible rfl) (by with_reducible rfl) (by with_reducible rfl) | simp +contextual (maxDischargeDepth := 100) [*]

@[simp] theorem keeps_requeue {s : State}  {x : State} (h : Keeps s x) :
    Keeps s (requeue x) := by
  unfold requeue
  try dsimp only
  repeat' split
  all_goals first | with_reducible exact h | (simp +contextual (maxDischargeDepth := 100) [*]; done) | exact h.of_eq (by with_reducible rfl) (by with_reducible rfl) (by with_reducible rfl) (by with_reducible rfl) | simp +contextual (maxDischargeDepth := 100) [*]

@[simp] theorem keeps_putFirst {s : State} (a0 : OpMsg) {x : State} (h : Keeps s x) :
    Keeps s (putFirst a0 x) := by
  unfold putFirst
  try dsimp only
  repeat' split
  all_goals first | with_reducible exact h | (simp +contextual (maxDischargeDepth := 100) [*]; done) | exact h.of_eq (by with_reducible rfl) (by with_reducible rfl) (by with_reducible rfl) (by with_reducible rfl) | simp +contextual (maxDischargeDepth := 100) [*]

@[simp] theorem keeps_securityMsg {s : State} (a0 : String) {x : State} (h : Keeps s x) :
    Keeps s (securityMsg a0 x) := by
  unfold securityMsg
  try dsimp only
  repeat' split
  all_goals first | with_reducible exact h | (simp +contextual (maxDischargeDepth := 100) [*]; done) | exact h.of_eq (by with_reducible rfl) (by with_reducible rfl) (by with_reducible rfl) (by with_reducible rfl) | simp +contextual (maxDischargeDepth := 100) [*]

@[simp] theorem keeps_connectionEvent {s : State}  {x : State} (h : Keeps s x) :
    Keeps s (connectionEvent x) := by
  unfold connectionEvent
  try dsimp only
  repeat' split
  all_goals first | with_reducible exact h | (simp +contextual (maxDischargeDepth := 100) [*]; done) | exact h.of_eq (by with_reducible rfl) (by with_reducible rfl) (by with_reducible rfl) (by with_reducible rfl) | simp +contextual (maxDischargeDepth := 100) [*]

@[simp] theorem keeps_startWait {s : State}  {x : State} (h : Keeps s x) :
    Keeps s (startWait x) := by
  unfold startWait
  try dsimp only
  repeat' split
  all_goals first | with_reducible exact h | (simp +contextual (maxDischargeDepth := 100) [*]; done) | exact h.of_eq (by with_reducible rfl) (by with_reducible rfl) (by with_reducible rfl) (by with_reducible rfl) | simp +contextual (maxDischargeDepth := 100) [*]

@[simp] theorem keeps_loseConnection {s : State}  {x : State} (h : Keeps s x) :
    Keeps s (loseConnection x) := by
  unfold loseConnection
  try dsimp only
  repeat' split
  all_goals first | with_reducible exact h | (simp +contextual (maxDischargeDepth := 100) [*]; done) | exact h.of_eq (by with_reducible rfl) (by with_reducible rfl) (by with_reducible rfl) (by with_reducible rfl) | simp +contextual (maxDischargeDepth := 100) [*]

@[simp] theorem keeps_reportStatus {s : State} (a0 : State) {x : State} (h : Keeps s x) :
    Keeps s (reportStatus a0 x) := by
  refine keeps_forEach _ (fun o y hy => ?_) h
  split
  · exact hy
  · simp (maxDischargeDepth := 100) [*]

end Sys2Proof.Machine
end

