-- ==== Sys2Proof/Laws/KeepsSessions.lean ====
section
/-! SUPPORT. The operations of Machine/Sessions.lean keep what `Keeps` says. -/

set_option linter.unusedVariables false
set_option linter.unusedSimpArgs false
set_option linter.unusedTactic false
set_option linter.unreachableTactic false

namespace Sys2Proof.Machine

@[simp] theorem keeps_enter {s : State} (a0 : Outlet) (a1 : SessState) (a2 : Reason) {x : State} (h : Keeps s x) :
    Keeps s (enter a0 a1 a2 x) := by
  unfold enter
  try dsimp only
  repeat' split
  all_goals first | with_reducible exact h | (simp +contextual (maxDischargeDepth := 100) [*]; done) | exact h.of_eq (by with_reducible rfl) (by with_reducible rfl) (by with_reducible rfl) (by with_reducible rfl) | simp +contextual (maxDischargeDepth := 100) [*]

@[simp] theorem keeps_withdrawApp {s : State} (a0 : Outlet) {x : State} (h : Keeps s x) :
    Keeps s (withdrawApp a0 x) := by
  unfold withdrawApp
  try dsimp only
  repeat' split
  all_goals first | with_reducible exact h | (simp +contextual (maxDischargeDepth := 100) [*]; done) | exact h.of_eq (by with_reducible rfl) (by with_reducible rfl) (by with_reducible rfl) (by with_reducible rfl) | simp +contextual (maxDischargeDepth := 100) [*]

@[simp] theorem keeps_startTransaction {s : State} (a0 : State) (a1 : Outlet) {x : State} (h : Keeps s x) :
    Keeps s (startTransaction a0 a1 x) := by
  unfold startTransaction
  try dsimp only
  repeat' split
  all_goals first | with_reducible exact h | (simp +contextual (maxDischargeDepth := 100) [*]; done) | exact h.of_eq (by with_reducible rfl) (by with_reducible rfl) (by with_reducible rfl) (by with_reducible rfl) | simp +contextual (maxDischargeDepth := 100) [*]

@[simp] theorem keeps_grantApp {s : State} (a0 : Outlet) {x : State} (h : Keeps s x) :
    Keeps s (grantApp a0 x) := by
  unfold grantApp
  try dsimp only
  repeat' split
  all_goals first | with_reducible exact h | (simp +contextual (maxDischargeDepth := 100) [*]; done) | exact h.of_eq (by with_reducible rfl) (by with_reducible rfl) (by with_reducible rfl) (by with_reducible rfl) | simp +contextual (maxDischargeDepth := 100) [*]

@[simp] theorem keeps_setDrive {s : State} (a0 : Outlet) (a1 : CpDrive) {x : State} (h : Keeps s x) :
    Keeps s (setDrive a0 a1 x) := by
  unfold setDrive
  try dsimp only
  repeat' split
  all_goals first | with_reducible exact h | (simp +contextual (maxDischargeDepth := 100) [*]; done) | exact h.of_eq (by with_reducible rfl) (by with_reducible rfl) (by with_reducible rfl) (by with_reducible rfl) | simp +contextual (maxDischargeDepth := 100) [*]

@[simp] theorem keeps_endTransaction {s : State} (a0 : Outlet) {x : State} (h : Keeps s x) :
    Keeps s (endTransaction a0 x) := by
  unfold endTransaction
  try dsimp only
  repeat' split
  all_goals first | with_reducible exact h | (simp +contextual (maxDischargeDepth := 100) [*]; done) | exact h.of_eq (by with_reducible rfl) (by with_reducible rfl) (by with_reducible rfl) (by with_reducible rfl) | simp +contextual (maxDischargeDepth := 100) [*]

@[simp] theorem keeps_enterEnded {s : State} (a0 : Outlet) (a1 : Reason) {x : State} (h : Keeps s x) :
    Keeps s (enterEnded a0 a1 x) := by
  unfold enterEnded
  try dsimp only
  repeat' split
  all_goals first | with_reducible exact h | (simp +contextual (maxDischargeDepth := 100) [*]; done) | exact h.of_eq (by with_reducible rfl) (by with_reducible rfl) (by with_reducible rfl) (by with_reducible rfl) | simp +contextual (maxDischargeDepth := 100) [*]

@[simp] theorem keeps_settle {s : State} (a0 : Outlet) {x : State} (h : Keeps s x) :
    Keeps s (settle a0 x) := by
  unfold settle
  try dsimp only
  repeat' split
  all_goals first | with_reducible exact h | (simp +contextual (maxDischargeDepth := 100) [*]; done) | exact h.of_eq (by with_reducible rfl) (by with_reducible rfl) (by with_reducible rfl) (by with_reducible rfl) | simp +contextual (maxDischargeDepth := 100) [*]

@[simp] theorem keeps_enterFault {s : State} (a0 : Outlet) (a1 : Reason) {x : State} (h : Keeps s x) :
    Keeps s (enterFault a0 a1 x) := by
  unfold enterFault
  try dsimp only
  repeat' split
  all_goals first | with_reducible exact h | (simp +contextual (maxDischargeDepth := 100) [*]; done) | exact h.of_eq (by with_reducible rfl) (by with_reducible rfl) (by with_reducible rfl) (by with_reducible rfl) | simp +contextual (maxDischargeDepth := 100) [*]

@[simp] theorem keeps_openForStop {s : State} (a0 : Outlet) {x : State} (h : Keeps s x) :
    Keeps s (openForStop a0 x) := by
  unfold openForStop
  try dsimp only
  repeat' split
  all_goals first | with_reducible exact h | (simp +contextual (maxDischargeDepth := 100) [*]; done) | exact h.of_eq (by with_reducible rfl) (by with_reducible rfl) (by with_reducible rfl) (by with_reducible rfl) | simp +contextual (maxDischargeDepth := 100) [*]

@[simp] theorem keeps_stopSession {s : State} (a0 : Outlet) (a1 : Reason) (a2 : ReadingKind) {x : State} (h : Keeps s x) :
    Keeps s (stopSession a0 a1 a2 x) := by
  unfold stopSession
  try dsimp only
  repeat' split
  all_goals first | with_reducible exact h | (simp +contextual (maxDischargeDepth := 100) [*]; done) | exact h.of_eq (by with_reducible rfl) (by with_reducible rfl) (by with_reducible rfl) (by with_reducible rfl) | simp +contextual (maxDischargeDepth := 100) [*]

@[simp] theorem keeps_tripReact {s : State} (a0 : Outlet) (a1 : Reason) {x : State} (h : Keeps s x) :
    Keeps s (tripReact a0 a1 x) := by
  unfold tripReact
  try dsimp only
  repeat' split
  all_goals first | with_reducible exact h | (simp +contextual (maxDischargeDepth := 100) [*]; done) | exact h.of_eq (by with_reducible rfl) (by with_reducible rfl) (by with_reducible rfl) (by with_reducible rfl) | simp +contextual (maxDischargeDepth := 100) [*]

@[simp] theorem keeps_withdraw {s : State} (a0 : List Driver) (a1 : List Stage) (a2 : BitVec 16) {x : State} (h : Keeps s x) :
    Keeps s (withdraw a0 a1 a2 x) := by
  unfold withdraw
  try dsimp only
  repeat' split
  all_goals first | with_reducible exact h | (simp +contextual (maxDischargeDepth := 100) [*]; done) | exact h.of_eq (by with_reducible rfl) (by with_reducible rfl) (by with_reducible rfl) (by with_reducible rfl) | simp +contextual (maxDischargeDepth := 100) [*]

@[simp] theorem keeps_safTrip {s : State} (a0 : List Driver) (a1 : BitVec 16) {x : State} (h : Keeps s x) :
    Keeps s (safTrip a0 a1 x) := by
  unfold safTrip
  try dsimp only
  repeat' split
  all_goals first | with_reducible exact h | (simp +contextual (maxDischargeDepth := 100) [*]; done) | exact h.of_eq (by with_reducible rfl) (by with_reducible rfl) (by with_reducible rfl) (by with_reducible rfl) | simp +contextual (maxDischargeDepth := 100) [*]

end Sys2Proof.Machine
end

