-- ==== Sys2Proof/Laws/KeepsTimeOps.lean ====
section
/-! SUPPORT. The operations of Machine/TimeOps.lean keep what `Keeps` says. -/

set_option linter.unusedVariables false
set_option linter.unusedSimpArgs false
set_option linter.unusedTactic false
set_option linter.unreachableTactic false

namespace Sys2Proof.Machine

@[simp] theorem keeps_modTime {s : State} (a0 : Time → Time) {x : State} (h : Keeps s x) :
    Keeps s (modTime a0 x) := by
  unfold modTime
  try dsimp only
  repeat' split
  all_goals first | with_reducible exact h | (simp +contextual (maxDischargeDepth := 100) [*]; done) | exact h.of_eq (by with_reducible rfl) (by with_reducible rfl) (by with_reducible rfl) (by with_reducible rfl) | simp +contextual (maxDischargeDepth := 100) [*]

@[simp] theorem keeps_modTb {s : State} (a0 : TimeBase → TimeBase) {x : State} (h : Keeps s x) :
    Keeps s (modTb a0 x) := by
  unfold modTb
  try dsimp only
  repeat' split
  all_goals first | with_reducible exact h | (simp +contextual (maxDischargeDepth := 100) [*]; done) | exact h.of_eq (by with_reducible rfl) (by with_reducible rfl) (by with_reducible rfl) (by with_reducible rfl) | simp +contextual (maxDischargeDepth := 100) [*]

@[simp] theorem keeps_adjustMs {s : State} (a0 : ℤ) {x : State} (h : Keeps s x) :
    Keeps s (adjustMs a0 x).2 := by
  unfold adjustMs
  try dsimp only
  repeat' split
  all_goals first | with_reducible exact h | (simp +contextual (maxDischargeDepth := 100) [*]; done) | exact h.of_eq (by with_reducible rfl) (by with_reducible rfl) (by with_reducible rfl) (by with_reducible rfl) | simp +contextual (maxDischargeDepth := 100) [*]

@[simp] theorem keeps_setSecond {s : State} (a0 : ℕ) {x : State} (h : Keeps s x) :
    Keeps s (setSecond a0 x).2 := by
  unfold setSecond
  try dsimp only
  repeat' split
  all_goals first | with_reducible exact h | (simp +contextual (maxDischargeDepth := 100) [*]; done) | exact h.of_eq (by with_reducible rfl) (by with_reducible rfl) (by with_reducible rfl) (by with_reducible rfl) | simp +contextual (maxDischargeDepth := 100) [*]

@[simp] theorem keeps_setTrim {s : State} (a0 : ℤ) {x : State} (h : Keeps s x) :
    Keeps s (setTrim a0 x) := by
  unfold setTrim
  try dsimp only
  repeat' split
  all_goals first | with_reducible exact h | (simp +contextual (maxDischargeDepth := 100) [*]; done) | exact h.of_eq (by with_reducible rfl) (by with_reducible rfl) (by with_reducible rfl) (by with_reducible rfl) | simp +contextual (maxDischargeDepth := 100) [*]

@[simp] theorem keeps_report {s : State} (a0 : Bool) (a1 : ℤ) (a2 : ℤ) (a3 : ℤ) (a4 : Bool) {x : State} (h : Keeps s x) :
    Keeps s (report a0 a1 a2 a3 a4 x) := by
  unfold report
  try dsimp only
  repeat' split
  all_goals first | with_reducible exact h | (simp +contextual (maxDischargeDepth := 100) [*]; done) | exact h.of_eq (by with_reducible rfl) (by with_reducible rfl) (by with_reducible rfl) (by with_reducible rfl) | simp +contextual (maxDischargeDepth := 100) [*]

@[simp] theorem keeps_applyWrite {s : State}  {x : State} (h : Keeps s x) :
    Keeps s (applyWrite x) := by
  unfold applyWrite
  try dsimp only
  repeat' split
  all_goals first | with_reducible exact h | (simp +contextual (maxDischargeDepth := 100) [*]; done) | exact h.of_eq (by with_reducible rfl) (by with_reducible rfl) (by with_reducible rfl) (by with_reducible rfl) | simp +contextual (maxDischargeDepth := 100) [*]

@[simp] theorem keeps_timersTick {s : State}  {x : State} (h : Keeps s x) :
    Keeps s (timersTick x) := by
  unfold timersTick
  try dsimp only
  repeat' split
  all_goals first | with_reducible exact h | (simp +contextual (maxDischargeDepth := 100) [*]; done) | exact h.of_eq (by with_reducible rfl) (by with_reducible rfl) (by with_reducible rfl) (by with_reducible rfl) | simp +contextual (maxDischargeDepth := 100) [*]

@[simp] theorem keeps_clockFault {s : State} (a0 : Domain) {x : State} (h : Keeps s x) :
    Keeps s (clockFault a0 x) := by
  unfold clockFault
  try dsimp only
  repeat' split
  all_goals first | with_reducible exact h | (simp +contextual (maxDischargeDepth := 100) [*]; done) | exact h.of_eq (by with_reducible rfl) (by with_reducible rfl) (by with_reducible rfl) (by with_reducible rfl) | simp +contextual (maxDischargeDepth := 100) [*]

@[simp] theorem keeps_modTimer {s : State} (a0 : Fin 16) (a1 : Timer → Timer) {x : State} (h : Keeps s x) :
    Keeps s (modTimer a0 a1 x) := by
  unfold modTimer
  try dsimp only
  repeat' split
  all_goals first | with_reducible exact h | (simp +contextual (maxDischargeDepth := 100) [*]; done) | exact h.of_eq (by with_reducible rfl) (by with_reducible rfl) (by with_reducible rfl) (by with_reducible rfl) | simp +contextual (maxDischargeDepth := 100) [*]

@[simp] theorem keeps_raiseHeldTimers {s : State}  {x : State} (h : Keeps s x) :
    Keeps s (raiseHeldTimers x) := by
  unfold raiseHeldTimers
  try dsimp only
  repeat' split
  all_goals first | with_reducible exact h | (simp +contextual (maxDischargeDepth := 100) [*]; done) | exact h.of_eq (by with_reducible rfl) (by with_reducible rfl) (by with_reducible rfl) (by with_reducible rfl) | simp +contextual (maxDischargeDepth := 100) [*]

end Sys2Proof.Machine
end

