-- ==== Sys2Proof/Laws/KeepsPinOps.lean ====
section
/-! SUPPORT. The operations of Machine/PinOps.lean keep what `Keeps` says. -/

set_option linter.unusedVariables false
set_option linter.unusedSimpArgs false
set_option linter.unusedTactic false
set_option linter.unreachableTactic false

namespace Sys2Proof.Machine

@[simp] theorem keeps_modPins {s : State} (a0 : Pins → Pins) {x : State} (h : Keeps s x) :
    Keeps s (modPins a0 x) := by
  unfold modPins
  try dsimp only
  repeat' split
  all_goals first | with_reducible exact h | (simp +contextual (maxDischargeDepth := 100) [*]; done) | exact h.of_eq (by with_reducible rfl) (by with_reducible rfl) (by with_reducible rfl) (by with_reducible rfl) | simp +contextual (maxDischargeDepth := 100) [*]

@[simp] theorem keeps_modPsp {s : State} (a0 : Fin 3) (a1 : Psp → Psp) {x : State} (h : Keeps s x) :
    Keeps s (modPsp a0 a1 x) := by
  unfold modPsp
  try dsimp only
  repeat' split
  all_goals first | with_reducible exact h | (simp +contextual (maxDischargeDepth := 100) [*]; done) | exact h.of_eq (by with_reducible rfl) (by with_reducible rfl) (by with_reducible rfl) (by with_reducible rfl) | simp +contextual (maxDischargeDepth := 100) [*]

@[simp] theorem keeps_applyPin {s : State} (a0 : Fin 64) {x : State} (h : Keeps s x) :
    Keeps s (applyPin a0 x) := by
  unfold applyPin
  try dsimp only
  repeat' split
  all_goals first | with_reducible exact h | (simp +contextual (maxDischargeDepth := 100) [*]; done) | exact h.of_eq (by with_reducible rfl) (by with_reducible rfl) (by with_reducible rfl) (by with_reducible rfl) | simp +contextual (maxDischargeDepth := 100) [*]

@[simp] theorem keeps_applyPsp {s : State} (a0 : Fin 3) {x : State} (h : Keeps s x) :
    Keeps s (applyPsp a0 x) := by
  unfold applyPsp
  try dsimp only
  repeat' split
  all_goals first | with_reducible exact h | (simp +contextual (maxDischargeDepth := 100) [*]; done) | exact h.of_eq (by with_reducible rfl) (by with_reducible rfl) (by with_reducible rfl) (by with_reducible rfl) | simp +contextual (maxDischargeDepth := 100) [*]

@[simp] theorem keeps_applyPins {s : State}  {x : State} (h : Keeps s x) :
    Keeps s (applyPins x) := by
  exact keeps_forEach _ (fun _ _ hy => keeps_applyPsp _ hy) (keeps_forEach _ (fun _ _ hy => keeps_applyPin _ hy) h)

@[simp] theorem keeps_driveSelect {s : State} (a0 : Transfer) (a1 : Bool) {x : State} (h : Keeps s x) :
    Keeps s (driveSelect a0 a1 x) := by
  unfold driveSelect
  try dsimp only
  repeat' split
  all_goals first | with_reducible exact h | (simp +contextual (maxDischargeDepth := 100) [*]; done) | exact h.of_eq (by with_reducible rfl) (by with_reducible rfl) (by with_reducible rfl) (by with_reducible rfl) | simp +contextual (maxDischargeDepth := 100) [*]

@[simp] theorem keeps_holdPorts {s : State}  {x : State} (h : Keeps s x) :
    Keeps s (holdPorts x) := by
  refine keeps_modPins _ (keeps_forEach _ (fun p y hy => ?_) h)
  split
  · exact hy
  · exact keeps_driveSelect _ _ hy

end Sys2Proof.Machine
end

