-- ==== Sys2Proof/Laws/KeepsWatchOps.lean ====
section
/-! SUPPORT. The operations of Machine/WatchOps.lean keep what `Keeps` says. -/

set_option linter.unusedVariables false
set_option linter.unusedSimpArgs false
set_option linter.unusedTactic false
set_option linter.unreachableTactic false

namespace Sys2Proof.Machine

@[simp] theorem keeps_modWch {s : State} (a0 : Wch → Wch) {x : State} (h : Keeps s x) :
    Keeps s (modWch a0 x) := by
  unfold modWch
  try dsimp only
  repeat' split
  all_goals first | with_reducible exact h | (simp +contextual (maxDischargeDepth := 100) [*]; done) | exact h.of_eq (by with_reducible rfl) (by with_reducible rfl) (by with_reducible rfl) (by with_reducible rfl) | simp +contextual (maxDischargeDepth := 100) [*]

@[simp] theorem keeps_modWb {s : State} (a0 : WchBase → WchBase) {x : State} (h : Keeps s x) :
    Keeps s (modWb a0 x) := by
  unfold modWb
  try dsimp only
  repeat' split
  all_goals first | with_reducible exact h | (simp +contextual (maxDischargeDepth := 100) [*]; done) | exact h.of_eq (by with_reducible rfl) (by with_reducible rfl) (by with_reducible rfl) (by with_reducible rfl) | simp +contextual (maxDischargeDepth := 100) [*]

@[simp] theorem keeps_modPwr {s : State} (a0 : Pwr → Pwr) {x : State} (h : Keeps s x) :
    Keeps s (modPwr a0 x) := by
  unfold modPwr
  try dsimp only
  repeat' split
  all_goals first | with_reducible exact h | (simp +contextual (maxDischargeDepth := 100) [*]; done) | exact h.of_eq (by with_reducible rfl) (by with_reducible rfl) (by with_reducible rfl) (by with_reducible rfl) | simp +contextual (maxDischargeDepth := 100) [*]

@[simp] theorem keeps_ringRecord {s : State} (a0 : WatchKind) (a1 : Bool) (a2 : Option (ℕ × TheftRecord)) (a3 : ℕ) {x : State} (h : Keeps s x) :
    Keeps s (ringRecord a0 a1 a2 a3 x) := by
  unfold ringRecord
  try dsimp only
  repeat' split
  all_goals first | with_reducible exact h | (simp +contextual (maxDischargeDepth := 100) [*]; done) | exact h.of_eq (by with_reducible rfl) (by with_reducible rfl) (by with_reducible rfl) (by with_reducible rfl) | simp +contextual (maxDischargeDepth := 100) [*]

@[simp] theorem keeps_startWake {s : State}  {x : State} (h : Keeps s x) :
    Keeps s (startWake x) := by
  unfold startWake
  try dsimp only
  repeat' split
  all_goals first | with_reducible exact h | (simp +contextual (maxDischargeDepth := 100) [*]; done) | exact h.of_eq (by with_reducible rfl) (by with_reducible rfl) (by with_reducible rfl) (by with_reducible rfl) | simp +contextual (maxDischargeDepth := 100) [*]

@[simp] theorem keeps_fireWake {s : State} (a0 : ℕ) {x : State} (h : Keeps s x) :
    Keeps s (fireWake a0 x) := by
  unfold fireWake
  try dsimp only
  repeat' split
  all_goals first | with_reducible exact h | (simp +contextual (maxDischargeDepth := 100) [*]; done) | exact h.of_eq (by with_reducible rfl) (by with_reducible rfl) (by with_reducible rfl) (by with_reducible rfl) | simp +contextual (maxDischargeDepth := 100) [*]

@[simp] theorem keeps_putSegments {s : State} (a0 : BitVec 64) (a1 : BitVec 64) {x : State} (h : Keeps s x) :
    Keeps s (putSegments a0 a1 x) := by
  unfold putSegments
  try dsimp only
  repeat' split
  all_goals first | with_reducible exact h | (simp +contextual (maxDischargeDepth := 100) [*]; done) | exact h.of_eq (by with_reducible rfl) (by with_reducible rfl) (by with_reducible rfl) (by with_reducible rfl) | simp +contextual (maxDischargeDepth := 100) [*]

@[simp] theorem keeps_putSegment {s : State} (a0 : ℕ) (a1 : Bool) {x : State} (h : Keeps s x) :
    Keeps s (putSegment a0 a1 x) := by
  unfold putSegment
  try dsimp only
  repeat' split
  all_goals first | with_reducible exact h | (simp +contextual (maxDischargeDepth := 100) [*]; done) | exact h.of_eq (by with_reducible rfl) (by with_reducible rfl) (by with_reducible rfl) (by with_reducible rfl) | simp +contextual (maxDischargeDepth := 100) [*]

@[simp] theorem keeps_tamperChange {s : State} (a0 : WatchKind) (a1 : Bool) (a2 : Bool) {x : State} (h : Keeps s x) :
    Keeps s (tamperChange a0 a1 a2 x) := by
  unfold tamperChange
  try dsimp only
  repeat' split
  all_goals first | with_reducible exact h | (simp +contextual (maxDischargeDepth := 100) [*]; done) | exact h.of_eq (by with_reducible rfl) (by with_reducible rfl) (by with_reducible rfl) (by with_reducible rfl) | simp +contextual (maxDischargeDepth := 100) [*]

@[simp] theorem keeps_theftBurst {s : State} (a0 : Fin 8) (a1 : List Bool) {x : State} (h : Keeps s x) :
    Keeps s (theftBurst a0 a1 x) := by
  unfold theftBurst
  try dsimp only
  repeat' split
  all_goals first | with_reducible exact h | (simp +contextual (maxDischargeDepth := 100) [*]; done) | exact h.of_eq (by with_reducible rfl) (by with_reducible rfl) (by with_reducible rfl) (by with_reducible rfl) | simp +contextual (maxDischargeDepth := 100) [*]

@[simp] theorem keeps_closeTheft {s : State}  {x : State} (h : Keeps s x) :
    Keeps s (closeTheft x) := by
  refine keeps_forEach _ (fun o y hy => ?_) h
  dsimp only
  split
  · simp (maxDischargeDepth := 100) [*]
  · exact hy

@[simp] theorem keeps_writeSettings {s : State}  {x : State} (h : Keeps s x) :
    Keeps s (writeSettings x) := by
  unfold writeSettings
  try dsimp only
  repeat' split
  all_goals first | with_reducible exact h | (simp +contextual (maxDischargeDepth := 100) [*]; done) | exact h.of_eq (by with_reducible rfl) (by with_reducible rfl) (by with_reducible rfl) (by with_reducible rfl) | simp +contextual (maxDischargeDepth := 100) [*]

end Sys2Proof.Machine
end

