-- ==== Sys2Proof/Laws/KeepsDispOps.lean ====
section
/-! SUPPORT. The operations of Machine/DispOps.lean keep what `Keeps` says. -/

set_option linter.unusedVariables false
set_option linter.unusedSimpArgs false
set_option linter.unusedTactic false
set_option linter.unreachableTactic false

namespace Sys2Proof.Machine

@[simp] theorem keeps_modDisp {s : State} (a0 : Disp → Disp) {x : State} (h : Keeps s x) :
    Keeps s (modDisp a0 x) := by
  unfold modDisp
  try dsimp only
  repeat' split
  all_goals first | with_reducible exact h | (simp +contextual (maxDischargeDepth := 100) [*]; done) | exact h.of_eq (by with_reducible rfl) (by with_reducible rfl) (by with_reducible rfl) (by with_reducible rfl) | simp +contextual (maxDischargeDepth := 100) [*]

@[simp] theorem keeps_modDispStore {s : State} (a0 : DispStore → DispStore) {x : State} (h : Keeps s x) :
    Keeps s (modDispStore a0 x) := by
  unfold modDispStore
  try dsimp only
  repeat' split
  all_goals first | with_reducible exact h | (simp +contextual (maxDischargeDepth := 100) [*]; done) | exact h.of_eq (by with_reducible rfl) (by with_reducible rfl) (by with_reducible rfl) (by with_reducible rfl) | simp +contextual (maxDischargeDepth := 100) [*]

@[simp] theorem keeps_setUpdate {s : State} (a0 : Fin 8) (a1 : Option DispUpdate) {x : State} (h : Keeps s x) :
    Keeps s (setUpdate a0 a1 x) := by
  unfold setUpdate
  try dsimp only
  repeat' split
  all_goals first | with_reducible exact h | (simp +contextual (maxDischargeDepth := 100) [*]; done) | exact h.of_eq (by with_reducible rfl) (by with_reducible rfl) (by with_reducible rfl) (by with_reducible rfl) | simp +contextual (maxDischargeDepth := 100) [*]

@[simp] theorem keeps_updateDone {s : State} (a0 : Fin 8) (a1 : DispUpdate) (a2 : Status) {x : State} (h : Keeps s x) :
    Keeps s (updateDone a0 a1 a2 x) := by
  unfold updateDone
  try dsimp only
  repeat' split
  all_goals first | with_reducible exact h | (simp +contextual (maxDischargeDepth := 100) [*]; done) | exact h.of_eq (by with_reducible rfl) (by with_reducible rfl) (by with_reducible rfl) (by with_reducible rfl) | simp +contextual (maxDischargeDepth := 100) [*]

@[simp] theorem keeps_placeLegal {s : State} (a0 : Bool) {x : State} (h : Keeps s x) :
    Keeps s (placeLegal a0 x) := by
  unfold placeLegal
  try dsimp only
  repeat' split
  all_goals first | with_reducible exact h | (simp +contextual (maxDischargeDepth := 100) [*]; done) | exact h.of_eq (by with_reducible rfl) (by with_reducible rfl) (by with_reducible rfl) (by with_reducible rfl) | simp +contextual (maxDischargeDepth := 100) [*]

@[simp] theorem keeps_requestLegal {s : State} (a0 : Bool) (a1 : ℕ) {x : State} (h : Keeps s x) :
    Keeps s (requestLegal a0 a1 x) := by
  unfold requestLegal
  try dsimp only
  repeat' split
  all_goals first | with_reducible exact h | (simp +contextual (maxDischargeDepth := 100) [*]; done) | exact h.of_eq (by with_reducible rfl) (by with_reducible rfl) (by with_reducible rfl) (by with_reducible rfl) | simp +contextual (maxDischargeDepth := 100) [*]

@[simp] theorem keeps_judgeDisplay {s : State}  {x : State} (h : Keeps s x) :
    Keeps s (judgeDisplay x) := by
  unfold judgeDisplay
  try dsimp only
  repeat' split
  all_goals first | with_reducible exact h | (simp +contextual (maxDischargeDepth := 100) [*]; done) | exact h.of_eq (by with_reducible rfl) (by with_reducible rfl) (by with_reducible rfl) (by with_reducible rfl) | simp +contextual (maxDischargeDepth := 100) [*]

@[simp] theorem keeps_cutUpdates {s : State} (a0 : Bool) {x : State} (h : Keeps s x) :
    Keeps s (cutUpdates a0 x) := by
  refine keeps_forEach _ (fun i y hy => ?_) h
  split
  · exact hy
  · simp +contextual (maxDischargeDepth := 100) [*]

@[simp] theorem keeps_applyDisplay {s : State}  {x : State} (h : Keeps s x) :
    Keeps s (applyDisplay x) := by
  unfold applyDisplay
  try dsimp only
  repeat' split
  all_goals first | with_reducible exact h | (simp +contextual (maxDischargeDepth := 100) [*]; done) | exact h.of_eq (by with_reducible rfl) (by with_reducible rfl) (by with_reducible rfl) (by with_reducible rfl) | simp +contextual (maxDischargeDepth := 100) [*]

@[simp] theorem keeps_startDisplay {s : State}  {x : State} (h : Keeps s x) :
    Keeps s (startDisplay x) := by
  unfold startDisplay
  try dsimp only
  repeat' split
  all_goals first | with_reducible exact h | (simp +contextual (maxDischargeDepth := 100) [*]; done) | exact h.of_eq (by with_reducible rfl) (by with_reducible rfl) (by with_reducible rfl) (by with_reducible rfl) | simp +contextual (maxDischargeDepth := 100) [*]

@[simp] theorem keeps_dieOff {s : State}  {x : State} (h : Keeps s x) :
    Keeps s (dieOff x) := by
  unfold dieOff
  try dsimp only
  repeat' split
  all_goals first | with_reducible exact h | (simp +contextual (maxDischargeDepth := 100) [*]; done) | exact h.of_eq (by with_reducible rfl) (by with_reducible rfl) (by with_reducible rfl) (by with_reducible rfl) | simp +contextual (maxDischargeDepth := 100) [*]

@[simp] theorem keeps_writeTiles {s : State}  {x : State} (h : Keeps s x) :
    Keeps s (writeTiles x) := by
  unfold writeTiles
  try dsimp only
  repeat' split
  all_goals first | with_reducible exact h | (simp +contextual (maxDischargeDepth := 100) [*]; done) | exact h.of_eq (by with_reducible rfl) (by with_reducible rfl) (by with_reducible rfl) (by with_reducible rfl) | simp +contextual (maxDischargeDepth := 100) [*]

@[simp] theorem keeps_showOutOfService {s : State}  {x : State} (h : Keeps s x) :
    Keeps s (showOutOfService x) := by
  unfold showOutOfService
  try dsimp only
  repeat' split
  all_goals first | with_reducible exact h | (simp +contextual (maxDischargeDepth := 100) [*]; done) | exact h.of_eq (by with_reducible rfl) (by with_reducible rfl) (by with_reducible rfl) (by with_reducible rfl) | simp +contextual (maxDischargeDepth := 100) [*]

end Sys2Proof.Machine
end

