-- ==== Sys2Proof/Laws/KeepsFirewall.lean ====
section
/-! SUPPORT. The operations of Machine/Firewall.lean keep what `Keeps` says. -/

set_option linter.unusedVariables false
set_option linter.unusedSimpArgs false
set_option linter.unusedTactic false
set_option linter.unreachableTactic false

namespace Sys2Proof.Machine

@[simp] theorem keeps_answerBus {s : State} (a0 : Master) (a1 : Bool) (a2 : Word32) {x : State} (h : Keeps s x) :
    Keeps s (answerBus a0 a1 a2 x) := by
  unfold answerBus
  try dsimp only
  repeat' split
  all_goals first | with_reducible exact h | (simp +contextual (maxDischargeDepth := 100) [*]; done) | exact h.of_eq (by with_reducible rfl) (by with_reducible rfl) (by with_reducible rfl) (by with_reducible rfl) | simp +contextual (maxDischargeDepth := 100) [*]

@[simp] theorem keeps_blockAccess {s : State} (a0 : BusAccess) {x : State} (h : Keeps s x) :
    Keeps s (blockAccess a0 x) := by
  unfold blockAccess
  try dsimp only
  repeat' split
  all_goals first | with_reducible exact h | (simp +contextual (maxDischargeDepth := 100) [*]; done) | exact h.of_eq (by with_reducible rfl) (by with_reducible rfl) (by with_reducible rfl) (by with_reducible rfl) | simp +contextual (maxDischargeDepth := 100) [*]

end Sys2Proof.Machine
end

