-- ==== Sys2Proof/Laws/KeepsKeyOps.lean ====
section
/-! SUPPORT. The operations of Machine/KeyOps.lean keep what `Keeps` says. -/

set_option linter.unusedVariables false
set_option linter.unusedSimpArgs false
set_option linter.unusedTactic false
set_option linter.unreachableTactic false

namespace Sys2Proof.Machine

/-- No fuse that reads blown reads unblown after a change. -/
def FusesStay (f : KeyStore → KeyStore) : Prop :=
  ∀ k, (k.provisioned ≠ 0 → (f k).provisioned ≠ 0) ∧ (k.field ≠ 0 → (f k).field ≠ 0) ∧ (k.retired ≠ 0 → (f k).retired ≠ 0)

@[simp] theorem keeps_modKeys {s x : State} {f : KeyStore → KeyStore} (hf : FusesStay f) (h : Keeps s x) :
    Keeps s (modKeys f x) :=
  ⟨h.fab, h.pending, h.mail, fun k => (hf x.keys).1 (h.provisioned k), fun k => (hf x.keys).2.1 (h.field k),
    fun k => (hf x.keys).2.2 (h.retired k)⟩

@[simp] theorem fusesStay_slots (g : KeyStore → Vector KeySlot 64) : FusesStay (fun k => { k with slots := g k }) :=
  fun _ => ⟨id, id, id⟩
@[simp] theorem fusesStay_counterCopies (a b : KeyStore → Bool) :
    FusesStay (fun k => { k with counterA := a k, counterB := b k }) := fun _ => ⟨id, id, id⟩
@[simp] theorem fusesStay_counterA (a : KeyStore → Bool) : FusesStay (fun k => { k with counterA := a k }) := fun _ => ⟨id, id, id⟩
@[simp] theorem fusesStay_counterB (b : KeyStore → Bool) : FusesStay (fun k => { k with counterB := b k }) := fun _ => ⟨id, id, id⟩
@[simp] theorem fusesStay_blow (n : Nat) : FusesStay (blow n) := by
  intro k; unfold blow; split <;> simp +contextual

@[simp] theorem keeps_modKey {s : State} (a0 : KeyRun → KeyRun) {x : State} (h : Keeps s x) :
    Keeps s (modKey a0 x) := by
  exact keeps_key h _

/-- An operation leaves the fuses alone. -/
theorem applyOp_fuses {man : Bool} {life : Life} {o : EnvOp} {e e' : EnvState} (h : applyOp man life o e = .ok e') :
    e'.keys.provisioned = e.keys.provisioned ∧ e'.keys.field = e.keys.field ∧ e'.keys.retired = e.keys.retired := by
  unfold applyOp at h
  dsimp only at h
  repeat' split at h
  all_goals first
    | (injection h; done)
    | (injection h with h; subst h; simp [putSlot, unpick, orphanBelow])

theorem applyOps_fuses {man : Bool} {life : Life} (l : List EnvOp) {e e' : EnvState} (h : applyOps man life l e = .ok e') :
    e'.keys.provisioned = e.keys.provisioned ∧ e'.keys.field = e.keys.field ∧ e'.keys.retired = e.keys.retired := by
  induction l generalizing e with
  | nil => cases h; exact ⟨rfl, rfl, rfl⟩
  | cons o l ih =>
    unfold applyOps at h
    split at h
    · cases h
    · rename_i e1 h1
      obtain ⟨a, b, c⟩ := ih h
      obtain ⟨a', b', c'⟩ := applyOp_fuses h1
      exact ⟨a.trans a', b.trans b', c.trans c'⟩

@[simp] theorem keeps_applyEnvelope {s x : State} (env : Bytes) (h : Keeps s x) :
    Keeps s (applyEnvelope env x).2.2 := by
  unfold applyEnvelope
  dsimp only
  repeat' split
  all_goals first | with_reducible exact h | skip
  rename_i e he
  obtain ⟨a, b, c⟩ := applyOps_fuses _ he
  dsimp only at a b c
  dsimp only
  refine keeps_modKey _ ⟨h.fab, h.pending, h.mail, fun k => ?_, fun k => ?_, fun k => ?_⟩
  · show e.keys.provisioned ≠ 0; rw [a]; exact h.provisioned k
  · show e.keys.field ≠ 0; rw [b]; exact h.field k
  · show e.keys.retired ≠ 0; rw [c]; exact h.retired k

@[simp] theorem keeps_triggerDone {s : State} (a0 : Word32) (a1 : Status) {x : State} (h : Keeps s x) :
    Keeps s (triggerDone a0 a1 x) := by
  unfold triggerDone
  try dsimp only
  repeat' split
  all_goals first | with_reducible exact h | (simp +contextual (maxDischargeDepth := 100) [*]; done) | exact h.of_eq (by with_reducible rfl) (by with_reducible rfl) (by with_reducible rfl) (by with_reducible rfl) | simp +contextual (maxDischargeDepth := 100) [*]

@[simp] theorem keeps_retire {s : State}  {x : State} (h : Keeps s x) :
    Keeps s (retire x) := by
  unfold retire
  try dsimp only
  repeat' split
  all_goals first | with_reducible exact h | (simp +contextual (maxDischargeDepth := 100) [*]; done) | exact h.of_eq (by with_reducible rfl) (by with_reducible rfl) (by with_reducible rfl) (by with_reducible rfl) | simp +contextual (maxDischargeDepth := 100) [*]

@[simp] theorem keeps_lcRequest {s : State} (a0 : ℕ) (a1 : Word32) {x : State} (h : Keeps s x) :
    Keeps s (lcRequest a0 a1 x) := by
  unfold lcRequest
  try dsimp only
  repeat' split
  all_goals first | with_reducible exact h | (simp +contextual (maxDischargeDepth := 100) [*]; done) | exact h.of_eq (by with_reducible rfl) (by with_reducible rfl) (by with_reducible rfl) (by with_reducible rfl) | simp +contextual (maxDischargeDepth := 100) [*]

@[simp] theorem keeps_failSlot {s : State} (a0 : Fin 64) {x : State} (h : Keeps s x) :
    Keeps s (failSlot a0 x) := by
  unfold failSlot
  try dsimp only
  repeat' split
  all_goals first | with_reducible exact h | (simp +contextual (maxDischargeDepth := 100) [*]; done) | exact h.of_eq (by with_reducible rfl) (by with_reducible rfl) (by with_reducible rfl) (by with_reducible rfl) | simp +contextual (maxDischargeDepth := 100) [*]

end Sys2Proof.Machine
end

