-- ==== Sys2Proof/Laws/KeepsLsOps.lean ====
section
/-! SUPPORT. The operations of Machine/LsOps.lean keep what `Keeps` says. -/

set_option linter.unusedVariables false
set_option linter.unusedSimpArgs false
set_option linter.unusedTactic false
set_option linter.unreachableTactic false

namespace Sys2Proof.Machine

@[simp] theorem keeps_modPd {s : State} (a0 : Pd → Pd) {x : State} (h : Keeps s x) :
    Keeps s (modPd a0 x) := by
  unfold modPd
  try dsimp only
  repeat' split
  all_goals first | with_reducible exact h | (simp +contextual (maxDischargeDepth := 100) [*]; done) | exact h.of_eq (by with_reducible rfl) (by with_reducible rfl) (by with_reducible rfl) (by with_reducible rfl) | simp +contextual (maxDischargeDepth := 100) [*]

@[simp] theorem keeps_modLs {s : State} (a0 : Fin 32) (a1 : LoadSwitch → LoadSwitch) {x : State} (h : Keeps s x) :
    Keeps s (modLs a0 a1 x) := by
  unfold modLs
  try dsimp only
  repeat' split
  all_goals first | with_reducible exact h | (simp +contextual (maxDischargeDepth := 100) [*]; done) | exact h.of_eq (by with_reducible rfl) (by with_reducible rfl) (by with_reducible rfl) (by with_reducible rfl) | simp +contextual (maxDischargeDepth := 100) [*]

@[simp] theorem keeps_lsSetOut {s : State} (a0 : Fin 32) (a1 : Bool) (a2 : Option Bool) {x : State} (h : Keeps s x) :
    Keeps s (lsSetOut a0 a1 a2 x) := by
  unfold lsSetOut
  try dsimp only
  repeat' split
  all_goals first | with_reducible exact h | (simp +contextual (maxDischargeDepth := 100) [*]; done) | exact h.of_eq (by with_reducible rfl) (by with_reducible rfl) (by with_reducible rfl) (by with_reducible rfl) | simp +contextual (maxDischargeDepth := 100) [*]

@[simp] theorem keeps_applyLsWith {s : State} (a0 : Fin 32 → Option Bool) {x : State} (h : Keeps s x) :
    Keeps s (applyLsWith a0 x) := by
  unfold applyLsWith
  try dsimp only
  repeat' split
  all_goals first | with_reducible exact h | (simp +contextual (maxDischargeDepth := 100) [*]; done) | exact h.of_eq (by with_reducible rfl) (by with_reducible rfl) (by with_reducible rfl) (by with_reducible rfl) | simp +contextual (maxDischargeDepth := 100) [*]

@[simp] theorem keeps_applyLs {s : State}  {x : State} (h : Keeps s x) :
    Keeps s (applyLs x) := by
  unfold applyLs
  try dsimp only
  repeat' split
  all_goals first | with_reducible exact h | (simp +contextual (maxDischargeDepth := 100) [*]; done) | exact h.of_eq (by with_reducible rfl) (by with_reducible rfl) (by with_reducible rfl) (by with_reducible rfl) | simp +contextual (maxDischargeDepth := 100) [*]

@[simp] theorem keeps_lsTrip {s : State} (a0 : Fin 32) (a1 : LsTrip) (a2 : ℕ) (a3 : Option Bool) {x : State} (h : Keeps s x) :
    Keeps s (lsTrip a0 a1 a2 a3 x) := by
  unfold lsTrip
  try dsimp only
  repeat' split
  all_goals first | with_reducible exact h | (simp +contextual (maxDischargeDepth := 100) [*]; done) | exact h.of_eq (by with_reducible rfl) (by with_reducible rfl) (by with_reducible rfl) (by with_reducible rfl) | simp +contextual (maxDischargeDepth := 100) [*]

@[simp] theorem keeps_shuntPulse {s : State} (a0 : Outlet) {x : State} (h : Keeps s x) :
    Keeps s (shuntPulse a0 x) := by
  unfold shuntPulse
  try dsimp only
  repeat' split
  all_goals first | with_reducible exact h | (simp +contextual (maxDischargeDepth := 100) [*]; done) | exact h.of_eq (by with_reducible rfl) (by with_reducible rfl) (by with_reducible rfl) (by with_reducible rfl) | simp +contextual (maxDischargeDepth := 100) [*]

end Sys2Proof.Machine
end

