-- ==== Sys2Proof/Laws/KeepsResetOps.lean ====
section
/-! SUPPORT. The operations of Machine/ResetOps.lean keep what `Keeps` says. -/

set_option linter.unusedVariables false
set_option linter.unusedSimpArgs false
set_option linter.unusedTactic false
set_option linter.unreachableTactic false

namespace Sys2Proof.Machine

@[simp] theorem keeps_resetBase {s : State}  {x : State} (h : Keeps s x) :
    Keeps s (resetBase x) := by
  unfold resetBase
  extract_lets t
  have k : Keeps s t := by
    refine keeps_applyLs (keeps_modPd _ ?_)
    exact keeps_forEach allDrivers (fun d y hy => keeps_coilOff d hy) (keeps_requeue h)
  clear_value t
  exact ⟨k.fab, k.pending, fun _ => mailOk_empty, k.provisioned, k.field, k.retired⟩

end Sys2Proof.Machine
end

