-- ==== Sys2Proof/Laws/KeepsSafetyOps.lean ====
section
/-! SUPPORT. The operations of Machine/SafetyOps.lean keep what `Keeps` says. -/

set_option linter.unusedVariables false
set_option linter.unusedSimpArgs false
set_option linter.unusedTactic false
set_option linter.unreachableTactic false

namespace Sys2Proof.Machine

@[simp] theorem keeps_modSafCore {s : State} (a0 : Saf → Saf) {x : State} (h : Keeps s x) :
    Keeps s (modSafCore a0 x) := by
  unfold modSafCore
  try dsimp only
  repeat' split
  all_goals first | with_reducible exact h | (simp +contextual (maxDischargeDepth := 100) [*]; done) | exact h.of_eq (by with_reducible rfl) (by with_reducible rfl) (by with_reducible rfl) (by with_reducible rfl) | simp +contextual (maxDischargeDepth := 100) [*]

@[simp] theorem keeps_moduleSafe {s : State} (a0 : BitVec 16) {x : State} (h : Keeps s x) :
    Keeps s (moduleSafe a0 x) := by
  unfold moduleSafe
  try dsimp only
  repeat' split
  all_goals first | with_reducible exact h | (simp +contextual (maxDischargeDepth := 100) [*]; done) | exact h.of_eq (by with_reducible rfl) (by with_reducible rfl) (by with_reducible rfl) (by with_reducible rfl) | simp +contextual (maxDischargeDepth := 100) [*]

@[simp] theorem keeps_answerAskers {s : State} (a0 : Driver) (a1 : Status) {x : State} (h : Keeps s x) :
    Keeps s (answerAskers a0 a1 x) := by
  unfold answerAskers
  try dsimp only
  repeat' split
  all_goals first | with_reducible exact h | (simp +contextual (maxDischargeDepth := 100) [*]; done) | exact h.of_eq (by with_reducible rfl) (by with_reducible rfl) (by with_reducible rfl) (by with_reducible rfl) | simp +contextual (maxDischargeDepth := 100) [*]

@[simp] theorem keeps_safReset {s : State} (a0 : BitVec 16) {x : State} (h : Keeps s x) :
    Keeps s (safReset a0 x) := by
  unfold safReset
  try dsimp only
  repeat' split
  all_goals first | with_reducible exact h | (simp +contextual (maxDischargeDepth := 100) [*]; done) | exact h.of_eq (by with_reducible rfl) (by with_reducible rfl) (by with_reducible rfl) (by with_reducible rfl) | simp +contextual (maxDischargeDepth := 100) [*]

@[simp] theorem keeps_countInternal {s : State} (a0 : BitVec 16) {x : State} (h : Keeps s x) :
    Keeps s (countInternal a0 x) := by
  unfold countInternal
  dsimp only
  refine keeps_ifDo _ (fun hy => keeps_modSafCore _ hy) ?_
  exact Keeps.of_eq (keeps_faultLog a0 0 h) rfl rfl rfl rfl

@[simp] theorem keeps_internalFault {s : State}  {x : State} (h : Keeps s x) :
    Keeps s (internalFault x) := by
  unfold internalFault
  try dsimp only
  repeat' split
  all_goals first | with_reducible exact h | (simp +contextual (maxDischargeDepth := 100) [*]; done) | exact h.of_eq (by with_reducible rfl) (by with_reducible rfl) (by with_reducible rfl) (by with_reducible rfl) | simp +contextual (maxDischargeDepth := 100) [*]

@[simp] theorem keeps_watchdogFault {s : State} (a0 : BitVec 3) {x : State} (h : Keeps s x) :
    Keeps s (watchdogFault a0 x) := by
  unfold watchdogFault
  try dsimp only
  repeat' split
  all_goals first | with_reducible exact h | (simp +contextual (maxDischargeDepth := 100) [*]; done) | exact h.of_eq (by with_reducible rfl) (by with_reducible rfl) (by with_reducible rfl) (by with_reducible rfl) | simp +contextual (maxDischargeDepth := 100) [*]

@[simp] theorem keeps_grantSaf {s : State} (a0 : Driver) {x : State} (h : Keeps s x) :
    Keeps s (grantSaf a0 x) := by
  unfold grantSaf
  try dsimp only
  repeat' split
  all_goals first | with_reducible exact h | (simp +contextual (maxDischargeDepth := 100) [*]; done) | exact h.of_eq (by with_reducible rfl) (by with_reducible rfl) (by with_reducible rfl) (by with_reducible rfl) | simp +contextual (maxDischargeDepth := 100) [*]

@[simp] theorem keeps_rearm {s : State} (a0 : Bool) (a1 : Driver) (a2 : GateTest) {x : State} (h : Keeps s x) :
    Keeps s (rearm a0 a1 a2 x) := by
  unfold rearm
  try dsimp only
  repeat' split
  all_goals first | with_reducible exact h | (simp +contextual (maxDischargeDepth := 100) [*]; done) | exact h.of_eq (by with_reducible rfl) (by with_reducible rfl) (by with_reducible rfl) (by with_reducible rfl) | simp +contextual (maxDischargeDepth := 100) [*]

@[simp] theorem keeps_weldTrip {s : State} (a0 : Outlet) {x : State} (h : Keeps s x) :
    Keeps s (weldTrip a0 x) := by
  unfold weldTrip
  try dsimp only
  repeat' split
  all_goals first | with_reducible exact h | (simp +contextual (maxDischargeDepth := 100) [*]; done) | exact h.of_eq (by with_reducible rfl) (by with_reducible rfl) (by with_reducible rfl) (by with_reducible rfl) | simp +contextual (maxDischargeDepth := 100) [*]

end Sys2Proof.Machine
end

