-- ==== Sys2Proof/Laws/KeepsChainOps.lean ====
section
/-! SUPPORT. The operations of Machine/ChainOps.lean keep what `Keeps` says. -/

set_option linter.unusedVariables false
set_option linter.unusedSimpArgs false
set_option linter.unusedTactic false
set_option linter.unreachableTactic false

namespace Sys2Proof.Machine

@[simp] theorem keeps_modCh {s : State} (a0 : Channel) (a1 : Chan → Chan) {x : State} (h : Keeps s x) :
    Keeps s (modCh a0 a1 x) := by
  unfold modCh
  try dsimp only
  repeat' split
  all_goals first | with_reducible exact h | (simp +contextual (maxDischargeDepth := 100) [*]; done) | exact h.of_eq (by with_reducible rfl) (by with_reducible rfl) (by with_reducible rfl) (by with_reducible rfl) | simp +contextual (maxDischargeDepth := 100) [*]

@[simp] theorem keeps_modIsl {s : State} (a0 : Island) (a1 : Isl → Isl) {x : State} (h : Keeps s x) :
    Keeps s (modIsl a0 a1 x) := by
  unfold modIsl
  try dsimp only
  repeat' split
  all_goals first | with_reducible exact h | (simp +contextual (maxDischargeDepth := 100) [*]; done) | exact h.of_eq (by with_reducible rfl) (by with_reducible rfl) (by with_reducible rfl) (by with_reducible rfl) | simp +contextual (maxDischargeDepth := 100) [*]

@[simp] theorem keeps_modWeave {s : State} (a0 : Weave → Weave) {x : State} (h : Keeps s x) :
    Keeps s (modWeave a0 x) := by
  unfold modWeave
  try dsimp only
  repeat' split
  all_goals first | with_reducible exact h | (simp +contextual (maxDischargeDepth := 100) [*]; done) | exact h.of_eq (by with_reducible rfl) (by with_reducible rfl) (by with_reducible rfl) (by with_reducible rfl) | simp +contextual (maxDischargeDepth := 100) [*]

@[simp] theorem keeps_takeOut {s : State} (a0 : Channel) (a1 : ℕ) {x : State} (h : Keeps s x) :
    Keeps s (takeOut a0 a1 x) := by
  unfold takeOut
  try dsimp only
  repeat' split
  all_goals first | with_reducible exact h | (simp +contextual (maxDischargeDepth := 100) [*]; done) | exact h.of_eq (by with_reducible rfl) (by with_reducible rfl) (by with_reducible rfl) (by with_reducible rfl) | simp +contextual (maxDischargeDepth := 100) [*]

@[simp] theorem keeps_startReturn {s : State} (a0 : Channel) {x : State} (h : Keeps s x) :
    Keeps s (startReturn a0 x) := by
  unfold startReturn
  try dsimp only
  repeat' split
  all_goals first | with_reducible exact h | (simp +contextual (maxDischargeDepth := 100) [*]; done) | exact h.of_eq (by with_reducible rfl) (by with_reducible rfl) (by with_reducible rfl) (by with_reducible rfl) | simp +contextual (maxDischargeDepth := 100) [*]

@[simp] theorem keeps_returnFrom {s : State} (a0 : ℕ) (a1 : Channel) {x : State} (h : Keeps s x) :
    Keeps s (returnFrom a0 a1 x) := by
  unfold returnFrom
  try dsimp only
  repeat' split
  all_goals first | with_reducible exact h | (simp +contextual (maxDischargeDepth := 100) [*]; done) | exact h.of_eq (by with_reducible rfl) (by with_reducible rfl) (by with_reducible rfl) (by with_reducible rfl) | simp +contextual (maxDischargeDepth := 100) [*]

@[simp] theorem keeps_returnAll {s : State} (a0 : List Channel) (a1 : ℕ) {x : State} (h : Keeps s x) :
    Keeps s (returnAll a0 a1 x) := by
  unfold returnAll
  try dsimp only
  repeat' split
  all_goals first | with_reducible exact h | (simp +contextual (maxDischargeDepth := 100) [*]; done) | exact h.of_eq (by with_reducible rfl) (by with_reducible rfl) (by with_reducible rfl) (by with_reducible rfl) | simp +contextual (maxDischargeDepth := 100) [*]

@[simp] theorem keeps_markStale {s : State} (a0 : Channel) {x : State} (h : Keeps s x) :
    Keeps s (markStale a0 x) := by
  unfold markStale
  try dsimp only
  repeat' split
  all_goals first | with_reducible exact h | (simp +contextual (maxDischargeDepth := 100) [*]; done) | exact h.of_eq (by with_reducible rfl) (by with_reducible rfl) (by with_reducible rfl) (by with_reducible rfl) | simp +contextual (maxDischargeDepth := 100) [*]

@[simp] theorem keeps_abandonDarning {s : State} (a0 : Island) {x : State} (h : Keeps s x) :
    Keeps s (abandonDarning a0 x) := by
  unfold abandonDarning
  try dsimp only
  repeat' split
  all_goals first | with_reducible exact h | (simp +contextual (maxDischargeDepth := 100) [*]; done) | exact h.of_eq (by with_reducible rfl) (by with_reducible rfl) (by with_reducible rfl) (by with_reducible rfl) | simp +contextual (maxDischargeDepth := 100) [*]

@[simp] theorem keeps_synchronise {s : State} (a0 : Word32) {x : State} (h : Keeps s x) :
    Keeps s (synchronise a0 x) := by
  unfold synchronise
  try dsimp only
  repeat' split
  all_goals first | with_reducible exact h | (simp +contextual (maxDischargeDepth := 100) [*]; done) | exact h.of_eq (by with_reducible rfl) (by with_reducible rfl) (by with_reducible rfl) (by with_reducible rfl) | simp +contextual (maxDischargeDepth := 100) [*]

@[simp] theorem keeps_applyChannel {s : State} (a0 : Channel) {x : State} (h : Keeps s x) :
    Keeps s (applyChannel a0 x) := by
  unfold applyChannel
  try dsimp only
  repeat' split
  all_goals first | with_reducible exact h | (simp +contextual (maxDischargeDepth := 100) [*]; done) | exact h.of_eq (by with_reducible rfl) (by with_reducible rfl) (by with_reducible rfl) (by with_reducible rfl) | simp +contextual (maxDischargeDepth := 100) [*]

@[simp] theorem keeps_comparatorTrip {s : State} (a0 : Channel) (a1 : Bool) {x : State} (h : Keeps s x) :
    Keeps s (comparatorTrip a0 a1 x) := by
  unfold comparatorTrip
  try dsimp only
  repeat' split
  all_goals first | with_reducible exact h | (simp +contextual (maxDischargeDepth := 100) [*]; done) | exact h.of_eq (by with_reducible rfl) (by with_reducible rfl) (by with_reducible rfl) (by with_reducible rfl) | simp +contextual (maxDischargeDepth := 100) [*]

@[simp] theorem keeps_applyMasks {s : State} (a0 : Channel) {x : State} (h : Keeps s x) :
    Keeps s (applyMasks a0 x) := by
  unfold applyMasks
  try dsimp only
  repeat' split
  all_goals first | with_reducible exact h | (simp +contextual (maxDischargeDepth := 100) [*]; done) | exact h.of_eq (by with_reducible rfl) (by with_reducible rfl) (by with_reducible rfl) (by with_reducible rfl) | simp +contextual (maxDischargeDepth := 100) [*]

@[simp] theorem keeps_modSlotChain {s : State} (a0 : Fin 60) (a1 : ChainSlot → ChainSlot) {x : State} (h : Keeps s x) :
    Keeps s (modSlotChain a0 a1 x) := by
  unfold modSlotChain
  try dsimp only
  repeat' split
  all_goals first | with_reducible exact h | (simp +contextual (maxDischargeDepth := 100) [*]; done) | exact h.of_eq (by with_reducible rfl) (by with_reducible rfl) (by with_reducible rfl) (by with_reducible rfl) | simp +contextual (maxDischargeDepth := 100) [*]

@[simp] theorem keeps_flushChain {s : State} (a0 : Channel) {x : State} (h : Keeps s x) :
    Keeps s (flushChain a0 x) := by
  unfold flushChain
  try dsimp only
  repeat' split
  all_goals first | with_reducible exact h | (simp +contextual (maxDischargeDepth := 100) [*]; done) | exact h.of_eq (by with_reducible rfl) (by with_reducible rfl) (by with_reducible rfl) (by with_reducible rfl) | simp +contextual (maxDischargeDepth := 100) [*]

end Sys2Proof.Machine
end

