-- ==== Sys2Proof/Laws/KeepsMetOps.lean ====
section
/-! SUPPORT. The operations of Machine/MetOps.lean keep what `Keeps` says. -/

set_option linter.unusedVariables false
set_option linter.unusedSimpArgs false
set_option linter.unusedTactic false
set_option linter.unreachableTactic false

namespace Sys2Proof.Machine

@[simp] theorem keeps_modMet {s : State} (a0 : Met → Met) {x : State} (h : Keeps s x) :
    Keeps s (modMet a0 x) := by
  unfold modMet
  try dsimp only
  repeat' split
  all_goals first | with_reducible exact h | (simp +contextual (maxDischargeDepth := 100) [*]; done) | exact h.of_eq (by with_reducible rfl) (by with_reducible rfl) (by with_reducible rfl) (by with_reducible rfl) | simp +contextual (maxDischargeDepth := 100) [*]

@[simp] theorem keeps_modAcc {s : State} (a0 : Selector) (a1 : SelAcc → SelAcc) {x : State} (h : Keeps s x) :
    Keeps s (modAcc a0 a1 x) := by
  unfold modAcc
  try dsimp only
  repeat' split
  all_goals first | with_reducible exact h | (simp +contextual (maxDischargeDepth := 100) [*]; done) | exact h.of_eq (by with_reducible rfl) (by with_reducible rfl) (by with_reducible rfl) (by with_reducible rfl) | simp +contextual (maxDischargeDepth := 100) [*]

@[simp] theorem keeps_modRegs {s : State} (a0 : Selector) (a1 : ℕ) (a2 : TariffRegs → TariffRegs) {x : State} (h : Keeps s x) :
    Keeps s (modRegs a0 a1 a2 x) := by
  unfold modRegs
  try dsimp only
  repeat' split
  all_goals first | with_reducible exact h | (simp +contextual (maxDischargeDepth := 100) [*]; done) | exact h.of_eq (by with_reducible rfl) (by with_reducible rfl) (by with_reducible rfl) (by with_reducible rfl) | simp +contextual (maxDischargeDepth := 100) [*]

@[simp] theorem keeps_addDemand {s : State} (a0 : Bool) (a1 : ℕ) {x : State} (h : Keeps s x) :
    Keeps s (addDemand a0 a1 x) := by
  unfold addDemand
  try dsimp only
  repeat' split
  all_goals first | with_reducible exact h | (simp +contextual (maxDischargeDepth := 100) [*]; done) | exact h.of_eq (by with_reducible rfl) (by with_reducible rfl) (by with_reducible rfl) (by with_reducible rfl) | simp +contextual (maxDischargeDepth := 100) [*]

@[simp] theorem keeps_bookRows {s : State} (a0 : Selector) (a1 : ℚ) (a2 : List Row) {x : State} (h : Keeps s x) :
    Keeps s (bookRows a0 a1 a2 x) := by
  unfold bookRows
  try dsimp only
  repeat' split
  all_goals first | with_reducible exact h | (simp +contextual (maxDischargeDepth := 100) [*]; done) | exact h.of_eq (by with_reducible rfl) (by with_reducible rfl) (by with_reducible rfl) (by with_reducible rfl) | simp +contextual (maxDischargeDepth := 100) [*]

@[simp] theorem keeps_bookOpen {s : State} (a0 : Selector) {x : State} (h : Keeps s x) :
    Keeps s (bookOpen a0 x) := by
  unfold bookOpen
  try dsimp only
  repeat' split
  all_goals first | with_reducible exact h | (simp +contextual (maxDischargeDepth := 100) [*]; done) | exact h.of_eq (by with_reducible rfl) (by with_reducible rfl) (by with_reducible rfl) (by with_reducible rfl) | simp +contextual (maxDischargeDepth := 100) [*]

@[simp] theorem keeps_splitPeriod {s : State}  {x : State} (h : Keeps s x) :
    Keeps s (splitPeriod x) := by
  unfold splitPeriod
  try dsimp only
  repeat' split
  all_goals first | with_reducible exact h | (simp +contextual (maxDischargeDepth := 100) [*]; done) | exact h.of_eq (by with_reducible rfl) (by with_reducible rfl) (by with_reducible rfl) (by with_reducible rfl) | simp +contextual (maxDischargeDepth := 100) [*]

end Sys2Proof.Machine
end

