-- ==== Sys2Proof/Laws/KeepsBillOps.lean ====
section
/-! SUPPORT. The operations of Machine/BillOps.lean keep what `Keeps` says. -/

set_option linter.unusedVariables false
set_option linter.unusedSimpArgs false
set_option linter.unusedTactic false
set_option linter.unreachableTactic false

namespace Sys2Proof.Machine

@[simp] theorem keeps_setTariff {s : State} (a0 : ℕ) (a1 : ℕ) {x : State} (h : Keeps s x) :
    Keeps s (setTariff a0 a1 x) := by
  unfold setTariff
  try dsimp only
  repeat' split
  all_goals first | with_reducible exact h | (simp +contextual (maxDischargeDepth := 100) [*]; done) | exact h.of_eq (by with_reducible rfl) (by with_reducible rfl) (by with_reducible rfl) (by with_reducible rfl) | simp +contextual (maxDischargeDepth := 100) [*]

@[simp] theorem keeps_reevaluate {s : State} (a0 : ℕ) {x : State} (h : Keeps s x) :
    Keeps s (reevaluate a0 x) := by
  unfold reevaluate
  try dsimp only
  repeat' split
  all_goals first | with_reducible exact h | (simp +contextual (maxDischargeDepth := 100) [*]; done) | exact h.of_eq (by with_reducible rfl) (by with_reducible rfl) (by with_reducible rfl) (by with_reducible rfl) | simp +contextual (maxDischargeDepth := 100) [*]

@[simp] theorem keeps_remoteEffect {s : State}  {x : State} (h : Keeps s x) :
    Keeps s (remoteEffect x) := by
  unfold remoteEffect
  try dsimp only
  repeat' split
  all_goals first | with_reducible exact h | (simp +contextual (maxDischargeDepth := 100) [*]; done) | exact h.of_eq (by with_reducible rfl) (by with_reducible rfl) (by with_reducible rfl) (by with_reducible rfl) | simp +contextual (maxDischargeDepth := 100) [*]

@[simp] theorem keeps_acceptTable {s : State} (a0 : List (ℕ × BitVec 8 × ℕ)) {x : State} (h : Keeps s x) :
    Keeps s (acceptTable a0 x) := by
  unfold acceptTable
  try dsimp only
  repeat' split
  all_goals first | with_reducible exact h | (simp +contextual (maxDischargeDepth := 100) [*]; done) | exact h.of_eq (by with_reducible rfl) (by with_reducible rfl) (by with_reducible rfl) (by with_reducible rfl) | simp +contextual (maxDischargeDepth := 100) [*]

@[simp] theorem keeps_passLocalTime {s : State}  {x : State} (h : Keeps s x) :
    Keeps s (passLocalTime x) := by
  unfold passLocalTime
  try dsimp only
  repeat' split
  all_goals first | with_reducible exact h | (simp +contextual (maxDischargeDepth := 100) [*]; done) | exact h.of_eq (by with_reducible rfl) (by with_reducible rfl) (by with_reducible rfl) (by with_reducible rfl) | simp +contextual (maxDischargeDepth := 100) [*]

@[simp] theorem keeps_acceptSwitch {s : State} (a0 : ℕ) (a1 : ℕ) (a2 : ℕ) {x : State} (h : Keeps s x) :
    Keeps s (acceptSwitch a0 a1 a2 x) := by
  unfold acceptSwitch
  try dsimp only
  repeat' split
  all_goals first | with_reducible exact h | (simp +contextual (maxDischargeDepth := 100) [*]; done) | exact h.of_eq (by with_reducible rfl) (by with_reducible rfl) (by with_reducible rfl) (by with_reducible rfl) | simp +contextual (maxDischargeDepth := 100) [*]

@[simp] theorem keeps_modDemand {s : State} (a0 : Demand → Demand) {x : State} (h : Keeps s x) :
    Keeps s (modDemand a0 x) := by
  unfold modDemand
  try dsimp only
  repeat' split
  all_goals first | with_reducible exact h | (simp +contextual (maxDischargeDepth := 100) [*]; done) | exact h.of_eq (by with_reducible rfl) (by with_reducible rfl) (by with_reducible rfl) (by with_reducible rfl) | simp +contextual (maxDischargeDepth := 100) [*]

@[simp] theorem keeps_closeFixed {s : State} (a0 : Bool) (a1 : Life) (a2 : ℕ) {x : State} (h : Keeps s x) :
    Keeps s (closeFixed a0 a1 a2 x) := by
  unfold closeFixed
  try dsimp only
  repeat' split
  all_goals first | with_reducible exact h | (simp +contextual (maxDischargeDepth := 100) [*]; done) | exact h.of_eq (by with_reducible rfl) (by with_reducible rfl) (by with_reducible rfl) (by with_reducible rfl) | simp +contextual (maxDischargeDepth := 100) [*]

@[simp] theorem keeps_closeSub {s : State} (a0 : Bool) (a1 : Life) (a2 : ℕ) {x : State} (h : Keeps s x) :
    Keeps s (closeSub a0 a1 a2 x) := by
  unfold closeSub
  try dsimp only
  repeat' split
  all_goals first | with_reducible exact h | (simp +contextual (maxDischargeDepth := 100) [*]; done) | exact h.of_eq (by with_reducible rfl) (by with_reducible rfl) (by with_reducible rfl) (by with_reducible rfl) | simp +contextual (maxDischargeDepth := 100) [*]

@[simp] theorem keeps_hem {s : State} (a0 : Life) (a1 : ℕ) (a2 : ℕ) {x : State} (h : Keeps s x) :
    Keeps s (hem a0 a1 a2 x) := by
  unfold hem
  try dsimp only
  repeat' split
  all_goals first | with_reducible exact h | (simp +contextual (maxDischargeDepth := 100) [*]; done) | exact h.of_eq (by with_reducible rfl) (by with_reducible rfl) (by with_reducible rfl) (by with_reducible rfl) | simp +contextual (maxDischargeDepth := 100) [*]

@[simp] theorem keeps_openIntervals {s : State}  {x : State} (h : Keeps s x) :
    Keeps s (openIntervals x) := by
  unfold openIntervals
  try dsimp only
  repeat' split
  all_goals first | with_reducible exact h | (simp +contextual (maxDischargeDepth := 100) [*]; done) | exact h.of_eq (by with_reducible rfl) (by with_reducible rfl) (by with_reducible rfl) (by with_reducible rfl) | simp +contextual (maxDischargeDepth := 100) [*]

@[simp] theorem keeps_stepReport {s : State} (a0 : TimeReport) {x : State} (h : Keeps s x) :
    Keeps s (stepReport a0 x) := by
  unfold stepReport
  try dsimp only
  repeat' split
  all_goals first | with_reducible exact h | (simp +contextual (maxDischargeDepth := 100) [*]; done) | exact h.of_eq (by with_reducible rfl) (by with_reducible rfl) (by with_reducible rfl) (by with_reducible rfl) | simp +contextual (maxDischargeDepth := 100) [*]

@[simp] theorem keeps_slewReport {s : State} (a0 : TimeReport) {x : State} (h : Keeps s x) :
    Keeps s (slewReport a0 x) := by
  unfold slewReport
  try dsimp only
  repeat' split
  all_goals first | with_reducible exact h | (simp +contextual (maxDischargeDepth := 100) [*]; done) | exact h.of_eq (by with_reducible rfl) (by with_reducible rfl) (by with_reducible rfl) (by with_reducible rfl) | simp +contextual (maxDischargeDepth := 100) [*]

@[simp] theorem keeps_setAdjustLimit {s : State} (a0 : ℕ) {x : State} (h : Keeps s x) :
    Keeps s (setAdjustLimit a0 x) := by
  unfold setAdjustLimit
  try dsimp only
  repeat' split
  all_goals first | with_reducible exact h | (simp +contextual (maxDischargeDepth := 100) [*]; done) | exact h.of_eq (by with_reducible rfl) (by with_reducible rfl) (by with_reducible rfl) (by with_reducible rfl) | simp +contextual (maxDischargeDepth := 100) [*]

@[simp] theorem keeps_closeRecordAt {s : State} (a0 : Life) (a1 : ReadingKind) (a2 : Outlet) {x : State} (h : Keeps s x) :
    Keeps s (closeRecordAt a0 a1 a2 x) := by
  unfold closeRecordAt
  try dsimp only
  repeat' split
  all_goals first | with_reducible exact h | (simp +contextual (maxDischargeDepth := 100) [*]; done) | exact h.of_eq (by with_reducible rfl) (by with_reducible rfl) (by with_reducible rfl) (by with_reducible rfl) | simp +contextual (maxDischargeDepth := 100) [*]

@[simp] theorem keeps_metReset {s : State}  {x : State} (h : Keeps s x) :
    Keeps s (metReset x) := by
  have k : Keeps s { x with bill := billOfCheckpoint x } := keeps_bill h _
  unfold metReset
  refine keeps_forEach _ (fun o y hy => keeps_stopSession _ _ _ hy) (keeps_openIntervals (keeps_forEach _ (fun o y hy => ?_) ?_))
  · exact keeps_closeRecordAt _ _ _ (keeps_modRecord _ _ hy)
  · exact keeps_log _ _ _ (keeps_met k _)

end Sys2Proof.Machine
end

