-- ==== Sys2Proof/Laws/KeepsMetrology.lean ====
section
/-! SUPPORT. The operations of Machine/Metrology.lean keep what `Keeps` says. -/

set_option linter.unusedVariables false
set_option linter.unusedSimpArgs false
set_option linter.unusedTactic false
set_option linter.unreachableTactic false

namespace Sys2Proof.Machine

@[simp] theorem keeps_testSample {s : State} (a0 : Selector) (a1 : Row) {x : State} (h : Keeps s x) :
    Keeps s (testSample a0 a1 x) := by
  unfold testSample
  try dsimp only
  repeat' split
  all_goals first | with_reducible exact h | (simp +contextual (maxDischargeDepth := 100) [*]; done) | exact h.of_eq (by with_reducible rfl) (by with_reducible rfl) (by with_reducible rfl) (by with_reducible rfl) | simp +contextual (maxDischargeDepth := 100) [*]

@[simp] theorem keeps_accumulate {s : State} (a0 : Selector) (a1 : Row) (a2 : Bool) {x : State} (h : Keeps s x) :
    Keeps s (accumulate a0 a1 a2 x) := by
  unfold accumulate
  try dsimp only
  repeat' split
  all_goals first | with_reducible exact h | (simp +contextual (maxDischargeDepth := 100) [*]; done) | exact h.of_eq (by with_reducible rfl) (by with_reducible rfl) (by with_reducible rfl) (by with_reducible rfl) | simp +contextual (maxDischargeDepth := 100) [*]

@[simp] theorem keeps_endOverload {s : State} (a0 : Selector) {x : State} (h : Keeps s x) :
    Keeps s (endOverload a0 x) := by
  unfold endOverload
  try dsimp only
  repeat' split
  all_goals first | with_reducible exact h | (simp +contextual (maxDischargeDepth := 100) [*]; done) | exact h.of_eq (by with_reducible rfl) (by with_reducible rfl) (by with_reducible rfl) (by with_reducible rfl) | simp +contextual (maxDischargeDepth := 100) [*]

theorem keeps_execMetSampleAccumulate {s : State} (a0 : Selector) {x : State} (h : Keeps s x) :
    OutKeeps s (execMetSampleAccumulate a0 x) := by
  unfold execMetSampleAccumulate
  try dsimp only
  repeat' split
  all_goals first | with_reducible exact h | (simp +contextual (maxDischargeDepth := 100) [*]; done) | exact h.of_eq (by with_reducible rfl) (by with_reducible rfl) (by with_reducible rfl) (by with_reducible rfl) | simp +contextual (maxDischargeDepth := 100) [*]

theorem keeps_execTestPulseEnd {s : State}  {x : State} (h : Keeps s x) :
    OutKeeps s (execTestPulseEnd x) := by
  unfold execTestPulseEnd
  try dsimp only
  repeat' split
  all_goals first | with_reducible exact h | (simp +contextual (maxDischargeDepth := 100) [*]; done) | exact h.of_eq (by with_reducible rfl) (by with_reducible rfl) (by with_reducible rfl) (by with_reducible rfl) | simp +contextual (maxDischargeDepth := 100) [*]

@[simp] theorem keeps_judgeAbsent {s : State} (a0 : Selector) {x : State} (h : Keeps s x) :
    Keeps s (judgeAbsent a0 x) := by
  unfold judgeAbsent
  try dsimp only
  repeat' split
  all_goals first | with_reducible exact h | (simp +contextual (maxDischargeDepth := 100) [*]; done) | exact h.of_eq (by with_reducible rfl) (by with_reducible rfl) (by with_reducible rfl) (by with_reducible rfl) | simp +contextual (maxDischargeDepth := 100) [*]

@[simp] theorem keeps_judgeTamper {s : State} (a0 : Selector) (a1 : Fin 3) (a2 : Bool) {x : State} (h : Keeps s x) :
    Keeps s (judgeTamper a0 a1 a2 x) := by
  unfold judgeTamper
  try dsimp only
  repeat' split
  all_goals first | with_reducible exact h | (simp +contextual (maxDischargeDepth := 100) [*]; done) | exact h.of_eq (by with_reducible rfl) (by with_reducible rfl) (by with_reducible rfl) (by with_reducible rfl) | simp +contextual (maxDischargeDepth := 100) [*]

@[simp] theorem keeps_judgeTampers {s : State} (a0 : Selector) {x : State} (h : Keeps s x) :
    Keeps s (judgeTampers a0 x) := by
  unfold judgeTampers
  try dsimp only
  repeat' split
  all_goals first | with_reducible exact h | (simp +contextual (maxDischargeDepth := 100) [*]; done) | exact h.of_eq (by with_reducible rfl) (by with_reducible rfl) (by with_reducible rfl) (by with_reducible rfl) | simp +contextual (maxDischargeDepth := 100) [*]

@[simp] theorem keeps_endReading {s : State} (a0 : Outlet) {x : State} (h : Keeps s x) :
    Keeps s (endReading a0 x) := by
  unfold endReading
  try dsimp only
  repeat' split
  all_goals first | with_reducible exact h | (simp +contextual (maxDischargeDepth := 100) [*]; done) | exact h.of_eq (by with_reducible rfl) (by with_reducible rfl) (by with_reducible rfl) (by with_reducible rfl) | simp +contextual (maxDischargeDepth := 100) [*]

@[simp] theorem keeps_addSpectrum {s : State} (a0 : Bool) {x : State} (h : Keeps s x) :
    Keeps s (addSpectrum a0 x) := by
  unfold addSpectrum
  try dsimp only
  repeat' split
  all_goals first | with_reducible exact h | (simp +contextual (maxDischargeDepth := 100) [*]; done) | exact h.of_eq (by with_reducible rfl) (by with_reducible rfl) (by with_reducible rfl) (by with_reducible rfl) | simp +contextual (maxDischargeDepth := 100) [*]

@[simp] theorem keeps_publishWindow {s : State}  {x : State} (h : Keeps s x) :
    Keeps s (publishWindow x) := by
  unfold publishWindow
  try dsimp only
  repeat' split
  all_goals first | with_reducible exact h | (simp +contextual (maxDischargeDepth := 100) [*]; done) | exact h.of_eq (by with_reducible rfl) (by with_reducible rfl) (by with_reducible rfl) (by with_reducible rfl) | simp +contextual (maxDischargeDepth := 100) [*]

@[simp] theorem keeps_testPeriod {s : State}  {x : State} (h : Keeps s x) :
    Keeps s (testPeriod x) := by
  unfold testPeriod
  try dsimp only
  repeat' split
  all_goals first | with_reducible exact h | (simp +contextual (maxDischargeDepth := 100) [*]; done) | exact h.of_eq (by with_reducible rfl) (by with_reducible rfl) (by with_reducible rfl) (by with_reducible rfl) | simp +contextual (maxDischargeDepth := 100) [*]

theorem keeps_execIntegrationPeriodEnd {s : State}  {x : State} (h : Keeps s x) :
    OutKeeps s (execIntegrationPeriodEnd x) := by
  unfold execIntegrationPeriodEnd
  try dsimp only
  repeat' split
  all_goals first | with_reducible exact h | (simp +contextual (maxDischargeDepth := 100) [*]; done) | exact h.of_eq (by with_reducible rfl) (by with_reducible rfl) (by with_reducible rfl) (by with_reducible rfl) | simp +contextual (maxDischargeDepth := 100) [*]

theorem keeps_execHarmonicWindowEnd {s : State}  {x : State} (h : Keeps s x) :
    OutKeeps s (execHarmonicWindowEnd x) := by
  unfold execHarmonicWindowEnd
  try dsimp only
  repeat' split
  all_goals first | with_reducible exact h | (simp +contextual (maxDischargeDepth := 100) [*]; done) | exact h.of_eq (by with_reducible rfl) (by with_reducible rfl) (by with_reducible rfl) (by with_reducible rfl) | simp +contextual (maxDischargeDepth := 100) [*]

theorem keeps_execSyncBridge {s : State} (a0 : Selector) {x : State} (h : Keeps s x) :
    OutKeeps s (execSyncBridge a0 x) := by
  unfold execSyncBridge
  try dsimp only
  repeat' split
  all_goals first | with_reducible exact h | (simp +contextual (maxDischargeDepth := 100) [*]; done) | exact h.of_eq (by with_reducible rfl) (by with_reducible rfl) (by with_reducible rfl) (by with_reducible rfl) | simp +contextual (maxDischargeDepth := 100) [*]

theorem keeps_execMeasurementGap {s : State} (a0 : Selector) (a1 : ℕ) {x : State} (h : Keeps s x) :
    OutKeeps s (execMeasurementGap a0 a1 x) := by
  unfold execMeasurementGap
  try dsimp only
  repeat' split
  all_goals first | with_reducible exact h | (simp +contextual (maxDischargeDepth := 100) [*]; done) | exact h.of_eq (by with_reducible rfl) (by with_reducible rfl) (by with_reducible rfl) (by with_reducible rfl) | simp +contextual (maxDischargeDepth := 100) [*]

theorem keeps_execGapSessionEnd {s : State} (a0 : Outlet) {x : State} (h : Keeps s x) :
    OutKeeps s (execGapSessionEnd a0 x) := by
  unfold execGapSessionEnd
  first
    | (simp +contextual (maxDischargeDepth := 100) [*]; done)
    | (refine (outKeeps_next _ _).2 (keeps_ifDo _ (fun hy => ?_) h)
       try dsimp only
       repeat' split
       all_goals simp +contextual (maxDischargeDepth := 100) [*])

theorem keeps_execMetCoreReset {s : State}  {x : State} (h : Keeps s x) :
    OutKeeps s (execMetCoreReset x) := by
  unfold execMetCoreReset
  first
    | (simp +contextual (maxDischargeDepth := 100) [*]; done)
    | (refine (outKeeps_next _ _).2 (keeps_ifDo _ (fun hy => ?_) h)
       try dsimp only
       repeat' split
       all_goals simp +contextual (maxDischargeDepth := 100) [*])

theorem keeps_execCalibrationAgeExceeded {s : State} (a0 : Island) (a1 : Fin 9) {x : State} (h : Keeps s x) :
    OutKeeps s (execCalibrationAgeExceeded a0 a1 x) := by
  unfold execCalibrationAgeExceeded
  try dsimp only
  repeat' split
  all_goals first | with_reducible exact h | (simp +contextual (maxDischargeDepth := 100) [*]; done) | exact h.of_eq (by with_reducible rfl) (by with_reducible rfl) (by with_reducible rfl) (by with_reducible rfl) | simp +contextual (maxDischargeDepth := 100) [*]

theorem keeps_execStartupRotationComplete {s : State} (a0 : Island) {x : State} (h : Keeps s x) :
    OutKeeps s (execStartupRotationComplete a0 x) := by
  unfold execStartupRotationComplete
  try dsimp only
  repeat' split
  all_goals first | with_reducible exact h | (simp +contextual (maxDischargeDepth := 100) [*]; done) | exact h.of_eq (by with_reducible rfl) (by with_reducible rfl) (by with_reducible rfl) (by with_reducible rfl) | simp +contextual (maxDischargeDepth := 100) [*]

@[simp] theorem keeps_metRequest {s : State} (a0 : MetRequest) {x : State} (h : Keeps s x) :
    Keeps s (metRequest a0 x) := by
  unfold metRequest
  try dsimp only
  repeat' split
  all_goals first | with_reducible exact h | (simp +contextual (maxDischargeDepth := 100) [*]; done) | exact h.of_eq (by with_reducible rfl) (by with_reducible rfl) (by with_reducible rfl) (by with_reducible rfl) | simp +contextual (maxDischargeDepth := 100) [*]

@[simp] theorem keeps_takeRequests {s : State} {x : State} (h : Keeps s x) : Keeps s (takeRequests x) := by
  have key : ∀ (l : List MetRequest) (y : State), Keeps s y → Keeps s (l.foldl (fun t r => metRequest r t) y) := by
    intro l
    induction l with
    | nil => intro y hy; exact hy
    | cons r l ih => intro y hy; exact ih _ (keeps_metRequest r hy)
  exact key _ _ (by simp [h])

theorem keeps_execMetRequestWrite {s : State} (a0 : Master) (a1 : MetRequest) {x : State} (h : Keeps s x) :
    OutKeeps s (execMetRequestWrite a0 a1 x) := by
  unfold execMetRequestWrite
  first
    | (simp +contextual (maxDischargeDepth := 100) [*]; done)
    | (refine (outKeeps_next _ _).2 (keeps_ifDo _ (fun hy => ?_) h)
       try dsimp only
       repeat' split
       all_goals simp +contextual (maxDischargeDepth := 100) [*])

@[simp] theorem keeps_passKeys {s : State}  {x : State} (h : Keeps s x) :
    Keeps s (passKeys x) := by
  unfold passKeys
  try dsimp only
  repeat' split
  all_goals first | with_reducible exact h | (simp +contextual (maxDischargeDepth := 100) [*]; done) | exact h.of_eq (by with_reducible rfl) (by with_reducible rfl) (by with_reducible rfl) (by with_reducible rfl) | simp +contextual (maxDischargeDepth := 100) [*]

theorem keeps_execMeterRead {s : State} (a0 : Mailbox) {x : State} (h : Keeps s x) :
    OutKeeps s (execMeterRead a0 x) := by
  unfold execMeterRead
  first
    | (simp +contextual (maxDischargeDepth := 100) [*]; done)
    | (refine (outKeeps_next _ _).2 (keeps_runCommand _ _ (fun b y hy => ?_) h)
       try dsimp only
       try refine replyKeeps_guards _ _ hy ?_
       repeat' split
       all_goals simp +contextual (maxDischargeDepth := 100) [*])

theorem keeps_execHarmonicsRead {s : State} (a0 : Mailbox) {x : State} (h : Keeps s x) :
    OutKeeps s (execHarmonicsRead a0 x) := by
  unfold execHarmonicsRead
  first
    | (simp +contextual (maxDischargeDepth := 100) [*]; done)
    | (refine (outKeeps_next _ _).2 (keeps_runCommand _ _ (fun b y hy => ?_) h)
       try dsimp only
       try refine replyKeeps_guards _ _ hy ?_
       repeat' split
       all_goals simp +contextual (maxDischargeDepth := 100) [*])

end Sys2Proof.Machine
end

