-- ==== Sys2Proof/Laws/KeepsVehOps.lean ====
section
/-! SUPPORT. The operations of Machine/VehOps.lean keep what `Keeps` says. -/

set_option linter.unusedVariables false
set_option linter.unusedSimpArgs false
set_option linter.unusedTactic false
set_option linter.unreachableTactic false

namespace Sys2Proof.Machine

@[simp] theorem keeps_drivePilot {s : State} (a0 : Outlet) {x : State} (h : Keeps s x) :
    Keeps s (drivePilot a0 x) := by
  unfold drivePilot
  try dsimp only
  repeat' split
  all_goals first | with_reducible exact h | (simp +contextual (maxDischargeDepth := 100) [*]; done) | exact h.of_eq (by with_reducible rfl) (by with_reducible rfl) (by with_reducible rfl) (by with_reducible rfl) | simp +contextual (maxDischargeDepth := 100) [*]

@[simp] theorem keeps_pauseOrResume {s : State} (a0 : Outlet) {x : State} (h : Keeps s x) :
    Keeps s (pauseOrResume a0 x) := by
  unfold pauseOrResume
  try dsimp only
  repeat' split
  all_goals first | with_reducible exact h | (simp +contextual (maxDischargeDepth := 100) [*]; done) | exact h.of_eq (by with_reducible rfl) (by with_reducible rfl) (by with_reducible rfl) (by with_reducible rfl) | simp +contextual (maxDischargeDepth := 100) [*]

@[simp] theorem keeps_enterTransfer {s : State} (a0 : Outlet) {x : State} (h : Keeps s x) :
    Keeps s (enterTransfer a0 x) := by
  unfold enterTransfer
  try dsimp only
  repeat' split
  all_goals first | with_reducible exact h | (simp +contextual (maxDischargeDepth := 100) [*]; done) | exact h.of_eq (by with_reducible rfl) (by with_reducible rfl) (by with_reducible rfl) (by with_reducible rfl) | simp +contextual (maxDischargeDepth := 100) [*]

@[simp] theorem keeps_advance {s : State} (a0 : Outlet) {x : State} (h : Keeps s x) :
    Keeps s (advance a0 x) := by
  unfold advance
  try dsimp only
  repeat' split
  all_goals first | with_reducible exact h | (simp +contextual (maxDischargeDepth := 100) [*]; done) | exact h.of_eq (by with_reducible rfl) (by with_reducible rfl) (by with_reducible rfl) (by with_reducible rfl) | simp +contextual (maxDischargeDepth := 100) [*]

@[simp] theorem keeps_dwellAtZero {s : State} (a0 : Outlet) {x : State} (h : Keeps s x) :
    Keeps s (dwellAtZero a0 x) := by
  unfold dwellAtZero
  try dsimp only
  repeat' split
  all_goals first | with_reducible exact h | (simp +contextual (maxDischargeDepth := 100) [*]; done) | exact h.of_eq (by with_reducible rfl) (by with_reducible rfl) (by with_reducible rfl) (by with_reducible rfl) | simp +contextual (maxDischargeDepth := 100) [*]

@[simp] theorem keeps_offerNow {s : State} (a0 : Outlet) {x : State} (h : Keeps s x) :
    Keeps s (offerNow a0 x) := by
  unfold offerNow
  try dsimp only
  repeat' split
  all_goals first | with_reducible exact h | (simp +contextual (maxDischargeDepth := 100) [*]; done) | exact h.of_eq (by with_reducible rfl) (by with_reducible rfl) (by with_reducible rfl) (by with_reducible rfl) | simp +contextual (maxDischargeDepth := 100) [*]

@[simp] theorem keeps_retarget {s : State} (a0 : Outlet) (a1 : Bool) {x : State} (h : Keeps s x) :
    Keeps s (retarget a0 a1 x) := by
  unfold retarget
  try dsimp only
  repeat' split
  all_goals first | with_reducible exact h | (simp +contextual (maxDischargeDepth := 100) [*]; done) | exact h.of_eq (by with_reducible rfl) (by with_reducible rfl) (by with_reducible rfl) (by with_reducible rfl) | simp +contextual (maxDischargeDepth := 100) [*]

@[simp] theorem keeps_retargetAll {s : State} (a0 : Bool) {x : State} (h : Keeps s x) :
    Keeps s (retargetAll a0 x) := by
  unfold retargetAll
  try dsimp only
  repeat' split
  all_goals first | with_reducible exact h | (simp +contextual (maxDischargeDepth := 100) [*]; done) | exact h.of_eq (by with_reducible rfl) (by with_reducible rfl) (by with_reducible rfl) (by with_reducible rfl) | simp +contextual (maxDischargeDepth := 100) [*]

@[simp] theorem keeps_proceed {s : State} (a0 : Outlet) {x : State} (h : Keeps s x) :
    Keeps s (proceed a0 x) := by
  unfold proceed
  try dsimp only
  repeat' split
  all_goals first | with_reducible exact h | (simp +contextual (maxDischargeDepth := 100) [*]; done) | exact h.of_eq (by with_reducible rfl) (by with_reducible rfl) (by with_reducible rfl) (by with_reducible rfl) | simp +contextual (maxDischargeDepth := 100) [*]

@[simp] theorem keeps_basic {s : State} (a0 : Outlet) {x : State} (h : Keeps s x) :
    Keeps s (basic a0 x) := by
  unfold basic
  try dsimp only
  repeat' split
  all_goals first | with_reducible exact h | (simp +contextual (maxDischargeDepth := 100) [*]; done) | exact h.of_eq (by with_reducible rfl) (by with_reducible rfl) (by with_reducible rfl) (by with_reducible rfl) | simp +contextual (maxDischargeDepth := 100) [*]

@[simp] theorem keeps_plugIn {s : State} (a0 : Outlet) {x : State} (h : Keeps s x) :
    Keeps s (plugIn a0 x) := by
  unfold plugIn
  try dsimp only
  repeat' split
  all_goals first | with_reducible exact h | (simp +contextual (maxDischargeDepth := 100) [*]; done) | exact h.of_eq (by with_reducible rfl) (by with_reducible rfl) (by with_reducible rfl) (by with_reducible rfl) | simp +contextual (maxDischargeDepth := 100) [*]

@[simp] theorem keeps_openSession {s : State} (a0 : Outlet) (a1 : Bool) (a2 : ℕ) (a3 : Bytes) (a4 : ℕ) {x : State} (h : Keeps s x) :
    Keeps s (openSession a0 a1 a2 a3 a4 x) := by
  unfold openSession
  try dsimp only
  repeat' split
  all_goals first | with_reducible exact h | (simp +contextual (maxDischargeDepth := 100) [*]; done) | exact h.of_eq (by with_reducible rfl) (by with_reducible rfl) (by with_reducible rfl) (by with_reducible rfl) | simp +contextual (maxDischargeDepth := 100) [*]

@[simp] theorem keeps_plugEvent {s : State} (a0 : Outlet) {x : State} (h : Keeps s x) :
    Keeps s (plugEvent a0 x) := by
  unfold plugEvent
  try dsimp only
  repeat' split
  all_goals first | with_reducible exact h | (simp +contextual (maxDischargeDepth := 100) [*]; done) | exact h.of_eq (by with_reducible rfl) (by with_reducible rfl) (by with_reducible rfl) (by with_reducible rfl) | simp +contextual (maxDischargeDepth := 100) [*]

@[simp] theorem keeps_pilotTrip {s : State} (a0 : Outlet) (a1 : BitVec 16) {x : State} (h : Keeps s x) :
    Keeps s (pilotTrip a0 a1 x) := by
  unfold pilotTrip
  try dsimp only
  repeat' split
  all_goals first | with_reducible exact h | (simp +contextual (maxDischargeDepth := 100) [*]; done) | exact h.of_eq (by with_reducible rfl) (by with_reducible rfl) (by with_reducible rfl) (by with_reducible rfl) | simp +contextual (maxDischargeDepth := 100) [*]

@[simp] theorem keeps_pilotFault {s : State} (a0 : Outlet) (a1 : BitVec 16) (a2 : Reason) {x : State} (h : Keeps s x) :
    Keeps s (pilotFault a0 a1 a2 x) := by
  unfold pilotFault
  try dsimp only
  repeat' split
  all_goals first | with_reducible exact h | (simp +contextual (maxDischargeDepth := 100) [*]; done) | exact h.of_eq (by with_reducible rfl) (by with_reducible rfl) (by with_reducible rfl) (by with_reducible rfl) | simp +contextual (maxDischargeDepth := 100) [*]

@[simp] theorem keeps_unplug {s : State} (a0 : Outlet) {x : State} (h : Keeps s x) :
    Keeps s (unplug a0 x) := by
  unfold unplug
  try dsimp only
  repeat' split
  all_goals first | with_reducible exact h | (simp +contextual (maxDischargeDepth := 100) [*]; done) | exact h.of_eq (by with_reducible rfl) (by with_reducible rfl) (by with_reducible rfl) (by with_reducible rfl) | simp +contextual (maxDischargeDepth := 100) [*]

@[simp] theorem keeps_modSolar {s : State} (a0 : Outlet) (a1 : Solar → Solar) {x : State} (h : Keeps s x) :
    Keeps s (modSolar a0 a1 x) := by
  unfold modSolar
  try dsimp only
  repeat' split
  all_goals first | with_reducible exact h | (simp +contextual (maxDischargeDepth := 100) [*]; done) | exact h.of_eq (by with_reducible rfl) (by with_reducible rfl) (by with_reducible rfl) (by with_reducible rfl) | simp +contextual (maxDischargeDepth := 100) [*]

@[simp] theorem keeps_setTarget {s : State} (a0 : Outlet) (a1 : ℤ) (a2 : Option ℤ) {x : State} (h : Keeps s x) :
    Keeps s (setTarget a0 a1 a2 x) := by
  unfold setTarget
  try dsimp only
  repeat' split
  all_goals first | with_reducible exact h | (simp +contextual (maxDischargeDepth := 100) [*]; done) | exact h.of_eq (by with_reducible rfl) (by with_reducible rfl) (by with_reducible rfl) (by with_reducible rfl) | simp +contextual (maxDischargeDepth := 100) [*]

@[simp] theorem keeps_communicationEnd {s : State} (a0 : Outlet) {x : State} (h : Keeps s x) :
    Keeps s (communicationEnd a0 x) := by
  unfold communicationEnd
  try dsimp only
  repeat' split
  all_goals first | with_reducible exact h | (simp +contextual (maxDischargeDepth := 100) [*]; done) | exact h.of_eq (by with_reducible rfl) (by with_reducible rfl) (by with_reducible rfl) (by with_reducible rfl) | simp +contextual (maxDischargeDepth := 100) [*]

@[simp] theorem keeps_communicationEndAll {s : State}  {x : State} (h : Keeps s x) :
    Keeps s (communicationEndAll x) := by
  unfold communicationEndAll
  try dsimp only
  repeat' split
  all_goals first | with_reducible exact h | (simp +contextual (maxDischargeDepth := 100) [*]; done) | exact h.of_eq (by with_reducible rfl) (by with_reducible rfl) (by with_reducible rfl) (by with_reducible rfl) | simp +contextual (maxDischargeDepth := 100) [*]

end Sys2Proof.Machine
end

