-- ==== Sys2Proof/Laws/KeepsProfileOps.lean ====
section
/-! SUPPORT. The operations of Machine/ProfileOps.lean keep what `Keeps` says. -/

set_option linter.unusedVariables false
set_option linter.unusedSimpArgs false
set_option linter.unusedTactic false
set_option linter.unreachableTactic false

namespace Sys2Proof.Machine

@[simp] theorem keeps_schedule {s : State} (a0 : Outlet) {x : State} (h : Keeps s x) :
    Keeps s (schedule a0 x) := by
  unfold schedule
  try dsimp only
  repeat' split
  all_goals first | with_reducible exact h | (simp +contextual (maxDischargeDepth := 100) [*]; done) | exact h.of_eq (by with_reducible rfl) (by with_reducible rfl) (by with_reducible rfl) (by with_reducible rfl) | simp +contextual (maxDischargeDepth := 100) [*]

@[simp] theorem keeps_reschedule {s : State} (a0 : Outlet) {x : State} (h : Keeps s x) :
    Keeps s (reschedule a0 x) := by
  unfold reschedule
  try dsimp only
  repeat' split
  all_goals first | with_reducible exact h | (simp +contextual (maxDischargeDepth := 100) [*]; done) | exact h.of_eq (by with_reducible rfl) (by with_reducible rfl) (by with_reducible rfl) (by with_reducible rfl) | simp +contextual (maxDischargeDepth := 100) [*]

@[simp] theorem keeps_dropTxProfiles {s : State} (a0 : Outlet) {x : State} (h : Keeps s x) :
    Keeps s (dropTxProfiles a0 x) := by
  unfold dropTxProfiles
  try dsimp only
  repeat' split
  all_goals first | with_reducible exact h | (simp +contextual (maxDischargeDepth := 100) [*]; done) | exact h.of_eq (by with_reducible rfl) (by with_reducible rfl) (by with_reducible rfl) (by with_reducible rfl) | simp +contextual (maxDischargeDepth := 100) [*]

end Sys2Proof.Machine
end

