-- ==== Sys2Proof/Laws/KeepsAuthOps.lean ====
section
/-! SUPPORT. The operations of Machine/AuthOps.lean keep what `Keeps` says. -/

set_option linter.unusedVariables false
set_option linter.unusedSimpArgs false
set_option linter.unusedTactic false
set_option linter.unreachableTactic false

namespace Sys2Proof.Machine

@[simp] theorem keeps_cachePut {s : State} (a0 : ListEntry) {x : State} (h : Keeps s x) :
    Keeps s (cachePut a0 x) := by
  unfold cachePut
  try dsimp only
  repeat' split
  all_goals first | with_reducible exact h | (simp +contextual (maxDischargeDepth := 100) [*]; done) | exact h.of_eq (by with_reducible rfl) (by with_reducible rfl) (by with_reducible rfl) (by with_reducible rfl) | simp +contextual (maxDischargeDepth := 100) [*]

@[simp] theorem keeps_cacheUse {s : State} (a0 : Bytes) {x : State} (h : Keeps s x) :
    Keeps s (cacheUse a0 x) := by
  unfold cacheUse
  try dsimp only
  repeat' split
  all_goals first | with_reducible exact h | (simp +contextual (maxDischargeDepth := 100) [*]; done) | exact h.of_eq (by with_reducible rfl) (by with_reducible rfl) (by with_reducible rfl) (by with_reducible rfl) | simp +contextual (maxDischargeDepth := 100) [*]

@[simp] theorem keeps_adoptReservation {s : State} (a0 : Outlet) {x : State} (h : Keeps s x) :
    Keeps s (adoptReservation a0 x) := by
  unfold adoptReservation
  try dsimp only
  repeat' split
  all_goals first | with_reducible exact h | (simp +contextual (maxDischargeDepth := 100) [*]; done) | exact h.of_eq (by with_reducible rfl) (by with_reducible rfl) (by with_reducible rfl) (by with_reducible rfl) | simp +contextual (maxDischargeDepth := 100) [*]

@[simp] theorem keeps_transactionStarted {s : State} (a0 : Outlet) {x : State} (h : Keeps s x) :
    Keeps s (transactionStarted a0 x) := by
  unfold transactionStarted
  try dsimp only
  repeat' split
  all_goals first | with_reducible exact h | (simp +contextual (maxDischargeDepth := 100) [*]; done) | exact h.of_eq (by with_reducible rfl) (by with_reducible rfl) (by with_reducible rfl) (by with_reducible rfl) | simp +contextual (maxDischargeDepth := 100) [*]

@[simp] theorem keeps_startSession {s : State} (a0 : Outlet) (a1 : Bool) (a2 : ℕ) (a3 : Bytes) (a4 : ℕ) {x : State} (h : Keeps s x) :
    Keeps s (startSession a0 a1 a2 a3 a4 x) := by
  unfold startSession
  try dsimp only
  repeat' split
  all_goals first | with_reducible exact h | (simp +contextual (maxDischargeDepth := 100) [*]; done) | exact h.of_eq (by with_reducible rfl) (by with_reducible rfl) (by with_reducible rfl) (by with_reducible rfl) | simp +contextual (maxDischargeDepth := 100) [*]

@[simp] theorem keeps_bindId {s : State} (a0 : Option Outlet) (a1 : ℕ) (a2 : Bytes) (a3 : ℕ) {x : State} (h : Keeps s x) :
    Keeps s (bindId a0 a1 a2 a3 x) := by
  unfold bindId
  try dsimp only
  repeat' split
  all_goals first | with_reducible exact h | (simp +contextual (maxDischargeDepth := 100) [*]; done) | exact h.of_eq (by with_reducible rfl) (by with_reducible rfl) (by with_reducible rfl) (by with_reducible rfl) | simp +contextual (maxDischargeDepth := 100) [*]

@[simp] theorem keeps_bindHeld {s : State} (a0 : Outlet) {x : State} (h : Keeps s x) :
    Keeps s (bindHeld a0 x) := by
  unfold bindHeld
  try dsimp only
  repeat' split
  all_goals first | with_reducible exact h | (simp +contextual (maxDischargeDepth := 100) [*]; done) | exact h.of_eq (by with_reducible rfl) (by with_reducible rfl) (by with_reducible rfl) (by with_reducible rfl) | simp +contextual (maxDischargeDepth := 100) [*]

@[simp] theorem keeps_pluggedIn {s : State} (a0 : Outlet) {x : State} (h : Keeps s x) :
    Keeps s (pluggedIn a0 x) := by
  unfold pluggedIn
  try dsimp only
  repeat' split
  all_goals first | with_reducible exact h | (simp +contextual (maxDischargeDepth := 100) [*]; done) | exact h.of_eq (by with_reducible rfl) (by with_reducible rfl) (by with_reducible rfl) (by with_reducible rfl) | simp +contextual (maxDischargeDepth := 100) [*]

@[simp] theorem keeps_dropEnded {s : State} (a0 : Bytes) {x : State} (h : Keeps s x) :
    Keeps s (dropEnded a0 x) := by
  unfold dropEnded
  try dsimp only
  repeat' split
  all_goals first | with_reducible exact h | (simp +contextual (maxDischargeDepth := 100) [*]; done) | exact h.of_eq (by with_reducible rfl) (by with_reducible rfl) (by with_reducible rfl) (by with_reducible rfl) | simp +contextual (maxDischargeDepth := 100) [*]

@[simp] theorem keeps_authDone {s : State} (a0 : AuthWait) (a1 : ℕ) (a2 : ℕ) {x : State} (h : Keeps s x) :
    Keeps s (authDone a0 a1 a2 x) := by
  unfold authDone
  try dsimp only
  repeat' split
  all_goals first | with_reducible exact h | (simp +contextual (maxDischargeDepth := 100) [*]; done) | exact h.of_eq (by with_reducible rfl) (by with_reducible rfl) (by with_reducible rfl) (by with_reducible rfl) | simp +contextual (maxDischargeDepth := 100) [*]

@[simp] theorem keeps_askOperator {s : State} (a0 : AuthWait) {x : State} (h : Keeps s x) :
    Keeps s (askOperator a0 x) := by
  unfold askOperator
  try dsimp only
  repeat' split
  all_goals first | with_reducible exact h | (simp +contextual (maxDischargeDepth := 100) [*]; done) | exact h.of_eq (by with_reducible rfl) (by with_reducible rfl) (by with_reducible rfl) (by with_reducible rfl) | simp +contextual (maxDischargeDepth := 100) [*]

@[simp] theorem keeps_onward {s x : State} (w : AuthWait) (found : Bool) (h : Keeps s x) :
    Keeps s (authorise.onward w found x).2.2 := by
  unfold authorise.onward
  dsimp only
  split
  · exact keeps_askOperator _ h
  · exact keeps_authDone _ _ _ h

@[simp] theorem keeps_authorise {s x : State} (o : Option Outlet) (kind : Nat) (id : Bytes) (b e : Bool) (h : Keeps s x) :
    Keeps s (authorise o kind id b e x).2.2 := by
  unfold authorise
  dsimp only
  have k : ∀ c, Keeps s (ifDo c (cacheUse id) x) := fun c => keeps_ifDo _ (fun hy => keeps_cacheUse _ hy) h
  split
  · split
    · exact keeps_authDone _ _ _ (k _)
    · exact keeps_onward _ _ (k _)
  · exact k _
  · exact keeps_onward _ _ (k _)

end Sys2Proof.Machine
end

