-- ==== Sys2Proof/Laws/KeepsBilling.lean ====
section
/-! SUPPORT. The operations of Machine/Billing.lean keep what `Keeps` says. -/

set_option linter.unusedVariables false
set_option linter.unusedSimpArgs false
set_option linter.unusedTactic false
set_option linter.unreachableTactic false

namespace Sys2Proof.Machine

theorem keeps_execMetTimeReport {s : State}  {x : State} (h : Keeps s x) :
    OutKeeps s (execMetTimeReport x) := by
  unfold execMetTimeReport
  try dsimp only
  repeat' split
  all_goals first | with_reducible exact h | (simp +contextual (maxDischargeDepth := 100) [*]; done) | exact h.of_eq (by with_reducible rfl) (by with_reducible rfl) (by with_reducible rfl) (by with_reducible rfl) | simp +contextual (maxDischargeDepth := 100) [*]

theorem keeps_execCheckpoint {s : State}  {x : State} (h : Keeps s x) :
    OutKeeps s (execCheckpoint x) := by
  unfold execCheckpoint
  first
    | (simp +contextual (maxDischargeDepth := 100) [*]; done)
    | (refine (outKeeps_next _ _).2 (keeps_ifDo _ (fun hy => ?_) h)
       try dsimp only
       repeat' split
       all_goals simp +contextual (maxDischargeDepth := 100) [*])

theorem keeps_execTariffEntryStart {s : State} (a0 : ℕ) {x : State} (h : Keeps s x) :
    OutKeeps s (execTariffEntryStart a0 x) := by
  unfold execTariffEntryStart
  first
    | (simp +contextual (maxDischargeDepth := 100) [*]; done)
    | (refine (outKeeps_next _ _).2 (keeps_ifDo _ (fun hy => ?_) h)
       try dsimp only
       repeat' split
       all_goals simp +contextual (maxDischargeDepth := 100) [*])

theorem keeps_execRemoteSwitchEffect {s : State}  {x : State} (h : Keeps s x) :
    OutKeeps s (execRemoteSwitchEffect x) := by
  unfold execRemoteSwitchEffect
  first
    | (simp +contextual (maxDischargeDepth := 100) [*]; done)
    | (refine (outKeeps_next _ _).2 (keeps_ifDo _ (fun hy => ?_) h)
       try dsimp only
       repeat' split
       all_goals simp +contextual (maxDischargeDepth := 100) [*])

@[simp] theorem keeps_takeTable {s : State}  {x : State} (h : Keeps s x) :
    Keeps s (takeTable x) := by
  unfold takeTable
  try dsimp only
  repeat' split
  all_goals first | with_reducible exact h | (simp +contextual (maxDischargeDepth := 100) [*]; done) | exact h.of_eq (by with_reducible rfl) (by with_reducible rfl) (by with_reducible rfl) (by with_reducible rfl) | simp +contextual (maxDischargeDepth := 100) [*]

theorem keeps_execDemandIntervalEnd {s : State}  {x : State} (h : Keeps s x) :
    OutKeeps s (execDemandIntervalEnd x) := by
  unfold execDemandIntervalEnd
  first
    | (simp +contextual (maxDischargeDepth := 100) [*]; done)
    | (refine (outKeeps_next _ _).2 (keeps_ifDo _ (fun hy => ?_) h)
       try dsimp only
       repeat' split
       all_goals simp +contextual (maxDischargeDepth := 100) [*])

theorem keeps_execSlidingSubEnd {s : State}  {x : State} (h : Keeps s x) :
    OutKeeps s (execSlidingSubEnd x) := by
  unfold execSlidingSubEnd
  first
    | (simp +contextual (maxDischargeDepth := 100) [*]; done)
    | (refine (outKeeps_next _ _).2 (keeps_ifDo _ (fun hy => ?_) h)
       try dsimp only
       repeat' split
       all_goals simp +contextual (maxDischargeDepth := 100) [*])

theorem keeps_execDemandPeriodClose {s : State}  {x : State} (h : Keeps s x) :
    OutKeeps s (execDemandPeriodClose x) := by
  unfold execDemandPeriodClose
  try dsimp only
  repeat' split
  all_goals first | with_reducible exact h | (simp +contextual (maxDischargeDepth := 100) [*]; done) | exact h.of_eq (by with_reducible rfl) (by with_reducible rfl) (by with_reducible rfl) (by with_reducible rfl) | simp +contextual (maxDischargeDepth := 100) [*]

theorem keeps_execLogEntryWrite {s : State}  {x : State} (h : Keeps s x) :
    OutKeeps s (execLogEntryWrite x) := by
  unfold execLogEntryWrite
  first
    | (simp +contextual (maxDischargeDepth := 100) [*]; done)
    | (refine (outKeeps_next _ _).2 (keeps_ifDo _ (fun hy => ?_) h)
       try dsimp only
       repeat' split
       all_goals simp +contextual (maxDischargeDepth := 100) [*])

@[simp] theorem keeps_modClosed {s : State} (a0 : ℕ) (a1 : Record → Record) {x : State} (h : Keeps s x) :
    Keeps s (modClosed a0 a1 x) := by
  unfold modClosed
  try dsimp only
  repeat' split
  all_goals first | with_reducible exact h | (simp +contextual (maxDischargeDepth := 100) [*]; done) | exact h.of_eq (by with_reducible rfl) (by with_reducible rfl) (by with_reducible rfl) (by with_reducible rfl) | simp +contextual (maxDischargeDepth := 100) [*]

@[simp] theorem keeps_endMessages {s : State} (a0 : Record) (a1 : Bytes) {x : State} (h : Keeps s x) :
    Keeps s (endMessages a0 a1 x) := by
  unfold endMessages
  try dsimp only
  repeat' split
  all_goals first | with_reducible exact h | (simp +contextual (maxDischargeDepth := 100) [*]; done) | exact h.of_eq (by with_reducible rfl) (by with_reducible rfl) (by with_reducible rfl) (by with_reducible rfl) | simp +contextual (maxDischargeDepth := 100) [*]

theorem keeps_execSessionRecordSigned {s : State} (a0 : Outlet) (a1 : Bool) {x : State} (h : Keeps s x) :
    OutKeeps s (execSessionRecordSigned a0 a1 x) := by
  unfold execSessionRecordSigned
  try dsimp only
  repeat' split
  all_goals first | with_reducible exact h | (simp +contextual (maxDischargeDepth := 100) [*]; done) | exact h.of_eq (by with_reducible rfl) (by with_reducible rfl) (by with_reducible rfl) (by with_reducible rfl) | simp +contextual (maxDischargeDepth := 100) [*]

@[simp] theorem keeps_carryEntry {s : State} (a0 : WatchRecord) {x : State} (h : Keeps s x) :
    Keeps s (carryEntry a0 x) := by
  unfold carryEntry
  try dsimp only
  repeat' split
  all_goals first | with_reducible exact h | (simp +contextual (maxDischargeDepth := 100) [*]; done) | exact h.of_eq (by with_reducible rfl) (by with_reducible rfl) (by with_reducible rfl) (by with_reducible rfl) | simp +contextual (maxDischargeDepth := 100) [*]

@[simp] theorem keeps_carryRing {s : State}  {x : State} (h : Keeps s x) :
    Keeps s (carryRing x) := by
  unfold carryRing
  try dsimp only
  repeat' split
  all_goals first | with_reducible exact h | (simp +contextual (maxDischargeDepth := 100) [*]; done) | exact h.of_eq (by with_reducible rfl) (by with_reducible rfl) (by with_reducible rfl) (by with_reducible rfl) | simp +contextual (maxDischargeDepth := 100) [*]

theorem keeps_execMetCarryRing {s : State}  {x : State} (h : Keeps s x) :
    OutKeeps s (execMetCarryRing x) := by
  unfold execMetCarryRing
  first
    | (simp +contextual (maxDischargeDepth := 100) [*]; done)
    | (refine (outKeeps_next _ _).2 (keeps_ifDo _ (fun hy => ?_) h)
       try dsimp only
       repeat' split
       all_goals simp +contextual (maxDischargeDepth := 100) [*])

theorem keeps_execBillingRegistersRead {s : State} (a0 : Mailbox) {x : State} (h : Keeps s x) :
    OutKeeps s (execBillingRegistersRead a0 x) := by
  unfold execBillingRegistersRead
  first
    | (simp +contextual (maxDischargeDepth := 100) [*]; done)
    | (refine (outKeeps_next _ _).2 (keeps_runCommand _ _ (fun b y hy => ?_) h)
       try dsimp only
       try refine replyKeeps_guards _ _ hy ?_
       repeat' split
       all_goals simp +contextual (maxDischargeDepth := 100) [*])

theorem keeps_execDemandRead {s : State} (a0 : Mailbox) {x : State} (h : Keeps s x) :
    OutKeeps s (execDemandRead a0 x) := by
  unfold execDemandRead
  first
    | (simp +contextual (maxDischargeDepth := 100) [*]; done)
    | (refine (outKeeps_next _ _).2 (keeps_runCommand _ _ (fun b y hy => ?_) h)
       try dsimp only
       try refine replyKeeps_guards _ _ hy ?_
       repeat' split
       all_goals simp +contextual (maxDischargeDepth := 100) [*])

theorem keeps_execTariffTableLoad {s : State} (a0 : Mailbox) {x : State} (h : Keeps s x) :
    OutKeeps s (execTariffTableLoad a0 x) := by
  unfold execTariffTableLoad
  first
    | (simp +contextual (maxDischargeDepth := 100) [*]; done)
    | (refine (outKeeps_next _ _).2 (keeps_runCommand _ _ (fun b y hy => ?_) h)
       try dsimp only
       try refine replyKeeps_guards _ _ hy ?_
       repeat' split
       all_goals simp +contextual (maxDischargeDepth := 100) [*])

theorem keeps_execTariffSwitch {s : State} (a0 : Mailbox) {x : State} (h : Keeps s x) :
    OutKeeps s (execTariffSwitch a0 x) := by
  unfold execTariffSwitch
  first
    | (simp +contextual (maxDischargeDepth := 100) [*]; done)
    | (refine (outKeeps_next _ _).2 (keeps_runCommand _ _ (fun b y hy => ?_) h)
       try dsimp only
       try refine replyKeeps_guards _ _ hy ?_
       repeat' split
       all_goals simp +contextual (maxDischargeDepth := 100) [*])

theorem keeps_execLegalLogRead {s : State} (a0 : Mailbox) {x : State} (h : Keeps s x) :
    OutKeeps s (execLegalLogRead a0 x) := by
  unfold execLegalLogRead
  first
    | (simp +contextual (maxDischargeDepth := 100) [*]; done)
    | (refine (outKeeps_next _ _).2 (keeps_runCommand _ _ (fun b y hy => ?_) h)
       try dsimp only
       try refine replyKeeps_guards _ _ hy ?_
       repeat' split
       all_goals simp +contextual (maxDischargeDepth := 100) [*])

theorem keeps_execSessionRecordRead {s : State} (a0 : Mailbox) {x : State} (h : Keeps s x) :
    OutKeeps s (execSessionRecordRead a0 x) := by
  unfold execSessionRecordRead
  first
    | (simp +contextual (maxDischargeDepth := 100) [*]; done)
    | (refine (outKeeps_next _ _).2 (keeps_runCommand _ _ (fun b y hy => ?_) h)
       try dsimp only
       try refine replyKeeps_guards _ _ hy ?_
       repeat' split
       all_goals simp +contextual (maxDischargeDepth := 100) [*])

end Sys2Proof.Machine
end

