-- ==== Sys2Proof/Laws/KeepsPermits.lean ====
section
/-! SUPPORT. The operations of Machine/Permits.lean keep what `Keeps` says. -/

set_option linter.unusedVariables false
set_option linter.unusedSimpArgs false
set_option linter.unusedTactic false
set_option linter.unreachableTactic false

namespace Sys2Proof.Machine

theorem keeps_execPermitWithdrawal {s : State} (a0 : Driver) (a1 : Stage) (a2 : BitVec 16) {x : State} (h : Keeps s x) :
    OutKeeps s (execPermitWithdrawal a0 a1 a2 x) := by
  unfold execPermitWithdrawal
  try dsimp only
  repeat' split
  all_goals first | with_reducible exact h | (simp +contextual (maxDischargeDepth := 100) [*]; done) | exact h.of_eq (by with_reducible rfl) (by with_reducible rfl) (by with_reducible rfl) (by with_reducible rfl) | simp +contextual (maxDischargeDepth := 100) [*]

@[simp] theorem keeps_reportTrip {s : State} (a0 : Driver) {x : State} (h : Keeps s x) :
    Keeps s (reportTrip a0 x) := by
  unfold reportTrip
  try dsimp only
  repeat' split
  all_goals first | with_reducible exact h | (simp +contextual (maxDischargeDepth := 100) [*]; done) | exact h.of_eq (by with_reducible rfl) (by with_reducible rfl) (by with_reducible rfl) (by with_reducible rfl) | simp +contextual (maxDischargeDepth := 100) [*]

theorem keeps_execTripWindowClose {s : State} (a0 : Driver) {x : State} (h : Keeps s x) :
    OutKeeps s (execTripWindowClose a0 x) := by
  unfold execTripWindowClose
  try dsimp only
  repeat' split
  all_goals first | with_reducible exact h | (simp +contextual (maxDischargeDepth := 100) [*]; done) | exact h.of_eq (by with_reducible rfl) (by with_reducible rfl) (by with_reducible rfl) (by with_reducible rfl) | simp +contextual (maxDischargeDepth := 100) [*]

theorem keeps_execPermitGrant {s : State} (a0 : Driver) (a1 : Stage) {x : State} (h : Keeps s x) :
    OutKeeps s (execPermitGrant a0 a1 x) := by
  unfold execPermitGrant
  first
    | (simp +contextual (maxDischargeDepth := 100) [*]; done)
    | (refine (outKeeps_next _ _).2 (keeps_ifDo _ (fun hy => ?_) h)
       try dsimp only
       repeat' split
       all_goals simp +contextual (maxDischargeDepth := 100) [*])

theorem keeps_execSafRearm {s : State} (a0 : Driver) (a1 : GateTest) {x : State} (h : Keeps s x) :
    OutKeeps s (execSafRearm a0 a1 x) := by
  unfold execSafRearm
  try dsimp only
  repeat' split
  all_goals first | with_reducible exact h | (simp +contextual (maxDischargeDepth := 100) [*]; done) | exact h.of_eq (by with_reducible rfl) (by with_reducible rfl) (by with_reducible rfl) (by with_reducible rfl) | simp +contextual (maxDischargeDepth := 100) [*]

theorem keeps_execPowerDieLinkLoss {s : State}  {x : State} (h : Keeps s x) :
    OutKeeps s (execPowerDieLinkLoss x) := by
  unfold execPowerDieLinkLoss
  first
    | (simp +contextual (maxDischargeDepth := 100) [*]; done)
    | (refine (outKeeps_next _ _).2 (keeps_ifDo _ (fun hy => ?_) h)
       try dsimp only
       repeat' split
       all_goals simp +contextual (maxDischargeDepth := 100) [*])

theorem keeps_execPowerDieLinkRestored {s : State}  {x : State} (h : Keeps s x) :
    OutKeeps s (execPowerDieLinkRestored x) := by
  unfold execPowerDieLinkRestored
  try dsimp only
  repeat' split
  all_goals first | with_reducible exact h | (simp +contextual (maxDischargeDepth := 100) [*]; done) | exact h.of_eq (by with_reducible rfl) (by with_reducible rfl) (by with_reducible rfl) (by with_reducible rfl) | simp +contextual (maxDischargeDepth := 100) [*]

theorem keeps_execSafCoreReset {s : State}  {x : State} (h : Keeps s x) :
    OutKeeps s (execSafCoreReset x) := by
  unfold execSafCoreReset
  first
    | (simp +contextual (maxDischargeDepth := 100) [*]; done)
    | (refine (outKeeps_next _ _).2 (keeps_ifDo _ (fun hy => ?_) h)
       try dsimp only
       repeat' split
       all_goals simp +contextual (maxDischargeDepth := 100) [*])

theorem keeps_execSafInternalFault {s : State}  {x : State} (h : Keeps s x) :
    OutKeeps s (execSafInternalFault x) := by
  unfold execSafInternalFault
  first
    | (simp +contextual (maxDischargeDepth := 100) [*]; done)
    | (refine (outKeeps_next _ _).2 (keeps_ifDo _ (fun hy => ?_) h)
       try dsimp only
       repeat' split
       all_goals simp +contextual (maxDischargeDepth := 100) [*])

@[simp] theorem keeps_serveWdg {s : State} (a0 : Master) (a1 : Word32) (a2 : Bool) {x : State} (h : Keeps s x) :
    Keeps s (serveWdg a0 a1 a2 x) := by
  unfold serveWdg
  try dsimp only
  repeat' split
  all_goals first | with_reducible exact h | (simp +contextual (maxDischargeDepth := 100) [*]; done) | exact h.of_eq (by with_reducible rfl) (by with_reducible rfl) (by with_reducible rfl) (by with_reducible rfl) | simp +contextual (maxDischargeDepth := 100) [*]

theorem keeps_execWdgService {s : State} (a0 : Master) (a1 : Word32) (a2 : Bool) {x : State} (h : Keeps s x) :
    OutKeeps s (execWdgService a0 a1 a2 x) := by
  unfold execWdgService
  try dsimp only
  repeat' split
  all_goals first | with_reducible exact h | (simp +contextual (maxDischargeDepth := 100) [*]; done) | exact h.of_eq (by with_reducible rfl) (by with_reducible rfl) (by with_reducible rfl) (by with_reducible rfl) | simp +contextual (maxDischargeDepth := 100) [*]

theorem keeps_execWdgLate {s : State}  {x : State} (h : Keeps s x) :
    OutKeeps s (execWdgLate x) := by
  unfold execWdgLate
  first
    | (simp +contextual (maxDischargeDepth := 100) [*]; done)
    | (refine (outKeeps_next _ _).2 (keeps_ifDo _ (fun hy => ?_) h)
       try dsimp only
       repeat' split
       all_goals simp +contextual (maxDischargeDepth := 100) [*])

theorem keeps_execPermitWchRefreshTimeout {s : State}  {x : State} (h : Keeps s x) :
    OutKeeps s (execPermitWchRefreshTimeout x) := by
  unfold execPermitWchRefreshTimeout
  try dsimp only
  repeat' split
  all_goals first | with_reducible exact h | (simp +contextual (maxDischargeDepth := 100) [*]; done) | exact h.of_eq (by with_reducible rfl) (by with_reducible rfl) (by with_reducible rfl) (by with_reducible rfl) | simp +contextual (maxDischargeDepth := 100) [*]

@[simp] theorem keeps_wchClockTrip {s : State} (a0 : Domain) {x : State} (h : Keeps s x) :
    Keeps s (wchClockTrip a0 x) := by
  unfold wchClockTrip
  try dsimp only
  repeat' split
  all_goals first | with_reducible exact h | (simp +contextual (maxDischargeDepth := 100) [*]; done) | exact h.of_eq (by with_reducible rfl) (by with_reducible rfl) (by with_reducible rfl) (by with_reducible rfl) | simp +contextual (maxDischargeDepth := 100) [*]

theorem keeps_execSafClockFault {s : State}  {x : State} (h : Keeps s x) :
    OutKeeps s (execSafClockFault x) := by
  unfold execSafClockFault
  try dsimp only
  repeat' split
  all_goals first | with_reducible exact h | (simp +contextual (maxDischargeDepth := 100) [*]; done) | exact h.of_eq (by with_reducible rfl) (by with_reducible rfl) (by with_reducible rfl) (by with_reducible rfl) | simp +contextual (maxDischargeDepth := 100) [*]

theorem keeps_execTripCauseRead {s : State} (a0 : Mailbox) {x : State} (h : Keeps s x) :
    OutKeeps s (execTripCauseRead a0 x) := by
  unfold execTripCauseRead
  first
    | (simp +contextual (maxDischargeDepth := 100) [*]; done)
    | (refine (outKeeps_next _ _).2 (keeps_runCommand _ _ (fun b y hy => ?_) h)
       try dsimp only
       try refine replyKeeps_guards _ _ hy ?_
       repeat' split
       all_goals simp +contextual (maxDischargeDepth := 100) [*])

theorem keeps_execSafetyRearmRequest {s : State} (a0 : Mailbox) {x : State} (h : Keeps s x) :
    OutKeeps s (execSafetyRearmRequest a0 x) := by
  unfold execSafetyRearmRequest
  first
    | (simp +contextual (maxDischargeDepth := 100) [*]; done)
    | (refine (outKeeps_next _ _).2 (keeps_runCommand _ _ (fun b y hy => ?_) h)
       try dsimp only
       try refine replyKeeps_guards _ _ hy ?_
       repeat' split
       all_goals simp +contextual (maxDischargeDepth := 100) [*])

theorem keeps_execSafetyStatusGet {s : State} (a0 : Mailbox) {x : State} (h : Keeps s x) :
    OutKeeps s (execSafetyStatusGet a0 x) := by
  unfold execSafetyStatusGet
  first
    | (simp +contextual (maxDischargeDepth := 100) [*]; done)
    | (refine (outKeeps_next _ _).2 (keeps_runCommand _ _ (fun b y hy => ?_) h)
       try dsimp only
       try refine replyKeeps_guards _ _ hy ?_
       repeat' split
       all_goals simp +contextual (maxDischargeDepth := 100) [*])

end Sys2Proof.Machine
end

