-- ==== Sys2Proof/Laws/KeepsTimeRows.lean ====
section
/-! SUPPORT. The operations of Machine/TimeRows.lean keep what `Keeps` says. -/

set_option linter.unusedVariables false
set_option linter.unusedSimpArgs false
set_option linter.unusedTactic false
set_option linter.unreachableTactic false

namespace Sys2Proof.Machine

theorem keeps_execTimeGet {s : State} (a0 : Mailbox) {x : State} (h : Keeps s x) :
    OutKeeps s (execTimeGet a0 x) := by
  unfold execTimeGet
  first
    | (simp +contextual (maxDischargeDepth := 100) [*]; done)
    | (refine (outKeeps_next _ _).2 (keeps_runCommand _ _ (fun b y hy => ?_) h)
       try dsimp only
       try refine replyKeeps_guards _ _ hy ?_
       repeat' split
       all_goals simp +contextual (maxDischargeDepth := 100) [*])

theorem keeps_execTimeSet {s : State} (a0 : Mailbox) {x : State} (h : Keeps s x) :
    OutKeeps s (execTimeSet a0 x) := by
  unfold execTimeSet
  refine (outKeeps_next _ _).2 (keeps_runCommand _ _ (fun b y hy => ?_) h)
  dsimp only
  have k := keeps_setSecond (rd b 0 8) hy
  split
  · rename_i e; rw [e] at k; exact k
  · rename_i e; rw [e] at k; exact keeps_modTb _ k

theorem keeps_execTimeAdjust {s : State} (a0 : Mailbox) {x : State} (h : Keeps s x) :
    OutKeeps s (execTimeAdjust a0 x) := by
  unfold execTimeAdjust
  refine (outKeeps_next _ _).2 (keeps_runCommand _ _ (fun b y hy => ?_) h)
  have k := keeps_adjustMs (rdI32 b 0) hy
  split
  · rename_i e; rw [e] at k; exact k
  · rename_i e; rw [e] at k; exact keeps_modTb _ k

theorem keeps_execTimeTrimSet {s : State} (a0 : Mailbox) {x : State} (h : Keeps s x) :
    OutKeeps s (execTimeTrimSet a0 x) := by
  unfold execTimeTrimSet
  first
    | (simp +contextual (maxDischargeDepth := 100) [*]; done)
    | (refine (outKeeps_next _ _).2 (keeps_runCommand _ _ (fun b y hy => ?_) h)
       try dsimp only
       try refine replyKeeps_guards _ _ hy ?_
       repeat' split
       all_goals simp +contextual (maxDischargeDepth := 100) [*])

theorem keeps_execRtcAdjMsWrite {s : State} (a0 : Master) (a1 : Word32) (a2 : Bool) {x : State} (h : Keeps s x) :
    OutKeeps s (execRtcAdjMsWrite a0 a1 a2 x) := by
  unfold execRtcAdjMsWrite
  first
    | (simp +contextual (maxDischargeDepth := 100) [*]; done)
    | (refine (outKeeps_next _ _).2 (keeps_ifDo _ (fun hy => ?_) h)
       try dsimp only
       repeat' split
       all_goals simp +contextual (maxDischargeDepth := 100) [*])

@[simp] theorem keeps_setFromLo {s : State} (a0 : Word32) {x : State} (h : Keeps s x) :
    Keeps s (setFromLo a0 x) := by
  unfold setFromLo
  exact keeps_setSecond _ h

theorem keeps_execRtcSetLoWrite {s : State} (a0 : Master) (a1 : BitVec 1) (a2 : Word32) (a3 : Bool) {x : State} (h : Keeps s x) :
    OutKeeps s (execRtcSetLoWrite a0 a1 a2 a3 x) := by
  unfold execRtcSetLoWrite
  first
    | (simp +contextual (maxDischargeDepth := 100) [*]; done)
    | (refine (outKeeps_next _ _).2 (keeps_ifDo _ (fun hy => ?_) h)
       try dsimp only
       repeat' split
       all_goals simp +contextual (maxDischargeDepth := 100) [*])

theorem keeps_execRtcTrimWrite {s : State} (a0 : Master) (a1 : Word32) {x : State} (h : Keeps s x) :
    OutKeeps s (execRtcTrimWrite a0 a1 x) := by
  unfold execRtcTrimWrite
  first
    | (simp +contextual (maxDischargeDepth := 100) [*]; done)
    | (refine (outKeeps_next _ _).2 (keeps_ifDo _ (fun hy => ?_) h)
       try dsimp only
       repeat' split
       all_goals simp +contextual (maxDischargeDepth := 100) [*])

theorem keeps_execTmrPeriodWrite {s : State} (a0 : Master) (a1 : Fin 16) (a2 : Word32) {x : State} (h : Keeps s x) :
    OutKeeps s (execTmrPeriodWrite a0 a1 a2 x) := by
  unfold execTmrPeriodWrite
  first
    | (simp +contextual (maxDischargeDepth := 100) [*]; done)
    | (refine (outKeeps_next _ _).2 (keeps_ifDo _ (fun hy => ?_) h)
       try dsimp only
       repeat' split
       all_goals simp +contextual (maxDischargeDepth := 100) [*])

theorem keeps_execTmrPeriodEvent {s : State} (a0 : Fin 16) {x : State} (h : Keeps s x) :
    OutKeeps s (execTmrPeriodEvent a0 x) := by
  unfold execTmrPeriodEvent
  try dsimp only
  repeat' split
  all_goals first | with_reducible exact h | (simp +contextual (maxDischargeDepth := 100) [*]; done) | exact h.of_eq (by with_reducible rfl) (by with_reducible rfl) (by with_reducible rfl) (by with_reducible rfl) | simp +contextual (maxDischargeDepth := 100) [*]

@[simp] theorem keeps_restartNow {s : State}  {x : State} (h : Keeps s x) :
    Keeps s (restartNow x) := by
  unfold restartNow
  try dsimp only
  repeat' split
  all_goals first | with_reducible exact h | (simp +contextual (maxDischargeDepth := 100) [*]; done) | exact h.of_eq (by with_reducible rfl) (by with_reducible rfl) (by with_reducible rfl) (by with_reducible rfl) | simp +contextual (maxDischargeDepth := 100) [*]

theorem keeps_execSlewAbsorbed {s : State}  {x : State} (h : Keeps s x) :
    OutKeeps s (execSlewAbsorbed x) := by
  unfold execSlewAbsorbed
  first
    | (simp +contextual (maxDischargeDepth := 100) [*]; done)
    | (refine (outKeeps_next _ _).2 (keeps_ifDo _ (fun hy => ?_) h)
       try dsimp only
       repeat' split
       all_goals simp +contextual (maxDischargeDepth := 100) [*])

theorem keeps_execRtcRangeEnd {s : State}  {x : State} (h : Keeps s x) :
    OutKeeps s (execRtcRangeEnd x) := by
  unfold execRtcRangeEnd
  first
    | (simp +contextual (maxDischargeDepth := 100) [*]; done)
    | (refine (outKeeps_next _ _).2 (keeps_ifDo _ (fun hy => ?_) h)
       try dsimp only
       repeat' split
       all_goals simp +contextual (maxDischargeDepth := 100) [*])

theorem keeps_execAo32Fault {s : State}  {x : State} (h : Keeps s x) :
    OutKeeps s (execAo32Fault x) := by
  unfold execAo32Fault
  try dsimp only
  repeat' split
  all_goals first | with_reducible exact h | (simp +contextual (maxDischargeDepth := 100) [*]; done) | exact h.of_eq (by with_reducible rfl) (by with_reducible rfl) (by with_reducible rfl) (by with_reducible rfl) | simp +contextual (maxDischargeDepth := 100) [*]

theorem keeps_execAofFault {s : State}  {x : State} (h : Keeps s x) :
    OutKeeps s (execAofFault x) := by
  unfold execAofFault
  try dsimp only
  repeat' split
  all_goals first | with_reducible exact h | (simp +contextual (maxDischargeDepth := 100) [*]; done) | exact h.of_eq (by with_reducible rfl) (by with_reducible rfl) (by with_reducible rfl) (by with_reducible rfl) | simp +contextual (maxDischargeDepth := 100) [*]

end Sys2Proof.Machine
end

