-- ==== Sys2Proof/Laws/KeepsBus.lean ====
section
/-! SUPPORT. The operations of Machine/Bus.lean keep what `Keeps` says. -/

set_option linter.unusedVariables false
set_option linter.unusedSimpArgs false
set_option linter.unusedTactic false
set_option linter.unreachableTactic false

namespace Sys2Proof.Machine

@[simp] theorem keeps_clearRtcStatus {s : State} (a0 : Master) (a1 : Word32) {x : State} (h : Keeps s x) :
    Keeps s (clearRtcStatus a0 a1 x) := by
  unfold clearRtcStatus
  try dsimp only
  repeat' split
  all_goals first | with_reducible exact h | (simp +contextual (maxDischargeDepth := 100) [*]; done) | exact h.of_eq (by with_reducible rfl) (by with_reducible rfl) (by with_reducible rfl) (by with_reducible rfl) | simp +contextual (maxDischargeDepth := 100) [*]

@[simp] theorem keeps_writeTimer {s : State} (a0 : Master) (a1 : Fin 16) (a2 : ℕ) (a3 : Word32) {x : State} (h : Keeps s x) :
    Keeps s (writeTimer a0 a1 a2 a3 x) := by
  unfold writeTimer
  try dsimp only
  repeat' split
  all_goals first | with_reducible exact h | (simp +contextual (maxDischargeDepth := 100) [*]; done) | exact h.of_eq (by with_reducible rfl) (by with_reducible rfl) (by with_reducible rfl) (by with_reducible rfl) | simp +contextual (maxDischargeDepth := 100) [*]

@[simp] theorem keeps_writeTime {s : State} (a0 : Master) (a1 : ℕ) (a2 : Word32) (a3 : Bool) {x : State} (h : Keeps s x) :
    Keeps s (writeTime a0 a1 a2 a3 x) := by
  unfold writeTime
  try dsimp only
  repeat' split
  all_goals first | with_reducible exact h | (simp +contextual (maxDischargeDepth := 100) [*]; done) | exact h.of_eq (by with_reducible rfl) (by with_reducible rfl) (by with_reducible rfl) (by with_reducible rfl) | simp +contextual (maxDischargeDepth := 100) [*]

@[simp] theorem keeps_setAlarmLo {s : State} (a0 : Word32) {x : State} (h : Keeps s x) :
    Keeps s (setAlarmLo a0 x) := by
  unfold setAlarmLo
  try dsimp only
  repeat' split
  all_goals first | with_reducible exact h | (simp +contextual (maxDischargeDepth := 100) [*]; done) | exact h.of_eq (by with_reducible rfl) (by with_reducible rfl) (by with_reducible rfl) (by with_reducible rfl) | simp +contextual (maxDischargeDepth := 100) [*]

@[simp] theorem keeps_setAlarmHi {s : State} (a0 : Word32) {x : State} (h : Keeps s x) :
    Keeps s (setAlarmHi a0 x) := by
  unfold setAlarmHi
  try dsimp only
  repeat' split
  all_goals first | with_reducible exact h | (simp +contextual (maxDischargeDepth := 100) [*]; done) | exact h.of_eq (by with_reducible rfl) (by with_reducible rfl) (by with_reducible rfl) (by with_reducible rfl) | simp +contextual (maxDischargeDepth := 100) [*]

@[simp] theorem keeps_writeWatch {s : State} (a0 : Master) (a1 : ℕ) (a2 : Word32) {x : State} (h : Keeps s x) :
    Keeps s (writeWatch a0 a1 a2 x) := by
  unfold writeWatch
  try dsimp only
  repeat' split
  all_goals first | with_reducible exact h | (simp +contextual (maxDischargeDepth := 100) [*]; done) | exact h.of_eq (by with_reducible rfl) (by with_reducible rfl) (by with_reducible rfl) (by with_reducible rfl) | simp +contextual (maxDischargeDepth := 100) [*]

@[simp] theorem keeps_writeTarget {s : State} (a0 : ℕ) (a1 : Word32) {x : State} (h : Keeps s x) :
    Keeps s (writeTarget a0 a1 x) := by
  unfold writeTarget
  try dsimp only
  repeat' split
  all_goals first | with_reducible exact h | (simp +contextual (maxDischargeDepth := 100) [*]; done) | exact h.of_eq (by with_reducible rfl) (by with_reducible rfl) (by with_reducible rfl) (by with_reducible rfl) | simp +contextual (maxDischargeDepth := 100) [*]

@[simp] theorem keeps_busWrite {s : State} (a0 : BusAccess) {x : State} (h : Keeps s x) :
    Keeps s (busWrite a0 x) := by
  unfold busWrite
  try dsimp only
  repeat' split
  all_goals first | with_reducible exact h | (simp +contextual (maxDischargeDepth := 100) [*]; done) | exact h.of_eq (by with_reducible rfl) (by with_reducible rfl) (by with_reducible rfl) (by with_reducible rfl) | simp +contextual (maxDischargeDepth := 100) [*]

@[simp] theorem keeps_busRead {s : State} (a0 : BusAccess) {x : State} (h : Keeps s x) :
    Keeps s (busRead a0 x) := by
  unfold busRead
  try dsimp only
  repeat' split
  all_goals first | with_reducible exact h | (simp +contextual (maxDischargeDepth := 100) [*]; done) | exact h.of_eq (by with_reducible rfl) (by with_reducible rfl) (by with_reducible rfl) (by with_reducible rfl) | simp +contextual (maxDischargeDepth := 100) [*]

theorem keeps_execFirewallBlock {s : State} (a0 : BusAccess) {x : State} (h : Keeps s x) :
    OutKeeps s (execFirewallBlock a0 x) := by
  unfold execFirewallBlock
  first
    | (simp +contextual (maxDischargeDepth := 100) [*]; done)
    | (refine (outKeeps_next _ _).2 (keeps_ifDo _ (fun hy => ?_) h)
       try dsimp only
       repeat' split
       all_goals simp +contextual (maxDischargeDepth := 100) [*])

end Sys2Proof.Machine
end

