-- ==== Sys2Proof/Laws/KeepsChain.lean ====
section
/-! SUPPORT. The operations of Machine/Chain.lean keep what `Keeps` says. -/

set_option linter.unusedVariables false
set_option linter.unusedSimpArgs false
set_option linter.unusedTactic false
set_option linter.unreachableTactic false

namespace Sys2Proof.Machine

@[simp] theorem keeps_deliver {s : State} (a0 : ℕ) (a1 : Channel) {x : State} (h : Keeps s x) :
    Keeps s (deliver a0 a1 x) := by
  unfold deliver
  try dsimp only
  repeat' split
  all_goals first | with_reducible exact h | (simp +contextual (maxDischargeDepth := 100) [*]; done) | exact h.of_eq (by with_reducible rfl) (by with_reducible rfl) (by with_reducible rfl) (by with_reducible rfl) | simp +contextual (maxDischargeDepth := 100) [*]

@[simp] theorem keeps_weaveTrip {s : State} (a0 : Channel) {x : State} (h : Keeps s x) :
    Keeps s (weaveTrip a0 x) := by
  unfold weaveTrip
  try dsimp only
  repeat' split
  all_goals first | with_reducible exact h | (simp +contextual (maxDischargeDepth := 100) [*]; done) | exact h.of_eq (by with_reducible rfl) (by with_reducible rfl) (by with_reducible rfl) (by with_reducible rfl) | simp +contextual (maxDischargeDepth := 100) [*]

@[simp] theorem keeps_weaveCompare {s : State} (a0 : Channel) (a1 : ℚ) {x : State} (h : Keeps s x) :
    Keeps s (weaveCompare a0 a1 x) := by
  unfold weaveCompare
  try dsimp only
  repeat' split
  all_goals first | with_reducible exact h | (simp +contextual (maxDischargeDepth := 100) [*]; done) | exact h.of_eq (by with_reducible rfl) (by with_reducible rfl) (by with_reducible rfl) (by with_reducible rfl) | simp +contextual (maxDischargeDepth := 100) [*]

@[simp] theorem keeps_countFrame {s : State} (a0 : Channel) {x : State} (h : Keeps s x) :
    Keeps s (countFrame a0 x) := by
  unfold countFrame
  try dsimp only
  repeat' split
  all_goals first | with_reducible exact h | (simp +contextual (maxDischargeDepth := 100) [*]; done) | exact h.of_eq (by with_reducible rfl) (by with_reducible rfl) (by with_reducible rfl) (by with_reducible rfl) | simp +contextual (maxDischargeDepth := 100) [*]

@[simp] theorem keeps_channelSample {s : State} (a0 : Channel) {x : State} (h : Keeps s x) :
    Keeps s (channelSample a0 x) := by
  unfold channelSample
  try dsimp only
  repeat' split
  all_goals first | with_reducible exact h | (simp +contextual (maxDischargeDepth := 100) [*]; done) | exact h.of_eq (by with_reducible rfl) (by with_reducible rfl) (by with_reducible rfl) (by with_reducible rfl) | simp +contextual (maxDischargeDepth := 100) [*]

@[simp] theorem keeps_channelFrame {s : State} (a0 : Weave) (a1 : ℕ) (a2 : Channel) {x : State} (h : Keeps s x) :
    Keeps s (channelFrame a0 a1 a2 x) := by
  unfold channelFrame
  try dsimp only
  repeat' split
  all_goals first | with_reducible exact h | (simp +contextual (maxDischargeDepth := 100) [*]; done) | exact h.of_eq (by with_reducible rfl) (by with_reducible rfl) (by with_reducible rfl) (by with_reducible rfl) | simp +contextual (maxDischargeDepth := 100) [*]

@[simp] theorem keeps_darnSample {s : State} (a0 : Island) {x : State} (h : Keeps s x) :
    Keeps s (darnSample a0 x) := by
  unfold darnSample
  try dsimp only
  repeat' split
  all_goals first | with_reducible exact h | (simp +contextual (maxDischargeDepth := 100) [*]; done) | exact h.of_eq (by with_reducible rfl) (by with_reducible rfl) (by with_reducible rfl) (by with_reducible rfl) | simp +contextual (maxDischargeDepth := 100) [*]

theorem keeps_execWeaveFrame {s : State}  {x : State} (h : Keeps s x) :
    OutKeeps s (execWeaveFrame x) := by
  unfold execWeaveFrame
  try dsimp only
  repeat' split
  all_goals first | with_reducible exact h | (simp +contextual (maxDischargeDepth := 100) [*]; done) | exact h.of_eq (by with_reducible rfl) (by with_reducible rfl) (by with_reducible rfl) (by with_reducible rfl) | simp +contextual (maxDischargeDepth := 100) [*]

@[simp] theorem keeps_modulatorFails {s : State} (a0 : Island) (a1 : Fin 9) {x : State} (h : Keeps s x) :
    Keeps s (modulatorFails a0 a1 x) := by
  unfold modulatorFails
  try dsimp only
  repeat' split
  all_goals first | with_reducible exact h | (simp +contextual (maxDischargeDepth := 100) [*]; done) | exact h.of_eq (by with_reducible rfl) (by with_reducible rfl) (by with_reducible rfl) (by with_reducible rfl) | simp +contextual (maxDischargeDepth := 100) [*]

@[simp] theorem keeps_frameTrips {s : State} (a0 : Island) (a1 : BitVec 40) {x : State} (h : Keeps s x) :
    Keeps s (frameTrips a0 a1 x) := by
  unfold frameTrips
  try dsimp only
  repeat' split
  all_goals first | with_reducible exact h | (simp +contextual (maxDischargeDepth := 100) [*]; done) | exact h.of_eq (by with_reducible rfl) (by with_reducible rfl) (by with_reducible rfl) (by with_reducible rfl) | simp +contextual (maxDischargeDepth := 100) [*]

@[simp] theorem keeps_fastCompare {s : State} (a0 : Channel) (a1 : ℤ) {x : State} (h : Keeps s x) :
    Keeps s (fastCompare a0 a1 x) := by
  unfold fastCompare
  try dsimp only
  repeat' split
  all_goals first | with_reducible exact h | (simp +contextual (maxDischargeDepth := 100) [*]; done) | exact h.of_eq (by with_reducible rfl) (by with_reducible rfl) (by with_reducible rfl) (by with_reducible rfl) | simp +contextual (maxDischargeDepth := 100) [*]

@[simp] theorem keeps_fastPaths {s : State} (a0 : Island) (a1 : BitVec 9) {x : State} (h : Keeps s x) :
    Keeps s (fastPaths a0 a1 x) := by
  unfold fastPaths
  refine keeps_forEach _ (fun m y hy => ?_) (keeps_modIsl _ _ h)
  dsimp only
  split
  · exact keeps_fastCompare _ _ hy
  · exact hy

@[simp] theorem keeps_overload {s : State} (a0 : Island) (a1 : Fin 9) {x : State} (h : Keeps s x) :
    Keeps s (overload a0 a1 x) := by
  unfold overload
  try dsimp only
  repeat' split
  all_goals first | with_reducible exact h | (simp +contextual (maxDischargeDepth := 100) [*]; done) | exact h.of_eq (by with_reducible rfl) (by with_reducible rfl) (by with_reducible rfl) (by with_reducible rfl) | simp +contextual (maxDischargeDepth := 100) [*]

@[simp] theorem keeps_feedIsland {s : State} (a0 : Island) (a1 : ℕ → ℤ) {x : State} (h : Keeps s x) :
    Keeps s (feedIsland a0 a1 x) := by
  unfold feedIsland
  try dsimp only
  repeat' split
  all_goals first | with_reducible exact h | (simp +contextual (maxDischargeDepth := 100) [*]; done) | exact h.of_eq (by with_reducible rfl) (by with_reducible rfl) (by with_reducible rfl) (by with_reducible rfl) | simp +contextual (maxDischargeDepth := 100) [*]

@[simp] theorem keeps_takeFrame {s : State} (a0 : Island) (a1 : BitVec 40) (a2 : BitVec 9) {x : State} (h : Keeps s x) :
    Keeps s (takeFrame a0 a1 a2 x) := by
  unfold takeFrame
  try dsimp only
  repeat' split
  all_goals first | with_reducible exact h | (simp +contextual (maxDischargeDepth := 100) [*]; done) | exact h.of_eq (by with_reducible rfl) (by with_reducible rfl) (by with_reducible rfl) (by with_reducible rfl) | simp +contextual (maxDischargeDepth := 100) [*]

@[simp] theorem keeps_loseLink {s : State} (a0 : Island) {x : State} (h : Keeps s x) :
    Keeps s (loseLink a0 x) := by
  unfold loseLink
  try dsimp only
  repeat' split
  all_goals first | with_reducible exact h | (simp +contextual (maxDischargeDepth := 100) [*]; done) | exact h.of_eq (by with_reducible rfl) (by with_reducible rfl) (by with_reducible rfl) (by with_reducible rfl) | simp +contextual (maxDischargeDepth := 100) [*]

@[simp] theorem keeps_missFrame {s : State} (a0 : Island) (a1 : BitVec 40) {x : State} (h : Keeps s x) :
    Keeps s (missFrame a0 a1 x) := by
  unfold missFrame
  try dsimp only
  repeat' split
  all_goals first | with_reducible exact h | (simp +contextual (maxDischargeDepth := 100) [*]; done) | exact h.of_eq (by with_reducible rfl) (by with_reducible rfl) (by with_reducible rfl) (by with_reducible rfl) | simp +contextual (maxDischargeDepth := 100) [*]

theorem keeps_execIslandFrame {s : State} (a0 : Island) (a1 : BitVec 40) (a2 : BitVec 9) {x : State} (h : Keeps s x) :
    OutKeeps s (execIslandFrame a0 a1 a2 x) := by
  unfold execIslandFrame
  try dsimp only
  repeat' split
  all_goals first | with_reducible exact h | (simp +contextual (maxDischargeDepth := 100) [*]; done) | exact h.of_eq (by with_reducible rfl) (by with_reducible rfl) (by with_reducible rfl) (by with_reducible rfl) | simp +contextual (maxDischargeDepth := 100) [*]

theorem keeps_execIslandLinkLoss {s : State} (a0 : Island) {x : State} (h : Keeps s x) :
    OutKeeps s (execIslandLinkLoss a0 x) := by
  unfold execIslandLinkLoss
  try dsimp only
  repeat' split
  all_goals first | with_reducible exact h | (simp +contextual (maxDischargeDepth := 100) [*]; done) | exact h.of_eq (by with_reducible rfl) (by with_reducible rfl) (by with_reducible rfl) (by with_reducible rfl) | simp +contextual (maxDischargeDepth := 100) [*]

theorem keeps_execIslandRestartRetry {s : State} (a0 : Island) {x : State} (h : Keeps s x) :
    OutKeeps s (execIslandRestartRetry a0 x) := by
  unfold execIslandRestartRetry
  first
    | (simp +contextual (maxDischargeDepth := 100) [*]; done)
    | (refine (outKeeps_next _ _).2 (keeps_ifDo _ (fun hy => ?_) h)
       try dsimp only
       repeat' split
       all_goals simp +contextual (maxDischargeDepth := 100) [*])

theorem keeps_execIslandLinkResync {s : State} (a0 : Island) {x : State} (h : Keeps s x) :
    OutKeeps s (execIslandLinkResync a0 x) := by
  unfold execIslandLinkResync
  first
    | (simp +contextual (maxDischargeDepth := 100) [*]; done)
    | (refine (outKeeps_next _ _).2 (keeps_ifDo _ (fun hy => ?_) h)
       try dsimp only
       repeat' split
       all_goals simp +contextual (maxDischargeDepth := 100) [*])

@[simp] theorem keeps_dropSync {s : State}  {x : State} (h : Keeps s x) :
    Keeps s (dropSync x) := by
  unfold dropSync
  try dsimp only
  repeat' split
  all_goals first | with_reducible exact h | (simp +contextual (maxDischargeDepth := 100) [*]; done) | exact h.of_eq (by with_reducible rfl) (by with_reducible rfl) (by with_reducible rfl) (by with_reducible rfl) | simp +contextual (maxDischargeDepth := 100) [*]

theorem keeps_execFltFault {s : State}  {x : State} (h : Keeps s x) :
    OutKeeps s (execFltFault x) := by
  unfold execFltFault
  try dsimp only
  repeat' split
  all_goals first | with_reducible exact h | (simp +contextual (maxDischargeDepth := 100) [*]; done) | exact h.of_eq (by with_reducible rfl) (by with_reducible rfl) (by with_reducible rfl) (by with_reducible rfl) | simp +contextual (maxDischargeDepth := 100) [*]

theorem keeps_execCalibrationDue {s : State} (a0 : Island) (a1 : Fin 8) {x : State} (h : Keeps s x) :
    OutKeeps s (execCalibrationDue a0 a1 x) := by
  unfold execCalibrationDue
  first
    | (simp +contextual (maxDischargeDepth := 100) [*]; done)
    | (refine (outKeeps_next _ _).2 (keeps_ifDo _ (fun hy => ?_) h)
       try dsimp only
       repeat' split
       all_goals simp +contextual (maxDischargeDepth := 100) [*])

theorem keeps_execDarningCompare {s : State} (a0 : Island) {x : State} (h : Keeps s x) :
    OutKeeps s (execDarningCompare a0 x) := by
  unfold execDarningCompare
  try dsimp only
  repeat' split
  all_goals first | with_reducible exact h | (simp +contextual (maxDischargeDepth := 100) [*]; done) | exact h.of_eq (by with_reducible rfl) (by with_reducible rfl) (by with_reducible rfl) (by with_reducible rfl) | simp +contextual (maxDischargeDepth := 100) [*]

theorem keeps_execDarningReferenceDone {s : State} (a0 : Island) (a1 : ℤ) (a2 : ℤ) {x : State} (h : Keeps s x) :
    OutKeeps s (execDarningReferenceDone a0 a1 a2 x) := by
  unfold execDarningReferenceDone
  try dsimp only
  repeat' split
  all_goals first | with_reducible exact h | (simp +contextual (maxDischargeDepth := 100) [*]; done) | exact h.of_eq (by with_reducible rfl) (by with_reducible rfl) (by with_reducible rfl) (by with_reducible rfl) | simp +contextual (maxDischargeDepth := 100) [*]

@[simp] theorem keeps_calibrated {s : State} (a0 : Island) (a1 : Fin 9) {x : State} (h : Keeps s x) :
    Keeps s (calibrated a0 a1 x) := by
  unfold calibrated
  try dsimp only
  repeat' split
  all_goals first | with_reducible exact h | (simp +contextual (maxDischargeDepth := 100) [*]; done) | exact h.of_eq (by with_reducible rfl) (by with_reducible rfl) (by with_reducible rfl) (by with_reducible rfl) | simp +contextual (maxDischargeDepth := 100) [*]

theorem keeps_execDarningRelease {s : State} (a0 : Island) {x : State} (h : Keeps s x) :
    OutKeeps s (execDarningRelease a0 x) := by
  unfold execDarningRelease
  try dsimp only
  repeat' split
  all_goals first | with_reducible exact h | (simp +contextual (maxDischargeDepth := 100) [*]; done) | exact h.of_eq (by with_reducible rfl) (by with_reducible rfl) (by with_reducible rfl) (by with_reducible rfl) | simp +contextual (maxDischargeDepth := 100) [*]

theorem keeps_execM8SelfCalibration {s : State} (a0 : Island) (a1 : ℤ) (a2 : ℤ) (a3 : Bool) {x : State} (h : Keeps s x) :
    OutKeeps s (execM8SelfCalibration a0 a1 a2 a3 x) := by
  unfold execM8SelfCalibration
  first
    | (simp +contextual (maxDischargeDepth := 100) [*]; done)
    | (refine (outKeeps_next _ _).2 (keeps_ifDo _ (fun hy => ?_) h)
       try dsimp only
       repeat' split
       all_goals simp +contextual (maxDischargeDepth := 100) [*])

@[simp] theorem keeps_pairTestOutcome {s : State} (a0 : Island) (a1 : PairTest) (a2 : Bool) {x : State} (h : Keeps s x) :
    Keeps s (pairTestOutcome a0 a1 a2 x) := by
  unfold pairTestOutcome
  try dsimp only
  repeat' split
  all_goals first | with_reducible exact h | (simp +contextual (maxDischargeDepth := 100) [*]; done) | exact h.of_eq (by with_reducible rfl) (by with_reducible rfl) (by with_reducible rfl) (by with_reducible rfl) | simp +contextual (maxDischargeDepth := 100) [*]

theorem keeps_execComparatorSelftest {s : State} (a0 : Island) (a1 : SelfTestStep) {x : State} (h : Keeps s x) :
    OutKeeps s (execComparatorSelftest a0 a1 x) := by
  unfold execComparatorSelftest
  try dsimp only
  repeat' split
  all_goals first | with_reducible exact h | (simp +contextual (maxDischargeDepth := 100) [*]; done) | exact h.of_eq (by with_reducible rfl) (by with_reducible rfl) (by with_reducible rfl) (by with_reducible rfl) | simp +contextual (maxDischargeDepth := 100) [*]

theorem keeps_execWeaveThresholdTrip {s : State} (a0 : Channel) {x : State} (h : Keeps s x) :
    OutKeeps s (execWeaveThresholdTrip a0 x) := by
  unfold execWeaveThresholdTrip
  first
    | (simp +contextual (maxDischargeDepth := 100) [*]; done)
    | (refine (outKeeps_next _ _).2 (keeps_ifDo _ (fun hy => ?_) h)
       try dsimp only
       repeat' split
       all_goals simp +contextual (maxDischargeDepth := 100) [*])

theorem keeps_execComparatorTrip {s : State} (a0 : Channel) (a1 : Bool) {x : State} (h : Keeps s x) :
    OutKeeps s (execComparatorTrip a0 a1 x) := by
  unfold execComparatorTrip
  try dsimp only
  repeat' split
  all_goals first | with_reducible exact h | (simp +contextual (maxDischargeDepth := 100) [*]; done) | exact h.of_eq (by with_reducible rfl) (by with_reducible rfl) (by with_reducible rfl) (by with_reducible rfl) | simp +contextual (maxDischargeDepth := 100) [*]

theorem keeps_execSyncInEdge {s : State} (a0 : ℕ) {x : State} (h : Keeps s x) :
    OutKeeps s (execSyncInEdge a0 x) := by
  unfold execSyncInEdge
  first
    | (simp +contextual (maxDischargeDepth := 100) [*]; done)
    | (refine (outKeeps_next _ _).2 (keeps_ifDo _ (fun hy => ?_) h)
       try dsimp only
       repeat' split
       all_goals simp +contextual (maxDischargeDepth := 100) [*])

theorem keeps_execSyncTrigger {s : State} (a0 : Mailbox) {x : State} (h : Keeps s x) :
    OutKeeps s (execSyncTrigger a0 x) := by
  unfold execSyncTrigger
  first
    | (simp +contextual (maxDischargeDepth := 100) [*]; done)
    | (refine (outKeeps_next _ _).2 (keeps_runCommand _ _ (fun b y hy => ?_) h)
       try dsimp only
       try refine replyKeeps_guards _ _ hy ?_
       repeat' split
       all_goals simp +contextual (maxDischargeDepth := 100) [*])

theorem keeps_execSynchronisationInstant {s : State} (a0 : Word32) {x : State} (h : Keeps s x) :
    OutKeeps s (execSynchronisationInstant a0 x) := by
  unfold execSynchronisationInstant
  first
    | (simp +contextual (maxDischargeDepth := 100) [*]; done)
    | (refine (outKeeps_next _ _).2 (keeps_ifDo _ (fun hy => ?_) h)
       try dsimp only
       repeat' split
       all_goals simp +contextual (maxDischargeDepth := 100) [*])

theorem keeps_execMainsCycleEnd {s : State} (a0 : ℕ) (a1 : ℕ) (a2 : ℕ) {x : State} (h : Keeps s x) :
    OutKeeps s (execMainsCycleEnd a0 a1 a2 x) := by
  unfold execMainsCycleEnd
  try dsimp only
  repeat' split
  all_goals first | with_reducible exact h | (simp +contextual (maxDischargeDepth := 100) [*]; done) | exact h.of_eq (by with_reducible rfl) (by with_reducible rfl) (by with_reducible rfl) (by with_reducible rfl) | simp +contextual (maxDischargeDepth := 100) [*]

theorem keeps_execModulatorFailed {s : State} (a0 : Island) (a1 : Fin 9) {x : State} (h : Keeps s x) :
    OutKeeps s (execModulatorFailed a0 a1 x) := by
  unfold execModulatorFailed
  try dsimp only
  repeat' split
  all_goals first | with_reducible exact h | (simp +contextual (maxDischargeDepth := 100) [*]; done) | exact h.of_eq (by with_reducible rfl) (by with_reducible rfl) (by with_reducible rfl) (by with_reducible rfl) | simp +contextual (maxDischargeDepth := 100) [*]

theorem keeps_execOpenInputTest {s : State} (a0 : Channel) (a1 : Bool) {x : State} (h : Keeps s x) :
    OutKeeps s (execOpenInputTest a0 a1 x) := by
  unfold execOpenInputTest
  try dsimp only
  repeat' split
  all_goals first | with_reducible exact h | (simp +contextual (maxDischargeDepth := 100) [*]; done) | exact h.of_eq (by with_reducible rfl) (by with_reducible rfl) (by with_reducible rfl) (by with_reducible rfl) | simp +contextual (maxDischargeDepth := 100) [*]

theorem keeps_execChannelReadmit {s : State} (a0 : Channel) {x : State} (h : Keeps s x) :
    OutKeeps s (execChannelReadmit a0 x) := by
  unfold execChannelReadmit
  try dsimp only
  repeat' split
  all_goals first | with_reducible exact h | (simp +contextual (maxDischargeDepth := 100) [*]; done) | exact h.of_eq (by with_reducible rfl) (by with_reducible rfl) (by with_reducible rfl) (by with_reducible rfl) | simp +contextual (maxDischargeDepth := 100) [*]

theorem keeps_execChannelStatusGet {s : State} (a0 : Mailbox) {x : State} (h : Keeps s x) :
    OutKeeps s (execChannelStatusGet a0 x) := by
  unfold execChannelStatusGet
  first
    | (simp +contextual (maxDischargeDepth := 100) [*]; done)
    | (refine (outKeeps_next _ _).2 (keeps_runCommand _ _ (fun b y hy => ?_) h)
       try dsimp only
       try refine replyKeeps_guards _ _ hy ?_
       repeat' split
       all_goals simp +contextual (maxDischargeDepth := 100) [*])

theorem keeps_execChannelSatClear {s : State} (a0 : Mailbox) {x : State} (h : Keeps s x) :
    OutKeeps s (execChannelSatClear a0 x) := by
  unfold execChannelSatClear
  first
    | (simp +contextual (maxDischargeDepth := 100) [*]; done)
    | (refine (outKeeps_next _ _).2 (keeps_runCommand _ _ (fun b y hy => ?_) h)
       try dsimp only
       try refine replyKeeps_guards _ _ hy ?_
       repeat' split
       all_goals simp +contextual (maxDischargeDepth := 100) [*])

theorem keeps_execSamplesRead {s : State} (a0 : Mailbox) {x : State} (h : Keeps s x) :
    OutKeeps s (execSamplesRead a0 x) := by
  unfold execSamplesRead
  first
    | (simp +contextual (maxDischargeDepth := 100) [*]; done)
    | (refine (outKeeps_next _ _).2 (keeps_runCommand _ _ (fun b y hy => ?_) h)
       try dsimp only
       try refine replyKeeps_guards _ _ hy ?_
       repeat' split
       all_goals simp +contextual (maxDischargeDepth := 100) [*])

theorem keeps_execCalibrationStatusGet {s : State} (a0 : Mailbox) {x : State} (h : Keeps s x) :
    OutKeeps s (execCalibrationStatusGet a0 x) := by
  unfold execCalibrationStatusGet
  first
    | (simp +contextual (maxDischargeDepth := 100) [*]; done)
    | (refine (outKeeps_next _ _).2 (keeps_runCommand _ _ (fun b y hy => ?_) h)
       try dsimp only
       try refine replyKeeps_guards _ _ hy ?_
       repeat' split
       all_goals simp +contextual (maxDischargeDepth := 100) [*])

end Sys2Proof.Machine
end

