-- ==== Sys2Proof/Laws/KeepsEgress.lean ====
section
/-! SUPPORT. The operations of Machine/Egress.lean keep what `Keeps` says. -/

set_option linter.unusedVariables false
set_option linter.unusedSimpArgs false
set_option linter.unusedTactic false
set_option linter.unreachableTactic false

namespace Sys2Proof.Machine

@[simp] theorem keeps_modNet {s : State} (a0 : Net → Net) {x : State} (h : Keeps s x) :
    Keeps s (modNet a0 x) := by
  unfold modNet
  try dsimp only
  repeat' split
  all_goals first | with_reducible exact h | (simp +contextual (maxDischargeDepth := 100) [*]; done) | exact h.of_eq (by with_reducible rfl) (by with_reducible rfl) (by with_reducible rfl) (by with_reducible rfl) | simp +contextual (maxDischargeDepth := 100) [*]

@[simp] theorem keeps_modPort {s : State} (a0 : Fin 8) (a1 : Port → Port) {x : State} (h : Keeps s x) :
    Keeps s (modPort a0 a1 x) := by
  unfold modPort
  try dsimp only
  repeat' split
  all_goals first | with_reducible exact h | (simp +contextual (maxDischargeDepth := 100) [*]; done) | exact h.of_eq (by with_reducible rfl) (by with_reducible rfl) (by with_reducible rfl) (by with_reducible rfl) | simp +contextual (maxDischargeDepth := 100) [*]

@[simp] theorem keeps_portNext {s : State} (a0 : Fin 8) {x : State} (h : Keeps s x) :
    Keeps s (portNext a0 x) := by
  unfold portNext
  try dsimp only
  repeat' split
  all_goals first | with_reducible exact h | (simp +contextual (maxDischargeDepth := 100) [*]; done) | exact h.of_eq (by with_reducible rfl) (by with_reducible rfl) (by with_reducible rfl) (by with_reducible rfl) | simp +contextual (maxDischargeDepth := 100) [*]

@[simp] theorem keeps_enqueue {s : State} (a0 : Fin 8) (a1 : Egress) (a2 : Bytes) {x : State} (h : Keeps s x) :
    Keeps s (enqueue a0 a1 a2 x) := by
  unfold enqueue
  try dsimp only
  repeat' split
  all_goals first | with_reducible exact h | (simp +contextual (maxDischargeDepth := 100) [*]; done) | exact h.of_eq (by with_reducible rfl) (by with_reducible rfl) (by with_reducible rfl) (by with_reducible rfl) | simp +contextual (maxDischargeDepth := 100) [*]

@[simp] theorem keeps_dropTelemetry {s : State}  {x : State} (h : Keeps s x) :
    Keeps s (dropTelemetry x) := by
  unfold dropTelemetry
  try dsimp only
  repeat' split
  all_goals first | with_reducible exact h | (simp +contextual (maxDischargeDepth := 100) [*]; done) | exact h.of_eq (by with_reducible rfl) (by with_reducible rfl) (by with_reducible rfl) (by with_reducible rfl) | simp +contextual (maxDischargeDepth := 100) [*]

@[simp] theorem keeps_makeRoom {s : State} (a0 : ℕ) (a1 : ℕ) {x : State} (h : Keeps s x) :
    Keeps s (makeRoom a0 a1 x) := by
  induction a1 generalizing x with
  | zero => exact h
  | succ n ih =>
    unfold makeRoom
    split
    · exact h
    · exact ih (keeps_dropTelemetry h)

theorem keeps_execTelemetryEnqueue {s : State} (a0 : Fin 8) (a1 : Bytes) {x : State} (h : Keeps s x) :
    OutKeeps s (execTelemetryEnqueue a0 a1 x) := by
  unfold execTelemetryEnqueue
  try dsimp only
  repeat' split
  all_goals first | with_reducible exact h | (simp +contextual (maxDischargeDepth := 100) [*]; done) | exact h.of_eq (by with_reducible rfl) (by with_reducible rfl) (by with_reducible rfl) (by with_reducible rfl) | simp +contextual (maxDischargeDepth := 100) [*]

theorem keeps_execEgressFrameDone {s : State} (a0 : Fin 8) {x : State} (h : Keeps s x) :
    OutKeeps s (execEgressFrameDone a0 x) := by
  unfold execEgressFrameDone
  try dsimp only
  repeat' split
  all_goals first | with_reducible exact h | (simp +contextual (maxDischargeDepth := 100) [*]; done) | exact h.of_eq (by with_reducible rfl) (by with_reducible rfl) (by with_reducible rfl) (by with_reducible rfl) | simp +contextual (maxDischargeDepth := 100) [*]

@[simp] theorem keeps_startPorts {s : State}  {x : State} (h : Keeps s x) :
    Keeps s (startPorts x) := by
  unfold startPorts
  try dsimp only
  repeat' split
  all_goals first | with_reducible exact h | (simp +contextual (maxDischargeDepth := 100) [*]; done) | exact h.of_eq (by with_reducible rfl) (by with_reducible rfl) (by with_reducible rfl) (by with_reducible rfl) | simp +contextual (maxDischargeDepth := 100) [*]

end Sys2Proof.Machine
end

