-- ==== Sys2Proof/Laws/KeepsHostOps.lean ====
section
/-! SUPPORT. The operations of Machine/HostOps.lean keep what `Keeps` says. -/

set_option linter.unusedVariables false
set_option linter.unusedSimpArgs false
set_option linter.unusedTactic false
set_option linter.unreachableTactic false

namespace Sys2Proof.Machine

@[simp] theorem keeps_modHif {s : State} (a0 : Hif → Hif) {x : State} (h : Keeps s x) :
    Keeps s (modHif a0 x) := by
  unfold modHif
  try dsimp only
  repeat' split
  all_goals first | with_reducible exact h | (simp +contextual (maxDischargeDepth := 100) [*]; done) | exact h.of_eq (by with_reducible rfl) (by with_reducible rfl) (by with_reducible rfl) (by with_reducible rfl) | simp +contextual (maxDischargeDepth := 100) [*]

@[simp] theorem keeps_writeIgnored {s : State}  {x : State} (h : Keeps s x) :
    Keeps s (writeIgnored x) := by
  unfold writeIgnored
  try dsimp only
  repeat' split
  all_goals first | with_reducible exact h | (simp +contextual (maxDischargeDepth := 100) [*]; done) | exact h.of_eq (by with_reducible rfl) (by with_reducible rfl) (by with_reducible rfl) (by with_reducible rfl) | simp +contextual (maxDischargeDepth := 100) [*]

@[simp] theorem keeps_clearStatus {s : State} (a0 : Word32) {x : State} (h : Keeps s x) :
    Keeps s (clearStatus a0 x) := by
  unfold clearStatus
  try dsimp only
  repeat' split
  all_goals first | with_reducible exact h | (simp +contextual (maxDischargeDepth := 100) [*]; done) | exact h.of_eq (by with_reducible rfl) (by with_reducible rfl) (by with_reducible rfl) (by with_reducible rfl) | simp +contextual (maxDischargeDepth := 100) [*]

@[simp] theorem keeps_presentReports {s : State}  {x : State} (h : Keeps s x) :
    Keeps s (presentReports x) := by
  unfold presentReports
  split
  · exact h
  · refine keeps_forEach _ (fun p y hy => keeps_placeEvent _ _ hy) ?_
    exact keeps_mbx (keeps_modHif _ h) _ (mailOk_kept _ (by simp))

theorem keeps_modBox {s x : State} (mb : Mailbox) (f : CmdBox → CmdBox) (hr : ∀ b, (f b).rlen = b.rlen)
    (hk : ∀ b, (f b).kept = b.kept) (h : Keeps s x) : Keeps s (modBox mb f x) :=
  keeps_mbx h _ fun k => mailOk_box mb _ k rfl rfl rfl rfl k.canonical k.inWindows (by rw [hr]; exact k.response mb)
    (fun z hz => k.keptResponse mb z (by rw [hk] at hz; exact hz))

@[simp] theorem keeps_presentRepeat {s : State} (a0 : Mailbox) {x : State} (h : Keeps s x) :
    Keeps s (presentRepeat a0 x) := by
  unfold presentRepeat
  split
  · rename_i k hk
    split
    · exact keeps_presentKept a0 k hk (keeps_mbx h _ (mailOk_order _))
    · exact h
  · exact h

@[simp] theorem keeps_ringBox {s : State} (a0 : Mailbox) {x : State} (h : Keeps s x) :
    Keeps s (ringBox a0 x) := by
  unfold ringBox
  split
  · exact keeps_presentRepeat _ (keeps_mbx (x := modBox a0 (fun b => { b with state := .pending }) (presentReports x))
      (keeps_modBox _ _ (fun _ => rfl) (fun _ => rfl) (keeps_presentReports h)) _ (mailOk_order _))
  · exact keeps_setStatus _ h

@[simp] theorem keeps_releaseBox {s : State} (a0 : Mailbox) {x : State} (h : Keeps s x) :
    Keeps s (releaseBox a0 x) := by
  unfold releaseBox
  split
  · exact keeps_modBox _ _ (fun _ => rfl) (fun _ => rfl) h
  · exact keeps_setStatus _ h

theorem mailOk_refill {m : Mbx} {e : QEvent} {rest : List QEvent} {i : Mailbox} (hq : m.queue = e :: rest)
    (hn : ∀ j : Mailbox, j ≠ i → rest ≠ [] → m.evt[j].full = true) (h1 : Memory.wf m.win = true)
    (h2 : ∀ c ∈ m.win, 0x1000 ≤ c.1 ∧ c.1 < 0x3000) (h3 : m.queue.length ≤ 128) (h5 : m.kept.length ≤ 2)
    (h6 : ∀ mb : Mailbox, m.cmd[mb].rlen.toNat ≤ 512)
    (h7 : ∀ (mb : Mailbox) (k : Kept), m.cmd[mb].kept = some k → k.resp.length ≤ 512) :
    MailOk (fillEvt i e { m with queue := rest }) := by
  refine ⟨wf_writeWindow _ _ h1, inWindows_writeWindow (evtWindow_bounds i).1 (evtWindow_bounds i).2 h2, ?_, ?_, h5, h6, h7⟩
  · rw [hq] at h3; simp at h3; show rest.length ≤ 128; omega
  · intro hr j
    by_cases hij : i = j
    · subst hij; simp [fillEvt, putWindow]
    · have : (i : Nat) ≠ j := fun h => hij (Fin.ext h)
      simpa [fillEvt, putWindow, Vector.getElem_set, this] using hn j (Ne.symm hij) hr

/-- An event mailbox emptied and the oldest queued event put into it. -/
theorem mailOk_ack {m : Mbx} (mb : Mailbox) (hf : m.evt[mb].full = true) (h : MailOk m) (s : State) :
    MailOk (refill { s with mbx := { m with evt := vmod m.evt mb (fun e => { e with full := false }) } }).mbx := by
  have other : ∀ j : Mailbox, j ≠ mb → m.queue ≠ [] → (vmod m.evt mb (fun e => { e with full := false }))[j].full = true := by
    intro j hj hq
    have : (mb : Nat) ≠ j := fun h => hj (Fin.ext h.symm)
    simpa [vmod, Vector.getElem_set, this] using h.inOrder hq j
  have here : (vmod m.evt mb (fun e => { e with full := false }))[mb].full = false := by simp [vmod]
  unfold refill
  dsimp only
  split
  · rename_i e rest i hq hi
    have hi' : (vmod m.evt mb (fun e => { e with full := false }))[i].full = false := by
      have := List.find?_some hi; simpa using this
    have hmb : i = mb := by
      by_contra hne
      have := other i hne (by rw [hq]; simp)
      rw [this] at hi'; cases hi'
    subst hmb
    exact mailOk_refill (m := { m with evt := vmod m.evt i (fun e => { e with full := false }) }) hq
      (fun j hj _ => other j hj (by rw [hq]; simp)) h.1 h.2 h.3 h.5 h.6 h.7
  · rename_i hne
    refine ⟨h.1, h.2, h.3, fun hq => ?_, h.5, h.6, h.7⟩
    exfalso
    dsimp only at hq
    cases hm : m.queue with
    | nil => exact hq hm
    | cons e rest =>
      cases hi : emptyEvt { m with evt := vmod m.evt mb (fun e => { e with full := false }) } with
      | some i => exact hne e rest i hm hi
      | none => have := emptyEvt_none.1 hi mb; dsimp only at this; rw [here] at this; cases this

@[simp] theorem keeps_ackBox {s : State} (a0 : Mailbox) {x : State} (h : Keeps s x) :
    Keeps s (ackBox a0 x) := by
  unfold ackBox
  split
  · rename_i hf
    have hr := fun k => mailOk_ack a0 hf k x
    revert hr
    unfold refill
    dsimp only
    split
    · exact fun hr => keeps_mbx h _ hr
    · exact fun hr => keeps_mbx h _ hr
  · exact keeps_setStatus _ h

@[simp] theorem keeps_plainWrite {s : State} (a0 : ℕ) (a1 : Word32) {x : State} (h : Keeps s x) :
    Keeps s (plainWrite a0 a1 x) := by
  unfold plainWrite
  dsimp only
  repeat' split
  all_goals first
    | exact h
    | (refine keeps_modBox _ _ (fun b => ?_) (fun b => ?_) h <;> rfl)
    | (simp (maxDischargeDepth := 100) [*]; done)
    | skip
  rename_i hw _
  refine keeps_mbx h _ fun k => ⟨Memory.wf_writeBytes _ _ k.canonical, fun c hc => ?_, k.3, k.4, k.5, k.6, k.7⟩
  rcases Memory.mem_writeBytes _ hc with m | m
  · simp [inCmdWindows, leBytes] at hw m; omega
  · exact k.inWindows c m

@[simp] theorem keeps_drive {s : State} (a0 : List Sent) {x : State} (h : Keeps s x) :
    Keeps s (drive a0 x) := by
  unfold drive
  try dsimp only
  repeat' split
  all_goals first | with_reducible exact h | (simp +contextual (maxDischargeDepth := 100) [*]; done) | exact h.of_eq (by with_reducible rfl) (by with_reducible rfl) (by with_reducible rfl) (by with_reducible rfl) | simp +contextual (maxDischargeDepth := 100) [*]

@[simp] theorem keeps_transaction {s x : State} (op : Byte) {f : State → State} (hf : ∀ y, Keeps s y → Keeps s (f y))
    (h : Keeps s x) : Keeps s (transaction op f x) := by
  unfold transaction
  repeat' split
  · exact keeps_drive _ h
  · exact hf _ (keeps_drive _ h)
  · exact keeps_drive _ (keeps_ifDo _ (fun k => keeps_setStatus _ k) h)

@[simp] theorem keeps_buffer {s : State} (a0 : ℕ) {x : State} (h : Keeps s x) :
    Keeps s (buffer a0 x) := by
  unfold buffer
  try dsimp only
  repeat' split
  all_goals first | with_reducible exact h | (simp +contextual (maxDischargeDepth := 100) [*]; done) | exact h.of_eq (by with_reducible rfl) (by with_reducible rfl) (by with_reducible rfl) (by with_reducible rfl) | simp +contextual (maxDischargeDepth := 100) [*]

@[simp] theorem keeps_presentRepeats {s : State}  {x : State} (h : Keeps s x) :
    Keeps s (presentRepeats x) := by
  exact keeps_forEach _ (fun mb y hy => keeps_presentRepeat mb hy) h

@[simp] theorem keeps_markBad {s : State} (a0 : ℕ) {x : State} (h : Keeps s x) :
    Keeps s (markBad a0 x) := by
  exact keeps_mbx h _ (mailOk_badWords _)

end Sys2Proof.Machine
end

