-- ==== Sys2Proof/Laws/KeepsNetOps.lean ====
section
/-! SUPPORT. The operations of Machine/NetOps.lean keep what `Keeps` says. -/

set_option linter.unusedVariables false
set_option linter.unusedSimpArgs false
set_option linter.unusedTactic false
set_option linter.unreachableTactic false

namespace Sys2Proof.Machine

@[simp] theorem keeps_modStr {s : State} (a0 : Fin 4) (a1 : Str → Str) {x : State} (h : Keeps s x) :
    Keeps s (modStr a0 a1 x) := by
  unfold modStr
  try dsimp only
  repeat' split
  all_goals first | with_reducible exact h | (simp +contextual (maxDischargeDepth := 100) [*]; done) | exact h.of_eq (by with_reducible rfl) (by with_reducible rfl) (by with_reducible rfl) (by with_reducible rfl) | simp +contextual (maxDischargeDepth := 100) [*]

@[simp] theorem keeps_modSun {s : State} (a0 : Fin 8) (a1 : SunDev → SunDev) {x : State} (h : Keeps s x) :
    Keeps s (modSun a0 a1 x) := by
  unfold modSun
  try dsimp only
  repeat' split
  all_goals first | with_reducible exact h | (simp +contextual (maxDischargeDepth := 100) [*]; done) | exact h.of_eq (by with_reducible rfl) (by with_reducible rfl) (by with_reducible rfl) (by with_reducible rfl) | simp +contextual (maxDischargeDepth := 100) [*]

@[simp] theorem keeps_modPm {s : State} (a0 : Fin 4) (a1 : Fin 32) (a2 : Module → Module) {x : State} (h : Keeps s x) :
    Keeps s (modPm a0 a1 a2 x) := by
  unfold modPm
  try dsimp only
  repeat' split
  all_goals first | with_reducible exact h | (simp +contextual (maxDischargeDepth := 100) [*]; done) | exact h.of_eq (by with_reducible rfl) (by with_reducible rfl) (by with_reducible rfl) (by with_reducible rfl) | simp +contextual (maxDischargeDepth := 100) [*]

@[simp] theorem keeps_modPair {s : State} (a0 : Pair → Pair) {x : State} (h : Keeps s x) :
    Keeps s (modPair a0 x) := by
  unfold modPair
  try dsimp only
  repeat' split
  all_goals first | with_reducible exact h | (simp +contextual (maxDischargeDepth := 100) [*]; done) | exact h.of_eq (by with_reducible rfl) (by with_reducible rfl) (by with_reducible rfl) (by with_reducible rfl) | simp +contextual (maxDischargeDepth := 100) [*]

@[simp] theorem keeps_linkEvent {s : State} (a0 : Fin 8) {x : State} (h : Keeps s x) :
    Keeps s (linkEvent a0 x) := by
  unfold linkEvent
  try dsimp only
  repeat' split
  all_goals first | with_reducible exact h | (simp +contextual (maxDischargeDepth := 100) [*]; done) | exact h.of_eq (by with_reducible rfl) (by with_reducible rfl) (by with_reducible rfl) (by with_reducible rfl) | simp +contextual (maxDischargeDepth := 100) [*]

@[simp] theorem keeps_setLink {s : State} (a0 : Fin 8) (a1 : Bool) (a2 : ℕ) {x : State} (h : Keeps s x) :
    Keeps s (setLink a0 a1 a2 x) := by
  unfold setLink
  try dsimp only
  repeat' split
  all_goals first | with_reducible exact h | (simp +contextual (maxDischargeDepth := 100) [*]; done) | exact h.of_eq (by with_reducible rfl) (by with_reducible rfl) (by with_reducible rfl) (by with_reducible rfl) | simp +contextual (maxDischargeDepth := 100) [*]

@[simp] theorem keeps_syncKnown {s : State} (a0 : Fin 4) {x : State} (h : Keeps s x) :
    Keeps s (syncKnown a0 x) := by
  unfold syncKnown
  try dsimp only
  repeat' split
  all_goals first | with_reducible exact h | (simp +contextual (maxDischargeDepth := 100) [*]; done) | exact h.of_eq (by with_reducible rfl) (by with_reducible rfl) (by with_reducible rfl) (by with_reducible rfl) | simp +contextual (maxDischargeDepth := 100) [*]

@[simp] theorem keeps_silence {s : State} (a0 : Fin 4) (a1 : List ℕ) {x : State} (h : Keeps s x) :
    Keeps s (silence a0 a1 x) := by
  unfold silence
  try dsimp only
  repeat' split
  all_goals first | with_reducible exact h | (simp +contextual (maxDischargeDepth := 100) [*]; done) | exact h.of_eq (by with_reducible rfl) (by with_reducible rfl) (by with_reducible rfl) (by with_reducible rfl) | simp +contextual (maxDischargeDepth := 100) [*]

@[simp] theorem keeps_moduleState {s : State} (a0 : Fin 4) (a1 : Fin 32) (a2 : ℕ) {x : State} (h : Keeps s x) :
    Keeps s (moduleState a0 a1 a2 x) := by
  unfold moduleState
  try dsimp only
  repeat' split
  all_goals first | with_reducible exact h | (simp +contextual (maxDischargeDepth := 100) [*]; done) | exact h.of_eq (by with_reducible rfl) (by with_reducible rfl) (by with_reducible rfl) (by with_reducible rfl) | simp +contextual (maxDischargeDepth := 100) [*]

@[simp] theorem keeps_capabilityFell {s : State} (a0 : Option Outlet) {x : State} (h : Keeps s x) :
    Keeps s (capabilityFell a0 x) := by
  unfold capabilityFell
  try dsimp only
  repeat' split
  all_goals first | with_reducible exact h | (simp +contextual (maxDischargeDepth := 100) [*]; done) | exact h.of_eq (by with_reducible rfl) (by with_reducible rfl) (by with_reducible rfl) (by with_reducible rfl) | simp +contextual (maxDischargeDepth := 100) [*]

@[simp] theorem keeps_loseModule {s : State} (a0 : Fin 4) (a1 : Fin 32) {x : State} (h : Keeps s x) :
    Keeps s (loseModule a0 a1 x) := by
  unfold loseModule
  try dsimp only
  repeat' split
  all_goals first | with_reducible exact h | (simp +contextual (maxDischargeDepth := 100) [*]; done) | exact h.of_eq (by with_reducible rfl) (by with_reducible rfl) (by with_reducible rfl) (by with_reducible rfl) | simp +contextual (maxDischargeDepth := 100) [*]

@[simp] theorem keeps_loseModules {s : State}  {x : State} (h : Keeps s x) :
    Keeps s (loseModules x) := by
  unfold loseModules
  try dsimp only
  repeat' split
  all_goals first | with_reducible exact h | (simp +contextual (maxDischargeDepth := 100) [*]; done) | exact h.of_eq (by with_reducible rfl) (by with_reducible rfl) (by with_reducible rfl) (by with_reducible rfl) | simp +contextual (maxDischargeDepth := 100) [*]

@[simp] theorem keeps_takePairKeys {s : State}  {x : State} (h : Keeps s x) :
    Keeps s (takePairKeys x) := by
  unfold takePairKeys
  try dsimp only
  repeat' split
  all_goals first | with_reducible exact h | (simp +contextual (maxDischargeDepth := 100) [*]; done) | exact h.of_eq (by with_reducible rfl) (by with_reducible rfl) (by with_reducible rfl) (by with_reducible rfl) | simp +contextual (maxDischargeDepth := 100) [*]

@[simp] theorem keeps_pairRoleEvent {s : State} (a0 : ℕ) {x : State} (h : Keeps s x) :
    Keeps s (pairRoleEvent a0 x) := by
  unfold pairRoleEvent
  try dsimp only
  repeat' split
  all_goals first | with_reducible exact h | (simp +contextual (maxDischargeDepth := 100) [*]; done) | exact h.of_eq (by with_reducible rfl) (by with_reducible rfl) (by with_reducible rfl) (by with_reducible rfl) | simp +contextual (maxDischargeDepth := 100) [*]

@[simp] theorem keeps_answerSwaps {s : State} (a0 : Status) {x : State} (h : Keeps s x) :
    Keeps s (answerSwaps a0 x) := by
  unfold answerSwaps
  try dsimp only
  repeat' split
  all_goals first | with_reducible exact h | (simp +contextual (maxDischargeDepth := 100) [*]; done) | exact h.of_eq (by with_reducible rfl) (by with_reducible rfl) (by with_reducible rfl) (by with_reducible rfl) | simp +contextual (maxDischargeDepth := 100) [*]

@[simp] theorem keeps_setShare {s : State} (a0 : ℕ) (a1 : Bool) {x : State} (h : Keeps s x) :
    Keeps s (setShare a0 a1 x) := by
  unfold setShare
  try dsimp only
  repeat' split
  all_goals first | with_reducible exact h | (simp +contextual (maxDischargeDepth := 100) [*]; done) | exact h.of_eq (by with_reducible rfl) (by with_reducible rfl) (by with_reducible rfl) (by with_reducible rfl) | simp +contextual (maxDischargeDepth := 100) [*]

@[simp] theorem keeps_swapRoles {s : State}  {x : State} (h : Keeps s x) :
    Keeps s (swapRoles x) := by
  unfold swapRoles
  try dsimp only
  repeat' split
  all_goals first | with_reducible exact h | (simp +contextual (maxDischargeDepth := 100) [*]; done) | exact h.of_eq (by with_reducible rfl) (by with_reducible rfl) (by with_reducible rfl) (by with_reducible rfl) | simp +contextual (maxDischargeDepth := 100) [*]

@[simp] theorem keeps_sendPair {s : State} (a0 : Bytes) {x : State} (h : Keeps s x) :
    Keeps s (sendPair a0 x) := by
  unfold sendPair
  try dsimp only
  repeat' split
  all_goals first | with_reducible exact h | (simp +contextual (maxDischargeDepth := 100) [*]; done) | exact h.of_eq (by with_reducible rfl) (by with_reducible rfl) (by with_reducible rfl) (by with_reducible rfl) | simp +contextual (maxDischargeDepth := 100) [*]

@[simp] theorem keeps_sendLeading {s : State}  {x : State} (h : Keeps s x) :
    Keeps s (sendLeading x) := by
  unfold sendLeading
  try dsimp only
  repeat' split
  all_goals first | with_reducible exact h | (simp +contextual (maxDischargeDepth := 100) [*]; done) | exact h.of_eq (by with_reducible rfl) (by with_reducible rfl) (by with_reducible rfl) (by with_reducible rfl) | simp +contextual (maxDischargeDepth := 100) [*]

@[simp] theorem keeps_sendFollowing {s : State} (a0 : Bool) {x : State} (h : Keeps s x) :
    Keeps s (sendFollowing a0 x) := by
  unfold sendFollowing
  try dsimp only
  repeat' split
  all_goals first | with_reducible exact h | (simp +contextual (maxDischargeDepth := 100) [*]; done) | exact h.of_eq (by with_reducible rfl) (by with_reducible rfl) (by with_reducible rfl) (by with_reducible rfl) | simp +contextual (maxDischargeDepth := 100) [*]

@[simp] theorem keeps_takeRole {s : State} (a0 : PairRole) {x : State} (h : Keeps s x) :
    Keeps s (takeRole a0 x) := by
  unfold takeRole
  try dsimp only
  repeat' split
  all_goals first | with_reducible exact h | (simp +contextual (maxDischargeDepth := 100) [*]; done) | exact h.of_eq (by with_reducible rfl) (by with_reducible rfl) (by with_reducible rfl) (by with_reducible rfl) | simp +contextual (maxDischargeDepth := 100) [*]

@[simp] theorem keeps_leaderTakes {s : State} (a0 : PairIn) {x : State} (h : Keeps s x) :
    Keeps s (leaderTakes a0 x) := by
  unfold leaderTakes
  try dsimp only
  repeat' split
  all_goals first | with_reducible exact h | (simp +contextual (maxDischargeDepth := 100) [*]; done) | exact h.of_eq (by with_reducible rfl) (by with_reducible rfl) (by with_reducible rfl) (by with_reducible rfl) | simp +contextual (maxDischargeDepth := 100) [*]

@[simp] theorem keeps_followerTakes {s : State} (a0 : PairIn) {x : State} (h : Keeps s x) :
    Keeps s (followerTakes a0 x) := by
  unfold followerTakes
  try dsimp only
  repeat' split
  all_goals first | with_reducible exact h | (simp +contextual (maxDischargeDepth := 100) [*]; done) | exact h.of_eq (by with_reducible rfl) (by with_reducible rfl) (by with_reducible rfl) (by with_reducible rfl) | simp +contextual (maxDischargeDepth := 100) [*]

end Sys2Proof.Machine
end

