-- ==== Sys2Proof/Laws/KeepsPorts.lean ====
section
/-! SUPPORT. The operations of Machine/Ports.lean keep what `Keeps` says. -/

set_option linter.unusedVariables false
set_option linter.unusedSimpArgs false
set_option linter.unusedTactic false
set_option linter.unreachableTactic false

namespace Sys2Proof.Machine

@[simp] theorem keeps_startTransfers {s : State}  {x : State} (h : Keeps s x) :
    Keeps s (startTransfers x) := by
  refine keeps_forEach _ (fun p y hy => ?_) h
  split
  · exact hy
  · exact keeps_ifDo _ (fun hz => keeps_driveSelect _ _ hz) hy

@[simp] theorem keeps_endTransfer {s : State} (a0 : Fin 3) (a1 : Transfer) (a2 : Status) (a3 : Bytes) {x : State} (h : Keeps s x) :
    Keeps s (endTransfer a0 a1 a2 a3 x) := by
  exact keeps_startTransfers (keeps_completeRunning _ _ _ (keeps_applyPins (keeps_modPsp _ _ (keeps_driveSelect _ _ h))))

theorem keeps_execPspTransfer {s : State} (a0 : Mailbox) {x : State} (h : Keeps s x) :
    OutKeeps s (execPspTransfer a0 x) := by
  unfold execPspTransfer
  first
    | (simp +contextual (maxDischargeDepth := 100) [*]; done)
    | (refine (outKeeps_next _ _).2 (keeps_runCommand _ _ (fun b y hy => ?_) h)
       try dsimp only
       try refine replyKeeps_guards _ _ hy ?_
       repeat' split
       all_goals simp +contextual (maxDischargeDepth := 100) [*])

@[simp] theorem keeps_runTransfer {s : State} (a0 : Fin 3) (a1 : Transfer) (a2 : ℕ) (a3 : List (List (ℕ × Bool))) {x : State} (h : Keeps s x) :
    Keeps s (runTransfer a0 a1 a2 a3 x) := by
  unfold runTransfer
  try dsimp only
  repeat' split
  all_goals first | with_reducible exact h | (simp +contextual (maxDischargeDepth := 100) [*]; done) | exact h.of_eq (by with_reducible rfl) (by with_reducible rfl) (by with_reducible rfl) (by with_reducible rfl) | simp +contextual (maxDischargeDepth := 100) [*]

theorem keeps_execPspTransferRun {s : State} (a0 : Fin 3) (a1 : List Bytes) (a2 : List (List (ℕ × Bool))) {x : State} (h : Keeps s x) :
    OutKeeps s (execPspTransferRun a0 a1 a2 x) := by
  unfold execPspTransferRun
  try dsimp only
  repeat' split
  all_goals first | with_reducible exact h | (simp +contextual (maxDischargeDepth := 100) [*]; done) | exact h.of_eq (by with_reducible rfl) (by with_reducible rfl) (by with_reducible rfl) (by with_reducible rfl) | simp +contextual (maxDischargeDepth := 100) [*]

theorem keeps_execPspBusyTimeout {s : State} (a0 : Fin 3) {x : State} (h : Keeps s x) :
    OutKeeps s (execPspBusyTimeout a0 x) := by
  unfold execPspBusyTimeout
  try dsimp only
  repeat' split
  all_goals first | with_reducible exact h | (simp +contextual (maxDischargeDepth := 100) [*]; done) | exact h.of_eq (by with_reducible rfl) (by with_reducible rfl) (by with_reducible rfl) (by with_reducible rfl) | simp +contextual (maxDischargeDepth := 100) [*]

@[simp] theorem keeps_stopPorts {s : State} (a0 : Status) {x : State} (h : Keeps s x) :
    Keeps s (stopPorts a0 x) := by
  refine keeps_forEach _ (fun p y hy => ?_) h
  exact keeps_applyPins (keeps_modPsp _ _ (keeps_forEach _ (fun t z hz => keeps_completeRunning _ _ _ (keeps_driveSelect _ _ hz)) hy))

theorem keeps_execGpioSet {s : State} (a0 : Mailbox) {x : State} (h : Keeps s x) :
    OutKeeps s (execGpioSet a0 x) := by
  unfold execGpioSet
  first
    | (simp +contextual (maxDischargeDepth := 100) [*]; done)
    | (refine (outKeeps_next _ _).2 (keeps_runCommand _ _ (fun b y hy => ?_) h)
       try dsimp only
       try refine replyKeeps_guards _ _ hy ?_
       repeat' split
       all_goals simp +contextual (maxDischargeDepth := 100) [*])

theorem keeps_execGpioGet {s : State} (a0 : Mailbox) (a1 : BitVec 64) {x : State} (h : Keeps s x) :
    OutKeeps s (execGpioGet a0 a1 x) := by
  unfold execGpioGet
  first
    | (simp +contextual (maxDischargeDepth := 100) [*]; done)
    | (refine (outKeeps_next _ _).2 (keeps_runCommand _ _ (fun b y hy => ?_) h)
       try dsimp only
       try refine replyKeeps_guards _ _ hy ?_
       repeat' split
       all_goals simp +contextual (maxDischargeDepth := 100) [*])

theorem keeps_execGpWakeEdge {s : State} (a0 : Fin 64) (a1 : Bool) {x : State} (h : Keeps s x) :
    OutKeeps s (execGpWakeEdge a0 a1 x) := by
  unfold execGpWakeEdge
  try dsimp only
  repeat' split
  all_goals first | with_reducible exact h | (simp +contextual (maxDischargeDepth := 100) [*]; done) | exact h.of_eq (by with_reducible rfl) (by with_reducible rfl) (by with_reducible rfl) (by with_reducible rfl) | simp +contextual (maxDischargeDepth := 100) [*]

end Sys2Proof.Machine
end

