-- ==== Sys2Proof/Laws/KeepsCoreOps.lean ====
section
/-! SUPPORT. The operations of Machine/CoreOps.lean keep what `Keeps` says. -/

set_option linter.unusedVariables false
set_option linter.unusedSimpArgs false
set_option linter.unusedTactic false
set_option linter.unreachableTactic false

namespace Sys2Proof.Machine

@[simp] theorem keeps_abortCommands {s : State}  {x : State} (h : Keeps s x) :
    Keeps s (abortCommands x) := by
  unfold abortCommands
  refine keeps_forEach _ (fun d y hy => keeps_modDrv _ _ hy) (keeps_modPair _ (keeps_modWeave _ (keeps_modTb _ ?_)))
  refine keeps_mbx ?_ _ (mailOk_order _)
  refine keeps_forEach _ (fun mb y hy => ?_) h
  split
  · exact keeps_complete _ _ _ hy
  · exact hy

@[simp] theorem keeps_discardEvents {s : State}  {x : State} (h : Keeps s x) :
    Keeps s (discardEvents x) := by
  refine keeps_loseEvents _ (keeps_mbx h _ fun k => ?_)
  exact ⟨k.1, k.2, by simp, by simp, k.5, k.6, k.7⟩

@[simp] theorem keeps_restartSession {s : State} (a0 : Outlet) {x : State} (h : Keeps s x) :
    Keeps s (restartSession a0 x) := by
  unfold restartSession
  try dsimp only
  repeat' split
  all_goals first | with_reducible exact h | (simp +contextual (maxDischargeDepth := 100) [*]; done) | exact h.of_eq (by with_reducible rfl) (by with_reducible rfl) (by with_reducible rfl) (by with_reducible rfl) | simp +contextual (maxDischargeDepth := 100) [*]

@[simp] theorem keeps_restartNet {s : State}  {x : State} (h : Keeps s x) :
    Keeps s (restartNet x) := by
  unfold restartNet
  try dsimp only
  repeat' split
  all_goals first | with_reducible exact h | (simp +contextual (maxDischargeDepth := 100) [*]; done) | exact h.of_eq (by with_reducible rfl) (by with_reducible rfl) (by with_reducible rfl) (by with_reducible rfl) | simp +contextual (maxDischargeDepth := 100) [*]

@[simp] theorem keeps_appReset {s : State}  {x : State} (h : Keeps s x) :
    Keeps s (appReset x) := by
  unfold appReset
  split
  · exact keeps_resetBase h
  · have k : Keeps s (discardEvents (abortCommands (stopPorts .aborted x))) :=
      keeps_discardEvents (keeps_abortCommands (keeps_stopPorts _ h))
    generalize discardEvents (abortCommands (stopPorts .aborted x)) = y at k ⊢
    have k2 : Keeps s { y with mbx := { y.mbx with
          win := [], badWords := [], cmd := y.mbx.cmd.map (fun b => { b with kept := none }) } } := by
      refine keeps_mbx k _ fun m => ⟨rfl, by simp, m.3, m.4, m.5, fun mb => ?_, fun mb y hy => ?_⟩
      · simpa using m.6 mb
      · simp at hy
    dsimp only
    generalize State.mk _ _ _ _ _ _ _ _ _ _ _ _ _ _ _ _ _ _ _ _ _ _ _ _ _ _ _ _ _ _ _ _ _ _ _ = z at k2 ⊢
    have k3 : Keeps s (requeue (forEach Outlet.all restartSession (withdraw allDrivers [.app] causeSession z))) :=
      keeps_requeue (keeps_forEach Outlet.all (fun o y hy => keeps_restartSession o hy) (keeps_withdraw _ _ _ k2))
    generalize requeue (forEach Outlet.all restartSession (withdraw allDrivers [.app] causeSession z)) = u at k3 ⊢
    have k4 := fun v => keeps_restartNet (keeps_ifDo x.svc.connected (fun hy => keeps_connectionEvent hy) (keeps_svc k3 v))
    generalize resetSvc u.svc = r
    have k5 := k4 { r with solar := u.svc.solar.map (fun x => { mode := x.mode, minMa := x.minMa }) }
    generalize restartNet _ = w at k5 ⊢
    exact k5.of_eq rfl rfl rfl rfl

end Sys2Proof.Machine
end

