-- ==== Sys2Proof/Laws/KeepsKeys.lean ====
section
/-! SUPPORT. The operations of Machine/Keys.lean keep what `Keeps` says. -/

set_option linter.unusedVariables false
set_option linter.unusedSimpArgs false
set_option linter.unusedTactic false
set_option linter.unreachableTactic false

namespace Sys2Proof.Machine

theorem keeps_execKeyEnvelopeApply {s : State} (a0 : Mailbox) {x : State} (h : Keeps s x) :
    OutKeeps s (execKeyEnvelopeApply a0 x) := by
  unfold execKeyEnvelopeApply
  first
    | (simp +contextual (maxDischargeDepth := 100) [*]; done)
    | (refine (outKeeps_next _ _).2 (keeps_runCommand _ _ (fun b y hy => ?_) h)
       try dsimp only
       try refine replyKeeps_guards _ _ hy ?_
       repeat' split
       all_goals simp +contextual (maxDischargeDepth := 100) [*])

theorem keeps_execKeySlotStatusGet {s : State} (a0 : Mailbox) {x : State} (h : Keeps s x) :
    OutKeeps s (execKeySlotStatusGet a0 x) := by
  unfold execKeySlotStatusGet
  first
    | (simp +contextual (maxDischargeDepth := 100) [*]; done)
    | (refine (outKeeps_next _ _).2 (keeps_runCommand _ _ (fun b y hy => ?_) h)
       try dsimp only
       try refine replyKeeps_guards _ _ hy ?_
       repeat' split
       all_goals simp +contextual (maxDischargeDepth := 100) [*])

theorem keeps_execLifecycleGet {s : State} (a0 : Mailbox) {x : State} (h : Keeps s x) :
    OutKeeps s (execLifecycleGet a0 x) := by
  unfold execLifecycleGet
  first
    | (simp +contextual (maxDischargeDepth := 100) [*]; done)
    | (refine (outKeeps_next _ _).2 (keeps_runCommand _ _ (fun b y hy => ?_) h)
       try dsimp only
       try refine replyKeeps_guards _ _ hy ?_
       repeat' split
       all_goals simp +contextual (maxDischargeDepth := 100) [*])

theorem keeps_execDeviceCertGet {s : State} (a0 : Mailbox) {x : State} (h : Keeps s x) :
    OutKeeps s (execDeviceCertGet a0 x) := by
  unfold execDeviceCertGet
  first
    | (simp +contextual (maxDischargeDepth := 100) [*]; done)
    | (refine (outKeeps_next _ _).2 (keeps_runCommand _ _ (fun b y hy => ?_) h)
       try dsimp only
       try refine replyKeeps_guards _ _ hy ?_
       repeat' split
       all_goals simp +contextual (maxDischargeDepth := 100) [*])

theorem keeps_execMeasurementLogGet {s : State} (a0 : Mailbox) {x : State} (h : Keeps s x) :
    OutKeeps s (execMeasurementLogGet a0 x) := by
  unfold execMeasurementLogGet
  first
    | (simp +contextual (maxDischargeDepth := 100) [*]; done)
    | (refine (outKeeps_next _ _).2 (keeps_runCommand _ _ (fun b y hy => ?_) h)
       try dsimp only
       try refine replyKeeps_guards _ _ hy ?_
       repeat' split
       all_goals simp +contextual (maxDischargeDepth := 100) [*])

@[simp] theorem keeps_lcTrigger {s : State} (a0 : Word32) {x : State} (h : Keeps s x) :
    Keeps s (lcTrigger a0 x) := by
  unfold lcTrigger
  try dsimp only
  repeat' split
  all_goals first | with_reducible exact h | (simp +contextual (maxDischargeDepth := 100) [*]; done) | exact h.of_eq (by with_reducible rfl) (by with_reducible rfl) (by with_reducible rfl) (by with_reducible rfl) | simp +contextual (maxDischargeDepth := 100) [*]

theorem keeps_execLcRequestProvisioned {s : State} (a0 : Word32) {x : State} (h : Keeps s x) :
    OutKeeps s (execLcRequestProvisioned a0 x) := by
  unfold execLcRequestProvisioned
  try dsimp only
  repeat' split
  all_goals first | with_reducible exact h | (simp +contextual (maxDischargeDepth := 100) [*]; done) | exact h.of_eq (by with_reducible rfl) (by with_reducible rfl) (by with_reducible rfl) (by with_reducible rfl) | simp +contextual (maxDischargeDepth := 100) [*]

theorem keeps_execLcRequestField {s : State} (a0 : Word32) {x : State} (h : Keeps s x) :
    OutKeeps s (execLcRequestField a0 x) := by
  unfold execLcRequestField
  try dsimp only
  repeat' split
  all_goals first | with_reducible exact h | (simp +contextual (maxDischargeDepth := 100) [*]; done) | exact h.of_eq (by with_reducible rfl) (by with_reducible rfl) (by with_reducible rfl) (by with_reducible rfl) | simp +contextual (maxDischargeDepth := 100) [*]

theorem keeps_execLcRequestRetired {s : State} (a0 : Word32) {x : State} (h : Keeps s x) :
    OutKeeps s (execLcRequestRetired a0 x) := by
  unfold execLcRequestRetired
  try dsimp only
  repeat' split
  all_goals first | with_reducible exact h | (simp +contextual (maxDischargeDepth := 100) [*]; done) | exact h.of_eq (by with_reducible rfl) (by with_reducible rfl) (by with_reducible rfl) (by with_reducible rfl) | simp +contextual (maxDischargeDepth := 100) [*]

theorem keeps_execCryptoRequest {s : State} (a0 : CryptoReq) {x : State} (h : Keeps s x) :
    OutKeeps s (execCryptoRequest a0 x) := by
  unfold execCryptoRequest
  first
    | (simp +contextual (maxDischargeDepth := 100) [*]; done)
    | (refine (outKeeps_next _ _).2 (keeps_ifDo _ (fun hy => ?_) h)
       try dsimp only
       repeat' split
       all_goals simp +contextual (maxDischargeDepth := 100) [*])

theorem keeps_execCryptoRequestDone {s : State} (a0 : ℕ) {x : State} (h : Keeps s x) :
    OutKeeps s (execCryptoRequestDone a0 x) := by
  unfold execCryptoRequestDone
  first
    | (simp +contextual (maxDischargeDepth := 100) [*]; done)
    | (refine (outKeeps_next _ _).2 (keeps_ifDo _ (fun hy => ?_) h)
       try dsimp only
       repeat' split
       all_goals simp +contextual (maxDischargeDepth := 100) [*])

theorem keeps_execDebugChallenge {s : State}  {x : State} (h : Keeps s x) :
    OutKeeps s (execDebugChallenge x) := by
  unfold execDebugChallenge
  first
    | (simp +contextual (maxDischargeDepth := 100) [*]; done)
    | (refine (outKeeps_next _ _).2 (keeps_ifDo _ (fun hy => ?_) h)
       try dsimp only
       repeat' split
       all_goals simp +contextual (maxDischargeDepth := 100) [*])

theorem keeps_execDebugSignature {s : State} (a0 : Fin 64) (a1 : Bytes) {x : State} (h : Keeps s x) :
    OutKeeps s (execDebugSignature a0 a1 x) := by
  unfold execDebugSignature
  refine (outKeeps_next _ _).2 ?_
  repeat' split
  all_goals simp +contextual (maxDischargeDepth := 100) [*]

theorem keeps_execLcAuthorisationExpire {s : State}  {x : State} (h : Keeps s x) :
    OutKeeps s (execLcAuthorisationExpire x) := by
  unfold execLcAuthorisationExpire
  try dsimp only
  repeat' split
  all_goals first | with_reducible exact h | (simp +contextual (maxDischargeDepth := 100) [*]; done) | exact h.of_eq (by with_reducible rfl) (by with_reducible rfl) (by with_reducible rfl) (by with_reducible rfl) | simp +contextual (maxDischargeDepth := 100) [*]

theorem keeps_execRngHealthFail {s : State}  {x : State} (h : Keeps s x) :
    OutKeeps s (execRngHealthFail x) := by
  unfold execRngHealthFail
  try dsimp only
  repeat' split
  all_goals first | with_reducible exact h | (simp +contextual (maxDischargeDepth := 100) [*]; done) | exact h.of_eq (by with_reducible rfl) (by with_reducible rfl) (by with_reducible rfl) (by with_reducible rfl) | simp +contextual (maxDischargeDepth := 100) [*]

theorem keeps_execRngRestart {s : State} (a0 : Bool) {x : State} (h : Keeps s x) :
    OutKeeps s (execRngRestart a0 x) := by
  unfold execRngRestart
  try dsimp only
  repeat' split
  all_goals first | with_reducible exact h | (simp +contextual (maxDischargeDepth := 100) [*]; done) | exact h.of_eq (by with_reducible rfl) (by with_reducible rfl) (by with_reducible rfl) (by with_reducible rfl) | simp +contextual (maxDischargeDepth := 100) [*]

theorem keeps_execKeyEnvelopeDatatransfer {s : State} (a0 : Bytes) {x : State} (h : Keeps s x) :
    OutKeeps s (execKeyEnvelopeDatatransfer a0 x) := by
  unfold execKeyEnvelopeDatatransfer
  first
    | (simp +contextual (maxDischargeDepth := 100) [*]; done)
    | (refine (outKeeps_next _ _).2 (keeps_ifDo _ (fun hy => ?_) h)
       try dsimp only
       repeat' split
       all_goals simp +contextual (maxDischargeDepth := 100) [*])

end Sys2Proof.Machine
end

