-- ==== Sys2Proof/Laws/KeepsConfigOps.lean ====
section
/-! SUPPORT. The operations of Machine/ConfigOps.lean keep what `Keeps` says. -/

set_option linter.unusedVariables false
set_option linter.unusedSimpArgs false
set_option linter.unusedTactic false
set_option linter.unreachableTactic false

namespace Sys2Proof.Machine

@[simp] theorem keeps_modSlot {s : State} (a0 : Fin 4) (a1 : Slot → Slot) {x : State} (h : Keeps s x) :
    Keeps s (modSlot a0 a1 x) := by
  unfold modSlot
  try dsimp only
  repeat' split
  all_goals first | with_reducible exact h | (simp +contextual (maxDischargeDepth := 100) [*]; done) | exact h.of_eq (by with_reducible rfl) (by with_reducible rfl) (by with_reducible rfl) (by with_reducible rfl) | simp +contextual (maxDischargeDepth := 100) [*]

@[simp] theorem keeps_emptySlot {s : State} (a0 : Fin 4) {x : State} (h : Keeps s x) :
    Keeps s (emptySlot a0 x) := by
  unfold emptySlot
  try dsimp only
  repeat' split
  all_goals first | with_reducible exact h | (simp +contextual (maxDischargeDepth := 100) [*]; done) | exact h.of_eq (by with_reducible rfl) (by with_reducible rfl) (by with_reducible rfl) (by with_reducible rfl) | simp +contextual (maxDischargeDepth := 100) [*]

@[simp] theorem keeps_discardOld {s : State}  {x : State} (h : Keeps s x) :
    Keeps s (discardOld x) := by
  unfold discardOld
  try dsimp only
  repeat' split
  all_goals first | with_reducible exact h | (simp +contextual (maxDischargeDepth := 100) [*]; done) | exact h.of_eq (by with_reducible rfl) (by with_reducible rfl) (by with_reducible rfl) (by with_reducible rfl) | simp +contextual (maxDischargeDepth := 100) [*]

@[simp] theorem keeps_restartPort {s : State} (a0 : Fin 8) {x : State} (h : Keeps s x) :
    Keeps s (restartPort a0 x) := by
  unfold restartPort
  try dsimp only
  repeat' split
  all_goals first | with_reducible exact h | (simp +contextual (maxDischargeDepth := 100) [*]; done) | exact h.of_eq (by with_reducible rfl) (by with_reducible rfl) (by with_reducible rfl) (by with_reducible rfl) | simp +contextual (maxDischargeDepth := 100) [*]

@[simp] theorem keeps_solarMode {s : State} (a0 : Outlet) {x : State} (h : Keeps s x) :
    Keeps s (solarMode a0 x) := by
  unfold solarMode
  try dsimp only
  repeat' split
  all_goals first | with_reducible exact h | (simp +contextual (maxDischargeDepth := 100) [*]; done) | exact h.of_eq (by with_reducible rfl) (by with_reducible rfl) (by with_reducible rfl) (by with_reducible rfl) | simp +contextual (maxDischargeDepth := 100) [*]

@[simp] theorem keeps_takeUpSet {s : State} (a0 : Cfg) {x : State} (h : Keeps s x) :
    Keeps s (takeUpSet a0 x) := by
  unfold takeUpSet
  try dsimp only
  repeat' split
  all_goals first | with_reducible exact h | (simp +contextual (maxDischargeDepth := 100) [*]; done) | exact h.of_eq (by with_reducible rfl) (by with_reducible rfl) (by with_reducible rfl) (by with_reducible rfl) | simp +contextual (maxDischargeDepth := 100) [*]

@[simp] theorem keeps_committedEvent {s : State} (a0 : ℕ) {x : State} (h : Keeps s x) :
    Keeps s (committedEvent a0 x) := by
  unfold committedEvent
  try dsimp only
  repeat' split
  all_goals first | with_reducible exact h | (simp +contextual (maxDischargeDepth := 100) [*]; done) | exact h.of_eq (by with_reducible rfl) (by with_reducible rfl) (by with_reducible rfl) (by with_reducible rfl) | simp +contextual (maxDischargeDepth := 100) [*]

@[simp] theorem keeps_enforce {s : State} (a0 : Bytes) {x : State} (h : Keeps s x) :
    Keeps s (enforce a0 x) := by
  unfold enforce
  try dsimp only
  repeat' split
  all_goals first | with_reducible exact h | (simp +contextual (maxDischargeDepth := 100) [*]; done) | exact h.of_eq (by with_reducible rfl) (by with_reducible rfl) (by with_reducible rfl) (by with_reducible rfl) | simp +contextual (maxDischargeDepth := 100) [*]

@[simp] theorem keeps_logSafetyCommit {s : State}  {x : State} (h : Keeps s x) :
    Keeps s (logSafetyCommit x) := by
  unfold logSafetyCommit
  try dsimp only
  repeat' split
  all_goals first | with_reducible exact h | (simp +contextual (maxDischargeDepth := 100) [*]; done) | exact h.of_eq (by with_reducible rfl) (by with_reducible rfl) (by with_reducible rfl) (by with_reducible rfl) | simp +contextual (maxDischargeDepth := 100) [*]

@[simp] theorem keeps_commitSlot {s : State} (a0 : Fin 4) {x : State} (h : Keeps s x) :
    Keeps s (commitSlot a0 x) := by
  unfold commitSlot
  try dsimp only
  repeat' split
  all_goals first | with_reducible exact h | (simp +contextual (maxDischargeDepth := 100) [*]; done) | exact h.of_eq (by with_reducible rfl) (by with_reducible rfl) (by with_reducible rfl) (by with_reducible rfl) | simp +contextual (maxDischargeDepth := 100) [*]

@[simp] theorem keeps_commitCandidate {s : State} (a0 : Fin 4) {x : State} (h : Keeps s x) :
    Keeps s (commitCandidate a0 x).2 := by
  unfold commitCandidate
  try dsimp only
  repeat' split
  all_goals first | with_reducible exact h | (simp +contextual (maxDischargeDepth := 100) [*]; done) | exact h.of_eq (by with_reducible rfl) (by with_reducible rfl) (by with_reducible rfl) (by with_reducible rfl) | simp +contextual (maxDischargeDepth := 100) [*]

theorem keeps_migrateInto {s : State} (a0 : Fin 4) (a1 : Fin 4) {x : State} (h : Keeps s x) :
    ∀ t, (migrateInto a0 a1 x) = some t → Keeps s t := by
  unfold migrateInto
  repeat' split
  all_goals simp_all

@[simp] theorem keeps_revert {s : State}  {x : State} (h : Keeps s x) :
    Keeps s (revert x).2 := by
  unfold revert
  dsimp only
  split
  · split
    · exact h
    · split
      · exact h
      · rename_i t ht
        have k := keeps_migrateInto _ _ h t ht
        refine keeps_enforce _ ?_
        split
        · split
          · exact k
          · exact keeps_emptySlot _ k
        · exact k
  · split
    · exact h
    · split
      · exact h
      · split
        · exact keeps_committedEvent _ (keeps_enforce _ (keeps_commitSlot _ h))
        · split
          · exact h
          · rename_i t ht
            have k := keeps_migrateInto _ _ h t ht
            exact keeps_committedEvent _ (keeps_enforce _ (keeps_commitSlot _ (keeps_emptySlot _ (keeps_modSlot _ _ k))))

end Sys2Proof.Machine
end

