-- ==== Sys2Proof/Laws/KeepsUpdOps.lean ====
section
/-! SUPPORT. The operations of Machine/UpdOps.lean keep what `Keeps` says. -/

set_option linter.unusedVariables false
set_option linter.unusedSimpArgs false
set_option linter.unusedTactic false
set_option linter.unreachableTactic false

namespace Sys2Proof.Machine

@[simp] theorem keeps_modUpd {s : State} (a0 : Upd → Upd) {x : State} (h : Keeps s x) :
    Keeps s (modUpd a0 x) := by
  unfold modUpd
  try dsimp only
  repeat' split
  all_goals first | with_reducible exact h | (simp +contextual (maxDischargeDepth := 100) [*]; done) | exact h.of_eq (by with_reducible rfl) (by with_reducible rfl) (by with_reducible rfl) (by with_reducible rfl) | simp +contextual (maxDischargeDepth := 100) [*]

@[simp] theorem keeps_modRun {s : State} (a0 : UpdRun → UpdRun) {x : State} (h : Keeps s x) :
    Keeps s (modRun a0 x) := by
  unfold modRun
  try dsimp only
  repeat' split
  all_goals first | with_reducible exact h | (simp +contextual (maxDischargeDepth := 100) [*]; done) | exact h.of_eq (by with_reducible rfl) (by with_reducible rfl) (by with_reducible rfl) (by with_reducible rfl) | simp +contextual (maxDischargeDepth := 100) [*]

@[simp] theorem keeps_modBank {s : State} (a0 : Bank) (a1 : BankMem → BankMem) {x : State} (h : Keeps s x) :
    Keeps s (modBank a0 a1 x) := by
  unfold modBank
  try dsimp only
  repeat' split
  all_goals first | with_reducible exact h | (simp +contextual (maxDischargeDepth := 100) [*]; done) | exact h.of_eq (by with_reducible rfl) (by with_reducible rfl) (by with_reducible rfl) (by with_reducible rfl) | simp +contextual (maxDischargeDepth := 100) [*]

@[simp] theorem keeps_stageHeader {s : State}  {x : State} (h : Keeps s x) :
    Keeps s (stageHeader x) := by
  unfold stageHeader
  try dsimp only
  repeat' split
  all_goals first | with_reducible exact h | (simp +contextual (maxDischargeDepth := 100) [*]; done) | exact h.of_eq (by with_reducible rfl) (by with_reducible rfl) (by with_reducible rfl) (by with_reducible rfl) | simp +contextual (maxDischargeDepth := 100) [*]

@[simp] theorem keeps_beginDownload {s : State} (a0 : Downloader) (a1 : Bytes) {x : State} (h : Keeps s x) :
    Keeps s (beginDownload a0 a1 x) := by
  unfold beginDownload
  try dsimp only
  repeat' split
  all_goals first | with_reducible exact h | (simp +contextual (maxDischargeDepth := 100) [*]; done) | exact h.of_eq (by with_reducible rfl) (by with_reducible rfl) (by with_reducible rfl) (by with_reducible rfl) | simp +contextual (maxDischargeDepth := 100) [*]

@[simp] theorem keeps_confirmBlock {s : State} (a0 : ℕ) (a1 : Bytes) {x : State} (h : Keeps s x) :
    Keeps s (confirmBlock a0 a1 x) := by
  unfold confirmBlock
  try dsimp only
  repeat' split
  all_goals first | with_reducible exact h | (simp +contextual (maxDischargeDepth := 100) [*]; done) | exact h.of_eq (by with_reducible rfl) (by with_reducible rfl) (by with_reducible rfl) (by with_reducible rfl) | simp +contextual (maxDischargeDepth := 100) [*]

@[simp] theorem keeps_judgeBank {s : State} (a0 : Bool) {x : State} (h : Keeps s x) :
    Keeps s (judgeBank a0 x) := by
  unfold judgeBank
  try dsimp only
  repeat' split
  all_goals first | with_reducible exact h | (simp +contextual (maxDischargeDepth := 100) [*]; done) | exact h.of_eq (by with_reducible rfl) (by with_reducible rfl) (by with_reducible rfl) (by with_reducible rfl) | simp +contextual (maxDischargeDepth := 100) [*]

@[simp] theorem keeps_discardDownload {s : State}  {x : State} (h : Keeps s x) :
    Keeps s (discardDownload x) := by
  unfold discardDownload
  try dsimp only
  repeat' split
  all_goals first | with_reducible exact h | (simp +contextual (maxDischargeDepth := 100) [*]; done) | exact h.of_eq (by with_reducible rfl) (by with_reducible rfl) (by with_reducible rfl) (by with_reducible rfl) | simp +contextual (maxDischargeDepth := 100) [*]

@[simp] theorem keeps_firmwareMsg {s : State} (a0 : String) (a1 : String) {x : State} (h : Keeps s x) :
    Keeps s (firmwareMsg a0 a1 x) := by
  unfold firmwareMsg
  try dsimp only
  repeat' split
  all_goals first | with_reducible exact h | (simp +contextual (maxDischargeDepth := 100) [*]; done) | exact h.of_eq (by with_reducible rfl) (by with_reducible rfl) (by with_reducible rfl) (by with_reducible rfl) | simp +contextual (maxDischargeDepth := 100) [*]

@[simp] theorem keeps_restart {s : State}  {x : State} (h : Keeps s x) :
    Keeps s (restart x) := by
  have k : Keeps s (forEach x.mbx.order (fun mb s => complete mb .aborted [] s) x) :=
    keeps_forEach _ (fun mb y hy => keeps_complete _ _ _ hy) h
  have k2 := keeps_modRun (fun r => { r with restartDue := true }) (keeps_mbx k _ (mailOk_order []))
  unfold restart
  dsimp only
  split
  · exact k2
  · exact keeps_resetBase k2

@[simp] theorem keeps_activate {s : State}  {x : State} (h : Keeps s x) :
    Keeps s (activate x) := by
  unfold activate
  try dsimp only
  repeat' split
  all_goals first | with_reducible exact h | (simp +contextual (maxDischargeDepth := 100) [*]; done) | exact h.of_eq (by with_reducible rfl) (by with_reducible rfl) (by with_reducible rfl) (by with_reducible rfl) | simp +contextual (maxDischargeDepth := 100) [*]

@[simp] theorem keeps_settleMigration {s : State}  {x : State} (h : Keeps s x) :
    Keeps s (settleMigration x) := by
  unfold settleMigration
  try dsimp only
  repeat' split
  all_goals first | with_reducible exact h | (simp +contextual (maxDischargeDepth := 100) [*]; done) | exact h.of_eq (by with_reducible rfl) (by with_reducible rfl) (by with_reducible rfl) (by with_reducible rfl) | simp +contextual (maxDischargeDepth := 100) [*]

@[simp] theorem keeps_confirmTrial {s : State}  {x : State} (h : Keeps s x) :
    Keeps s (confirmTrial x) := by
  unfold confirmTrial
  try dsimp only
  repeat' split
  all_goals first | with_reducible exact h | (simp +contextual (maxDischargeDepth := 100) [*]; done) | exact h.of_eq (by with_reducible rfl) (by with_reducible rfl) (by with_reducible rfl) (by with_reducible rfl) | simp +contextual (maxDischargeDepth := 100) [*]

@[simp] theorem keeps_fallBackTo {s : State} (a0 : Bank) (a1 : Status) {x : State} (h : Keeps s x) :
    Keeps s (fallBackTo a0 a1 x) := by
  unfold fallBackTo
  try dsimp only
  repeat' split
  all_goals first | with_reducible exact h | (simp +contextual (maxDischargeDepth := 100) [*]; done) | exact h.of_eq (by with_reducible rfl) (by with_reducible rfl) (by with_reducible rfl) (by with_reducible rfl) | simp +contextual (maxDischargeDepth := 100) [*]

@[simp] theorem keeps_fallBack {s : State} (a0 : Status) {x : State} (h : Keeps s x) :
    Keeps s (fallBack a0 x) := by
  unfold fallBack
  try dsimp only
  repeat' split
  all_goals first | with_reducible exact h | (simp +contextual (maxDischargeDepth := 100) [*]; done) | exact h.of_eq (by with_reducible rfl) (by with_reducible rfl) (by with_reducible rfl) (by with_reducible rfl) | simp +contextual (maxDischargeDepth := 100) [*]

@[simp] theorem keeps_memUncorrectable {s : State} (a0 : MemRegion) (a1 : BitVec 32) (a2 : BitVec 32) {x : State} (h : Keeps s x) :
    Keeps s (memUncorrectable a0 a1 a2 x) := by
  unfold memUncorrectable
  try dsimp only
  repeat' split
  all_goals first | with_reducible exact h | (simp +contextual (maxDischargeDepth := 100) [*]; done) | exact h.of_eq (by with_reducible rfl) (by with_reducible rfl) (by with_reducible rfl) (by with_reducible rfl) | simp +contextual (maxDischargeDepth := 100) [*]

@[simp] theorem keeps_bootConfirmed {s : State} (a0 : Bank → Bool) (a1 : Bank) {x : State} (h : Keeps s x) :
    Keeps s (bootConfirmed a0 a1 x).2 := by
  unfold bootConfirmed
  try dsimp only
  repeat' split
  all_goals first | with_reducible exact h | (simp +contextual (maxDischargeDepth := 100) [*]; done) | exact h.of_eq (by with_reducible rfl) (by with_reducible rfl) (by with_reducible rfl) (by with_reducible rfl) | simp +contextual (maxDischargeDepth := 100) [*]

@[simp] theorem keeps_bootSelect {s : State} (a0 : Bank → Bool) {x : State} (h : Keeps s x) :
    Keeps s (bootSelect a0 x).2 := by
  unfold bootSelect
  try dsimp only
  repeat' split
  all_goals first | with_reducible exact h | (simp +contextual (maxDischargeDepth := 100) [*]; done) | exact h.of_eq (by with_reducible rfl) (by with_reducible rfl) (by with_reducible rfl) (by with_reducible rfl) | simp +contextual (maxDischargeDepth := 100) [*]

theorem keeps_migrate {s x : State} (h : Keeps s x) : ∀ t, migrate x = some t → Keeps s t := by
  have last : ∀ y, Keeps s y → ∀ t, (match activeSlot y with
      | none => some (modSlot (freeSlot y) (fun _ => {
          state := .migration, format := BitVec.ofNat 16 (writesFormat y), seq := BitVec.ofNat 32 (maxSeq y + 1),
          tag := headerTag (((x.run.running).map (fun b => (bankOf x b).header)).getD []) }) y)
      | some a => if readsActive y a then migrateInto a (freeSlot y) y else none) = some t → Keeps s t := by
    intro y hy t ht
    split at ht
    · cases ht; exact keeps_modSlot _ _ hy
    · split at ht
      · exact keeps_migrateInto _ _ hy t ht
      · cases ht
  unfold migrate
  dsimp only
  intro t ht
  split at ht
  · cases ht; exact h
  · rename_i y hy
    refine last y ?_ t ht
    split at hy
    · split at hy
      · cases hy
      · cases hy; exact keeps_emptySlot _ h
    · cases hy; exact h

end Sys2Proof.Machine
end

