-- ==== Sys2Proof/Laws/KeepsUpdate.lean ====
section
/-! SUPPORT. The operations of Machine/Update.lean keep what `Keeps` says. -/

set_option linter.unusedVariables false
set_option linter.unusedSimpArgs false
set_option linter.unusedTactic false
set_option linter.unreachableTactic false

namespace Sys2Proof.Machine

theorem keeps_execUpdateBegin {s : State} (a0 : Mailbox) {x : State} (h : Keeps s x) :
    OutKeeps s (execUpdateBegin a0 x) := by
  unfold execUpdateBegin
  first
    | (simp +contextual (maxDischargeDepth := 100) [*]; done)
    | (refine (outKeeps_next _ _).2 (keeps_runCommand _ _ (fun b y hy => ?_) h)
       try dsimp only
       try refine replyKeeps_guards _ _ hy ?_
       repeat' split
       all_goals simp +contextual (maxDischargeDepth := 100) [*])

theorem keeps_execUpdateBlockWrite {s : State} (a0 : Mailbox) {x : State} (h : Keeps s x) :
    OutKeeps s (execUpdateBlockWrite a0 x) := by
  unfold execUpdateBlockWrite
  first
    | (simp +contextual (maxDischargeDepth := 100) [*]; done)
    | (refine (outKeeps_next _ _).2 (keeps_runCommand _ _ (fun b y hy => ?_) h)
       try dsimp only
       try refine replyKeeps_guards _ _ hy ?_
       repeat' split
       all_goals simp +contextual (maxDischargeDepth := 100) [*])

theorem keeps_execStagedBlockCommit {s : State} (a0 : ℕ) (a1 : Bool) {x : State} (h : Keeps s x) :
    OutKeeps s (execStagedBlockCommit a0 a1 x) := by
  unfold execStagedBlockCommit
  try dsimp only
  repeat' split
  all_goals first | with_reducible exact h | (simp +contextual (maxDischargeDepth := 100) [*]; done) | exact h.of_eq (by with_reducible rfl) (by with_reducible rfl) (by with_reducible rfl) (by with_reducible rfl) | simp +contextual (maxDischargeDepth := 100) [*]

theorem keeps_execUpdateStatusGet {s : State} (a0 : Mailbox) {x : State} (h : Keeps s x) :
    OutKeeps s (execUpdateStatusGet a0 x) := by
  unfold execUpdateStatusGet
  first
    | (simp +contextual (maxDischargeDepth := 100) [*]; done)
    | (refine (outKeeps_next _ _).2 (keeps_runCommand _ _ (fun b y hy => ?_) h)
       try dsimp only
       try refine replyKeeps_guards _ _ hy ?_
       repeat' split
       all_goals simp +contextual (maxDischargeDepth := 100) [*])

theorem keeps_execUpdateVerify {s : State} (a0 : Mailbox) {x : State} (h : Keeps s x) :
    OutKeeps s (execUpdateVerify a0 x) := by
  unfold execUpdateVerify
  first
    | (simp +contextual (maxDischargeDepth := 100) [*]; done)
    | (refine (outKeeps_next _ _).2 (keeps_runCommand _ _ (fun b y hy => ?_) h)
       try dsimp only
       try refine replyKeeps_guards _ _ hy ?_
       repeat' split
       all_goals simp +contextual (maxDischargeDepth := 100) [*])

theorem keeps_execUpdateAbort {s : State} (a0 : Mailbox) {x : State} (h : Keeps s x) :
    OutKeeps s (execUpdateAbort a0 x) := by
  unfold execUpdateAbort
  first
    | (simp +contextual (maxDischargeDepth := 100) [*]; done)
    | (refine (outKeeps_next _ _).2 (keeps_runCommand _ _ (fun b y hy => ?_) h)
       try dsimp only
       try refine replyKeeps_guards _ _ hy ?_
       repeat' split
       all_goals simp +contextual (maxDischargeDepth := 100) [*])

@[simp] theorem keeps_updRequest {s : State} (a0 : ℕ) (a1 : Word32) {x : State} (h : Keeps s x) :
    Keeps s (updRequest a0 a1 x) := by
  unfold updRequest
  try dsimp only
  repeat' split
  all_goals first | with_reducible exact h | (simp +contextual (maxDischargeDepth := 100) [*]; done) | exact h.of_eq (by with_reducible rfl) (by with_reducible rfl) (by with_reducible rfl) (by with_reducible rfl) | simp +contextual (maxDischargeDepth := 100) [*]

@[simp] theorem keeps_updTrigger {s : State} (a0 : Word32) {x : State} (h : Keeps s x) :
    Keeps s (updTrigger a0 x) := by
  unfold updTrigger
  try dsimp only
  repeat' split
  all_goals first | with_reducible exact h | (simp +contextual (maxDischargeDepth := 100) [*]; done) | exact h.of_eq (by with_reducible rfl) (by with_reducible rfl) (by with_reducible rfl) (by with_reducible rfl) | simp +contextual (maxDischargeDepth := 100) [*]

theorem keeps_execUpdActivate {s : State} (a0 : Word32) {x : State} (h : Keeps s x) :
    OutKeeps s (execUpdActivate a0 x) := by
  unfold execUpdActivate
  try dsimp only
  repeat' split
  all_goals first | with_reducible exact h | (simp +contextual (maxDischargeDepth := 100) [*]; done) | exact h.of_eq (by with_reducible rfl) (by with_reducible rfl) (by with_reducible rfl) (by with_reducible rfl) | simp +contextual (maxDischargeDepth := 100) [*]

theorem keeps_execUpdConfirm {s : State} (a0 : Word32) {x : State} (h : Keeps s x) :
    OutKeeps s (execUpdConfirm a0 x) := by
  unfold execUpdConfirm
  try dsimp only
  repeat' split
  all_goals first | with_reducible exact h | (simp +contextual (maxDischargeDepth := 100) [*]; done) | exact h.of_eq (by with_reducible rfl) (by with_reducible rfl) (by with_reducible rfl) (by with_reducible rfl) | simp +contextual (maxDischargeDepth := 100) [*]

theorem keeps_execUpdFallback {s : State} (a0 : Word32) {x : State} (h : Keeps s x) :
    OutKeeps s (execUpdFallback a0 x) := by
  unfold execUpdFallback
  try dsimp only
  repeat' split
  all_goals first | with_reducible exact h | (simp +contextual (maxDischargeDepth := 100) [*]; done) | exact h.of_eq (by with_reducible rfl) (by with_reducible rfl) (by with_reducible rfl) (by with_reducible rfl) | simp +contextual (maxDischargeDepth := 100) [*]

theorem keeps_execTrialConfirmAuto {s : State}  {x : State} (h : Keeps s x) :
    OutKeeps s (execTrialConfirmAuto x) := by
  unfold execTrialConfirmAuto
  first
    | (simp +contextual (maxDischargeDepth := 100) [*]; done)
    | (refine (outKeeps_next _ _).2 (keeps_ifDo _ (fun hy => ?_) h)
       try dsimp only
       repeat' split
       all_goals simp +contextual (maxDischargeDepth := 100) [*])

@[simp] theorem keeps_takeImage {s : State} (a0 : Bytes) {x : State} (h : Keeps s x) :
    Keeps s (takeImage a0 x) := by
  unfold takeImage
  try dsimp only
  repeat' split
  all_goals first | with_reducible exact h | (simp +contextual (maxDischargeDepth := 100) [*]; done) | exact h.of_eq (by with_reducible rfl) (by with_reducible rfl) (by with_reducible rfl) (by with_reducible rfl) | simp +contextual (maxDischargeDepth := 100) [*]

theorem keeps_execUpdateFirmware {s : State} (a0 : Bytes) (a1 : Bytes) (a2 : Bool) (a3 : ℕ) {x : State} (h : Keeps s x) :
    OutKeeps s (execUpdateFirmware a0 a1 a2 a3 x) := by
  unfold execUpdateFirmware
  first
    | (simp +contextual (maxDischargeDepth := 100) [*]; done)
    | (refine (outKeeps_next _ _).2 (keeps_ifDo _ (fun hy => ?_) h)
       try dsimp only
       repeat' split
       all_goals simp +contextual (maxDischargeDepth := 100) [*])

theorem keeps_execOperatorActivation {s : State}  {x : State} (h : Keeps s x) :
    OutKeeps s (execOperatorActivation x) := by
  unfold execOperatorActivation
  first
    | (simp +contextual (maxDischargeDepth := 100) [*]; done)
    | (refine (outKeeps_next _ _).2 (keeps_ifDo _ (fun hy => ?_) h)
       try dsimp only
       repeat' split
       all_goals simp +contextual (maxDischargeDepth := 100) [*])

end Sys2Proof.Machine
end

