-- ==== Sys2Proof/Laws/KeepsPortOps.lean ====
section
/-! SUPPORT. The operations of Machine/PortOps.lean keep what `Keeps` says. -/

set_option linter.unusedVariables false
set_option linter.unusedSimpArgs false
set_option linter.unusedTactic false
set_option linter.unreachableTactic false

namespace Sys2Proof.Machine

@[simp] theorem keeps_doorbell {s : State} (a0 : Word32) {x : State} (h : Keeps s x) :
    Keeps s (doorbell a0 x) := by
  unfold doorbell
  try dsimp only
  repeat' split
  all_goals first | with_reducible exact h | (simp +contextual (maxDischargeDepth := 100) [*]; done) | exact h.of_eq (by with_reducible rfl) (by with_reducible rfl) (by with_reducible rfl) (by with_reducible rfl) | simp +contextual (maxDischargeDepth := 100) [*]

@[simp] theorem keeps_resetKey {s : State} (a0 : Word32) {x : State} (h : Keeps s x) :
    Keeps s (resetKey a0 x) := by
  unfold resetKey
  try dsimp only
  repeat' split
  all_goals first | with_reducible exact h | (simp +contextual (maxDischargeDepth := 100) [*]; done) | exact h.of_eq (by with_reducible rfl) (by with_reducible rfl) (by with_reducible rfl) (by with_reducible rfl) | simp +contextual (maxDischargeDepth := 100) [*]

@[simp] theorem keeps_regWrite {s : State} (a0 : ℕ) (a1 : Word32) {x : State} (h : Keeps s x) :
    Keeps s (regWrite a0 a1 x) := by
  unfold regWrite
  try dsimp only
  repeat' split
  all_goals first | with_reducible exact h | (simp +contextual (maxDischargeDepth := 100) [*]; done) | exact h.of_eq (by with_reducible rfl) (by with_reducible rfl) (by with_reducible rfl) (by with_reducible rfl) | simp +contextual (maxDischargeDepth := 100) [*]

@[simp] theorem keeps_writeWords {s x : State} (a0 : List (ℕ × Word32)) {a1 : State → State}
    (hf : ∀ y, Keeps s y → Keeps s (a1 y)) (h : Keeps s x) :
    Keeps s (writeWords a0 a1 x) := by
  unfold writeWords
  exact keeps_forEach _ (fun p y hy => keeps_ifDo _ (fun hz => keeps_resetKey p.2 hz) hy)
    (hf _ (keeps_forEach _ (fun p y hy => keeps_regWrite _ _ hy) (keeps_buffer _ h)))

@[simp] theorem keeps_hostWrite {s : State} (a0 : ℕ) (a1 : List Word32) {x : State} (h : Keeps s x) :
    Keeps s (hostWrite a0 a1 x) := by
  unfold hostWrite
  try dsimp only
  repeat' split
  all_goals first | with_reducible exact h | (simp +contextual (maxDischargeDepth := 100) [*]; done) | exact h.of_eq (by with_reducible rfl) (by with_reducible rfl) (by with_reducible rfl) (by with_reducible rfl) | simp +contextual (maxDischargeDepth := 100) [*]

@[simp] theorem keeps_cutWrite {s : State} (a0 : Byte) (a1 : ℕ) (a2 : List Word32) (a3 : Cut) {x : State} (h : Keeps s x) :
    Keeps s (cutWrite a0 a1 a2 a3 x) := by
  unfold cutWrite
  try dsimp only
  repeat' split
  all_goals first | with_reducible exact h | (simp +contextual (maxDischargeDepth := 100) [*]; done) | exact h.of_eq (by with_reducible rfl) (by with_reducible rfl) (by with_reducible rfl) (by with_reducible rfl) | simp +contextual (maxDischargeDepth := 100) [*]

end Sys2Proof.Machine
end

