-- ==== Sys2Proof/Laws/KeepsSaveOps.lean ====
section
/-! SUPPORT. The operations of Machine/SaveOps.lean keep what `Keeps` says. -/

set_option linter.unusedVariables false
set_option linter.unusedSimpArgs false
set_option linter.unusedTactic false
set_option linter.unreachableTactic false

namespace Sys2Proof.Machine

@[simp] theorem keeps_enterWatch {s : State}  {x : State} (h : Keeps s x) :
    Keeps s (enterWatch x) := by
  unfold enterWatch
  try dsimp only
  repeat' split
  all_goals first | with_reducible exact h | (simp +contextual (maxDischargeDepth := 100) [*]; done) | exact h.of_eq (by with_reducible rfl) (by with_reducible rfl) (by with_reducible rfl) (by with_reducible rfl) | simp +contextual (maxDischargeDepth := 100) [*]

@[simp] theorem keeps_railFaultNow {s : State}  {x : State} (h : Keeps s x) :
    Keeps s (railFaultNow x) := by
  unfold railFaultNow
  try dsimp only
  repeat' split
  all_goals first | with_reducible exact h | (simp +contextual (maxDischargeDepth := 100) [*]; done) | exact h.of_eq (by with_reducible rfl) (by with_reducible rfl) (by with_reducible rfl) (by with_reducible rfl) | simp +contextual (maxDischargeDepth := 100) [*]

@[simp] theorem keeps_afterSave {s : State}  {x : State} (h : Keeps s x) :
    Keeps s (afterSave x) := by
  unfold afterSave
  try dsimp only
  repeat' split
  all_goals first | with_reducible exact h | (simp +contextual (maxDischargeDepth := 100) [*]; done) | exact h.of_eq (by with_reducible rfl) (by with_reducible rfl) (by with_reducible rfl) (by with_reducible rfl) | simp +contextual (maxDischargeDepth := 100) [*]

@[simp] theorem keeps_beginStep {s : State} (a0 : ℕ) {x : State} (h : Keeps s x) :
    Keeps s (beginStep a0 x) := by
  unfold beginStep
  try dsimp only
  repeat' split
  all_goals first | with_reducible exact h | (simp +contextual (maxDischargeDepth := 100) [*]; done) | exact h.of_eq (by with_reducible rfl) (by with_reducible rfl) (by with_reducible rfl) (by with_reducible rfl) | simp +contextual (maxDischargeDepth := 100) [*]

@[simp] theorem keeps_saveStep2 {s : State} (a0 : Option HifCut) {x : State} (h : Keeps s x) :
    Keeps s (saveStep2 a0 x) := by
  unfold saveStep2
  try dsimp only
  repeat' split
  all_goals first | with_reducible exact h | (simp +contextual (maxDischargeDepth := 100) [*]; done) | exact h.of_eq (by with_reducible rfl) (by with_reducible rfl) (by with_reducible rfl) (by with_reducible rfl) | simp +contextual (maxDischargeDepth := 100) [*]

@[simp] theorem keeps_saveStep3 {s : State} (a0 : Fin 32 → Option Bool) {x : State} (h : Keeps s x) :
    Keeps s (saveStep3 a0 x) := by
  unfold saveStep3
  try dsimp only
  repeat' split
  all_goals first | with_reducible exact h | (simp +contextual (maxDischargeDepth := 100) [*]; done) | exact h.of_eq (by with_reducible rfl) (by with_reducible rfl) (by with_reducible rfl) (by with_reducible rfl) | simp +contextual (maxDischargeDepth := 100) [*]

@[simp] theorem keeps_saveStep4 {s : State}  {x : State} (h : Keeps s x) :
    Keeps s (saveStep4 x) := by
  unfold saveStep4
  try dsimp only
  repeat' split
  all_goals first | with_reducible exact h | (simp +contextual (maxDischargeDepth := 100) [*]; done) | exact h.of_eq (by with_reducible rfl) (by with_reducible rfl) (by with_reducible rfl) (by with_reducible rfl) | simp +contextual (maxDischargeDepth := 100) [*]

@[simp] theorem keeps_saveLog {s : State}  {x : State} (h : Keeps s x) :
    Keeps s (saveLog x) := by
  unfold saveLog
  try dsimp only
  repeat' split
  all_goals first | with_reducible exact h | (simp +contextual (maxDischargeDepth := 100) [*]; done) | exact h.of_eq (by with_reducible rfl) (by with_reducible rfl) (by with_reducible rfl) (by with_reducible rfl) | simp +contextual (maxDischargeDepth := 100) [*]

@[simp] theorem keeps_writeSave {s : State} (a0 : PowerDown) (a1 : ℕ) {x : State} (h : Keeps s x) :
    Keeps s (writeSave a0 a1 x) := by
  unfold writeSave
  try dsimp only
  repeat' split
  all_goals first | with_reducible exact h | (simp +contextual (maxDischargeDepth := 100) [*]; done) | exact h.of_eq (by with_reducible rfl) (by with_reducible rfl) (by with_reducible rfl) (by with_reducible rfl) | simp +contextual (maxDischargeDepth := 100) [*]

@[simp] theorem keeps_skipSave {s : State}  {x : State} (h : Keeps s x) :
    Keeps s (skipSave x) := by
  unfold skipSave
  try dsimp only
  repeat' split
  all_goals first | with_reducible exact h | (simp +contextual (maxDischargeDepth := 100) [*]; done) | exact h.of_eq (by with_reducible rfl) (by with_reducible rfl) (by with_reducible rfl) (by with_reducible rfl) | simp +contextual (maxDischargeDepth := 100) [*]

@[simp] theorem keeps_beginSave {s : State} (a0 : Fin 32 → Option Bool) (a1 : Option HifCut) {x : State} (h : Keeps s x) :
    Keeps s (beginSave a0 a1 x) := by
  unfold beginSave
  try dsimp only
  repeat' split
  all_goals first | with_reducible exact h | (simp +contextual (maxDischargeDepth := 100) [*]; done) | exact h.of_eq (by with_reducible rfl) (by with_reducible rfl) (by with_reducible rfl) (by with_reducible rfl) | simp +contextual (maxDischargeDepth := 100) [*]

@[simp] theorem keeps_saveUnpowered {s : State}  {x : State} (h : Keeps s x) :
    Keeps s (saveUnpowered x) := by
  unfold saveUnpowered
  try dsimp only
  repeat' split
  all_goals first | with_reducible exact h | (simp +contextual (maxDischargeDepth := 100) [*]; done) | exact h.of_eq (by with_reducible rfl) (by with_reducible rfl) (by with_reducible rfl) (by with_reducible rfl) | simp +contextual (maxDischargeDepth := 100) [*]

@[simp] theorem keeps_saveRegisters {s : State}  {x : State} (h : Keeps s x) :
    Keeps s (saveRegisters x) := by
  unfold saveRegisters
  try dsimp only
  repeat' split
  all_goals first | with_reducible exact h | (simp +contextual (maxDischargeDepth := 100) [*]; done) | exact h.of_eq (by with_reducible rfl) (by with_reducible rfl) (by with_reducible rfl) (by with_reducible rfl) | simp +contextual (maxDischargeDepth := 100) [*]

/-- Every item that a save step writes keeps it. -/
theorem keeps_saveItems {s : State} (y : State) (n : ℕ) : ∀ f ∈ saveItems y n, ∀ x, Keeps s x → Keeps s (f x) := by
  intro f hf x h
  unfold saveItems at hf
  split at hf
  · split at hf <;> simp at hf
    rcases hf with rfl | rfl | rfl <;> simp [h]
  · split at hf <;> simp at hf
    subst hf; simp [h]
  · split at hf <;> simp at hf
    subst hf; simp [h]
  · cases hf

@[simp] theorem keeps_runSave {s : State} (a0 : ℕ) (a1 : ℕ) {x : State} (h : Keeps s x) :
    Keeps s (runSave a0 a1 x) := by
  unfold runSave
  refine keeps_beginStep _ ?_
  have k : ∀ l : List (State → State), (∀ f ∈ l, ∀ y, Keeps s y → Keeps s (f y)) → ∀ y, Keeps s y → Keeps s (forEach l (fun f s => f s) y) := by
    intro l
    induction l with
    | nil => exact fun _ y hy => hy
    | cons f l ih => exact fun hl y hy => ih (fun g hg => hl g (by simp [hg])) _ (hl f (by simp) y hy)
  refine k _ (fun f hf => ?_) x h
  rw [List.mem_flatMap] at hf
  obtain ⟨n, -, hf⟩ := hf
  split at hf
  · exact keeps_saveItems x n f hf
  · split at hf
    · exact keeps_saveItems x n f (List.mem_of_mem_take hf)
    · cases hf

end Sys2Proof.Machine
end

