-- ==== Sys2Proof/Laws/KeepsClocks.lean ====
section
/-! SUPPORT. The operations of Machine/Clocks.lean keep what `Keeps` says. -/

set_option linter.unusedVariables false
set_option linter.unusedSimpArgs false
set_option linter.unusedTactic false
set_option linter.unreachableTactic false

namespace Sys2Proof.Machine

theorem keeps_execRefFault {s : State}  {x : State} (h : Keeps s x) :
    OutKeeps s (execRefFault x) := by
  unfold execRefFault
  first
    | (simp +contextual (maxDischargeDepth := 100) [*]; done)
    | (refine (outKeeps_next _ _).2 (keeps_ifDo _ (fun hy => ?_) h)
       try dsimp only
       repeat' split
       all_goals simp +contextual (maxDischargeDepth := 100) [*])

theorem keeps_execMetClockFault {s : State}  {x : State} (h : Keeps s x) :
    OutKeeps s (execMetClockFault x) := by
  unfold execMetClockFault
  first
    | (simp +contextual (maxDischargeDepth := 100) [*]; done)
    | (refine (outKeeps_next _ _).2 (keeps_ifDo _ (fun hy => ?_) h)
       try dsimp only
       repeat' split
       all_goals simp +contextual (maxDischargeDepth := 100) [*])

theorem keeps_execAppClockFault {s : State}  {x : State} (h : Keeps s x) :
    OutKeeps s (execAppClockFault x) := by
  unfold execAppClockFault
  first
    | (simp +contextual (maxDischargeDepth := 100) [*]; done)
    | (refine (outKeeps_next _ _).2 (keeps_ifDo _ (fun hy => ?_) h)
       try dsimp only
       repeat' split
       all_goals simp +contextual (maxDischargeDepth := 100) [*])

@[simp] theorem keeps_startCan {s : State}  {x : State} (h : Keeps s x) :
    Keeps s (startCan x) := by
  unfold startCan
  try dsimp only
  repeat' split
  all_goals first | with_reducible exact h | (simp +contextual (maxDischargeDepth := 100) [*]; done) | exact h.of_eq (by with_reducible rfl) (by with_reducible rfl) (by with_reducible rfl) (by with_reducible rfl) | simp +contextual (maxDischargeDepth := 100) [*]

@[simp] theorem keeps_portsDown {s : State} (a0 : List (Fin 8)) {x : State} (h : Keeps s x) :
    Keeps s (portsDown a0 x) := by
  unfold portsDown
  try dsimp only
  repeat' split
  all_goals first | with_reducible exact h | (simp +contextual (maxDischargeDepth := 100) [*]; done) | exact h.of_eq (by with_reducible rfl) (by with_reducible rfl) (by with_reducible rfl) (by with_reducible rfl) | simp +contextual (maxDischargeDepth := 100) [*]

@[simp] theorem keeps_pllStops {s : State} (a0 : Domain) (a1 : Bool) {x : State} (h : Keeps s x) :
    Keeps s (pllStops a0 a1 x) := by
  unfold pllStops
  try dsimp only
  repeat' split
  all_goals first | with_reducible exact h | (simp +contextual (maxDischargeDepth := 100) [*]; done) | exact h.of_eq (by with_reducible rfl) (by with_reducible rfl) (by with_reducible rfl) (by with_reducible rfl) | simp +contextual (maxDischargeDepth := 100) [*]

theorem keeps_execPllDomainFault {s : State} (a0 : Domain) {x : State} (h : Keeps s x) :
    OutKeeps s (execPllDomainFault a0 x) := by
  unfold execPllDomainFault
  try dsimp only
  repeat' split
  all_goals first | with_reducible exact h | (simp +contextual (maxDischargeDepth := 100) [*]; done) | exact h.of_eq (by with_reducible rfl) (by with_reducible rfl) (by with_reducible rfl) (by with_reducible rfl) | simp +contextual (maxDischargeDepth := 100) [*]

@[simp] theorem keeps_domainResumes {s : State} (a0 : Domain) {x : State} (h : Keeps s x) :
    Keeps s (domainResumes a0 x) := by
  unfold domainResumes
  try dsimp only
  repeat' split
  all_goals first | with_reducible exact h | (simp +contextual (maxDischargeDepth := 100) [*]; done) | exact h.of_eq (by with_reducible rfl) (by with_reducible rfl) (by with_reducible rfl) (by with_reducible rfl) | simp +contextual (maxDischargeDepth := 100) [*]

theorem keeps_execDomainReadmitted {s : State} (a0 : Domain) {x : State} (h : Keeps s x) :
    OutKeeps s (execDomainReadmitted a0 x) := by
  unfold execDomainReadmitted
  first
    | (simp +contextual (maxDischargeDepth := 100) [*]; done)
    | (refine (outKeeps_next _ _).2 (keeps_ifDo _ (fun hy => ?_) h)
       try dsimp only
       repeat' split
       all_goals simp +contextual (maxDischargeDepth := 100) [*])

end Sys2Proof.Machine
end

