-- ==== Sys2Proof/Laws/KeepsDisplay.lean ====
section
/-! SUPPORT. The operations of Machine/Display.lean keep what `Keeps` says. -/

set_option linter.unusedVariables false
set_option linter.unusedSimpArgs false
set_option linter.unusedTactic false
set_option linter.unreachableTactic false

namespace Sys2Proof.Machine

theorem keeps_execDisplayRegionWrite {s : State} (a0 : Mailbox) {x : State} (h : Keeps s x) :
    OutKeeps s (execDisplayRegionWrite a0 x) := by
  unfold execDisplayRegionWrite
  first
    | (simp +contextual (maxDischargeDepth := 100) [*]; done)
    | (refine (outKeeps_next _ _).2 (keeps_runCommand _ _ (fun b y hy => ?_) h)
       try dsimp only
       try refine replyKeeps_guards _ _ hy ?_
       repeat' split
       all_goals simp +contextual (maxDischargeDepth := 100) [*])

theorem keeps_execDisplayUpdate {s : State} (a0 : Mailbox) {x : State} (h : Keeps s x) :
    OutKeeps s (execDisplayUpdate a0 x) := by
  unfold execDisplayUpdate
  first
    | (simp +contextual (maxDischargeDepth := 100) [*]; done)
    | (refine (outKeeps_next _ _).2 (keeps_runCommand _ _ (fun b y hy => ?_) h)
       try dsimp only
       try refine replyKeeps_guards _ _ hy ?_
       repeat' split
       all_goals simp +contextual (maxDischargeDepth := 100) [*])

theorem keeps_execSegmentSet {s : State} (a0 : Mailbox) {x : State} (h : Keeps s x) :
    OutKeeps s (execSegmentSet a0 x) := by
  unfold execSegmentSet
  first
    | (simp +contextual (maxDischargeDepth := 100) [*]; done)
    | (refine (outKeeps_next _ _).2 (keeps_runCommand _ _ (fun b y hy => ?_) h)
       try dsimp only
       try refine replyKeeps_guards _ _ hy ?_
       repeat' split
       all_goals simp +contextual (maxDischargeDepth := 100) [*])

theorem keeps_execDisplayStatusGet {s : State} (a0 : Mailbox) {x : State} (h : Keeps s x) :
    OutKeeps s (execDisplayStatusGet a0 x) := by
  unfold execDisplayStatusGet
  first
    | (simp +contextual (maxDischargeDepth := 100) [*]; done)
    | (refine (outKeeps_next _ _).2 (keeps_runCommand _ _ (fun b y hy => ?_) h)
       try dsimp only
       try refine replyKeeps_guards _ _ hy ?_
       repeat' split
       all_goals simp +contextual (maxDischargeDepth := 100) [*])

@[simp] theorem keeps_startUpdate {s : State} (a0 : ℤ) (a1 : Fin 8) {x : State} (h : Keeps s x) :
    Keeps s (startUpdate a0 a1 x) := by
  unfold startUpdate
  try dsimp only
  repeat' split
  all_goals first | with_reducible exact h | (simp +contextual (maxDischargeDepth := 100) [*]; done) | exact h.of_eq (by with_reducible rfl) (by with_reducible rfl) (by with_reducible rfl) (by with_reducible rfl) | simp +contextual (maxDischargeDepth := 100) [*]

theorem keeps_execDisplayUpdateStart {s : State} (a0 : Option ℤ) {x : State} (h : Keeps s x) :
    OutKeeps s (execDisplayUpdateStart a0 x) := by
  unfold execDisplayUpdateStart
  first
    | (simp +contextual (maxDischargeDepth := 100) [*]; done)
    | (refine (outKeeps_next _ _).2 (keeps_ifDo _ (fun hy => ?_) h)
       try dsimp only
       repeat' split
       all_goals simp +contextual (maxDischargeDepth := 100) [*])

theorem keeps_execDisplayFrame {s : State}  {x : State} (h : Keeps s x) :
    OutKeeps s (execDisplayFrame x) := by
  unfold execDisplayFrame
  first
    | (simp +contextual (maxDischargeDepth := 100) [*]; done)
    | (refine (outKeeps_next _ _).2 (keeps_ifDo _ (fun hy => ?_) h)
       try dsimp only
       repeat' split
       all_goals simp +contextual (maxDischargeDepth := 100) [*])

theorem keeps_execDisplayUpdateEnd {s : State} (a0 : Fin 8) {x : State} (h : Keeps s x) :
    OutKeeps s (execDisplayUpdateEnd a0 x) := by
  unfold execDisplayUpdateEnd
  try dsimp only
  repeat' split
  all_goals first | with_reducible exact h | (simp +contextual (maxDischargeDepth := 100) [*]; done) | exact h.of_eq (by with_reducible rfl) (by with_reducible rfl) (by with_reducible rfl) (by with_reducible rfl) | simp +contextual (maxDischargeDepth := 100) [*]

theorem keeps_execLegalUpdateRequest {s : State}  {x : State} (h : Keeps s x) :
    OutKeeps s (execLegalUpdateRequest x) := by
  unfold execLegalUpdateRequest
  first
    | (simp +contextual (maxDischargeDepth := 100) [*]; done)
    | (refine (outKeeps_next _ _).2 (keeps_ifDo _ (fun hy => ?_) h)
       try dsimp only
       repeat' split
       all_goals simp +contextual (maxDischargeDepth := 100) [*])

@[simp] theorem keeps_judgeOutputs {s : State} (a0 : List DispOutput) {x : State} (h : Keeps s x) :
    Keeps s (judgeOutputs a0 x) := by
  unfold judgeOutputs
  try dsimp only
  repeat' split
  all_goals first | with_reducible exact h | (simp +contextual (maxDischargeDepth := 100) [*]; done) | exact h.of_eq (by with_reducible rfl) (by with_reducible rfl) (by with_reducible rfl) (by with_reducible rfl) | simp +contextual (maxDischargeDepth := 100) [*]

theorem keeps_execOutputTest {s : State} (a0 : OutputCharges) {x : State} (h : Keeps s x) :
    OutKeeps s (execOutputTest a0 x) := by
  unfold execOutputTest
  try dsimp only
  repeat' split
  all_goals first | with_reducible exact h | (simp +contextual (maxDischargeDepth := 100) [*]; done) | exact h.of_eq (by with_reducible rfl) (by with_reducible rfl) (by with_reducible rfl) (by with_reducible rfl) | simp +contextual (maxDischargeDepth := 100) [*]

theorem keeps_execAgeingSensing {s : State} (a0 : List ℕ) {x : State} (h : Keeps s x) :
    OutKeeps s (execAgeingSensing a0 x) := by
  unfold execAgeingSensing
  try dsimp only
  repeat' split
  all_goals first | with_reducible exact h | (simp +contextual (maxDischargeDepth := 100) [*]; done) | exact h.of_eq (by with_reducible rfl) (by with_reducible rfl) (by with_reducible rfl) (by with_reducible rfl) | simp +contextual (maxDischargeDepth := 100) [*]

theorem keeps_execTileCounterWrite {s : State}  {x : State} (h : Keeps s x) :
    OutKeeps s (execTileCounterWrite x) := by
  unfold execTileCounterWrite
  first
    | (simp +contextual (maxDischargeDepth := 100) [*]; done)
    | (refine (outKeeps_next _ _).2 (keeps_ifDo _ (fun hy => ?_) h)
       try dsimp only
       repeat' split
       all_goals simp +contextual (maxDischargeDepth := 100) [*])

theorem keeps_execDisplayDieFault {s : State}  {x : State} (h : Keeps s x) :
    OutKeeps s (execDisplayDieFault x) := by
  unfold execDisplayDieFault
  first
    | (simp +contextual (maxDischargeDepth := 100) [*]; done)
    | (refine (outKeeps_next _ _).2 (keeps_ifDo _ (fun hy => ?_) h)
       try dsimp only
       repeat' split
       all_goals simp +contextual (maxDischargeDepth := 100) [*])

theorem keeps_execTempChannelStale {s : State}  {x : State} (h : Keeps s x) :
    OutKeeps s (execTempChannelStale x) := by
  unfold execTempChannelStale
  try dsimp only
  repeat' split
  all_goals first | with_reducible exact h | (simp +contextual (maxDischargeDepth := 100) [*]; done) | exact h.of_eq (by with_reducible rfl) (by with_reducible rfl) (by with_reducible rfl) (by with_reducible rfl) | simp +contextual (maxDischargeDepth := 100) [*]

theorem keeps_execCrackCheck {s : State} (a0 : ℕ) {x : State} (h : Keeps s x) :
    OutKeeps s (execCrackCheck a0 x) := by
  unfold execCrackCheck
  try dsimp only
  repeat' split
  all_goals first | with_reducible exact h | (simp +contextual (maxDischargeDepth := 100) [*]; done) | exact h.of_eq (by with_reducible rfl) (by with_reducible rfl) (by with_reducible rfl) (by with_reducible rfl) | simp +contextual (maxDischargeDepth := 100) [*]

theorem keeps_execSegmentRedrive {s : State}  {x : State} (h : Keeps s x) :
    OutKeeps s (execSegmentRedrive x) := by
  unfold execSegmentRedrive
  first
    | (simp +contextual (maxDischargeDepth := 100) [*]; done)
    | (refine (outKeeps_next _ _).2 (keeps_ifDo _ (fun hy => ?_) h)
       try dsimp only
       repeat' split
       all_goals simp +contextual (maxDischargeDepth := 100) [*])

end Sys2Proof.Machine
end

