-- ==== Sys2Proof/Laws/KeepsHostPort.lean ====
section
/-! SUPPORT. The operations of Machine/HostPort.lean keep what `Keeps` says. -/

set_option linter.unusedVariables false
set_option linter.unusedSimpArgs false
set_option linter.unusedTactic false
set_option linter.unreachableTactic false

namespace Sys2Proof.Machine

theorem keeps_execRegisterWrite {s : State} (a0 : Byte) (a1 : BitVec 16) (a2 : List Word32) {x : State} (h : Keeps s x) :
    OutKeeps s (execRegisterWrite a0 a1 a2 x) := by
  unfold execRegisterWrite
  try dsimp only
  repeat' split
  all_goals first | with_reducible exact h | (simp +contextual (maxDischargeDepth := 100) [*]; done) | exact h.of_eq (by with_reducible rfl) (by with_reducible rfl) (by with_reducible rfl) (by with_reducible rfl) | simp +contextual (maxDischargeDepth := 100) [*]

theorem keeps_execBadOpcode {s : State} (a0 : Byte) {x : State} (h : Keeps s x) :
    OutKeeps s (execBadOpcode a0 x) := by
  unfold execBadOpcode
  try dsimp only
  repeat' split
  all_goals first | with_reducible exact h | (simp +contextual (maxDischargeDepth := 100) [*]; done) | exact h.of_eq (by with_reducible rfl) (by with_reducible rfl) (by with_reducible rfl) (by with_reducible rfl) | simp +contextual (maxDischargeDepth := 100) [*]

theorem keeps_execSetCmdWidth {s : State} (a0 : Word32) {x : State} (h : Keeps s x) :
    OutKeeps s (execSetCmdWidth a0 x) := by
  unfold execSetCmdWidth
  try dsimp only
  repeat' split
  all_goals first | with_reducible exact h | (simp +contextual (maxDischargeDepth := 100) [*]; done) | exact h.of_eq (by with_reducible rfl) (by with_reducible rfl) (by with_reducible rfl) (by with_reducible rfl) | simp +contextual (maxDischargeDepth := 100) [*]

theorem keeps_execResetCmdWidth {s : State}  {x : State} (h : Keeps s x) :
    OutKeeps s (execResetCmdWidth x) := by
  unfold execResetCmdWidth
  try dsimp only
  repeat' split
  all_goals first | with_reducible exact h | (simp +contextual (maxDischargeDepth := 100) [*]; done) | exact h.of_eq (by with_reducible rfl) (by with_reducible rfl) (by with_reducible rfl) (by with_reducible rfl) | simp +contextual (maxDischargeDepth := 100) [*]

@[simp] theorem keeps_sendMore {s : State} (a0 : List Sent) {x : State} (h : Keeps s x) :
    Keeps s (sendMore a0 x) := by
  unfold sendMore
  try dsimp only
  repeat' split
  all_goals first | with_reducible exact h | (simp +contextual (maxDischargeDepth := 100) [*]; done) | exact h.of_eq (by with_reducible rfl) (by with_reducible rfl) (by with_reducible rfl) (by with_reducible rfl) | simp +contextual (maxDischargeDepth := 100) [*]

@[simp] theorem keeps_readWord {s : State} (a0 : ReadWord) (a1 : ℕ) {x : State} (h : Keeps s x) :
    Keeps s (readWord a0 a1 x) := by
  unfold readWord
  try dsimp only
  repeat' split
  all_goals first | with_reducible exact h | (simp +contextual (maxDischargeDepth := 100) [*]; done) | exact h.of_eq (by with_reducible rfl) (by with_reducible rfl) (by with_reducible rfl) (by with_reducible rfl) | simp +contextual (maxDischargeDepth := 100) [*]

@[simp] theorem keeps_serveRead {s : State} (a0 : ℕ) (a1 : Bool) (a2 : List ReadWord) {x : State} (h : Keeps s x) :
    Keeps s (serveRead a0 a1 a2 x) := by
  induction a2 generalizing a0 a1 x with
  | nil => exact h
  | cons r l ih => exact ih _ _ (keeps_readWord r a0 (keeps_sendMore _ h))

@[simp] theorem keeps_beginRead {s : State} (a0 : Byte) (a1 : ℕ) {x : State} (h : Keeps s x) :
    Keeps s (beginRead a0 a1 x) := by
  unfold beginRead
  try dsimp only
  repeat' split
  all_goals first | with_reducible exact h | (simp +contextual (maxDischargeDepth := 100) [*]; done) | exact h.of_eq (by with_reducible rfl) (by with_reducible rfl) (by with_reducible rfl) (by with_reducible rfl) | simp +contextual (maxDischargeDepth := 100) [*]

theorem keeps_execReadDataReady {s : State} (a0 : Byte) (a1 : BitVec 16) (a2 : List ReadWord) {x : State} (h : Keeps s x) :
    OutKeeps s (execReadDataReady a0 a1 a2 x) := by
  unfold execReadDataReady
  exact outKeeps_when _ (keeps_transaction _ (fun y hy => keeps_serveRead _ _ _ (keeps_beginRead _ _ hy)) h)

theorem keeps_execBusyTimeout {s : State} (a0 : Byte) (a1 : BitVec 16) (a2 : List ReadWord) (a3 : ℕ) (a4 : ℕ) {x : State} (h : Keeps s x) :
    OutKeeps s (execBusyTimeout a0 a1 a2 a3 a4 x) := by
  unfold execBusyTimeout
  exact outKeeps_when _ (keeps_transaction _ (fun y hy =>
    keeps_sendMore _ (keeps_setStatus _ (keeps_serveRead _ _ _ (keeps_beginRead _ _ hy)))) h)

theorem keeps_execEarlySelectRelease {s : State} (a0 : Byte) (a1 : BitVec 16) (a2 : List Word32) (a3 : Cut) {x : State} (h : Keeps s x) :
    OutKeeps s (execEarlySelectRelease a0 a1 a2 a3 x) := by
  unfold execEarlySelectRelease
  try dsimp only
  repeat' split
  all_goals first | with_reducible exact h | (simp +contextual (maxDischargeDepth := 100) [*]; done) | exact h.of_eq (by with_reducible rfl) (by with_reducible rfl) (by with_reducible rfl) (by with_reducible rfl) | simp +contextual (maxDischargeDepth := 100) [*]

theorem keeps_execTransactionNotReady {s : State}  {x : State} (h : Keeps s x) :
    OutKeeps s (execTransactionNotReady x) := by
  unfold execTransactionNotReady
  try dsimp only
  repeat' split
  all_goals first | with_reducible exact h | (simp +contextual (maxDischargeDepth := 100) [*]; done) | exact h.of_eq (by with_reducible rfl) (by with_reducible rfl) (by with_reducible rfl) (by with_reducible rfl) | simp +contextual (maxDischargeDepth := 100) [*]

theorem keeps_execWriteBufferDrained {s : State}  {x : State} (h : Keeps s x) :
    OutKeeps s (execWriteBufferDrained x) := by
  unfold execWriteBufferDrained
  try dsimp only
  repeat' split
  all_goals first | with_reducible exact h | (simp +contextual (maxDischargeDepth := 100) [*]; done) | exact h.of_eq (by with_reducible rfl) (by with_reducible rfl) (by with_reducible rfl) (by with_reducible rfl) | simp +contextual (maxDischargeDepth := 100) [*]

theorem keeps_execCmdDoorbell {s : State} (a0 : Word32) {x : State} (h : Keeps s x) :
    OutKeeps s (execCmdDoorbell a0 x) := by
  unfold execCmdDoorbell
  try dsimp only
  repeat' split
  all_goals first | with_reducible exact h | (simp +contextual (maxDischargeDepth := 100) [*]; done) | exact h.of_eq (by with_reducible rfl) (by with_reducible rfl) (by with_reducible rfl) (by with_reducible rfl) | simp +contextual (maxDischargeDepth := 100) [*]

theorem keeps_execCmdRelease {s : State} (a0 : Word32) {x : State} (h : Keeps s x) :
    OutKeeps s (execCmdRelease a0 x) := by
  unfold execCmdRelease
  try dsimp only
  repeat' split
  all_goals first | with_reducible exact h | (simp +contextual (maxDischargeDepth := 100) [*]; done) | exact h.of_eq (by with_reducible rfl) (by with_reducible rfl) (by with_reducible rfl) (by with_reducible rfl) | simp +contextual (maxDischargeDepth := 100) [*]

theorem keeps_execEvtAck {s : State} (a0 : Word32) {x : State} (h : Keeps s x) :
    OutKeeps s (execEvtAck a0 x) := by
  unfold execEvtAck
  try dsimp only
  repeat' split
  all_goals first | with_reducible exact h | (simp +contextual (maxDischargeDepth := 100) [*]; done) | exact h.of_eq (by with_reducible rfl) (by with_reducible rfl) (by with_reducible rfl) (by with_reducible rfl) | simp +contextual (maxDischargeDepth := 100) [*]

theorem keeps_execHifStatusClear {s : State} (a0 : Word32) {x : State} (h : Keeps s x) :
    OutKeeps s (execHifStatusClear a0 x) := by
  unfold execHifStatusClear
  try dsimp only
  repeat' split
  all_goals first | with_reducible exact h | (simp +contextual (maxDischargeDepth := 100) [*]; done) | exact h.of_eq (by with_reducible rfl) (by with_reducible rfl) (by with_reducible rfl) (by with_reducible rfl) | simp +contextual (maxDischargeDepth := 100) [*]

theorem keeps_execResetKeyAppCores {s : State} (a0 : Word32) {x : State} (h : Keeps s x) :
    OutKeeps s (execResetKeyAppCores a0 x) := by
  unfold execResetKeyAppCores
  try dsimp only
  repeat' split
  all_goals first | with_reducible exact h | (simp +contextual (maxDischargeDepth := 100) [*]; done) | exact h.of_eq (by with_reducible rfl) (by with_reducible rfl) (by with_reducible rfl) (by with_reducible rfl) | simp +contextual (maxDischargeDepth := 100) [*]

theorem keeps_execResetKeyRstN {s : State} (a0 : Word32) {x : State} (h : Keeps s x) :
    OutKeeps s (execResetKeyRstN a0 x) := by
  unfold execResetKeyRstN
  try dsimp only
  repeat' split
  all_goals first | with_reducible exact h | (simp +contextual (maxDischargeDepth := 100) [*]; done) | exact h.of_eq (by with_reducible rfl) (by with_reducible rfl) (by with_reducible rfl) (by with_reducible rfl) | simp +contextual (maxDischargeDepth := 100) [*]

theorem keeps_execEventRaise {s : State} (a0 : BitVec 16) (a1 : Bytes) {x : State} (h : Keeps s x) :
    OutKeeps s (execEventRaise a0 a1 x) := by
  unfold execEventRaise
  try dsimp only
  repeat' split
  all_goals first | with_reducible exact h | (simp +contextual (maxDischargeDepth := 100) [*]; done) | exact h.of_eq (by with_reducible rfl) (by with_reducible rfl) (by with_reducible rfl) (by with_reducible rfl) | simp +contextual (maxDischargeDepth := 100) [*]

theorem keeps_execModuleVersionGet {s : State} (a0 : Mailbox) {x : State} (h : Keeps s x) :
    OutKeeps s (execModuleVersionGet a0 x) := by
  unfold execModuleVersionGet
  first
    | (simp +contextual (maxDischargeDepth := 100) [*]; done)
    | (refine (outKeeps_next _ _).2 (keeps_runCommand _ _ (fun b y hy => ?_) h)
       try dsimp only
       try refine replyKeeps_guards _ _ hy ?_
       repeat' split
       all_goals simp +contextual (maxDischargeDepth := 100) [*])

theorem keeps_execCommandListGet {s : State} (a0 : Mailbox) {x : State} (h : Keeps s x) :
    OutKeeps s (execCommandListGet a0 x) := by
  unfold execCommandListGet
  first
    | (simp +contextual (maxDischargeDepth := 100) [*]; done)
    | (refine (outKeeps_next _ _).2 (keeps_runCommand _ _ (fun b y hy => ?_) h)
       try dsimp only
       try refine replyKeeps_guards _ _ hy ?_
       repeat' split
       all_goals simp +contextual (maxDischargeDepth := 100) [*])

theorem keeps_execModuleStatusGet {s : State} (a0 : Mailbox) {x : State} (h : Keeps s x) :
    OutKeeps s (execModuleStatusGet a0 x) := by
  unfold execModuleStatusGet
  first
    | (simp +contextual (maxDischargeDepth := 100) [*]; done)
    | (refine (outKeeps_next _ _).2 (keeps_runCommand _ _ (fun b y hy => ?_) h)
       try dsimp only
       try refine replyKeeps_guards _ _ hy ?_
       repeat' split
       all_goals simp +contextual (maxDischargeDepth := 100) [*])

end Sys2Proof.Machine
end

