-- ==== Sys2Proof/Laws/KeepsIdle.lean ====
section
/-! SUPPORT. The operations of Machine/Idle.lean keep what `Keeps` says. -/

set_option linter.unusedVariables false
set_option linter.unusedSimpArgs false
set_option linter.unusedTactic false
set_option linter.unreachableTactic false

namespace Sys2Proof.Machine

@[simp] theorem keeps_closeForIdle {s : State}  {x : State} (h : Keeps s x) :
    Keeps s (closeForIdle x) := by
  unfold closeForIdle
  try dsimp only
  repeat' split
  all_goals first | with_reducible exact h | (simp +contextual (maxDischargeDepth := 100) [*]; done) | exact h.of_eq (by with_reducible rfl) (by with_reducible rfl) (by with_reducible rfl) (by with_reducible rfl) | simp +contextual (maxDischargeDepth := 100) [*]

theorem keeps_execIdleEntry {s : State}  {x : State} (h : Keeps s x) :
    OutKeeps s (execIdleEntry x) := by
  unfold execIdleEntry
  try dsimp only
  repeat' split
  all_goals first | with_reducible exact h | (simp +contextual (maxDischargeDepth := 100) [*]; done) | exact h.of_eq (by with_reducible rfl) (by with_reducible rfl) (by with_reducible rfl) (by with_reducible rfl) | simp +contextual (maxDischargeDepth := 100) [*]

@[simp] theorem keeps_modulesIdle {s : State}  {x : State} (h : Keeps s x) :
    Keeps s (modulesIdle x) := by
  unfold modulesIdle
  try dsimp only
  repeat' split
  all_goals first | with_reducible exact h | (simp +contextual (maxDischargeDepth := 100) [*]; done) | exact h.of_eq (by with_reducible rfl) (by with_reducible rfl) (by with_reducible rfl) (by with_reducible rfl) | simp +contextual (maxDischargeDepth := 100) [*]

theorem keeps_execAppIslandRemoved {s : State}  {x : State} (h : Keeps s x) :
    OutKeeps s (execAppIslandRemoved x) := by
  unfold execAppIslandRemoved
  first
    | (simp +contextual (maxDischargeDepth := 100) [*]; done)
    | (refine (outKeeps_next _ _).2 (keeps_ifDo _ (fun hy => ?_) h)
       try dsimp only
       repeat' split
       all_goals simp +contextual (maxDischargeDepth := 100) [*])

@[simp] theorem keeps_takeHeld {s : State}  {x : State} (h : Keeps s x) :
    Keeps s (takeHeld x) := by
  unfold takeHeld
  try dsimp only
  repeat' split
  all_goals first | with_reducible exact h | (simp +contextual (maxDischargeDepth := 100) [*]; done) | exact h.of_eq (by with_reducible rfl) (by with_reducible rfl) (by with_reducible rfl) (by with_reducible rfl) | simp +contextual (maxDischargeDepth := 100) [*]

theorem keeps_execWakeComplete {s : State}  {x : State} (h : Keeps s x) :
    OutKeeps s (execWakeComplete x) := by
  unfold execWakeComplete
  first
    | (simp +contextual (maxDischargeDepth := 100) [*]; done)
    | (refine (outKeeps_next _ _).2 (keeps_ifDo _ (fun hy => ?_) h)
       try dsimp only
       repeat' split
       all_goals simp +contextual (maxDischargeDepth := 100) [*])

theorem keeps_execNetworkWakeFrame {s : State} (a0 : Fin 4) (a1 : WakeFrame) (a2 : Bytes) {x : State} (h : Keeps s x) :
    OutKeeps s (execNetworkWakeFrame a0 a1 a2 x) := by
  unfold execNetworkWakeFrame
  try dsimp only
  repeat' split
  all_goals first | with_reducible exact h | (simp +contextual (maxDischargeDepth := 100) [*]; done) | exact h.of_eq (by with_reducible rfl) (by with_reducible rfl) (by with_reducible rfl) (by with_reducible rfl) | simp +contextual (maxDischargeDepth := 100) [*]

theorem keeps_execArpReplyIdle {s : State} (a0 : Fin 4) {x : State} (h : Keeps s x) :
    OutKeeps s (execArpReplyIdle a0 x) := by
  unfold execArpReplyIdle
  try dsimp only
  repeat' split
  all_goals first | with_reducible exact h | (simp +contextual (maxDischargeDepth := 100) [*]; done) | exact h.of_eq (by with_reducible rfl) (by with_reducible rfl) (by with_reducible rfl) (by with_reducible rfl) | simp +contextual (maxDischargeDepth := 100) [*]

@[simp] theorem keeps_eraseOrphans {s : State}  {x : State} (h : Keeps s x) :
    Keeps s (eraseOrphans x) := by
  unfold eraseOrphans
  try dsimp only
  repeat' split
  all_goals first | with_reducible exact h | (simp +contextual (maxDischargeDepth := 100) [*]; done) | exact h.of_eq (by with_reducible rfl) (by with_reducible rfl) (by with_reducible rfl) (by with_reducible rfl) | simp +contextual (maxDischargeDepth := 100) [*]

@[simp] theorem keeps_loseTile {s : State} (a0 : Fin 256) {x : State} (h : Keeps s x) :
    Keeps s (loseTile a0 x) := by
  unfold loseTile
  try dsimp only
  repeat' split
  all_goals first | with_reducible exact h | (simp +contextual (maxDischargeDepth := 100) [*]; done) | exact h.of_eq (by with_reducible rfl) (by with_reducible rfl) (by with_reducible rfl) (by with_reducible rfl) | simp +contextual (maxDischargeDepth := 100) [*]

@[simp] theorem keeps_loseLegal {s : State} (a0 : ℕ) (a1 : ℕ) {x : State} (h : Keeps s x) :
    Keeps s (loseLegal a0 a1 x) := by
  unfold loseLegal
  try dsimp only
  repeat' split
  all_goals first | with_reducible exact h | (simp +contextual (maxDischargeDepth := 100) [*]; done) | exact h.of_eq (by with_reducible rfl) (by with_reducible rfl) (by with_reducible rfl) (by with_reducible rfl) | simp +contextual (maxDischargeDepth := 100) [*]

@[simp] theorem keeps_loseControl {s : State} (a0 : ℕ) {x : State} (h : Keeps s x) :
    Keeps s (loseControl a0 x) := by
  unfold loseControl
  try dsimp only
  repeat' split
  all_goals first | with_reducible exact h | (simp +contextual (maxDischargeDepth := 100) [*]; done) | exact h.of_eq (by with_reducible rfl) (by with_reducible rfl) (by with_reducible rfl) (by with_reducible rfl) | simp +contextual (maxDischargeDepth := 100) [*]

@[simp] theorem keeps_regionLost {s : State} (a0 : MemRegion) (a1 : Word32) {x : State} (h : Keeps s x) :
    Keeps s (regionLost a0 a1 x) := by
  unfold regionLost
  try dsimp only
  repeat' split
  all_goals first | with_reducible exact h | (simp +contextual (maxDischargeDepth := 100) [*]; done) | exact h.of_eq (by with_reducible rfl) (by with_reducible rfl) (by with_reducible rfl) (by with_reducible rfl) | simp +contextual (maxDischargeDepth := 100) [*]

@[simp] theorem keeps_moveRings {s : State} (a0 : MemRegion) {x : State} (h : Keeps s x) :
    Keeps s (moveRings a0 x) := by
  unfold moveRings
  try dsimp only
  repeat' split
  all_goals first | with_reducible exact h | (simp +contextual (maxDischargeDepth := 100) [*]; done) | exact h.of_eq (by with_reducible rfl) (by with_reducible rfl) (by with_reducible rfl) (by with_reducible rfl) | simp +contextual (maxDischargeDepth := 100) [*]

@[simp] theorem keeps_passGranule {s : State} (a0 : MemRegion) {x : State} (h : Keeps s x) :
    Keeps s (passGranule a0 x) := by
  unfold passGranule
  try dsimp only
  repeat' split
  all_goals first | with_reducible exact h | (simp +contextual (maxDischargeDepth := 100) [*]; done) | exact h.of_eq (by with_reducible rfl) (by with_reducible rfl) (by with_reducible rfl) (by with_reducible rfl) | simp +contextual (maxDischargeDepth := 100) [*]

theorem keeps_execRinseGranule {s : State} (a0 : MemRegion) (a1 : GranuleOutcome) {x : State} (h : Keeps s x) :
    OutKeeps s (execRinseGranule a0 a1 x) := by
  unfold execRinseGranule
  try dsimp only
  repeat' split
  all_goals first | with_reducible exact h | (simp +contextual (maxDischargeDepth := 100) [*]; done) | exact h.of_eq (by with_reducible rfl) (by with_reducible rfl) (by with_reducible rfl) (by with_reducible rfl) | simp +contextual (maxDischargeDepth := 100) [*]

@[simp] theorem keeps_noteIdle {s : State}  {x : State} (h : Keeps s x) :
    Keeps s (noteIdle x) := by
  unfold noteIdle
  try dsimp only
  repeat' split
  all_goals first | with_reducible exact h | (simp +contextual (maxDischargeDepth := 100) [*]; done) | exact h.of_eq (by with_reducible rfl) (by with_reducible rfl) (by with_reducible rfl) (by with_reducible rfl) | simp +contextual (maxDischargeDepth := 100) [*]

end Sys2Proof.Machine
end

