-- ==== Sys2Proof/Laws/KeepsNetworks.lean ====
section
/-! SUPPORT. The operations of Machine/Networks.lean keep what `Keeps` says. -/

set_option linter.unusedVariables false
set_option linter.unusedSimpArgs false
set_option linter.unusedTactic false
set_option linter.unreachableTactic false

namespace Sys2Proof.Machine

theorem keeps_execLinkChange {s : State} (a0 : Fin 8) (a1 : Bool) (a2 : ℕ) (a3 : ℕ) (a4 : Bool) {x : State} (h : Keeps s x) :
    OutKeeps s (execLinkChange a0 a1 a2 a3 a4 x) := by
  unfold execLinkChange
  try dsimp only
  repeat' split
  all_goals first | with_reducible exact h | (simp +contextual (maxDischargeDepth := 100) [*]; done) | exact h.of_eq (by with_reducible rfl) (by with_reducible rfl) (by with_reducible rfl) (by with_reducible rfl) | simp +contextual (maxDischargeDepth := 100) [*]

theorem keeps_execCanBusOffRestart {s : State} (a0 : Fin 4) {x : State} (h : Keeps s x) :
    OutKeeps s (execCanBusOffRestart a0 x) := by
  unfold execCanBusOffRestart
  first
    | (simp +contextual (maxDischargeDepth := 100) [*]; done)
    | (refine (outKeeps_next _ _).2 (keeps_ifDo _ (fun hy => ?_) h)
       try dsimp only
       repeat' split
       all_goals simp +contextual (maxDischargeDepth := 100) [*])

theorem keeps_execPortStatusGet {s : State} (a0 : Mailbox) {x : State} (h : Keeps s x) :
    OutKeeps s (execPortStatusGet a0 x) := by
  unfold execPortStatusGet
  first
    | (simp +contextual (maxDischargeDepth := 100) [*]; done)
    | (refine (outKeeps_next _ _).2 (keeps_runCommand _ _ (fun b y hy => ?_) h)
       try dsimp only
       try refine replyKeeps_guards _ _ hy ?_
       repeat' split
       all_goals simp +contextual (maxDischargeDepth := 100) [*])

theorem keeps_execStringPoll {s : State} (a0 : Fin 4) (a1 : Word32) {x : State} (h : Keeps s x) :
    OutKeeps s (execStringPoll a0 a1 x) := by
  unfold execStringPoll
  try dsimp only
  repeat' split
  all_goals first | with_reducible exact h | (simp +contextual (maxDischargeDepth := 100) [*]; done) | exact h.of_eq (by with_reducible rfl) (by with_reducible rfl) (by with_reducible rfl) (by with_reducible rfl) | simp +contextual (maxDischargeDepth := 100) [*]

theorem keeps_execStringReply {s : State} (a0 : Fin 4) (a1 : Bytes) {x : State} (h : Keeps s x) :
    OutKeeps s (execStringReply a0 a1 x) := by
  unfold execStringReply
  try dsimp only
  repeat' split
  all_goals first | with_reducible exact h | (simp +contextual (maxDischargeDepth := 100) [*]; done) | exact h.of_eq (by with_reducible rfl) (by with_reducible rfl) (by with_reducible rfl) (by with_reducible rfl) | simp +contextual (maxDischargeDepth := 100) [*]

theorem keeps_execStringAttemptTimeout {s : State} (a0 : Fin 4) {x : State} (h : Keeps s x) :
    OutKeeps s (execStringAttemptTimeout a0 x) := by
  unfold execStringAttemptTimeout
  try dsimp only
  repeat' split
  all_goals first | with_reducible exact h | (simp +contextual (maxDischargeDepth := 100) [*]; done) | exact h.of_eq (by with_reducible rfl) (by with_reducible rfl) (by with_reducible rfl) (by with_reducible rfl) | simp +contextual (maxDischargeDepth := 100) [*]

theorem keeps_execOptimiserRemoved {s : State} (a0 : Fin 4) (a1 : Word32) {x : State} (h : Keeps s x) :
    OutKeeps s (execOptimiserRemoved a0 a1 x) := by
  unfold execOptimiserRemoved
  try dsimp only
  repeat' split
  all_goals first | with_reducible exact h | (simp +contextual (maxDischargeDepth := 100) [*]; done) | exact h.of_eq (by with_reducible rfl) (by with_reducible rfl) (by with_reducible rfl) (by with_reducible rfl) | simp +contextual (maxDischargeDepth := 100) [*]

theorem keeps_execDiscoveryRound {s : State} (a0 : Fin 4) (a1 : List (Word32 × Bool)) (a2 : Bool) {x : State} (h : Keeps s x) :
    OutKeeps s (execDiscoveryRound a0 a1 a2 x) := by
  unfold execDiscoveryRound
  try dsimp only
  repeat' split
  all_goals first | with_reducible exact h | (simp +contextual (maxDischargeDepth := 100) [*]; done) | exact h.of_eq (by with_reducible rfl) (by with_reducible rfl) (by with_reducible rfl) (by with_reducible rfl) | simp +contextual (maxDischargeDepth := 100) [*]

theorem keeps_execStringStatusGet {s : State} (a0 : Mailbox) {x : State} (h : Keeps s x) :
    OutKeeps s (execStringStatusGet a0 x) := by
  unfold execStringStatusGet
  first
    | (simp +contextual (maxDischargeDepth := 100) [*]; done)
    | (refine (outKeeps_next _ _).2 (keeps_runCommand _ _ (fun b y hy => ?_) h)
       try dsimp only
       try refine replyKeeps_guards _ _ hy ?_
       repeat' split
       all_goals simp +contextual (maxDischargeDepth := 100) [*])

theorem keeps_execRsdKeepaliveSet {s : State} (a0 : Mailbox) {x : State} (h : Keeps s x) :
    OutKeeps s (execRsdKeepaliveSet a0 x) := by
  unfold execRsdKeepaliveSet
  first
    | (simp +contextual (maxDischargeDepth := 100) [*]; done)
    | (refine (outKeeps_next _ _).2 (keeps_runCommand _ _ (fun b y hy => ?_) h)
       try dsimp only
       try refine replyKeeps_guards _ _ hy ?_
       repeat' split
       all_goals simp +contextual (maxDischargeDepth := 100) [*])

theorem keeps_execKeepaliveStop {s : State} (a0 : Fin 4) (a1 : Bool) {x : State} (h : Keeps s x) :
    OutKeeps s (execKeepaliveStop a0 a1 x) := by
  unfold execKeepaliveStop
  try dsimp only
  repeat' split
  all_goals first | with_reducible exact h | (simp +contextual (maxDischargeDepth := 100) [*]; done) | exact h.of_eq (by with_reducible rfl) (by with_reducible rfl) (by with_reducible rfl) (by with_reducible rfl) | simp +contextual (maxDischargeDepth := 100) [*]

theorem keeps_execKeepaliveResume {s : State} (a0 : Fin 4) {x : State} (h : Keeps s x) :
    OutKeeps s (execKeepaliveResume a0 x) := by
  unfold execKeepaliveResume
  try dsimp only
  repeat' split
  all_goals first | with_reducible exact h | (simp +contextual (maxDischargeDepth := 100) [*]; done) | exact h.of_eq (by with_reducible rfl) (by with_reducible rfl) (by with_reducible rfl) (by with_reducible rfl) | simp +contextual (maxDischargeDepth := 100) [*]

theorem keeps_execSunspecRead {s : State} (a0 : Fin 8) (a1 : SunPoints) {x : State} (h : Keeps s x) :
    OutKeeps s (execSunspecRead a0 a1 x) := by
  unfold execSunspecRead
  first
    | (simp +contextual (maxDischargeDepth := 100) [*]; done)
    | (refine (outKeeps_next _ _).2 (keeps_ifDo _ (fun hy => ?_) h)
       try dsimp only
       repeat' split
       all_goals simp +contextual (maxDischargeDepth := 100) [*])

theorem keeps_execSunspecTimeout {s : State} (a0 : Fin 8) {x : State} (h : Keeps s x) :
    OutKeeps s (execSunspecTimeout a0 x) := by
  unfold execSunspecTimeout
  first
    | (simp +contextual (maxDischargeDepth := 100) [*]; done)
    | (refine (outKeeps_next _ _).2 (keeps_ifDo _ (fun hy => ?_) h)
       try dsimp only
       repeat' split
       all_goals simp +contextual (maxDischargeDepth := 100) [*])

theorem keeps_execPmSetpointCycle {s : State} (a0 : Fin 4) {x : State} (h : Keeps s x) :
    OutKeeps s (execPmSetpointCycle a0 x) := by
  unfold execPmSetpointCycle
  first
    | (simp +contextual (maxDischargeDepth := 100) [*]; done)
    | (refine (outKeeps_next _ _).2 (keeps_ifDo _ (fun hy => ?_) h)
       try dsimp only
       repeat' split
       all_goals simp +contextual (maxDischargeDepth := 100) [*])

@[simp] theorem keeps_admitModule {s : State} (a0 : Fin 4) (a1 : Fin 32) {x : State} (h : Keeps s x) :
    Keeps s (admitModule a0 a1 x) := by
  unfold admitModule
  try dsimp only
  repeat' split
  all_goals first | with_reducible exact h | (simp +contextual (maxDischargeDepth := 100) [*]; done) | exact h.of_eq (by with_reducible rfl) (by with_reducible rfl) (by with_reducible rfl) (by with_reducible rfl) | simp +contextual (maxDischargeDepth := 100) [*]

theorem keeps_execPmStatusReceive {s : State} (a0 : Fin 4) (a1 : Fin 32) (a2 : Bytes) {x : State} (h : Keeps s x) :
    OutKeeps s (execPmStatusReceive a0 a1 a2 x) := by
  unfold execPmStatusReceive
  refine (outKeeps_next _ _).2 (keeps_ifDo _ (fun _ => ?_) h)
  dsimp only
  split
  · exact keeps_loseModule _ _ (keeps_modPm _ _ _ h)
  · split
    · split
      · exact keeps_admitModule _ _ (keeps_modPm _ _ _ h)
      · exact keeps_modPm _ _ _ h
    · split
      · exact keeps_modPm _ _ _ h
      · exact keeps_retarget _ _ (keeps_modPm _ _ _ h)

theorem keeps_execPmIdentReceive {s : State} (a0 : Fin 4) (a1 : Fin 32) (a2 : Bytes) {x : State} (h : Keeps s x) :
    OutKeeps s (execPmIdentReceive a0 a1 a2 x) := by
  unfold execPmIdentReceive
  first
    | (simp +contextual (maxDischargeDepth := 100) [*]; done)
    | (refine (outKeeps_next _ _).2 (keeps_ifDo _ (fun hy => ?_) h)
       try dsimp only
       repeat' split
       all_goals simp +contextual (maxDischargeDepth := 100) [*])

theorem keeps_execPmLost {s : State} (a0 : Fin 4) (a1 : Fin 32) {x : State} (h : Keeps s x) :
    OutKeeps s (execPmLost a0 a1 x) := by
  unfold execPmLost
  try dsimp only
  repeat' split
  all_goals first | with_reducible exact h | (simp +contextual (maxDischargeDepth := 100) [*]; done) | exact h.of_eq (by with_reducible rfl) (by with_reducible rfl) (by with_reducible rfl) (by with_reducible rfl) | simp +contextual (maxDischargeDepth := 100) [*]

theorem keeps_execPowerModuleStatusGet {s : State} (a0 : Mailbox) {x : State} (h : Keeps s x) :
    OutKeeps s (execPowerModuleStatusGet a0 x) := by
  unfold execPowerModuleStatusGet
  first
    | (simp +contextual (maxDischargeDepth := 100) [*]; done)
    | (refine (outKeeps_next _ _).2 (keeps_runCommand _ _ (fun b y hy => ?_) h)
       try dsimp only
       try refine replyKeeps_guards _ _ hy ?_
       repeat' split
       all_goals simp +contextual (maxDischargeDepth := 100) [*])

theorem keeps_execPairFrameSend {s : State}  {x : State} (h : Keeps s x) :
    OutKeeps s (execPairFrameSend x) := by
  unfold execPairFrameSend
  first
    | (simp +contextual (maxDischargeDepth := 100) [*]; done)
    | (refine (outKeeps_next _ _).2 (keeps_ifDo _ (fun hy => ?_) h)
       try dsimp only
       repeat' split
       all_goals simp +contextual (maxDischargeDepth := 100) [*])

theorem keeps_execPairFrameReceive {s : State} (a0 : Bytes) {x : State} (h : Keeps s x) :
    OutKeeps s (execPairFrameReceive a0 x) := by
  unfold execPairFrameReceive
  try dsimp only
  repeat' split
  all_goals first | with_reducible exact h | (simp +contextual (maxDischargeDepth := 100) [*]; done) | exact h.of_eq (by with_reducible rfl) (by with_reducible rfl) (by with_reducible rfl) (by with_reducible rfl) | simp +contextual (maxDischargeDepth := 100) [*]

theorem keeps_execPairHandover {s : State}  {x : State} (h : Keeps s x) :
    OutKeeps s (execPairHandover x) := by
  unfold execPairHandover
  try dsimp only
  repeat' split
  all_goals first | with_reducible exact h | (simp +contextual (maxDischargeDepth := 100) [*]; done) | exact h.of_eq (by with_reducible rfl) (by with_reducible rfl) (by with_reducible rfl) (by with_reducible rfl) | simp +contextual (maxDischargeDepth := 100) [*]

theorem keeps_execPeerLost {s : State}  {x : State} (h : Keeps s x) :
    OutKeeps s (execPeerLost x) := by
  unfold execPeerLost
  try dsimp only
  repeat' split
  all_goals first | with_reducible exact h | (simp +contextual (maxDischargeDepth := 100) [*]; done) | exact h.of_eq (by with_reducible rfl) (by with_reducible rfl) (by with_reducible rfl) (by with_reducible rfl) | simp +contextual (maxDischargeDepth := 100) [*]

theorem keeps_execLeaderShareRaise {s : State}  {x : State} (h : Keeps s x) :
    OutKeeps s (execLeaderShareRaise x) := by
  unfold execLeaderShareRaise
  first
    | (simp +contextual (maxDischargeDepth := 100) [*]; done)
    | (refine (outKeeps_next _ _).2 (keeps_ifDo _ (fun hy => ?_) h)
       try dsimp only
       repeat' split
       all_goals simp +contextual (maxDischargeDepth := 100) [*])

theorem keeps_execPairRoleSwapRequest {s : State} (a0 : Mailbox) {x : State} (h : Keeps s x) :
    OutKeeps s (execPairRoleSwapRequest a0 x) := by
  unfold execPairRoleSwapRequest
  first
    | (simp +contextual (maxDischargeDepth := 100) [*]; done)
    | (refine (outKeeps_next _ _).2 (keeps_runCommand _ _ (fun b y hy => ?_) h)
       try dsimp only
       try refine replyKeeps_guards _ _ hy ?_
       repeat' split
       all_goals simp +contextual (maxDischargeDepth := 100) [*])

theorem keeps_execPairStatusGet {s : State} (a0 : Mailbox) {x : State} (h : Keeps s x) :
    OutKeeps s (execPairStatusGet a0 x) := by
  unfold execPairStatusGet
  first
    | (simp +contextual (maxDischargeDepth := 100) [*]; done)
    | (refine (outKeeps_next _ _).2 (keeps_runCommand _ _ (fun b y hy => ?_) h)
       try dsimp only
       try refine replyKeeps_guards _ _ hy ?_
       repeat' split
       all_goals simp +contextual (maxDischargeDepth := 100) [*])

end Sys2Proof.Machine
end

