-- ==== Sys2Proof/Laws/KeepsPower.lean ====
section
/-! SUPPORT. The operations of Machine/Power.lean keep what `Keeps` says. -/

set_option linter.unusedVariables false
set_option linter.unusedSimpArgs false
set_option linter.unusedTactic false
set_option linter.unreachableTactic false

namespace Sys2Proof.Machine

theorem keeps_execVauxStartDebounced {s : State} (a0 : ℕ) {x : State} (h : Keeps s x) :
    OutKeeps s (execVauxStartDebounced a0 x) := by
  unfold execVauxStartDebounced
  try dsimp only
  repeat' split
  all_goals first | with_reducible exact h | (simp +contextual (maxDischargeDepth := 100) [*]; done) | exact h.of_eq (by with_reducible rfl) (by with_reducible rfl) (by with_reducible rfl) (by with_reducible rfl) | simp +contextual (maxDischargeDepth := 100) [*]

theorem keeps_execVauxOvCut {s : State} (a0 : ℕ) {x : State} (h : Keeps s x) :
    OutKeeps s (execVauxOvCut a0 x) := by
  unfold execVauxOvCut
  try dsimp only
  repeat' split
  all_goals first | with_reducible exact h | (simp +contextual (maxDischargeDepth := 100) [*]; done) | exact h.of_eq (by with_reducible rfl) (by with_reducible rfl) (by with_reducible rfl) (by with_reducible rfl) | simp +contextual (maxDischargeDepth := 100) [*]

theorem keeps_execVauxOvRelease {s : State} (a0 : ℕ) {x : State} (h : Keeps s x) :
    OutKeeps s (execVauxOvRelease a0 x) := by
  unfold execVauxOvRelease
  try dsimp only
  repeat' split
  all_goals first | with_reducible exact h | (simp +contextual (maxDischargeDepth := 100) [*]; done) | exact h.of_eq (by with_reducible rfl) (by with_reducible rfl) (by with_reducible rfl) (by with_reducible rfl) | simp +contextual (maxDischargeDepth := 100) [*]

theorem keeps_execVauxLow {s : State} (a0 : ℕ) {x : State} (h : Keeps s x) :
    OutKeeps s (execVauxLow a0 x) := by
  unfold execVauxLow
  try dsimp only
  repeat' split
  all_goals first | with_reducible exact h | (simp +contextual (maxDischargeDepth := 100) [*]; done) | exact h.of_eq (by with_reducible rfl) (by with_reducible rfl) (by with_reducible rfl) (by with_reducible rfl) | simp +contextual (maxDischargeDepth := 100) [*]

theorem keeps_execSaveEntry {s : State} (a0 : BitVec 32) (a1 : Option HifCut) {x : State} (h : Keeps s x) :
    OutKeeps s (execSaveEntry a0 a1 x) := by
  unfold execSaveEntry
  first
    | (simp +contextual (maxDischargeDepth := 100) [*]; done)
    | (refine (outKeeps_next _ _).2 (keeps_ifDo _ (fun hy => ?_) h)
       try dsimp only
       repeat' split
       all_goals simp +contextual (maxDischargeDepth := 100) [*])

@[simp] theorem keeps_drainTo {s : State} (a0 : ℕ) {x : State} (h : Keeps s x) :
    Keeps s (drainTo a0 x) := by
  unfold drainTo
  try dsimp only
  repeat' split
  all_goals first | with_reducible exact h | (simp +contextual (maxDischargeDepth := 100) [*]; done) | exact h.of_eq (by with_reducible rfl) (by with_reducible rfl) (by with_reducible rfl) (by with_reducible rfl) | simp +contextual (maxDischargeDepth := 100) [*]

theorem keeps_execSaveComplete {s : State} (a0 : ℕ) {x : State} (h : Keeps s x) :
    OutKeeps s (execSaveComplete a0 x) := by
  unfold execSaveComplete
  first
    | (simp +contextual (maxDischargeDepth := 100) [*]; done)
    | (refine (outKeeps_next _ _).2 (keeps_ifDo _ (fun hy => ?_) h)
       try dsimp only
       repeat' split
       all_goals simp +contextual (maxDischargeDepth := 100) [*])

theorem keeps_execLastCall {s : State} (a0 : ℕ) (a1 : ℕ) {x : State} (h : Keeps s x) :
    OutKeeps s (execLastCall a0 a1 x) := by
  unfold execLastCall
  first
    | (simp +contextual (maxDischargeDepth := 100) [*]; done)
    | (refine (outKeeps_next _ _).2 (keeps_ifDo _ (fun hy => ?_) h)
       try dsimp only
       repeat' split
       all_goals simp +contextual (maxDischargeDepth := 100) [*])

theorem keeps_execConverterStop {s : State} (a0 : ℕ) (a1 : ℕ) {x : State} (h : Keeps s x) :
    OutKeeps s (execConverterStop a0 a1 x) := by
  unfold execConverterStop
  first
    | (simp +contextual (maxDischargeDepth := 100) [*]; done)
    | (refine (outKeeps_next _ _).2 (keeps_ifDo _ (fun hy => ?_) h)
       try dsimp only
       repeat' split
       all_goals simp +contextual (maxDischargeDepth := 100) [*])

@[simp] theorem keeps_endSelfTest {s : State} (a0 : SelfTest) (a1 : ℕ) (a2 : ℕ) (a3 : ℕ) {x : State} (h : Keeps s x) :
    Keeps s (endSelfTest a0 a1 a2 a3 x) := by
  unfold endSelfTest
  try dsimp only
  repeat' split
  all_goals first | with_reducible exact h | (simp +contextual (maxDischargeDepth := 100) [*]; done) | exact h.of_eq (by with_reducible rfl) (by with_reducible rfl) (by with_reducible rfl) (by with_reducible rfl) | simp +contextual (maxDischargeDepth := 100) [*]

theorem keeps_execHoldupSelftestComplete {s : State} (a0 : ℕ) (a1 : ℕ) (a2 : ℕ) {x : State} (h : Keeps s x) :
    OutKeeps s (execHoldupSelftestComplete a0 a1 a2 x) := by
  unfold execHoldupSelftestComplete
  first
    | (simp +contextual (maxDischargeDepth := 100) [*]; done)
    | (refine (outKeeps_next _ _).2 (keeps_ifDo _ (fun hy => ?_) h)
       try dsimp only
       repeat' split
       all_goals simp +contextual (maxDischargeDepth := 100) [*])

theorem keeps_execHoldupSelftestTimeout {s : State} (a0 : ℕ) (a1 : ℕ) {x : State} (h : Keeps s x) :
    OutKeeps s (execHoldupSelftestTimeout a0 a1 x) := by
  unfold execHoldupSelftestTimeout
  first
    | (simp +contextual (maxDischargeDepth := 100) [*]; done)
    | (refine (outKeeps_next _ _).2 (keeps_ifDo _ (fun hy => ?_) h)
       try dsimp only
       repeat' split
       all_goals simp +contextual (maxDischargeDepth := 100) [*])

theorem keeps_execHoldupLow {s : State} (a0 : ℕ) {x : State} (h : Keeps s x) :
    OutKeeps s (execHoldupLow a0 x) := by
  unfold execHoldupLow
  try dsimp only
  repeat' split
  all_goals first | with_reducible exact h | (simp +contextual (maxDischargeDepth := 100) [*]; done) | exact h.of_eq (by with_reducible rfl) (by with_reducible rfl) (by with_reducible rfl) (by with_reducible rfl) | simp +contextual (maxDischargeDepth := 100) [*]

theorem keeps_execRailFault {s : State}  {x : State} (h : Keeps s x) :
    OutKeeps s (execRailFault x) := by
  unfold execRailFault
  first
    | (simp +contextual (maxDischargeDepth := 100) [*]; done)
    | (refine (outKeeps_next _ _).2 (keeps_ifDo _ (fun hy => ?_) h)
       try dsimp only
       repeat' split
       all_goals simp +contextual (maxDischargeDepth := 100) [*])

theorem keeps_execRstNLow {s : State} (a0 : ℕ) (a1 : Bool) {x : State} (h : Keeps s x) :
    OutKeeps s (execRstNLow a0 a1 x) := by
  unfold execRstNLow
  try dsimp only
  repeat' split
  all_goals first | with_reducible exact h | (simp +contextual (maxDischargeDepth := 100) [*]; done) | exact h.of_eq (by with_reducible rfl) (by with_reducible rfl) (by with_reducible rfl) (by with_reducible rfl) | simp +contextual (maxDischargeDepth := 100) [*]

theorem keeps_execWatchDomainPor {s : State}  {x : State} (h : Keeps s x) :
    OutKeeps s (execWatchDomainPor x) := by
  have k := keeps_resetBase h
  unfold execWatchDomainPor
  generalize resetBase x = y at k ⊢
  exact ⟨k.fab, k.pending, k.mail, k.provisioned, k.field, k.retired⟩

theorem keeps_execStartRepeat {s : State}  {x : State} (h : Keeps s x) :
    OutKeeps s (execStartRepeat x) := by
  unfold execStartRepeat
  first
    | (simp +contextual (maxDischargeDepth := 100) [*]; done)
    | (refine (outKeeps_next _ _).2 (keeps_ifDo _ (fun hy => ?_) h)
       try dsimp only
       repeat' split
       all_goals simp +contextual (maxDischargeDepth := 100) [*])

theorem keeps_execAppCoreReset {s : State}  {x : State} (h : Keeps s x) :
    OutKeeps s (execAppCoreReset x) := by
  unfold execAppCoreReset
  first
    | (simp +contextual (maxDischargeDepth := 100) [*]; done)
    | (refine (outKeeps_next _ _).2 (keeps_ifDo _ (fun hy => ?_) h)
       try dsimp only
       repeat' split
       all_goals simp +contextual (maxDischargeDepth := 100) [*])

theorem keeps_execAppWatchdogExpiry {s : State}  {x : State} (h : Keeps s x) :
    OutKeeps s (execAppWatchdogExpiry x) := by
  unfold execAppWatchdogExpiry
  first
    | (simp +contextual (maxDischargeDepth := 100) [*]; done)
    | (refine (outKeeps_next _ _).2 (keeps_ifDo _ (fun hy => ?_) h)
       try dsimp only
       repeat' split
       all_goals simp +contextual (maxDischargeDepth := 100) [*])

end Sys2Proof.Machine
end

