-- ==== Sys2Proof/Laws/KeepsSafetyFns.lean ====
section
/-! SUPPORT. The operations of Machine/SafetyFns.lean keep what `Keeps` says. -/

set_option linter.unusedVariables false
set_option linter.unusedSimpArgs false
set_option linter.unusedTactic false
set_option linter.unreachableTactic false

namespace Sys2Proof.Machine

theorem keeps_execResidualDcCycle {s : State} (a0 : Outlet) {x : State} (h : Keeps s x) :
    OutKeeps s (execResidualDcCycle a0 x) := by
  unfold execResidualDcCycle
  try dsimp only
  repeat' split
  all_goals first | with_reducible exact h | (simp +contextual (maxDischargeDepth := 100) [*]; done) | exact h.of_eq (by with_reducible rfl) (by with_reducible rfl) (by with_reducible rfl) (by with_reducible rfl) | simp +contextual (maxDischargeDepth := 100) [*]

theorem keeps_execRcdRefOut {s : State} (a0 : Outlet) (a1 : ℕ) {x : State} (h : Keeps s x) :
    OutKeeps s (execRcdRefOut a0 a1 x) := by
  unfold execRcdRefOut
  first
    | (simp +contextual (maxDischargeDepth := 100) [*]; done)
    | (refine (outKeeps_next _ _).2 (keeps_ifDo _ (fun hy => ?_) h)
       try dsimp only
       repeat' split
       all_goals simp +contextual (maxDischargeDepth := 100) [*])

theorem keeps_execRcdSensorTest {s : State} (a0 : Outlet) (a1 : ℤ) (a2 : ℕ) {x : State} (h : Keeps s x) :
    OutKeeps s (execRcdSensorTest a0 a1 a2 x) := by
  unfold execRcdSensorTest
  try dsimp only
  repeat' split
  all_goals first | with_reducible exact h | (simp +contextual (maxDischargeDepth := 100) [*]; done) | exact h.of_eq (by with_reducible rfl) (by with_reducible rfl) (by with_reducible rfl) (by with_reducible rfl) | simp +contextual (maxDischargeDepth := 100) [*]

theorem keeps_execImdSelfCheck {s : State} (a0 : Outlet) (a1 : ℕ) (a2 : ℕ) {x : State} (h : Keeps s x) :
    OutKeeps s (execImdSelfCheck a0 a1 a2 x) := by
  unfold execImdSelfCheck
  first
    | (simp +contextual (maxDischargeDepth := 100) [*]; done)
    | (refine (outKeeps_next _ _).2 (keeps_ifDo _ (fun hy => ?_) h)
       try dsimp only
       repeat' split
       all_goals simp +contextual (maxDischargeDepth := 100) [*])

theorem keeps_execPeLoopFault {s : State} (a0 : Outlet) (a1 : ℕ) {x : State} (h : Keeps s x) :
    OutKeeps s (execPeLoopFault a0 a1 x) := by
  unfold execPeLoopFault
  try dsimp only
  repeat' split
  all_goals first | with_reducible exact h | (simp +contextual (maxDischargeDepth := 100) [*]; done) | exact h.of_eq (by with_reducible rfl) (by with_reducible rfl) (by with_reducible rfl) (by with_reducible rfl) | simp +contextual (maxDischargeDepth := 100) [*]

theorem keeps_execPenFault {s : State} (a0 : ℕ) (a1 : ℕ) {x : State} (h : Keeps s x) :
    OutKeeps s (execPenFault a0 a1 x) := by
  unfold execPenFault
  try dsimp only
  repeat' split
  all_goals first | with_reducible exact h | (simp +contextual (maxDischargeDepth := 100) [*]; done) | exact h.of_eq (by with_reducible rfl) (by with_reducible rfl) (by with_reducible rfl) (by with_reducible rfl) | simp +contextual (maxDischargeDepth := 100) [*]

theorem keeps_execTemperatureReading {s : State} (a0 : Outlet) (a1 : ℕ) (a2 : ℤ) {x : State} (h : Keeps s x) :
    OutKeeps s (execTemperatureReading a0 a1 a2 x) := by
  unfold execTemperatureReading
  try dsimp only
  repeat' split
  all_goals first | with_reducible exact h | (simp +contextual (maxDischargeDepth := 100) [*]; done) | exact h.of_eq (by with_reducible rfl) (by with_reducible rfl) (by with_reducible rfl) (by with_reducible rfl) | simp +contextual (maxDischargeDepth := 100) [*]

theorem keeps_execDcOvervoltage {s : State} (a0 : Outlet) (a1 : ℕ) {x : State} (h : Keeps s x) :
    OutKeeps s (execDcOvervoltage a0 a1 x) := by
  unfold execDcOvervoltage
  try dsimp only
  repeat' split
  all_goals first | with_reducible exact h | (simp +contextual (maxDischargeDepth := 100) [*]; done) | exact h.of_eq (by with_reducible rfl) (by with_reducible rfl) (by with_reducible rfl) (by with_reducible rfl) | simp +contextual (maxDischargeDepth := 100) [*]

theorem keeps_execDischargeCheck {s : State} (a0 : Outlet) (a1 : ℕ) {x : State} (h : Keeps s x) :
    OutKeeps s (execDischargeCheck a0 a1 x) := by
  unfold execDischargeCheck
  first
    | (simp +contextual (maxDischargeDepth := 100) [*]; done)
    | (refine (outKeeps_next _ _).2 (keeps_ifDo _ (fun hy => ?_) h)
       try dsimp only
       repeat' split
       all_goals simp +contextual (maxDischargeDepth := 100) [*])

theorem keeps_execInputUnavailable {s : State} (a0 : Channel) {x : State} (h : Keeps s x) :
    OutKeeps s (execInputUnavailable a0 x) := by
  unfold execInputUnavailable
  try dsimp only
  repeat' split
  all_goals first | with_reducible exact h | (simp +contextual (maxDischargeDepth := 100) [*]; done) | exact h.of_eq (by with_reducible rfl) (by with_reducible rfl) (by with_reducible rfl) (by with_reducible rfl) | simp +contextual (maxDischargeDepth := 100) [*]

theorem keeps_execDividerPlausibility {s : State} (a0 : Outlet) (a1 : Bool) (a2 : ℕ) (a3 : ℕ) {x : State} (h : Keeps s x) :
    OutKeeps s (execDividerPlausibility a0 a1 a2 a3 x) := by
  unfold execDividerPlausibility
  first
    | (simp +contextual (maxDischargeDepth := 100) [*]; done)
    | (refine (outKeeps_next _ _).2 (keeps_ifDo _ (fun hy => ?_) h)
       try dsimp only
       repeat' split
       all_goals simp +contextual (maxDischargeDepth := 100) [*])

theorem keeps_execWeldCheck {s : State} (a0 : Driver) (a1 : ℕ) (a2 : Option ℕ) (a3 : List ℕ) {x : State} (h : Keeps s x) :
    OutKeeps s (execWeldCheck a0 a1 a2 a3 x) := by
  unfold execWeldCheck
  try dsimp only
  repeat' split
  all_goals first | with_reducible exact h | (simp +contextual (maxDischargeDepth := 100) [*]; done) | exact h.of_eq (by with_reducible rfl) (by with_reducible rfl) (by with_reducible rfl) (by with_reducible rfl) | simp +contextual (maxDischargeDepth := 100) [*]

theorem keeps_execCoilReadback {s : State} (a0 : Driver) (a1 : ℕ) (a2 : ℕ) (a3 : ℕ) {x : State} (h : Keeps s x) :
    OutKeeps s (execCoilReadback a0 a1 a2 a3 x) := by
  unfold execCoilReadback
  try dsimp only
  repeat' split
  all_goals first | with_reducible exact h | (simp +contextual (maxDischargeDepth := 100) [*]; done) | exact h.of_eq (by with_reducible rfl) (by with_reducible rfl) (by with_reducible rfl) (by with_reducible rfl) | simp +contextual (maxDischargeDepth := 100) [*]

theorem keeps_execCpForceFEnd {s : State} (a0 : Outlet) {x : State} (h : Keeps s x) :
    OutKeeps s (execCpForceFEnd a0 x) := by
  unfold execCpForceFEnd
  try dsimp only
  repeat' split
  all_goals first | with_reducible exact h | (simp +contextual (maxDischargeDepth := 100) [*]; done) | exact h.of_eq (by with_reducible rfl) (by with_reducible rfl) (by with_reducible rfl) (by with_reducible rfl) | simp +contextual (maxDischargeDepth := 100) [*]

theorem keeps_execEstopOpen {s : State} (a0 : Bool × Bool) (a1 : Bool × Bool) (a2 : ℕ) {x : State} (h : Keeps s x) :
    OutKeeps s (execEstopOpen a0 a1 a2 x) := by
  unfold execEstopOpen
  try dsimp only
  repeat' split
  all_goals first | with_reducible exact h | (simp +contextual (maxDischargeDepth := 100) [*]; done) | exact h.of_eq (by with_reducible rfl) (by with_reducible rfl) (by with_reducible rfl) (by with_reducible rfl) | simp +contextual (maxDischargeDepth := 100) [*]

theorem keeps_execComparatorSelftestAge {s : State} (a0 : Island) {x : State} (h : Keeps s x) :
    OutKeeps s (execComparatorSelftestAge a0 x) := by
  unfold execComparatorSelftestAge
  try dsimp only
  repeat' split
  all_goals first | with_reducible exact h | (simp +contextual (maxDischargeDepth := 100) [*]; done) | exact h.of_eq (by with_reducible rfl) (by with_reducible rfl) (by with_reducible rfl) (by with_reducible rfl) | simp +contextual (maxDischargeDepth := 100) [*]

@[simp] theorem keeps_setDie {s : State} (a0 : Bool) (a1 : Die) {x : State} (h : Keeps s x) :
    Keeps s (setDie a0 a1 x) := by
  unfold setDie
  try dsimp only
  repeat' split
  all_goals first | with_reducible exact h | (simp +contextual (maxDischargeDepth := 100) [*]; done) | exact h.of_eq (by with_reducible rfl) (by with_reducible rfl) (by with_reducible rfl) (by with_reducible rfl) | simp +contextual (maxDischargeDepth := 100) [*]

theorem keeps_execDieOvertemp {s : State} (a0 : Bool) (a1 : ℕ) {x : State} (h : Keeps s x) :
    OutKeeps s (execDieOvertemp a0 a1 x) := by
  unfold execDieOvertemp
  try dsimp only
  repeat' split
  all_goals first | with_reducible exact h | (simp +contextual (maxDischargeDepth := 100) [*]; done) | exact h.of_eq (by with_reducible rfl) (by with_reducible rfl) (by with_reducible rfl) (by with_reducible rfl) | simp +contextual (maxDischargeDepth := 100) [*]

@[simp] theorem keeps_heartbeatRead {s : State}  {x : State} (h : Keeps s x) :
    Keeps s (heartbeatRead x) := by
  unfold heartbeatRead
  try dsimp only
  repeat' split
  all_goals first | with_reducible exact h | (simp +contextual (maxDischargeDepth := 100) [*]; done) | exact h.of_eq (by with_reducible rfl) (by with_reducible rfl) (by with_reducible rfl) (by with_reducible rfl) | simp +contextual (maxDischargeDepth := 100) [*]

@[simp] theorem keeps_inputsBack {s : State}  {x : State} (h : Keeps s x) :
    Keeps s (inputsBack x) := by
  unfold inputsBack
  try dsimp only
  repeat' split
  all_goals first | with_reducible exact h | (simp +contextual (maxDischargeDepth := 100) [*]; done) | exact h.of_eq (by with_reducible rfl) (by with_reducible rfl) (by with_reducible rfl) (by with_reducible rfl) | simp +contextual (maxDischargeDepth := 100) [*]

@[simp] theorem keeps_clearLatched {s : State} (a0 : Driver) {x : State} (h : Keeps s x) :
    Keeps s (clearLatched a0 x) := by
  unfold clearLatched
  try dsimp only
  repeat' split
  all_goals first | with_reducible exact h | (simp +contextual (maxDischargeDepth := 100) [*]; done) | exact h.of_eq (by with_reducible rfl) (by with_reducible rfl) (by with_reducible rfl) (by with_reducible rfl) | simp +contextual (maxDischargeDepth := 100) [*]

@[simp] theorem keeps_gateCompare {s : State} (a0 : List (BitVec 5)) (a1 : Driver) {x : State} (h : Keeps s x) :
    Keeps s (gateCompare a0 a1 x) := by
  unfold gateCompare
  try dsimp only
  repeat' split
  all_goals first | with_reducible exact h | (simp +contextual (maxDischargeDepth := 100) [*]; done) | exact h.of_eq (by with_reducible rfl) (by with_reducible rfl) (by with_reducible rfl) (by with_reducible rfl) | simp +contextual (maxDischargeDepth := 100) [*]

@[simp] theorem keeps_holdupHeld {s : State}  {x : State} (h : Keeps s x) :
    Keeps s (holdupHeld x) := by
  unfold holdupHeld
  try dsimp only
  repeat' split
  all_goals first | with_reducible exact h | (simp +contextual (maxDischargeDepth := 100) [*]; done) | exact h.of_eq (by with_reducible rfl) (by with_reducible rfl) (by with_reducible rfl) (by with_reducible rfl) | simp +contextual (maxDischargeDepth := 100) [*]

theorem keeps_execSafCycle {s : State} (a0 : SafInputs) {x : State} (h : Keeps s x) :
    OutKeeps s (execSafCycle a0 x) := by
  unfold execSafCycle
  try dsimp only
  repeat' split
  all_goals first | with_reducible exact h | (simp +contextual (maxDischargeDepth := 100) [*]; done) | exact h.of_eq (by with_reducible rfl) (by with_reducible rfl) (by with_reducible rfl) (by with_reducible rfl) | simp +contextual (maxDischargeDepth := 100) [*]

end Sys2Proof.Machine
end

