-- ==== Sys2Proof/Laws/KeepsSeam.lean ====
section
/-! SUPPORT. The operations of Machine/Seam.lean keep what `Keeps` says. -/

set_option linter.unusedVariables false
set_option linter.unusedSimpArgs false
set_option linter.unusedTactic false
set_option linter.unreachableTactic false

namespace Sys2Proof.Machine

theorem keeps_execSeamFrameSend {s : State} (a0 : Bool) {x : State} (h : Keeps s x) :
    OutKeeps s (execSeamFrameSend a0 x) := by
  unfold execSeamFrameSend
  refine (outKeeps_next _ _).2 (keeps_ifDo _ (fun _ => keeps_forEach _ (fun p y hy => ?_) ?_) h)
  · split
    · exact hy
    · exact keeps_enqueue _ _ _ (keeps_modSafCore _ hy)
  · exact keeps_modSafCore _ h

@[simp] theorem keeps_seamTrip {s : State} (a0 : BitVec 16) {x : State} (h : Keeps s x) :
    Keeps s (seamTrip a0 x) := by
  unfold seamTrip
  try dsimp only
  repeat' split
  all_goals first | with_reducible exact h | (simp +contextual (maxDischargeDepth := 100) [*]; done) | exact h.of_eq (by with_reducible rfl) (by with_reducible rfl) (by with_reducible rfl) (by with_reducible rfl) | simp +contextual (maxDischargeDepth := 100) [*]

@[simp] theorem keeps_putPeer {s : State} (a0 : SeamPeer) {x : State} (h : Keeps s x) :
    Keeps s (putPeer a0 x) := by
  unfold putPeer
  try dsimp only
  repeat' split
  all_goals first | with_reducible exact h | (simp +contextual (maxDischargeDepth := 100) [*]; done) | exact h.of_eq (by with_reducible rfl) (by with_reducible rfl) (by with_reducible rfl) (by with_reducible rfl) | simp +contextual (maxDischargeDepth := 100) [*]

@[simp] theorem keeps_markDegraded {s : State}  {x : State} (h : Keeps s x) :
    Keeps s (markDegraded x) := by
  unfold markDegraded
  try dsimp only
  repeat' split
  all_goals first | with_reducible exact h | (simp +contextual (maxDischargeDepth := 100) [*]; done) | exact h.of_eq (by with_reducible rfl) (by with_reducible rfl) (by with_reducible rfl) (by with_reducible rfl) | simp +contextual (maxDischargeDepth := 100) [*]

@[simp] theorem keeps_seamEvents {s : State} (a0 : State) {x : State} (h : Keeps s x) :
    Keeps s (seamEvents a0 x) := by
  unfold seamEvents
  try dsimp only
  repeat' split
  all_goals first | with_reducible exact h | (simp +contextual (maxDischargeDepth := 100) [*]; done) | exact h.of_eq (by with_reducible rfl) (by with_reducible rfl) (by with_reducible rfl) (by with_reducible rfl) | simp +contextual (maxDischargeDepth := 100) [*]

@[simp] theorem keeps_seamAccept {s : State} (a0 : SeamPeer) (a1 : SeamPath) (a2 : SeamFields) (a3 : Bytes) {x : State} (h : Keeps s x) :
    Keeps s (seamAccept a0 a1 a2 a3 x) := by
  unfold seamAccept
  try dsimp only
  repeat' split
  all_goals first | with_reducible exact h | (simp +contextual (maxDischargeDepth := 100) [*]; done) | exact h.of_eq (by with_reducible rfl) (by with_reducible rfl) (by with_reducible rfl) (by with_reducible rfl) | simp +contextual (maxDischargeDepth := 100) [*]

theorem keeps_execSeamFrameReceive {s : State} (a0 : SeamPath) (a1 : Bytes) {x : State} (h : Keeps s x) :
    OutKeeps s (execSeamFrameReceive a0 a1 x) := by
  unfold execSeamFrameReceive
  try dsimp only
  repeat' split
  all_goals first | with_reducible exact h | (simp +contextual (maxDischargeDepth := 100) [*]; done) | exact h.of_eq (by with_reducible rfl) (by with_reducible rfl) (by with_reducible rfl) (by with_reducible rfl) | simp +contextual (maxDischargeDepth := 100) [*]

theorem keeps_execSeamPathTimeout {s : State} (a0 : SeamPath) {x : State} (h : Keeps s x) :
    OutKeeps s (execSeamPathTimeout a0 x) := by
  unfold execSeamPathTimeout
  first
    | (simp +contextual (maxDischargeDepth := 100) [*]; done)
    | (refine (outKeeps_next _ _).2 (keeps_ifDo _ (fun hy => ?_) h)
       try dsimp only
       repeat' split
       all_goals simp +contextual (maxDischargeDepth := 100) [*])

theorem keeps_execSeamDegradedTimeout {s : State}  {x : State} (h : Keeps s x) :
    OutKeeps s (execSeamDegradedTimeout x) := by
  unfold execSeamDegradedTimeout
  first
    | (simp +contextual (maxDischargeDepth := 100) [*]; done)
    | (refine (outKeeps_next _ _).2 (keeps_ifDo _ (fun hy => ?_) h)
       try dsimp only
       repeat' split
       all_goals simp +contextual (maxDischargeDepth := 100) [*])

end Sys2Proof.Machine
end

