-- ==== Sys2Proof/Laws/KeepsSolarOps.lean ====
section
/-! SUPPORT. The operations of Machine/SolarOps.lean keep what `Keeps` says. -/

set_option linter.unusedVariables false
set_option linter.unusedSimpArgs false
set_option linter.unusedTactic false
set_option linter.unreachableTactic false

namespace Sys2Proof.Machine

@[simp] theorem keeps_solarTarget {s : State} (a0 : Outlet) (a1 : ℕ) (a2 : ℕ) {x : State} (h : Keeps s x) :
    Keeps s (solarTarget a0 a1 a2 x) := by
  unfold solarTarget
  try dsimp only
  repeat' split
  all_goals first | with_reducible exact h | (simp +contextual (maxDischargeDepth := 100) [*]; done) | exact h.of_eq (by with_reducible rfl) (by with_reducible rfl) (by with_reducible rfl) (by with_reducible rfl) | simp +contextual (maxDischargeDepth := 100) [*]

@[simp] theorem keeps_modeOne {s : State} (a0 : Outlet) (a1 : ℕ) {x : State} (h : Keeps s x) :
    Keeps s (modeOne a0 a1 x) := by
  unfold modeOne
  try dsimp only
  repeat' split
  all_goals first | with_reducible exact h | (simp +contextual (maxDischargeDepth := 100) [*]; done) | exact h.of_eq (by with_reducible rfl) (by with_reducible rfl) (by with_reducible rfl) (by with_reducible rfl) | simp +contextual (maxDischargeDepth := 100) [*]

@[simp] theorem keeps_followSun {s : State} (a0 : Outlet) {x : State} (h : Keeps s x) :
    Keeps s (followSun a0 x) := by
  unfold followSun
  try dsimp only
  repeat' split
  all_goals first | with_reducible exact h | (simp +contextual (maxDischargeDepth := 100) [*]; done) | exact h.of_eq (by with_reducible rfl) (by with_reducible rfl) (by with_reducible rfl) (by with_reducible rfl) | simp +contextual (maxDischargeDepth := 100) [*]

end Sys2Proof.Machine
end

