-- ==== Sys2Proof/Laws/KeepsVehicle.lean ====
section
/-! SUPPORT. The operations of Machine/Vehicle.lean keep what `Keeps` says. -/

set_option linter.unusedVariables false
set_option linter.unusedSimpArgs false
set_option linter.unusedTactic false
set_option linter.unreachableTactic false

namespace Sys2Proof.Machine

@[simp] theorem keeps_pilotReact {s : State} (a0 : Outlet) (a1 : CpState) (a2 : CpState) {x : State} (h : Keeps s x) :
    Keeps s (pilotReact a0 a1 a2 x) := by
  unfold pilotReact
  try dsimp only
  repeat' split
  all_goals first | with_reducible exact h | (simp +contextual (maxDischargeDepth := 100) [*]; done) | exact h.of_eq (by with_reducible rfl) (by with_reducible rfl) (by with_reducible rfl) (by with_reducible rfl) | simp +contextual (maxDischargeDepth := 100) [*]

theorem keeps_execCpStateChange {s : State} (a0 : Outlet) (a1 : ℤ) {x : State} (h : Keeps s x) :
    OutKeeps s (execCpStateChange a0 a1 x) := by
  unfold execCpStateChange
  try dsimp only
  repeat' split
  all_goals first | with_reducible exact h | (simp +contextual (maxDischargeDepth := 100) [*]; done) | exact h.of_eq (by with_reducible rfl) (by with_reducible rfl) (by with_reducible rfl) (by with_reducible rfl) | simp +contextual (maxDischargeDepth := 100) [*]

theorem keeps_execPpChange {s : State} (a0 : Outlet) (a1 : ℕ) {x : State} (h : Keeps s x) :
    OutKeeps s (execPpChange a0 a1 x) := by
  unfold execPpChange
  try dsimp only
  repeat' split
  all_goals first | with_reducible exact h | (simp +contextual (maxDischargeDepth := 100) [*]; done) | exact h.of_eq (by with_reducible rfl) (by with_reducible rfl) (by with_reducible rfl) (by with_reducible rfl) | simp +contextual (maxDischargeDepth := 100) [*]

theorem keeps_execDiodeFault {s : State} (a0 : Outlet) (a1 : ℤ) {x : State} (h : Keeps s x) :
    OutKeeps s (execDiodeFault a0 a1 x) := by
  unfold execDiodeFault
  try dsimp only
  repeat' split
  all_goals first | with_reducible exact h | (simp +contextual (maxDischargeDepth := 100) [*]; done) | exact h.of_eq (by with_reducible rfl) (by with_reducible rfl) (by with_reducible rfl) (by with_reducible rfl) | simp +contextual (maxDischargeDepth := 100) [*]

theorem keeps_execPwmDutyChange {s : State} (a0 : Outlet) {x : State} (h : Keeps s x) :
    OutKeeps s (execPwmDutyChange a0 x) := by
  unfold execPwmDutyChange
  try dsimp only
  repeat' split
  all_goals first | with_reducible exact h | (simp +contextual (maxDischargeDepth := 100) [*]; done) | exact h.of_eq (by with_reducible rfl) (by with_reducible rfl) (by with_reducible rfl) (by with_reducible rfl) | simp +contextual (maxDischargeDepth := 100) [*]

theorem keeps_execCmSlacParam {s : State} (a0 : Outlet) (a1 : BitVec 64) {x : State} (h : Keeps s x) :
    OutKeeps s (execCmSlacParam a0 a1 x) := by
  unfold execCmSlacParam
  first
    | (simp +contextual (maxDischargeDepth := 100) [*]; done)
    | (refine (outKeeps_next _ _).2 (keeps_ifDo _ (fun hy => ?_) h)
       try dsimp only
       repeat' split
       all_goals simp +contextual (maxDischargeDepth := 100) [*])

theorem keeps_execCmMnbcSound {s : State} (a0 : Outlet) (a1 : ℕ) {x : State} (h : Keeps s x) :
    OutKeeps s (execCmMnbcSound a0 a1 x) := by
  unfold execCmMnbcSound
  first
    | (simp +contextual (maxDischargeDepth := 100) [*]; done)
    | (refine (outKeeps_next _ _).2 (keeps_ifDo _ (fun hy => ?_) h)
       try dsimp only
       repeat' split
       all_goals simp +contextual (maxDischargeDepth := 100) [*])

theorem keeps_execCmSlacMatch {s : State} (a0 : Outlet) {x : State} (h : Keeps s x) :
    OutKeeps s (execCmSlacMatch a0 x) := by
  unfold execCmSlacMatch
  try dsimp only
  repeat' split
  all_goals first | with_reducible exact h | (simp +contextual (maxDischargeDepth := 100) [*]; done) | exact h.of_eq (by with_reducible rfl) (by with_reducible rfl) (by with_reducible rfl) (by with_reducible rfl) | simp +contextual (maxDischargeDepth := 100) [*]

theorem keeps_execSdpRequest {s : State} (a0 : Outlet) (a1 : Bool) {x : State} (h : Keeps s x) :
    OutKeeps s (execSdpRequest a0 a1 x) := by
  unfold execSdpRequest
  first
    | (simp +contextual (maxDischargeDepth := 100) [*]; done)
    | (refine (outKeeps_next _ _).2 (keeps_ifDo _ (fun hy => ?_) h)
       try dsimp only
       repeat' split
       all_goals simp +contextual (maxDischargeDepth := 100) [*])

theorem keeps_execSupportedAppProtocol {s : State} (a0 : Outlet) (a1 : List Protocol) {x : State} (h : Keeps s x) :
    OutKeeps s (execSupportedAppProtocol a0 a1 x) := by
  unfold execSupportedAppProtocol
  refine (outKeeps_next _ _).2 (keeps_ifDo _ (fun _ => ?_) h)
  split
  · exact keeps_modOut _ _ h
  · split
    · exact keeps_basic _ h
    · exact keeps_stopSession _ _ _ h

theorem keeps_execCableCheck {s : State} (a0 : Outlet) (a1 : ℕ) (a2 : ℕ) {x : State} (h : Keeps s x) :
    OutKeeps s (execCableCheck a0 a1 a2 x) := by
  unfold execCableCheck
  try dsimp only
  repeat' split
  all_goals first | with_reducible exact h | (simp +contextual (maxDischargeDepth := 100) [*]; done) | exact h.of_eq (by with_reducible rfl) (by with_reducible rfl) (by with_reducible rfl) (by with_reducible rfl) | simp +contextual (maxDischargeDepth := 100) [*]

theorem keeps_execInsulationTestStable {s : State} (a0 : Outlet) (a1 : ℕ) {x : State} (h : Keeps s x) :
    OutKeeps s (execInsulationTestStable a0 a1 x) := by
  unfold execInsulationTestStable
  try dsimp only
  repeat' split
  all_goals first | with_reducible exact h | (simp +contextual (maxDischargeDepth := 100) [*]; done) | exact h.of_eq (by with_reducible rfl) (by with_reducible rfl) (by with_reducible rfl) (by with_reducible rfl) | simp +contextual (maxDischargeDepth := 100) [*]

@[simp] theorem keeps_insulationWarning {s : State} (a0 : Outlet) (a1 : ℕ) {x : State} (h : Keeps s x) :
    Keeps s (insulationWarning a0 a1 x) := by
  unfold insulationWarning
  try dsimp only
  repeat' split
  all_goals first | with_reducible exact h | (simp +contextual (maxDischargeDepth := 100) [*]; done) | exact h.of_eq (by with_reducible rfl) (by with_reducible rfl) (by with_reducible rfl) (by with_reducible rfl) | simp +contextual (maxDischargeDepth := 100) [*]

theorem keeps_execInsulationMeasurement {s : State} (a0 : Outlet) (a1 : ℕ) (a2 : ℕ) (a3 : ℕ) {x : State} (h : Keeps s x) :
    OutKeeps s (execInsulationMeasurement a0 a1 a2 a3 x) := by
  unfold execInsulationMeasurement
  try dsimp only
  repeat' split
  all_goals first | with_reducible exact h | (simp +contextual (maxDischargeDepth := 100) [*]; done) | exact h.of_eq (by with_reducible rfl) (by with_reducible rfl) (by with_reducible rfl) (by with_reducible rfl) | simp +contextual (maxDischargeDepth := 100) [*]

theorem keeps_execPreCharge {s : State} (a0 : Outlet) (a1 : ℕ) (a2 : ℕ) {x : State} (h : Keeps s x) :
    OutKeeps s (execPreCharge a0 a1 a2 x) := by
  unfold execPreCharge
  first
    | (simp +contextual (maxDischargeDepth := 100) [*]; done)
    | (refine (outKeeps_next _ _).2 (keeps_ifDo _ (fun hy => ?_) h)
       try dsimp only
       repeat' split
       all_goals simp +contextual (maxDischargeDepth := 100) [*])

theorem keeps_execPowerDelivery {s : State} (a0 : Outlet) (a1 : Bool) {x : State} (h : Keeps s x) :
    OutKeeps s (execPowerDelivery a0 a1 x) := by
  unfold execPowerDelivery
  try dsimp only
  repeat' split
  all_goals first | with_reducible exact h | (simp +contextual (maxDischargeDepth := 100) [*]; done) | exact h.of_eq (by with_reducible rfl) (by with_reducible rfl) (by with_reducible rfl) (by with_reducible rfl) | simp +contextual (maxDischargeDepth := 100) [*]

theorem keeps_execChargeLoopRequest {s : State} (a0 : Outlet) (a1 : VehLimits) {x : State} (h : Keeps s x) :
    OutKeeps s (execChargeLoopRequest a0 a1 x) := by
  unfold execChargeLoopRequest
  first
    | (simp +contextual (maxDischargeDepth := 100) [*]; done)
    | (refine (outKeeps_next _ _).2 (keeps_ifDo _ (fun hy => ?_) h)
       try dsimp only
       repeat' split
       all_goals simp +contextual (maxDischargeDepth := 100) [*])

@[simp] theorem keeps_protocolMessage {s x : State} {f : Outlet → Nat → Bytes → State → State}
    (hf : ∀ o n b y, Keeps s y → Keeps s (f o n b y)) (o : Outlet) (msg : VehMsg) (h : Keeps s x) :
    Keeps s (protocolMessage f o msg x) := by
  unfold protocolMessage
  dsimp only
  repeat' split
  all_goals first
    | exact h
    | (simp +contextual (maxDischargeDepth := 100) [*]; done)
    | exact hf _ _ _ _ (by simp +contextual (maxDischargeDepth := 100) [*])

theorem keeps_execDirectionRenegotiation {s : State} (a0 : Outlet) (a1 : Bool) {x : State} (h : Keeps s x) :
    OutKeeps s (execDirectionRenegotiation a0 a1 x) := by
  unfold execDirectionRenegotiation
  try dsimp only
  repeat' split
  all_goals first | with_reducible exact h | (simp +contextual (maxDischargeDepth := 100) [*]; done) | exact h.of_eq (by with_reducible rfl) (by with_reducible rfl) (by with_reducible rfl) (by with_reducible rfl) | simp +contextual (maxDischargeDepth := 100) [*]

theorem keeps_execSetpointRampTick {s : State} (a0 : Outlet) (a1 : ℤ) {x : State} (h : Keeps s x) :
    OutKeeps s (execSetpointRampTick a0 a1 x) := by
  unfold execSetpointRampTick
  try dsimp only
  repeat' split
  all_goals first | with_reducible exact h | (simp +contextual (maxDischargeDepth := 100) [*]; done) | exact h.of_eq (by with_reducible rfl) (by with_reducible rfl) (by with_reducible rfl) (by with_reducible rfl) | simp +contextual (maxDischargeDepth := 100) [*]

theorem keeps_execPowerTargetConvert {s : State} (a0 : Outlet) (a1 : ℕ) {x : State} (h : Keeps s x) :
    OutKeeps s (execPowerTargetConvert a0 a1 x) := by
  unfold execPowerTargetConvert
  try dsimp only
  repeat' split
  all_goals first | with_reducible exact h | (simp +contextual (maxDischargeDepth := 100) [*]; done) | exact h.of_eq (by with_reducible rfl) (by with_reducible rfl) (by with_reducible rfl) (by with_reducible rfl) | simp +contextual (maxDischargeDepth := 100) [*]

theorem keeps_execAcHoldoffEnd {s : State} (a0 : Outlet) {x : State} (h : Keeps s x) :
    OutKeeps s (execAcHoldoffEnd a0 x) := by
  unfold execAcHoldoffEnd
  first
    | (simp +contextual (maxDischargeDepth := 100) [*]; done)
    | (refine (outKeeps_next _ _).2 (keeps_ifDo _ (fun hy => ?_) h)
       try dsimp only
       repeat' split
       all_goals simp +contextual (maxDischargeDepth := 100) [*])

theorem keeps_execBptDwellEnd {s : State} (a0 : Outlet) {x : State} (h : Keeps s x) :
    OutKeeps s (execBptDwellEnd a0 x) := by
  unfold execBptDwellEnd
  first
    | (simp +contextual (maxDischargeDepth := 100) [*]; done)
    | (refine (outKeeps_next _ _).2 (keeps_ifDo _ (fun hy => ?_) h)
       try dsimp only
       repeat' split
       all_goals simp +contextual (maxDischargeDepth := 100) [*])

theorem keeps_execStopTimeout {s : State} (a0 : Outlet) {x : State} (h : Keeps s x) :
    OutKeeps s (execStopTimeout a0 x) := by
  unfold execStopTimeout
  first
    | (simp +contextual (maxDischargeDepth := 100) [*]; done)
    | (refine (outKeeps_next _ _).2 (keeps_ifDo _ (fun hy => ?_) h)
       try dsimp only
       repeat' split
       all_goals simp +contextual (maxDischargeDepth := 100) [*])

theorem keeps_execPauseTimeout {s : State} (a0 : Outlet) {x : State} (h : Keeps s x) :
    OutKeeps s (execPauseTimeout a0 x) := by
  unfold execPauseTimeout
  first
    | (simp +contextual (maxDischargeDepth := 100) [*]; done)
    | (refine (outKeeps_next _ _).2 (keeps_ifDo _ (fun hy => ?_) h)
       try dsimp only
       repeat' split
       all_goals simp +contextual (maxDischargeDepth := 100) [*])

theorem keeps_execHandshakeTimeout {s : State} (a0 : Outlet) {x : State} (h : Keeps s x) :
    OutKeeps s (execHandshakeTimeout a0 x) := by
  unfold execHandshakeTimeout
  first
    | (simp +contextual (maxDischargeDepth := 100) [*]; done)
    | (refine (outKeeps_next _ _).2 (keeps_ifDo _ (fun hy => ?_) h)
       try dsimp only
       repeat' split
       all_goals simp +contextual (maxDischargeDepth := 100) [*])

theorem keeps_execProtocolTimeout {s : State} (a0 : Outlet) (a1 : TimeoutKind) {x : State} (h : Keeps s x) :
    OutKeeps s (execProtocolTimeout a0 a1 x) := by
  unfold execProtocolTimeout
  try dsimp only
  repeat' split
  all_goals first | with_reducible exact h | (simp +contextual (maxDischargeDepth := 100) [*]; done) | exact h.of_eq (by with_reducible rfl) (by with_reducible rfl) (by with_reducible rfl) (by with_reducible rfl) | simp +contextual (maxDischargeDepth := 100) [*]

theorem keeps_execOutletOvercurrent {s : State} (a0 : Outlet) (a1 : ℤ) {x : State} (h : Keeps s x) :
    OutKeeps s (execOutletOvercurrent a0 a1 x) := by
  unfold execOutletOvercurrent
  try dsimp only
  repeat' split
  all_goals first | with_reducible exact h | (simp +contextual (maxDischargeDepth := 100) [*]; done) | exact h.of_eq (by with_reducible rfl) (by with_reducible rfl) (by with_reducible rfl) (by with_reducible rfl) | simp +contextual (maxDischargeDepth := 100) [*]

theorem keeps_execOutletReenable {s : State} (a0 : Outlet) {x : State} (h : Keeps s x) :
    OutKeeps s (execOutletReenable a0 x) := by
  unfold execOutletReenable
  first
    | (simp +contextual (maxDischargeDepth := 100) [*]; done)
    | (refine (outKeeps_next _ _).2 (keeps_ifDo _ (fun hy => ?_) h)
       try dsimp only
       repeat' split
       all_goals simp +contextual (maxDischargeDepth := 100) [*])

theorem keeps_execSessionStop {s : State} (a0 : Mailbox) {x : State} (h : Keeps s x) :
    OutKeeps s (execSessionStop a0 x) := by
  unfold execSessionStop
  first
    | (simp +contextual (maxDischargeDepth := 100) [*]; done)
    | (refine (outKeeps_next _ _).2 (keeps_runCommand _ _ (fun b y hy => ?_) h)
       try dsimp only
       try refine replyKeeps_guards _ _ hy ?_
       repeat' split
       all_goals simp +contextual (maxDischargeDepth := 100) [*])

theorem keeps_execSessionStatusGet {s : State} (a0 : Mailbox) {x : State} (h : Keeps s x) :
    OutKeeps s (execSessionStatusGet a0 x) := by
  unfold execSessionStatusGet
  first
    | (simp +contextual (maxDischargeDepth := 100) [*]; done)
    | (refine (outKeeps_next _ _).2 (keeps_runCommand _ _ (fun b y hy => ?_) h)
       try dsimp only
       try refine replyKeeps_guards _ _ hy ?_
       repeat' split
       all_goals simp +contextual (maxDischargeDepth := 100) [*])

theorem keeps_execSetpointSet {s : State} (a0 : Mailbox) {x : State} (h : Keeps s x) :
    OutKeeps s (execSetpointSet a0 x) := by
  unfold execSetpointSet
  first
    | (simp +contextual (maxDischargeDepth := 100) [*]; done)
    | (refine (outKeeps_next _ _).2 (keeps_runCommand _ _ (fun b y hy => ?_) h)
       try dsimp only
       try refine replyKeeps_guards _ _ hy ?_
       repeat' split
       all_goals simp +contextual (maxDischargeDepth := 100) [*])

end Sys2Proof.Machine
end

