-- ==== Sys2Proof/Laws/KeepsSvcOps.lean ====
section
/-! SUPPORT. The operations of Machine/SvcOps.lean keep what `Keeps` says. -/

set_option linter.unusedVariables false
set_option linter.unusedSimpArgs false
set_option linter.unusedTactic false
set_option linter.unreachableTactic false

namespace Sys2Proof.Machine

@[simp] theorem keeps_answerText {s : State} (a0 : String) {x : State} (h : Keeps s x) :
    Keeps s (answerText a0 x) := by
  unfold answerText
  try dsimp only
  repeat' split
  all_goals first | with_reducible exact h | (simp +contextual (maxDischargeDepth := 100) [*]; done) | exact h.of_eq (by with_reducible rfl) (by with_reducible rfl) (by with_reducible rfl) (by with_reducible rfl) | simp +contextual (maxDischargeDepth := 100) [*]

@[simp] theorem keeps_fromOperator {s x : State} {f : State → State} (hf : Keeps s x → Keeps s (f x)) (h : Keeps s x) :
    Keeps s (fromOperator f x) := keeps_ifDo _ hf h

@[simp] theorem keeps_dropSent {s : State} (a0 : OpMsg → Bool) {x : State} (h : Keeps s x) :
    Keeps s (dropSent a0 x) := by
  unfold dropSent
  try dsimp only
  repeat' split
  all_goals first | with_reducible exact h | (simp +contextual (maxDischargeDepth := 100) [*]; done) | exact h.of_eq (by with_reducible rfl) (by with_reducible rfl) (by with_reducible rfl) (by with_reducible rfl) | simp +contextual (maxDischargeDepth := 100) [*]

@[simp] theorem keeps_operatorTime {s : State} (a0 : ℕ) {x : State} (h : Keeps s x) :
    Keeps s (operatorTime a0 x) := by
  unfold operatorTime
  try dsimp only
  repeat' split
  all_goals first | with_reducible exact h | (simp +contextual (maxDischargeDepth := 100) [*]; done) | exact h.of_eq (by with_reducible rfl) (by with_reducible rfl) (by with_reducible rfl) (by with_reducible rfl) | simp +contextual (maxDischargeDepth := 100) [*]

@[simp] theorem keeps_sendBoot {s : State}  {x : State} (h : Keeps s x) :
    Keeps s (sendBoot x) := by
  unfold sendBoot
  try dsimp only
  repeat' split
  all_goals first | with_reducible exact h | (simp +contextual (maxDischargeDepth := 100) [*]; done) | exact h.of_eq (by with_reducible rfl) (by with_reducible rfl) (by with_reducible rfl) (by with_reducible rfl) | simp +contextual (maxDischargeDepth := 100) [*]

@[simp] theorem keeps_openCopy {s : State}  {x : State} (h : Keeps s x) :
    Keeps s (openCopy x).2 := by
  unfold openCopy
  try dsimp only
  repeat' split
  all_goals first | with_reducible exact h | (simp +contextual (maxDischargeDepth := 100) [*]; done) | exact h.of_eq (by with_reducible rfl) (by with_reducible rfl) (by with_reducible rfl) (by with_reducible rfl) | simp +contextual (maxDischargeDepth := 100) [*]

@[simp] theorem keeps_changeKey {s : State} (a0 : Key) (a1 : Bytes) {x : State} (h : Keeps s x) :
    Keeps s (changeKey a0 a1 x) := by
  unfold changeKey
  try dsimp only
  repeat' split
  all_goals first | with_reducible exact h | (simp +contextual (maxDischargeDepth := 100) [*]; done) | exact h.of_eq (by with_reducible rfl) (by with_reducible rfl) (by with_reducible rfl) (by with_reducible rfl) | simp +contextual (maxDischargeDepth := 100) [*]

@[simp] theorem keeps_readerFailed {s : State}  {x : State} (h : Keeps s x) :
    Keeps s (readerFailed x) := by
  unfold readerFailed
  try dsimp only
  repeat' split
  all_goals first | with_reducible exact h | (simp +contextual (maxDischargeDepth := 100) [*]; done) | exact h.of_eq (by with_reducible rfl) (by with_reducible rfl) (by with_reducible rfl) (by with_reducible rfl) | simp +contextual (maxDischargeDepth := 100) [*]

@[simp] theorem keeps_noCard {s : State}  {x : State} (h : Keeps s x) :
    Keeps s (noCard x) := by
  unfold noCard
  try dsimp only
  repeat' split
  all_goals first | with_reducible exact h | (simp +contextual (maxDischargeDepth := 100) [*]; done) | exact h.of_eq (by with_reducible rfl) (by with_reducible rfl) (by with_reducible rfl) (by with_reducible rfl) | simp +contextual (maxDischargeDepth := 100) [*]

@[simp] theorem keeps_cardSeen {s : State} (a0 : Bytes) {x : State} (h : Keeps s x) :
    Keeps s (cardSeen a0 x) := by
  unfold cardSeen
  try dsimp only
  repeat' split
  all_goals first | with_reducible exact h | (simp +contextual (maxDischargeDepth := 100) [*]; done) | exact h.of_eq (by with_reducible rfl) (by with_reducible rfl) (by with_reducible rfl) (by with_reducible rfl) | simp +contextual (maxDischargeDepth := 100) [*]

@[simp] theorem keeps_dropReservation {s : State} (a0 : ℕ) {x : State} (h : Keeps s x) :
    Keeps s (dropReservation a0 x) := by
  unfold dropReservation
  try dsimp only
  repeat' split
  all_goals first | with_reducible exact h | (simp +contextual (maxDischargeDepth := 100) [*]; done) | exact h.of_eq (by with_reducible rfl) (by with_reducible rfl) (by with_reducible rfl) (by with_reducible rfl) | simp +contextual (maxDischargeDepth := 100) [*]

@[simp] theorem keeps_withinMessage {s x : State} (a0 : ℕ) {a1 : State → State} (hf : Keeps s x → Keeps s (a1 x)) (h : Keeps s x) :
    Keeps s (withinMessage a0 a1 x) := by
  unfold withinMessage
  split
  · exact keeps_answerText _ h
  · exact hf h

end Sys2Proof.Machine
end

