-- ==== Sys2Proof/Laws/KeepsServices.lean ====
section
/-! SUPPORT. The operations of Machine/Services.lean keep what `Keeps` says. -/

set_option linter.unusedVariables false
set_option linter.unusedSimpArgs false
set_option linter.unusedTactic false
set_option linter.unreachableTactic false

namespace Sys2Proof.Machine

@[simp] theorem keeps_reserveField {s : State} (a0 : Outlet) (a1 : ℕ) {x : State} (h : Keeps s x) :
    Keeps s (reserveField a0 a1 x) := by
  unfold reserveField
  try dsimp only
  repeat' split
  all_goals first | with_reducible exact h | (simp +contextual (maxDischargeDepth := 100) [*]; done) | exact h.of_eq (by with_reducible rfl) (by with_reducible rfl) (by with_reducible rfl) (by with_reducible rfl) | simp +contextual (maxDischargeDepth := 100) [*]

theorem keeps_execSessionStart {s : State} (a0 : Mailbox) {x : State} (h : Keeps s x) :
    OutKeeps s (execSessionStart a0 x) := by
  unfold execSessionStart
  first
    | (simp +contextual (maxDischargeDepth := 100) [*]; done)
    | (refine (outKeeps_next _ _).2 (keeps_runCommand _ _ (fun b y hy => ?_) h)
       try dsimp only
       try refine replyKeeps_guards _ _ hy ?_
       repeat' split
       all_goals simp +contextual (maxDischargeDepth := 100) [*])

theorem keeps_execAuthIdentitySubmit {s : State} (a0 : Mailbox) {x : State} (h : Keeps s x) :
    OutKeeps s (execAuthIdentitySubmit a0 x) := by
  unfold execAuthIdentitySubmit
  first
    | (simp +contextual (maxDischargeDepth := 100) [*]; done)
    | (refine (outKeeps_next _ _).2 (keeps_runCommand _ _ (fun b y hy => ?_) h)
       try dsimp only
       try refine replyKeeps_guards _ _ hy ?_
       repeat' split
       all_goals simp +contextual (maxDischargeDepth := 100) [*])

theorem keeps_execSolarFollowSet {s : State} (a0 : Mailbox) {x : State} (h : Keeps s x) :
    OutKeeps s (execSolarFollowSet a0 x) := by
  unfold execSolarFollowSet
  first
    | (simp +contextual (maxDischargeDepth := 100) [*]; done)
    | (refine (outKeeps_next _ _).2 (keeps_runCommand _ _ (fun b y hy => ?_) h)
       try dsimp only
       try refine replyKeeps_guards _ _ hy ?_
       repeat' split
       all_goals simp +contextual (maxDischargeDepth := 100) [*])

theorem keeps_execOcppReconnect {s : State} (a0 : Bool) {x : State} (h : Keeps s x) :
    OutKeeps s (execOcppReconnect a0 x) := by
  unfold execOcppReconnect
  try dsimp only
  repeat' split
  all_goals first | with_reducible exact h | (simp +contextual (maxDischargeDepth := 100) [*]; done) | exact h.of_eq (by with_reducible rfl) (by with_reducible rfl) (by with_reducible rfl) (by with_reducible rfl) | simp +contextual (maxDischargeDepth := 100) [*]

theorem keeps_execBootNotificationResponse {s : State} (a0 : BootStatus) (a1 : ℕ) (a2 : ℕ) {x : State} (h : Keeps s x) :
    OutKeeps s (execBootNotificationResponse a0 a1 a2 x) := by
  unfold execBootNotificationResponse
  first
    | (simp +contextual (maxDischargeDepth := 100) [*]; done)
    | (refine (outKeeps_next _ _).2 (keeps_fromOperator (fun hy => ?_) h)
       try dsimp only
       repeat' split
       all_goals simp +contextual (maxDischargeDepth := 100) [*])

theorem keeps_execHeartbeatSend {s : State}  {x : State} (h : Keeps s x) :
    OutKeeps s (execHeartbeatSend x) := by
  unfold execHeartbeatSend
  first
    | (simp +contextual (maxDischargeDepth := 100) [*]; done)
    | (refine (outKeeps_next _ _).2 (keeps_fromOperator (fun hy => ?_) h)
       try dsimp only
       repeat' split
       all_goals simp +contextual (maxDischargeDepth := 100) [*])

theorem keeps_execHeartbeatResponse {s : State} (a0 : ℕ) {x : State} (h : Keeps s x) :
    OutKeeps s (execHeartbeatResponse a0 x) := by
  unfold execHeartbeatResponse
  first
    | (simp +contextual (maxDischargeDepth := 100) [*]; done)
    | (refine (outKeeps_next _ _).2 (keeps_fromOperator (fun hy => ?_) h)
       try dsimp only
       repeat' split
       all_goals simp +contextual (maxDischargeDepth := 100) [*])

theorem keeps_execNtpReply {s : State} (a0 : ℕ) (a1 : ℕ) {x : State} (h : Keeps s x) :
    OutKeeps s (execNtpReply a0 a1 x) := by
  unfold execNtpReply
  first
    | (simp +contextual (maxDischargeDepth := 100) [*]; done)
    | (refine (outKeeps_next _ _).2 (keeps_ifDo _ (fun hy => ?_) h)
       try dsimp only
       repeat' split
       all_goals simp +contextual (maxDischargeDepth := 100) [*])

theorem keeps_execOcppConnectionLost {s : State}  {x : State} (h : Keeps s x) :
    OutKeeps s (execOcppConnectionLost x) := by
  unfold execOcppConnectionLost
  first
    | (simp +contextual (maxDischargeDepth := 100) [*]; done)
    | (refine (outKeeps_next _ _).2 (keeps_ifDo _ (fun hy => ?_) h)
       try dsimp only
       repeat' split
       all_goals simp +contextual (maxDischargeDepth := 100) [*])

theorem keeps_execTlsFailure {s : State}  {x : State} (h : Keeps s x) :
    OutKeeps s (execTlsFailure x) := by
  unfold execTlsFailure
  first
    | (simp +contextual (maxDischargeDepth := 100) [*]; done)
    | (refine (outKeeps_next _ _).2 (keeps_ifDo _ (fun hy => ?_) h)
       try dsimp only
       repeat' split
       all_goals simp +contextual (maxDischargeDepth := 100) [*])

theorem keeps_execIdleOcppWindow {s : State}  {x : State} (h : Keeps s x) :
    OutKeeps s (execIdleOcppWindow x) := by
  unfold execIdleOcppWindow
  first
    | (simp +contextual (maxDischargeDepth := 100) [*]; done)
    | (refine (outKeeps_next _ _).2 (keeps_ifDo _ (fun hy => ?_) h)
       try dsimp only
       repeat' split
       all_goals simp +contextual (maxDischargeDepth := 100) [*])

theorem keeps_execAuthorizeResponse {s : State} (a0 : Bytes) (a1 : AuthStatus) (a2 : ℕ) {x : State} (h : Keeps s x) :
    OutKeeps s (execAuthorizeResponse a0 a1 a2 x) := by
  unfold execAuthorizeResponse
  refine (outKeeps_next _ _).2 (keeps_fromOperator (fun _ => keeps_ifDo _ (fun _ => ?_) h) h)
  dsimp only
  split
  · exact keeps_cachePut _ (keeps_dropSent _ h)
  · exact keeps_authDone _ _ _ (keeps_modSvc _ (keeps_cachePut _ (keeps_dropSent _ h)))

theorem keeps_execAuthOfflineTimeout {s : State} (a0 : Bytes) {x : State} (h : Keeps s x) :
    OutKeeps s (execAuthOfflineTimeout a0 x) := by
  unfold execAuthOfflineTimeout
  first
    | (simp +contextual (maxDischargeDepth := 100) [*]; done)
    | (refine (outKeeps_next _ _).2 (keeps_ifDo _ (fun hy => ?_) h)
       try dsimp only
       repeat' split
       all_goals simp +contextual (maxDischargeDepth := 100) [*])

theorem keeps_execReaderPoll {s : State} (a0 : Option Bytes) {x : State} (h : Keeps s x) :
    OutKeeps s (execReaderPoll a0 x) := by
  unfold execReaderPoll
  first
    | (simp +contextual (maxDischargeDepth := 100) [*]; done)
    | (refine (outKeeps_next _ _).2 (keeps_ifDo _ (fun hy => ?_) h)
       try dsimp only
       repeat' split
       all_goals simp +contextual (maxDischargeDepth := 100) [*])

theorem keeps_execIdentityLapse {s : State}  {x : State} (h : Keeps s x) :
    OutKeeps s (execIdentityLapse x) := by
  unfold execIdentityLapse
  first
    | (simp +contextual (maxDischargeDepth := 100) [*]; done)
    | (refine (outKeeps_next _ _).2 (keeps_ifDo _ (fun hy => ?_) h)
       try dsimp only
       repeat' split
       all_goals simp +contextual (maxDischargeDepth := 100) [*])

theorem keeps_execSendLocalList {s : State} (a0 : ℕ) (a1 : Bool) (a2 : List ListEntry) {x : State} (h : Keeps s x) :
    OutKeeps s (execSendLocalList a0 a1 a2 x) := by
  unfold execSendLocalList
  try dsimp only
  repeat' split
  all_goals first | with_reducible exact h | (simp +contextual (maxDischargeDepth := 100) [*]; done) | exact h.of_eq (by with_reducible rfl) (by with_reducible rfl) (by with_reducible rfl) (by with_reducible rfl) | simp +contextual (maxDischargeDepth := 100) [*]

theorem keeps_execClearCache {s : State}  {x : State} (h : Keeps s x) :
    OutKeeps s (execClearCache x) := by
  unfold execClearCache
  first
    | (simp +contextual (maxDischargeDepth := 100) [*]; done)
    | (refine (outKeeps_next _ _).2 (keeps_fromOperator (fun hy => ?_) h)
       try dsimp only
       repeat' split
       all_goals simp +contextual (maxDischargeDepth := 100) [*])

theorem keeps_execRemoteStart {s : State} (a0 : Outlet) (a1 : ℕ) (a2 : Bytes) {x : State} (h : Keeps s x) :
    OutKeeps s (execRemoteStart a0 a1 a2 x) := by
  unfold execRemoteStart
  first
    | (simp +contextual (maxDischargeDepth := 100) [*]; done)
    | (refine (outKeeps_next _ _).2 (keeps_fromOperator (fun hy => ?_) h)
       try dsimp only
       repeat' split
       all_goals simp +contextual (maxDischargeDepth := 100) [*])

theorem keeps_execOperatorStop {s : State} (a0 : ℕ) {x : State} (h : Keeps s x) :
    OutKeeps s (execOperatorStop a0 x) := by
  unfold execOperatorStop
  first
    | (simp +contextual (maxDischargeDepth := 100) [*]; done)
    | (refine (outKeeps_next _ _).2 (keeps_fromOperator (fun hy => ?_) h)
       try dsimp only
       repeat' split
       all_goals simp +contextual (maxDischargeDepth := 100) [*])

theorem keeps_execReserveNow {s : State} (a0 : Option Outlet) (a1 : ℕ) (a2 : Bytes) (a3 : Bytes) (a4 : ℕ) {x : State} (h : Keeps s x) :
    OutKeeps s (execReserveNow a0 a1 a2 a3 a4 x) := by
  unfold execReserveNow
  first
    | (simp +contextual (maxDischargeDepth := 100) [*]; done)
    | (refine (outKeeps_next _ _).2 (keeps_fromOperator (fun hy => ?_) h)
       try dsimp only
       repeat' split
       all_goals simp +contextual (maxDischargeDepth := 100) [*])

theorem keeps_execReservationExpire {s : State} (a0 : ℕ) {x : State} (h : Keeps s x) :
    OutKeeps s (execReservationExpire a0 x) := by
  unfold execReservationExpire
  try dsimp only
  repeat' split
  all_goals first | with_reducible exact h | (simp +contextual (maxDischargeDepth := 100) [*]; done) | exact h.of_eq (by with_reducible rfl) (by with_reducible rfl) (by with_reducible rfl) (by with_reducible rfl) | simp +contextual (maxDischargeDepth := 100) [*]

theorem keeps_execCancelReservation {s : State} (a0 : ℕ) {x : State} (h : Keeps s x) :
    OutKeeps s (execCancelReservation a0 x) := by
  unfold execCancelReservation
  first
    | (simp +contextual (maxDischargeDepth := 100) [*]; done)
    | (refine (outKeeps_next _ _).2 (keeps_fromOperator (fun hy => ?_) h)
       try dsimp only
       repeat' split
       all_goals simp +contextual (maxDischargeDepth := 100) [*])

theorem keeps_execProtocolMessage {s : State} (a0 : Outlet) (a1 : VehMsg) {x : State} (h : Keeps s x) :
    OutKeeps s (execProtocolMessage a0 a1 x) := by
  unfold execProtocolMessage
  try dsimp only
  repeat' split
  all_goals first | with_reducible exact h | (simp +contextual (maxDischargeDepth := 100) [*]; done) | exact h.of_eq (by with_reducible rfl) (by with_reducible rfl) (by with_reducible rfl) (by with_reducible rfl) | simp +contextual (maxDischargeDepth := 100) [*]

theorem keeps_execChangeConfiguration {s : State} (a0 : Bytes) (a1 : Bytes) {x : State} (h : Keeps s x) :
    OutKeeps s (execChangeConfiguration a0 a1 x) := by
  unfold execChangeConfiguration
  first
    | (simp +contextual (maxDischargeDepth := 100) [*]; done)
    | (refine (outKeeps_next _ _).2 (keeps_fromOperator (fun hy => ?_) h)
       try dsimp only
       repeat' split
       all_goals simp +contextual (maxDischargeDepth := 100) [*])

@[simp] theorem keeps_tariffAnswer {s : State} (a0 : Option Status) (a1 : MetRequest) {x : State} (h : Keeps s x) :
    Keeps s (tariffAnswer a0 a1 x) := by
  unfold tariffAnswer
  try dsimp only
  repeat' split
  all_goals first | with_reducible exact h | (simp +contextual (maxDischargeDepth := 100) [*]; done) | exact h.of_eq (by with_reducible rfl) (by with_reducible rfl) (by with_reducible rfl) (by with_reducible rfl) | simp +contextual (maxDischargeDepth := 100) [*]

theorem keeps_execTariffTableDatatransfer {s : State} (a0 : List TariffEntry) {x : State} (h : Keeps s x) :
    OutKeeps s (execTariffTableDatatransfer a0 x) := by
  unfold execTariffTableDatatransfer
  try dsimp only
  repeat' split
  all_goals first | with_reducible exact h | (simp +contextual (maxDischargeDepth := 100) [*]; done) | exact h.of_eq (by with_reducible rfl) (by with_reducible rfl) (by with_reducible rfl) (by with_reducible rfl) | simp +contextual (maxDischargeDepth := 100) [*]

theorem keeps_execTariffSwitchDatatransfer {s : State} (a0 : ℕ) (a1 : ℕ) (a2 : ℕ) {x : State} (h : Keeps s x) :
    OutKeeps s (execTariffSwitchDatatransfer a0 a1 a2 x) := by
  unfold execTariffSwitchDatatransfer
  first
    | (simp +contextual (maxDischargeDepth := 100) [*]; done)
    | (refine (outKeeps_next _ _).2 (keeps_fromOperator (fun hy => ?_) h)
       try dsimp only
       repeat' split
       all_goals simp +contextual (maxDischargeDepth := 100) [*])

theorem keeps_execSetChargingProfile {s : State} (a0 : Outlet) (a1 : ChargingProfile) {x : State} (h : Keeps s x) :
    OutKeeps s (execSetChargingProfile a0 a1 x) := by
  unfold execSetChargingProfile
  first
    | (simp +contextual (maxDischargeDepth := 100) [*]; done)
    | (refine (outKeeps_next _ _).2 (keeps_fromOperator (fun hy => ?_) h)
       try dsimp only
       repeat' split
       all_goals simp +contextual (maxDischargeDepth := 100) [*])

theorem keeps_execChargingProfilePeriod {s : State} (a0 : Outlet) {x : State} (h : Keeps s x) :
    OutKeeps s (execChargingProfilePeriod a0 x) := by
  unfold execChargingProfilePeriod
  first
    | (simp +contextual (maxDischargeDepth := 100) [*]; done)
    | (refine (outKeeps_next _ _).2 (keeps_ifDo _ (fun hy => ?_) h)
       try dsimp only
       repeat' split
       all_goals simp +contextual (maxDischargeDepth := 100) [*])

theorem keeps_execInstallCertificate {s : State} (a0 : CertOp) {x : State} (h : Keeps s x) :
    OutKeeps s (execInstallCertificate a0 x) := by
  unfold execInstallCertificate
  first
    | (simp +contextual (maxDischargeDepth := 100) [*]; done)
    | (refine (outKeeps_next _ _).2 (keeps_fromOperator (fun hy => ?_) h)
       try dsimp only
       repeat' split
       all_goals simp +contextual (maxDischargeDepth := 100) [*])

theorem keeps_execMeterValuesSend {s : State} (a0 : Outlet) {x : State} (h : Keeps s x) :
    OutKeeps s (execMeterValuesSend a0 x) := by
  unfold execMeterValuesSend
  try dsimp only
  repeat' split
  all_goals first | with_reducible exact h | (simp +contextual (maxDischargeDepth := 100) [*]; done) | exact h.of_eq (by with_reducible rfl) (by with_reducible rfl) (by with_reducible rfl) (by with_reducible rfl) | simp +contextual (maxDischargeDepth := 100) [*]

theorem keeps_execRecordDelivery {s : State} (a0 : ℕ) {x : State} (h : Keeps s x) :
    OutKeeps s (execRecordDelivery a0 x) := by
  unfold execRecordDelivery
  first
    | (simp +contextual (maxDischargeDepth := 100) [*]; done)
    | (refine (outKeeps_next _ _).2 (keeps_fromOperator (fun hy => ?_) h)
       try dsimp only
       repeat' split
       all_goals simp +contextual (maxDischargeDepth := 100) [*])

theorem keeps_execTransactionResponse {s : State} (a0 : Option ℕ) (a1 : Option ListEntry) {x : State} (h : Keeps s x) :
    OutKeeps s (execTransactionResponse a0 a1 x) := by
  unfold execTransactionResponse
  first
    | (simp +contextual (maxDischargeDepth := 100) [*]; done)
    | (refine (outKeeps_next _ _).2 (keeps_fromOperator (fun hy => ?_) h)
       try dsimp only
       repeat' split
       all_goals simp +contextual (maxDischargeDepth := 100) [*])

theorem keeps_execSolarProductionTick {s : State}  {x : State} (h : Keeps s x) :
    OutKeeps s (execSolarProductionTick x) := by
  unfold execSolarProductionTick
  first
    | (simp +contextual (maxDischargeDepth := 100) [*]; done)
    | (refine (outKeeps_next _ _).2 (keeps_ifDo _ (fun hy => ?_) h)
       try dsimp only
       repeat' split
       all_goals simp +contextual (maxDischargeDepth := 100) [*])

theorem keeps_execSolarUpdate {s : State}  {x : State} (h : Keeps s x) :
    OutKeeps s (execSolarUpdate x) := by
  unfold execSolarUpdate
  first
    | (simp +contextual (maxDischargeDepth := 100) [*]; done)
    | (refine (outKeeps_next _ _).2 (keeps_ifDo _ (fun hy => ?_) h)
       try dsimp only
       repeat' split
       all_goals simp +contextual (maxDischargeDepth := 100) [*])

theorem keeps_execSolarStopTimer {s : State} (a0 : Outlet) {x : State} (h : Keeps s x) :
    OutKeeps s (execSolarStopTimer a0 x) := by
  unfold execSolarStopTimer
  try dsimp only
  repeat' split
  all_goals first | with_reducible exact h | (simp +contextual (maxDischargeDepth := 100) [*]; done) | exact h.of_eq (by with_reducible rfl) (by with_reducible rfl) (by with_reducible rfl) (by with_reducible rfl) | simp +contextual (maxDischargeDepth := 100) [*]

theorem keeps_execSolarStartTimer {s : State} (a0 : Outlet) {x : State} (h : Keeps s x) :
    OutKeeps s (execSolarStartTimer a0 x) := by
  unfold execSolarStartTimer
  try dsimp only
  repeat' split
  all_goals first | with_reducible exact h | (simp +contextual (maxDischargeDepth := 100) [*]; done) | exact h.of_eq (by with_reducible rfl) (by with_reducible rfl) (by with_reducible rfl) (by with_reducible rfl) | simp +contextual (maxDischargeDepth := 100) [*]

end Sys2Proof.Machine
end

