-- ==== Sys2Proof/Laws/KeepsStartOps.lean ====
section
/-! SUPPORT. The operations of Machine/StartOps.lean keep what `Keeps` says. -/

set_option linter.unusedVariables false
set_option linter.unusedSimpArgs false
set_option linter.unusedTactic false
set_option linter.unreachableTactic false

namespace Sys2Proof.Machine

@[simp] theorem keeps_mendActive {s : State}  {x : State} (h : Keeps s x) :
    Keeps s (mendActive x).1 := by
  unfold mendActive
  try dsimp only
  repeat' split
  all_goals first | with_reducible exact h | (simp +contextual (maxDischargeDepth := 100) [*]; done) | exact h.of_eq (by with_reducible rfl) (by with_reducible rfl) (by with_reducible rfl) (by with_reducible rfl) | simp +contextual (maxDischargeDepth := 100) [*]

@[simp] theorem keeps_runBank {s : State} (a0 : Bank) (a1 : Bool) {x : State} (h : Keeps s x) :
    Keeps s (runBank a0 a1 x) := by
  unfold runBank
  try dsimp only
  repeat' split
  all_goals first | with_reducible exact h | (simp +contextual (maxDischargeDepth := 100) [*]; done) | exact h.of_eq (by with_reducible rfl) (by with_reducible rfl) (by with_reducible rfl) (by with_reducible rfl) | simp +contextual (maxDischargeDepth := 100) [*]

theorem snd_keeps {α : Type} {s t : State} {a : α} {p : α × State} (e : p = (a, t)) (h : Keeps s p.2) : Keeps s t := by
  rw [e] at h; exact h

@[simp] theorem keeps_startBank {s : State} {x : State} (h : Keeps s x) : Keeps s (startBank x) := by
  unfold startBank
  split
  · rename_i t e; exact snd_keeps e (keeps_bootSelect _ h)
  · rename_i b trial t e
    have k := snd_keeps e (keeps_bootSelect _ h)
    dsimp only
    split
    · exact keeps_runBank _ _ k
    · split
      · rename_i v hv; exact keeps_migrate (keeps_runBank _ _ k) v hv
      · split
        · rename_i y w e2; exact keeps_runBank _ _ (snd_keeps e2 (keeps_bootConfirmed _ _ (keeps_fallBackTo _ _ k)))
        · rename_i w e2; exact snd_keeps e2 (keeps_bootConfirmed _ _ (keeps_fallBackTo _ _ k))

@[simp] theorem keeps_startKeys {s : State} (a0 : StartInputs) {x : State} (h : Keeps s x) :
    Keeps s (startKeys a0 x) := by
  unfold startKeys
  refine keeps_forEach _ (fun i y hy => keeps_failSlot _ hy) (keeps_ifDo _ (fun hy => keeps_forEach _ (fun i z hz => keeps_failSlot _ hz) hy)
    (keeps_ifDo _ (fun hy => keeps_modKeys (fusesStay_slots _) hy) (keeps_modKeys (fun k => ?_) h)))
  unfold mendFuses
  refine ⟨fun hk => ?_, fun hk => ?_, fun hk => ?_⟩ <;> simp only [hk, if_false] <;> decide

@[simp] theorem keeps_powerRestored {s : State} (a0 : ℕ) {x : State} (h : Keeps s x) :
    Keeps s (powerRestored a0 x) := by
  unfold powerRestored
  try dsimp only
  repeat' split
  all_goals first | with_reducible exact h | (simp +contextual (maxDischargeDepth := 100) [*]; done) | exact h.of_eq (by with_reducible rfl) (by with_reducible rfl) (by with_reducible rfl) (by with_reducible rfl) | simp +contextual (maxDischargeDepth := 100) [*]

@[simp] theorem keeps_loadMet {s : State}  {x : State} (h : Keeps s x) :
    Keeps s (loadMet x) := by
  unfold loadMet
  try dsimp only
  repeat' split
  all_goals first | with_reducible exact h | (simp +contextual (maxDischargeDepth := 100) [*]; done) | exact h.of_eq (by with_reducible rfl) (by with_reducible rfl) (by with_reducible rfl) (by with_reducible rfl) | simp +contextual (maxDischargeDepth := 100) [*]

@[simp] theorem keeps_startFaults {s : State} (a0 : StartInputs) {x : State} (h : Keeps s x) :
    Keeps s (startFaults a0 x) := by
  unfold startFaults
  try dsimp only
  repeat' split
  all_goals first | with_reducible exact h | (simp +contextual (maxDischargeDepth := 100) [*]; done) | exact h.of_eq (by with_reducible rfl) (by with_reducible rfl) (by with_reducible rfl) (by with_reducible rfl) | simp +contextual (maxDischargeDepth := 100) [*]

@[simp] theorem keeps_closeCut {s : State} (a0 : Outlet) {x : State} (h : Keeps s x) :
    Keeps s (closeCut a0 x) := by
  unfold closeCut
  try dsimp only
  repeat' split
  all_goals first | with_reducible exact h | (simp +contextual (maxDischargeDepth := 100) [*]; done) | exact h.of_eq (by with_reducible rfl) (by with_reducible rfl) (by with_reducible rfl) (by with_reducible rfl) | simp +contextual (maxDischargeDepth := 100) [*]

@[simp] theorem keeps_startMet {s : State} (a0 : StartInputs) (a1 : Bool) {x : State} (h : Keeps s x) :
    Keeps s (startMet a0 a1 x) := by
  unfold startMet
  try dsimp only
  repeat' split
  all_goals first | with_reducible exact h | (simp +contextual (maxDischargeDepth := 100) [*]; done) | exact h.of_eq (by with_reducible rfl) (by with_reducible rfl) (by with_reducible rfl) (by with_reducible rfl) | simp +contextual (maxDischargeDepth := 100) [*]

@[simp] theorem keeps_startIsland {s : State} (a0 : StartInputs) (a1 : Island) {x : State} (h : Keeps s x) :
    Keeps s (startIsland a0 a1 x) := by
  unfold startIsland
  try dsimp only
  repeat' split
  all_goals first | with_reducible exact h | (simp +contextual (maxDischargeDepth := 100) [*]; done) | exact h.of_eq (by with_reducible rfl) (by with_reducible rfl) (by with_reducible rfl) (by with_reducible rfl) | simp +contextual (maxDischargeDepth := 100) [*]

@[simp] theorem keeps_startChain {s : State} (a0 : StartInputs) {x : State} (h : Keeps s x) :
    Keeps s (startChain a0 x) := by
  unfold startChain
  try dsimp only
  repeat' split
  all_goals first | with_reducible exact h | (simp +contextual (maxDischargeDepth := 100) [*]; done) | exact h.of_eq (by with_reducible rfl) (by with_reducible rfl) (by with_reducible rfl) (by with_reducible rfl) | simp +contextual (maxDischargeDepth := 100) [*]

@[simp] theorem keeps_startWeld {s : State} (a0 : Outlet) {x : State} (h : Keeps s x) :
    Keeps s (startWeld a0 x) := by
  unfold startWeld
  try dsimp only
  repeat' split
  all_goals first | with_reducible exact h | (simp +contextual (maxDischargeDepth := 100) [*]; done) | exact h.of_eq (by with_reducible rfl) (by with_reducible rfl) (by with_reducible rfl) (by with_reducible rfl) | simp +contextual (maxDischargeDepth := 100) [*]

@[simp] theorem keeps_startSaf {s : State} (a0 : StartInputs) {x : State} (h : Keeps s x) :
    Keeps s (startSaf a0 x) := by
  unfold startSaf
  try dsimp only
  repeat' split
  all_goals first | with_reducible exact h | (simp +contextual (maxDischargeDepth := 100) [*]; done) | exact h.of_eq (by with_reducible rfl) (by with_reducible rfl) (by with_reducible rfl) (by with_reducible rfl) | simp +contextual (maxDischargeDepth := 100) [*]

@[simp] theorem keeps_finishBoot {s : State}  {x : State} (h : Keeps s x) :
    Keeps s (finishBoot x) := by
  unfold finishBoot
  try dsimp only
  repeat' split
  all_goals first | with_reducible exact h | (simp +contextual (maxDischargeDepth := 100) [*]; done) | exact h.of_eq (by with_reducible rfl) (by with_reducible rfl) (by with_reducible rfl) (by with_reducible rfl) | simp +contextual (maxDischargeDepth := 100) [*]

@[simp] theorem keeps_reportMend {s : State} (a0 : ℕ) {x : State} (h : Keeps s x) :
    Keeps s (reportMend a0 x) := by
  unfold reportMend
  try dsimp only
  repeat' split
  all_goals first | with_reducible exact h | (simp +contextual (maxDischargeDepth := 100) [*]; done) | exact h.of_eq (by with_reducible rfl) (by with_reducible rfl) (by with_reducible rfl) (by with_reducible rfl) | simp +contextual (maxDischargeDepth := 100) [*]

@[simp] theorem keeps_startSwitches {s : State}  {x : State} (h : Keeps s x) :
    Keeps s (startSwitches x) := by
  unfold startSwitches
  try dsimp only
  repeat' split
  all_goals first | with_reducible exact h | (simp +contextual (maxDischargeDepth := 100) [*]; done) | exact h.of_eq (by with_reducible rfl) (by with_reducible rfl) (by with_reducible rfl) (by with_reducible rfl) | simp +contextual (maxDischargeDepth := 100) [*]

@[simp] theorem keeps_startNet {s : State}  {x : State} (h : Keeps s x) :
    Keeps s (startNet x) := by
  unfold startNet
  try dsimp only
  repeat' split
  all_goals first | with_reducible exact h | (simp +contextual (maxDischargeDepth := 100) [*]; done) | exact h.of_eq (by with_reducible rfl) (by with_reducible rfl) (by with_reducible rfl) (by with_reducible rfl) | simp +contextual (maxDischargeDepth := 100) [*]

@[simp] theorem keeps_startApp {s : State} (a0 : ℕ) {x : State} (h : Keeps s x) :
    Keeps s (startApp a0 x) := by
  unfold startApp
  try dsimp only
  repeat' split
  all_goals first | with_reducible exact h | (simp +contextual (maxDischargeDepth := 100) [*]; done) | exact h.of_eq (by with_reducible rfl) (by with_reducible rfl) (by with_reducible rfl) (by with_reducible rfl) | simp +contextual (maxDischargeDepth := 100) [*]

@[simp] theorem keeps_startModule {s : State} (a0 : StartInputs) {x : State} (h : Keeps s x) :
    Keeps s (startModule a0 x) := by
  unfold startModule
  extract_lets p runs por report
  have k0 := keeps_changeState (fun h => { h with startStep := 1 }) (keeps_modHif (fun h => { h with rdy := true })
    (keeps_modPwr (fun p => { p with inReset := false, appIsland := true, saveOutstanding := 0, capMv := min 9999 p.capMv, capRem := 0 }) h))
  generalize changeState (fun h => { h with startStep := 1 }) (modHif (fun h => { h with rdy := true })
    (modPwr (fun p => { p with inReset := false, appIsland := true, saveOutstanding := 0, capMv := min 9999 p.capMv, capRem := 0 }) x)) = y at k0 ⊢
  have k1 : Keeps s { y with cfg := cfgOfBody y.fab (bodyInForce p), save := report } := Keeps.of_eq k0 rfl rfl rfl rfl
  dsimp only
  generalize State.mk _ _ _ _ _ _ _ _ _ _ _ _ _ _ _ _ _ _ _ _ _ _ _ _ _ _ _ _ _ _ _ _ _ _ _ = z at k1 ⊢
  have k2 := keeps_startChain a0 (keeps_startMet a0 por (keeps_startKeys a0 (keeps_ifDo runs (fun hy => keeps_powerRestored 1 hy)
    (keeps_modTime (fun t => { t with lifeRestart := false }) (keeps_ifDo por (fun hy => keeps_modLegal (fun l => { l with epoch := l.epoch + 1 }) hy)
      (keeps_modWch (fun w => { w with saveStep := 0, theftSusp := false, theftFails := 0 }) k1))))))
  generalize startChain a0 _ = u at k2 ⊢
  have k3 := keeps_startBank (keeps_mendActive k2)
  split
  · exact keeps_startApp _ (keeps_startSaf _ (keeps_modKey _ k3))
  · exact keeps_changeState _ (keeps_modKey _ k3)

end Sys2Proof.Machine
end

