-- ==== Sys2Proof/Laws/KeepsStart.lean ====
section
/-! SUPPORT. The operations of Machine/Start.lean keep what `Keeps` says. -/

set_option linter.unusedVariables false
set_option linter.unusedSimpArgs false
set_option linter.unusedTactic false
set_option linter.unreachableTactic false

namespace Sys2Proof.Machine

theorem keeps_execModulePowerOn {s : State} (a0 : StartInputs) {x : State} (h : Keeps s x) :
    OutKeeps s (execModulePowerOn a0 x) := by
  unfold execModulePowerOn
  first
    | (simp +contextual (maxDischargeDepth := 100) [*]; done)
    | (refine (outKeeps_next _ _).2 (keeps_ifDo _ (fun hy => ?_) h)
       try dsimp only
       repeat' split
       all_goals simp +contextual (maxDischargeDepth := 100) [*])

@[simp] theorem keeps_startDriver {s : State} (a0 : List GateTest) (a1 : Driver) {x : State} (h : Keeps s x) :
    Keeps s (startDriver a0 a1 x) := by
  unfold startDriver
  try dsimp only
  repeat' split
  all_goals first | with_reducible exact h | (simp +contextual (maxDischargeDepth := 100) [*]; done) | exact h.of_eq (by with_reducible rfl) (by with_reducible rfl) (by with_reducible rfl) (by with_reducible rfl) | simp +contextual (maxDischargeDepth := 100) [*]

theorem keeps_execStartStep9 {s : State} (a0 : List GateTest) {x : State} (h : Keeps s x) :
    OutKeeps s (execStartStep9 a0 x) := by
  unfold execStartStep9
  try dsimp only
  repeat' split
  all_goals first | with_reducible exact h | (simp +contextual (maxDischargeDepth := 100) [*]; done) | exact h.of_eq (by with_reducible rfl) (by with_reducible rfl) (by with_reducible rfl) (by with_reducible rfl) | simp +contextual (maxDischargeDepth := 100) [*]

end Sys2Proof.Machine
end

