-- ==== Sys2Proof/Laws/KeepsSwitches.lean ====
section
/-! SUPPORT. The operations of Machine/Switches.lean keep what `Keeps` says. -/

set_option linter.unusedVariables false
set_option linter.unusedSimpArgs false
set_option linter.unusedTactic false
set_option linter.unreachableTactic false

namespace Sys2Proof.Machine

theorem keeps_execLoadSwitchSet {s : State} (a0 : Mailbox) {x : State} (h : Keeps s x) :
    OutKeeps s (execLoadSwitchSet a0 x) := by
  unfold execLoadSwitchSet
  first
    | (simp +contextual (maxDischargeDepth := 100) [*]; done)
    | (refine (outKeeps_next _ _).2 (keeps_runCommand _ _ (fun b y hy => ?_) h)
       try dsimp only
       try refine replyKeeps_guards _ _ hy ?_
       repeat' split
       all_goals simp +contextual (maxDischargeDepth := 100) [*])

theorem keeps_execLoadSwitchStatusGet {s : State} (a0 : Mailbox) {x : State} (h : Keeps s x) :
    OutKeeps s (execLoadSwitchStatusGet a0 x) := by
  unfold execLoadSwitchStatusGet
  first
    | (simp +contextual (maxDischargeDepth := 100) [*]; done)
    | (refine (outKeeps_next _ _).2 (keeps_runCommand _ _ (fun b y hy => ?_) h)
       try dsimp only
       try refine replyKeeps_guards _ _ hy ?_
       repeat' split
       all_goals simp +contextual (maxDischargeDepth := 100) [*])

theorem keeps_execLoadSwitchRestart {s : State} (a0 : Mailbox) {x : State} (h : Keeps s x) :
    OutKeeps s (execLoadSwitchRestart a0 x) := by
  unfold execLoadSwitchRestart
  first
    | (simp +contextual (maxDischargeDepth := 100) [*]; done)
    | (refine (outKeeps_next _ _).2 (keeps_runCommand _ _ (fun b y hy => ?_) h)
       try dsimp only
       try refine replyKeeps_guards _ _ hy ?_
       repeat' split
       all_goals simp +contextual (maxDischargeDepth := 100) [*])

theorem keeps_execWearCountersRead {s : State} (a0 : Mailbox) {x : State} (h : Keeps s x) :
    OutKeeps s (execWearCountersRead a0 x) := by
  unfold execWearCountersRead
  first
    | (simp +contextual (maxDischargeDepth := 100) [*]; done)
    | (refine (outKeeps_next _ _).2 (keeps_runCommand _ _ (fun b y hy => ?_) h)
       try dsimp only
       try refine replyKeeps_guards _ _ hy ?_
       repeat' split
       all_goals simp +contextual (maxDischargeDepth := 100) [*])

theorem keeps_execLsCurrentSample {s : State} (a0 : Fin 32) (a1 : ℕ) (a2 : ℕ) {x : State} (h : Keeps s x) :
    OutKeeps s (execLsCurrentSample a0 a1 a2 x) := by
  unfold execLsCurrentSample
  try dsimp only
  repeat' split
  all_goals first | with_reducible exact h | (simp +contextual (maxDischargeDepth := 100) [*]; done) | exact h.of_eq (by with_reducible rfl) (by with_reducible rfl) (by with_reducible rfl) (by with_reducible rfl) | simp +contextual (maxDischargeDepth := 100) [*]

theorem keeps_execI2tTrip {s : State} (a0 : Fin 32) (a1 : ℕ) {x : State} (h : Keeps s x) :
    OutKeeps s (execI2tTrip a0 a1 x) := by
  unfold execI2tTrip
  try dsimp only
  repeat' split
  all_goals first | with_reducible exact h | (simp +contextual (maxDischargeDepth := 100) [*]; done) | exact h.of_eq (by with_reducible rfl) (by with_reducible rfl) (by with_reducible rfl) (by with_reducible rfl) | simp +contextual (maxDischargeDepth := 100) [*]

theorem keeps_execCurrentLimitTrip {s : State} (a0 : Fin 32) {x : State} (h : Keeps s x) :
    OutKeeps s (execCurrentLimitTrip a0 x) := by
  unfold execCurrentLimitTrip
  try dsimp only
  repeat' split
  all_goals first | with_reducible exact h | (simp +contextual (maxDischargeDepth := 100) [*]; done) | exact h.of_eq (by with_reducible rfl) (by with_reducible rfl) (by with_reducible rfl) (by with_reducible rfl) | simp +contextual (maxDischargeDepth := 100) [*]

theorem keeps_execThermalShutdown {s : State} (a0 : Fin 32) (a1 : ℕ) {x : State} (h : Keeps s x) :
    OutKeeps s (execThermalShutdown a0 a1 x) := by
  unfold execThermalShutdown
  try dsimp only
  repeat' split
  all_goals first | with_reducible exact h | (simp +contextual (maxDischargeDepth := 100) [*]; done) | exact h.of_eq (by with_reducible rfl) (by with_reducible rfl) (by with_reducible rfl) (by with_reducible rfl) | simp +contextual (maxDischargeDepth := 100) [*]

theorem keeps_execThermalRestart {s : State} (a0 : Fin 32) (a1 : ℕ) {x : State} (h : Keeps s x) :
    OutKeeps s (execThermalRestart a0 a1 x) := by
  unfold execThermalRestart
  try dsimp only
  repeat' split
  all_goals first | with_reducible exact h | (simp +contextual (maxDischargeDepth := 100) [*]; done) | exact h.of_eq (by with_reducible rfl) (by with_reducible rfl) (by with_reducible rfl) (by with_reducible rfl) | simp +contextual (maxDischargeDepth := 100) [*]

theorem keeps_execLsPairApply {s : State} (a0 : Fin 32) {x : State} (h : Keeps s x) :
    OutKeeps s (execLsPairApply a0 x) := by
  unfold execLsPairApply
  try dsimp only
  repeat' split
  all_goals first | with_reducible exact h | (simp +contextual (maxDischargeDepth := 100) [*]; done) | exact h.of_eq (by with_reducible rfl) (by with_reducible rfl) (by with_reducible rfl) (by with_reducible rfl) | simp +contextual (maxDischargeDepth := 100) [*]

@[simp] theorem keeps_closingFailure {s : State} (a0 : Driver) {x : State} (h : Keeps s x) :
    Keeps s (closingFailure a0 x) := by
  unfold closingFailure
  try dsimp only
  repeat' split
  all_goals first | with_reducible exact h | (simp +contextual (maxDischargeDepth := 100) [*]; done) | exact h.of_eq (by with_reducible rfl) (by with_reducible rfl) (by with_reducible rfl) (by with_reducible rfl) | simp +contextual (maxDischargeDepth := 100) [*]

theorem keeps_execPullInEnd {s : State} (a0 : Driver) (a1 : ℕ) {x : State} (h : Keeps s x) :
    OutKeeps s (execPullInEnd a0 a1 x) := by
  unfold execPullInEnd
  first
    | (simp +contextual (maxDischargeDepth := 100) [*]; done)
    | (refine (outKeeps_next _ _).2 (keeps_ifDo _ (fun hy => ?_) h)
       try dsimp only
       repeat' split
       all_goals simp +contextual (maxDischargeDepth := 100) [*])

@[simp] theorem keeps_closeSecond {s : State} (a0 : Driver) {x : State} (h : Keeps s x) :
    Keeps s (closeSecond a0 x) := by
  unfold closeSecond
  try dsimp only
  repeat' split
  all_goals first | with_reducible exact h | (simp +contextual (maxDischargeDepth := 100) [*]; done) | exact h.of_eq (by with_reducible rfl) (by with_reducible rfl) (by with_reducible rfl) (by with_reducible rfl) | simp +contextual (maxDischargeDepth := 100) [*]

theorem keeps_execMirrorSense {s : State} (a0 : Driver) (a1 : ℕ) {x : State} (h : Keeps s x) :
    OutKeeps s (execMirrorSense a0 a1 x) := by
  unfold execMirrorSense
  try dsimp only
  repeat' split
  all_goals first | with_reducible exact h | (simp +contextual (maxDischargeDepth := 100) [*]; done) | exact h.of_eq (by with_reducible rfl) (by with_reducible rfl) (by with_reducible rfl) (by with_reducible rfl) | simp +contextual (maxDischargeDepth := 100) [*]

theorem keeps_execMirrorTimeout {s : State} (a0 : Driver) {x : State} (h : Keeps s x) :
    OutKeeps s (execMirrorTimeout a0 x) := by
  unfold execMirrorTimeout
  first
    | (simp +contextual (maxDischargeDepth := 100) [*]; done)
    | (refine (outKeeps_next _ _).2 (keeps_ifDo _ (fun hy => ?_) h)
       try dsimp only
       repeat' split
       all_goals simp +contextual (maxDischargeDepth := 100) [*])

theorem keeps_execCoilCurrentLimit {s : State} (a0 : Driver) {x : State} (h : Keeps s x) :
    OutKeeps s (execCoilCurrentLimit a0 x) := by
  unfold execCoilCurrentLimit
  first
    | (simp +contextual (maxDischargeDepth := 100) [*]; done)
    | (refine (outKeeps_next _ _).2 (keeps_ifDo _ (fun hy => ?_) h)
       try dsimp only
       repeat' split
       all_goals simp +contextual (maxDischargeDepth := 100) [*])

theorem keeps_execShuntTripPulseEnd {s : State} (a0 : Outlet) {x : State} (h : Keeps s x) :
    OutKeeps s (execShuntTripPulseEnd a0 x) := by
  unfold execShuntTripPulseEnd
  try dsimp only
  repeat' split
  all_goals first | with_reducible exact h | (simp +contextual (maxDischargeDepth := 100) [*]; done) | exact h.of_eq (by with_reducible rfl) (by with_reducible rfl) (by with_reducible rfl) (by with_reducible rfl) | simp +contextual (maxDischargeDepth := 100) [*]

end Sys2Proof.Machine
end

