-- ==== Sys2Proof/Laws/KeepsWatch.lean ====
section
/-! SUPPORT. The operations of Machine/Watch.lean keep what `Keeps` says. -/

set_option linter.unusedVariables false
set_option linter.unusedSimpArgs false
set_option linter.unusedTactic false
set_option linter.unreachableTactic false

namespace Sys2Proof.Machine

theorem keeps_execTamperSample {s : State} (a0 : Option ℕ) (a1 : Option ℕ) {x : State} (h : Keeps s x) :
    OutKeeps s (execTamperSample a0 a1 x) := by
  unfold execTamperSample
  try dsimp only
  repeat' split
  all_goals first | with_reducible exact h | (simp +contextual (maxDischargeDepth := 100) [*]; done) | exact h.of_eq (by with_reducible rfl) (by with_reducible rfl) (by with_reducible rfl) (by with_reducible rfl) | simp +contextual (maxDischargeDepth := 100) [*]

theorem keeps_execVbatCheck {s : State} (a0 : ℕ) {x : State} (h : Keeps s x) :
    OutKeeps s (execVbatCheck a0 x) := by
  unfold execVbatCheck
  try dsimp only
  repeat' split
  all_goals first | with_reducible exact h | (simp +contextual (maxDischargeDepth := 100) [*]; done) | exact h.of_eq (by with_reducible rfl) (by with_reducible rfl) (by with_reducible rfl) (by with_reducible rfl) | simp +contextual (maxDischargeDepth := 100) [*]

theorem keeps_execPilotWakeSample {s : State} (a0 : Bool) (a1 : Bool) (a2 : Outlet) {x : State} (h : Keeps s x) :
    OutKeeps s (execPilotWakeSample a0 a1 a2 x) := by
  unfold execPilotWakeSample
  try dsimp only
  repeat' split
  all_goals first | with_reducible exact h | (simp +contextual (maxDischargeDepth := 100) [*]; done) | exact h.of_eq (by with_reducible rfl) (by with_reducible rfl) (by with_reducible rfl) (by with_reducible rfl) | simp +contextual (maxDischargeDepth := 100) [*]

theorem keeps_execTheftBurst {s : State} (a0 : Bool) (a1 : List (List Bool)) {x : State} (h : Keeps s x) :
    OutKeeps s (execTheftBurst a0 a1 x) := by
  unfold execTheftBurst
  try dsimp only
  repeat' split
  all_goals first | with_reducible exact h | (simp +contextual (maxDischargeDepth := 100) [*]; done) | exact h.of_eq (by with_reducible rfl) (by with_reducible rfl) (by with_reducible rfl) (by with_reducible rfl) | simp +contextual (maxDischargeDepth := 100) [*]

theorem keeps_execSegmentUpdateStart {s : State} (a0 : ℤ) {x : State} (h : Keeps s x) :
    OutKeeps s (execSegmentUpdateStart a0 x) := by
  unfold execSegmentUpdateStart
  first
    | (simp +contextual (maxDischargeDepth := 100) [*]; done)
    | (refine (outKeeps_next _ _).2 (keeps_ifDo _ (fun hy => ?_) h)
       try dsimp only
       repeat' split
       all_goals simp +contextual (maxDischargeDepth := 100) [*])

theorem keeps_execSegmentUpdateEnd {s : State}  {x : State} (h : Keeps s x) :
    OutKeeps s (execSegmentUpdateEnd x) := by
  unfold execSegmentUpdateEnd
  try dsimp only
  repeat' split
  all_goals first | with_reducible exact h | (simp +contextual (maxDischargeDepth := 100) [*]; done) | exact h.of_eq (by with_reducible rfl) (by with_reducible rfl) (by with_reducible rfl) (by with_reducible rfl) | simp +contextual (maxDischargeDepth := 100) [*]

theorem keeps_execSegmentPatternWrite {s : State} (a0 : Master) (a1 : BitVec 64) {x : State} (h : Keeps s x) :
    OutKeeps s (execSegmentPatternWrite a0 a1 x) := by
  unfold execSegmentPatternWrite
  try dsimp only
  repeat' split
  all_goals first | with_reducible exact h | (simp +contextual (maxDischargeDepth := 100) [*]; done) | exact h.of_eq (by with_reducible rfl) (by with_reducible rfl) (by with_reducible rfl) (by with_reducible rfl) | simp +contextual (maxDischargeDepth := 100) [*]

theorem keeps_execHeartbeatTick {s : State}  {x : State} (h : Keeps s x) :
    OutKeeps s (execHeartbeatTick x) := by
  unfold execHeartbeatTick
  try dsimp only
  repeat' split
  all_goals first | with_reducible exact h | (simp +contextual (maxDischargeDepth := 100) [*]; done) | exact h.of_eq (by with_reducible rfl) (by with_reducible rfl) (by with_reducible rfl) (by with_reducible rfl) | simp +contextual (maxDischargeDepth := 100) [*]

theorem keeps_execWatchSettingsApply {s : State}  {x : State} (h : Keeps s x) :
    OutKeeps s (execWatchSettingsApply x) := by
  unfold execWatchSettingsApply
  try dsimp only
  repeat' split
  all_goals first | with_reducible exact h | (simp +contextual (maxDischargeDepth := 100) [*]; done) | exact h.of_eq (by with_reducible rfl) (by with_reducible rfl) (by with_reducible rfl) (by with_reducible rfl) | simp +contextual (maxDischargeDepth := 100) [*]

theorem keeps_execRtcAlarmFire {s : State}  {x : State} (h : Keeps s x) :
    OutKeeps s (execRtcAlarmFire x) := by
  unfold execRtcAlarmFire
  first
    | (simp +contextual (maxDischargeDepth := 100) [*]; done)
    | (refine (outKeeps_next _ _).2 (keeps_ifDo _ (fun hy => ?_) h)
       try dsimp only
       repeat' split
       all_goals simp +contextual (maxDischargeDepth := 100) [*])

theorem keeps_execMetWakeRequest {s : State}  {x : State} (h : Keeps s x) :
    OutKeeps s (execMetWakeRequest x) := by
  unfold execMetWakeRequest
  first
    | (simp +contextual (maxDischargeDepth := 100) [*]; done)
    | (refine (outKeeps_next _ _).2 (keeps_ifDo _ (fun hy => ?_) h)
       try dsimp only
       repeat' split
       all_goals simp +contextual (maxDischargeDepth := 100) [*])

theorem keeps_execSafWakeRequest {s : State}  {x : State} (h : Keeps s x) :
    OutKeeps s (execSafWakeRequest x) := by
  unfold execSafWakeRequest
  first
    | (simp +contextual (maxDischargeDepth := 100) [*]; done)
    | (refine (outKeeps_next _ _).2 (keeps_ifDo _ (fun hy => ?_) h)
       try dsimp only
       repeat' split
       all_goals simp +contextual (maxDischargeDepth := 100) [*])

theorem keeps_execWatchSourceChange {s : State} (a0 : ℕ) (a1 : ℕ) {x : State} (h : Keeps s x) :
    OutKeeps s (execWatchSourceChange a0 a1 x) := by
  unfold execWatchSourceChange
  try dsimp only
  repeat' split
  all_goals first | with_reducible exact h | (simp +contextual (maxDischargeDepth := 100) [*]; done) | exact h.of_eq (by with_reducible rfl) (by with_reducible rfl) (by with_reducible rfl) (by with_reducible rfl) | simp +contextual (maxDischargeDepth := 100) [*]

theorem keeps_execWatchSramScrub {s : State} (a0 : ℕ) (a1 : Bool) {x : State} (h : Keeps s x) :
    OutKeeps s (execWatchSramScrub a0 a1 x) := by
  unfold execWatchSramScrub
  try dsimp only
  repeat' split
  all_goals first | with_reducible exact h | (simp +contextual (maxDischargeDepth := 100) [*]; done) | exact h.of_eq (by with_reducible rfl) (by with_reducible rfl) (by with_reducible rfl) (by with_reducible rfl) | simp +contextual (maxDischargeDepth := 100) [*]

theorem keeps_execWatchStatusGet {s : State} (a0 : Mailbox) {x : State} (h : Keeps s x) :
    OutKeeps s (execWatchStatusGet a0 x) := by
  unfold execWatchStatusGet
  first
    | (simp +contextual (maxDischargeDepth := 100) [*]; done)
    | (refine (outKeeps_next _ _).2 (keeps_runCommand _ _ (fun b y hy => ?_) h)
       try dsimp only
       try refine replyKeeps_guards _ _ hy ?_
       repeat' split
       all_goals simp +contextual (maxDischargeDepth := 100) [*])

end Sys2Proof.Machine
end

