-- ==== Sys2Proof/Laws/Served.lean ====
section
/-! SUPPORT. What a command's row does with a command that its mailbox serves. -/

namespace Sys2Proof.Machine

/-- A served command runs its body on the argument, taken up. -/
theorem runCommand_served {c : Cmd} {mb : Mailbox} {b : Bytes} {s : State} (body : Bytes → State → Reply)
    (hc : Cmd.find? c.code = some c) (h : serves c mb b s) :
    runCommand c mb body s = (body b (takeUp mb s)).apply mb := by
  obtain ⟨h1, h2, h3, h4, h5⟩ := h
  unfold runCommand runCommand.fresh
  simp only [h1, h2, hc, h4, h5]
  simp
  split
  · rename_i k hk
    simp [hk] at h3
    simp [h3]
  · rfl

/-- A mailbox that does not hold a command of this row, or may not be taken up, is left alone. -/
theorem runCommand_idle {c : Cmd} {mb : Mailbox} {s : State} (body : Bytes → State → Reply) (h : mayTake s mb = false) :
    runCommand c mb body s = s := by
  unfold runCommand
  simp [h]

/-- The first failing check completes the command. -/
theorem guards_pass {l : List (Bool × Status)} {s : State} {k : Reply} (h : ∀ c ∈ l, c.1 = false) : guards l s k = k := by
  unfold guards
  rw [List.find?_eq_none.2 (by simpa using h)]

end Sys2Proof.Machine
end

