-- ==== Sys2Proof/Laws/State.lean ====
section
/-! SUPPORT. What each update of one part of the state leaves and changes: one lemma for each field of State and each
update, so that no proof unfolds an update of a record. -/

namespace Sys2Proof.Machine

/-! `modAcc` -/

@[simp] theorem modAcc_pending (sel) (f) (s : State) : (modAcc sel f s).pending = s.pending := rfl
@[simp] theorem modAcc_nd (sel) (f) (s : State) : (modAcc sel f s).nd = s.nd := rfl
@[simp] theorem modAcc_fab (sel) (f) (s : State) : (modAcc sel f s).fab = s.fab := rfl
@[simp] theorem modAcc_time (sel) (f) (s : State) : (modAcc sel f s).time = s.time := rfl
@[simp] theorem modAcc_wch (sel) (f) (s : State) : (modAcc sel f s).wch = s.wch := rfl
@[simp] theorem modAcc_legal (sel) (f) (s : State) : (modAcc sel f s).legal = s.legal := rfl
@[simp] theorem modAcc_safStore (sel) (f) (s : State) : (modAcc sel f s).safStore = s.safStore := rfl
@[simp] theorem modAcc_slots (sel) (f) (s : State) : (modAcc sel f s).slots = s.slots := rfl
@[simp] theorem modAcc_upd (sel) (f) (s : State) : (modAcc sel f s).upd = s.upd := rfl
@[simp] theorem modAcc_save (sel) (f) (s : State) : (modAcc sel f s).save = s.save := rfl
@[simp] theorem modAcc_app (sel) (f) (s : State) : (modAcc sel f s).app = s.app := rfl
@[simp] theorem modAcc_dispStore (sel) (f) (s : State) : (modAcc sel f s).dispStore = s.dispStore := rfl
@[simp] theorem modAcc_keys (sel) (f) (s : State) : (modAcc sel f s).keys = s.keys := rfl
@[simp] theorem modAcc_pwr (sel) (f) (s : State) : (modAcc sel f s).pwr = s.pwr := rfl
@[simp] theorem modAcc_pd (sel) (f) (s : State) : (modAcc sel f s).pd = s.pd := rfl
@[simp] theorem modAcc_hif (sel) (f) (s : State) : (modAcc sel f s).hif = s.hif := rfl
@[simp] theorem modAcc_mbx (sel) (f) (s : State) : (modAcc sel f s).mbx = s.mbx := rfl
@[simp] theorem modAcc_tb (sel) (f) (s : State) : (modAcc sel f s).tb = s.tb := rfl
@[simp] theorem modAcc_wb (sel) (f) (s : State) : (modAcc sel f s).wb = s.wb := rfl
@[simp] theorem modAcc_ch (sel) (f) (s : State) : (modAcc sel f s).ch = s.ch := rfl
@[simp] theorem modAcc_isl (sel) (f) (s : State) : (modAcc sel f s).isl = s.isl := rfl
@[simp] theorem modAcc_weave (sel) (f) (s : State) : (modAcc sel f s).weave = s.weave := rfl
@[simp] theorem modAcc_bill (sel) (f) (s : State) : (modAcc sel f s).bill = s.bill := rfl
@[simp] theorem modAcc_saf (sel) (f) (s : State) : (modAcc sel f s).saf = s.saf := rfl
@[simp] theorem modAcc_blocked (sel) (f) (s : State) : (modAcc sel f s).blocked = s.blocked := rfl
@[simp] theorem modAcc_bus (sel) (f) (s : State) : (modAcc sel f s).bus = s.bus := rfl
@[simp] theorem modAcc_disp (sel) (f) (s : State) : (modAcc sel f s).disp = s.disp := rfl
@[simp] theorem modAcc_pins (sel) (f) (s : State) : (modAcc sel f s).pins = s.pins := rfl
@[simp] theorem modAcc_key (sel) (f) (s : State) : (modAcc sel f s).key = s.key := rfl
@[simp] theorem modAcc_veh (sel) (f) (s : State) : (modAcc sel f s).veh = s.veh := rfl
@[simp] theorem modAcc_run (sel) (f) (s : State) : (modAcc sel f s).run = s.run := rfl
@[simp] theorem modAcc_net (sel) (f) (s : State) : (modAcc sel f s).net = s.net := rfl
@[simp] theorem modAcc_svc (sel) (f) (s : State) : (modAcc sel f s).svc = s.svc := rfl
@[simp] theorem modAcc_cfg (sel) (f) (s : State) : (modAcc sel f s).cfg = s.cfg := rfl

/-! `modApp` -/

@[simp] theorem modApp_pending (f) (s : State) : (modApp f s).pending = s.pending := rfl
@[simp] theorem modApp_nd (f) (s : State) : (modApp f s).nd = s.nd := rfl
@[simp] theorem modApp_fab (f) (s : State) : (modApp f s).fab = s.fab := rfl
@[simp] theorem modApp_time (f) (s : State) : (modApp f s).time = s.time := rfl
@[simp] theorem modApp_wch (f) (s : State) : (modApp f s).wch = s.wch := rfl
@[simp] theorem modApp_legal (f) (s : State) : (modApp f s).legal = s.legal := rfl
@[simp] theorem modApp_safStore (f) (s : State) : (modApp f s).safStore = s.safStore := rfl
@[simp] theorem modApp_slots (f) (s : State) : (modApp f s).slots = s.slots := rfl
@[simp] theorem modApp_upd (f) (s : State) : (modApp f s).upd = s.upd := rfl
@[simp] theorem modApp_save (f) (s : State) : (modApp f s).save = s.save := rfl
@[simp] theorem modApp_dispStore (f) (s : State) : (modApp f s).dispStore = s.dispStore := rfl
@[simp] theorem modApp_keys (f) (s : State) : (modApp f s).keys = s.keys := rfl
@[simp] theorem modApp_pwr (f) (s : State) : (modApp f s).pwr = s.pwr := rfl
@[simp] theorem modApp_pd (f) (s : State) : (modApp f s).pd = s.pd := rfl
@[simp] theorem modApp_hif (f) (s : State) : (modApp f s).hif = s.hif := rfl
@[simp] theorem modApp_mbx (f) (s : State) : (modApp f s).mbx = s.mbx := rfl
@[simp] theorem modApp_tb (f) (s : State) : (modApp f s).tb = s.tb := rfl
@[simp] theorem modApp_wb (f) (s : State) : (modApp f s).wb = s.wb := rfl
@[simp] theorem modApp_ch (f) (s : State) : (modApp f s).ch = s.ch := rfl
@[simp] theorem modApp_isl (f) (s : State) : (modApp f s).isl = s.isl := rfl
@[simp] theorem modApp_weave (f) (s : State) : (modApp f s).weave = s.weave := rfl
@[simp] theorem modApp_met (f) (s : State) : (modApp f s).met = s.met := rfl
@[simp] theorem modApp_bill (f) (s : State) : (modApp f s).bill = s.bill := rfl
@[simp] theorem modApp_saf (f) (s : State) : (modApp f s).saf = s.saf := rfl
@[simp] theorem modApp_blocked (f) (s : State) : (modApp f s).blocked = s.blocked := rfl
@[simp] theorem modApp_bus (f) (s : State) : (modApp f s).bus = s.bus := rfl
@[simp] theorem modApp_disp (f) (s : State) : (modApp f s).disp = s.disp := rfl
@[simp] theorem modApp_pins (f) (s : State) : (modApp f s).pins = s.pins := rfl
@[simp] theorem modApp_key (f) (s : State) : (modApp f s).key = s.key := rfl
@[simp] theorem modApp_veh (f) (s : State) : (modApp f s).veh = s.veh := rfl
@[simp] theorem modApp_run (f) (s : State) : (modApp f s).run = s.run := rfl
@[simp] theorem modApp_net (f) (s : State) : (modApp f s).net = s.net := rfl
@[simp] theorem modApp_svc (f) (s : State) : (modApp f s).svc = s.svc := rfl
@[simp] theorem modApp_cfg (f) (s : State) : (modApp f s).cfg = s.cfg := rfl
@[simp] theorem modApp_app (f) (s : State) : (modApp f s).app = f s.app := rfl

/-! `modBank` -/

@[simp] theorem modBank_pending (x) (f) (s : State) : (modBank x f s).pending = s.pending := rfl
@[simp] theorem modBank_nd (x) (f) (s : State) : (modBank x f s).nd = s.nd := rfl
@[simp] theorem modBank_fab (x) (f) (s : State) : (modBank x f s).fab = s.fab := rfl
@[simp] theorem modBank_time (x) (f) (s : State) : (modBank x f s).time = s.time := rfl
@[simp] theorem modBank_wch (x) (f) (s : State) : (modBank x f s).wch = s.wch := rfl
@[simp] theorem modBank_legal (x) (f) (s : State) : (modBank x f s).legal = s.legal := rfl
@[simp] theorem modBank_safStore (x) (f) (s : State) : (modBank x f s).safStore = s.safStore := rfl
@[simp] theorem modBank_slots (x) (f) (s : State) : (modBank x f s).slots = s.slots := rfl
@[simp] theorem modBank_save (x) (f) (s : State) : (modBank x f s).save = s.save := rfl
@[simp] theorem modBank_app (x) (f) (s : State) : (modBank x f s).app = s.app := rfl
@[simp] theorem modBank_dispStore (x) (f) (s : State) : (modBank x f s).dispStore = s.dispStore := rfl
@[simp] theorem modBank_keys (x) (f) (s : State) : (modBank x f s).keys = s.keys := rfl
@[simp] theorem modBank_pwr (x) (f) (s : State) : (modBank x f s).pwr = s.pwr := rfl
@[simp] theorem modBank_pd (x) (f) (s : State) : (modBank x f s).pd = s.pd := rfl
@[simp] theorem modBank_hif (x) (f) (s : State) : (modBank x f s).hif = s.hif := rfl
@[simp] theorem modBank_mbx (x) (f) (s : State) : (modBank x f s).mbx = s.mbx := rfl
@[simp] theorem modBank_tb (x) (f) (s : State) : (modBank x f s).tb = s.tb := rfl
@[simp] theorem modBank_wb (x) (f) (s : State) : (modBank x f s).wb = s.wb := rfl
@[simp] theorem modBank_ch (x) (f) (s : State) : (modBank x f s).ch = s.ch := rfl
@[simp] theorem modBank_isl (x) (f) (s : State) : (modBank x f s).isl = s.isl := rfl
@[simp] theorem modBank_weave (x) (f) (s : State) : (modBank x f s).weave = s.weave := rfl
@[simp] theorem modBank_met (x) (f) (s : State) : (modBank x f s).met = s.met := rfl
@[simp] theorem modBank_bill (x) (f) (s : State) : (modBank x f s).bill = s.bill := rfl
@[simp] theorem modBank_saf (x) (f) (s : State) : (modBank x f s).saf = s.saf := rfl
@[simp] theorem modBank_blocked (x) (f) (s : State) : (modBank x f s).blocked = s.blocked := rfl
@[simp] theorem modBank_bus (x) (f) (s : State) : (modBank x f s).bus = s.bus := rfl
@[simp] theorem modBank_disp (x) (f) (s : State) : (modBank x f s).disp = s.disp := rfl
@[simp] theorem modBank_pins (x) (f) (s : State) : (modBank x f s).pins = s.pins := rfl
@[simp] theorem modBank_key (x) (f) (s : State) : (modBank x f s).key = s.key := rfl
@[simp] theorem modBank_veh (x) (f) (s : State) : (modBank x f s).veh = s.veh := rfl
@[simp] theorem modBank_run (x) (f) (s : State) : (modBank x f s).run = s.run := rfl
@[simp] theorem modBank_net (x) (f) (s : State) : (modBank x f s).net = s.net := rfl
@[simp] theorem modBank_svc (x) (f) (s : State) : (modBank x f s).svc = s.svc := rfl
@[simp] theorem modBank_cfg (x) (f) (s : State) : (modBank x f s).cfg = s.cfg := rfl

/-! `modBill` -/

@[simp] theorem modBill_pending (f) (s : State) : (modBill f s).pending = s.pending := rfl
@[simp] theorem modBill_nd (f) (s : State) : (modBill f s).nd = s.nd := rfl
@[simp] theorem modBill_fab (f) (s : State) : (modBill f s).fab = s.fab := rfl
@[simp] theorem modBill_time (f) (s : State) : (modBill f s).time = s.time := rfl
@[simp] theorem modBill_wch (f) (s : State) : (modBill f s).wch = s.wch := rfl
@[simp] theorem modBill_legal (f) (s : State) : (modBill f s).legal = s.legal := rfl
@[simp] theorem modBill_safStore (f) (s : State) : (modBill f s).safStore = s.safStore := rfl
@[simp] theorem modBill_slots (f) (s : State) : (modBill f s).slots = s.slots := rfl
@[simp] theorem modBill_upd (f) (s : State) : (modBill f s).upd = s.upd := rfl
@[simp] theorem modBill_save (f) (s : State) : (modBill f s).save = s.save := rfl
@[simp] theorem modBill_app (f) (s : State) : (modBill f s).app = s.app := rfl
@[simp] theorem modBill_dispStore (f) (s : State) : (modBill f s).dispStore = s.dispStore := rfl
@[simp] theorem modBill_keys (f) (s : State) : (modBill f s).keys = s.keys := rfl
@[simp] theorem modBill_pwr (f) (s : State) : (modBill f s).pwr = s.pwr := rfl
@[simp] theorem modBill_pd (f) (s : State) : (modBill f s).pd = s.pd := rfl
@[simp] theorem modBill_hif (f) (s : State) : (modBill f s).hif = s.hif := rfl
@[simp] theorem modBill_mbx (f) (s : State) : (modBill f s).mbx = s.mbx := rfl
@[simp] theorem modBill_tb (f) (s : State) : (modBill f s).tb = s.tb := rfl
@[simp] theorem modBill_wb (f) (s : State) : (modBill f s).wb = s.wb := rfl
@[simp] theorem modBill_ch (f) (s : State) : (modBill f s).ch = s.ch := rfl
@[simp] theorem modBill_isl (f) (s : State) : (modBill f s).isl = s.isl := rfl
@[simp] theorem modBill_weave (f) (s : State) : (modBill f s).weave = s.weave := rfl
@[simp] theorem modBill_met (f) (s : State) : (modBill f s).met = s.met := rfl
@[simp] theorem modBill_saf (f) (s : State) : (modBill f s).saf = s.saf := rfl
@[simp] theorem modBill_blocked (f) (s : State) : (modBill f s).blocked = s.blocked := rfl
@[simp] theorem modBill_bus (f) (s : State) : (modBill f s).bus = s.bus := rfl
@[simp] theorem modBill_disp (f) (s : State) : (modBill f s).disp = s.disp := rfl
@[simp] theorem modBill_pins (f) (s : State) : (modBill f s).pins = s.pins := rfl
@[simp] theorem modBill_key (f) (s : State) : (modBill f s).key = s.key := rfl
@[simp] theorem modBill_veh (f) (s : State) : (modBill f s).veh = s.veh := rfl
@[simp] theorem modBill_run (f) (s : State) : (modBill f s).run = s.run := rfl
@[simp] theorem modBill_net (f) (s : State) : (modBill f s).net = s.net := rfl
@[simp] theorem modBill_svc (f) (s : State) : (modBill f s).svc = s.svc := rfl
@[simp] theorem modBill_cfg (f) (s : State) : (modBill f s).cfg = s.cfg := rfl
@[simp] theorem modBill_bill (f) (s : State) : (modBill f s).bill = f s.bill := rfl

/-! `modBox` -/

@[simp] theorem modBox_pending (mb) (f) (s : State) : (modBox mb f s).pending = s.pending := rfl
@[simp] theorem modBox_nd (mb) (f) (s : State) : (modBox mb f s).nd = s.nd := rfl
@[simp] theorem modBox_fab (mb) (f) (s : State) : (modBox mb f s).fab = s.fab := rfl
@[simp] theorem modBox_time (mb) (f) (s : State) : (modBox mb f s).time = s.time := rfl
@[simp] theorem modBox_wch (mb) (f) (s : State) : (modBox mb f s).wch = s.wch := rfl
@[simp] theorem modBox_legal (mb) (f) (s : State) : (modBox mb f s).legal = s.legal := rfl
@[simp] theorem modBox_safStore (mb) (f) (s : State) : (modBox mb f s).safStore = s.safStore := rfl
@[simp] theorem modBox_slots (mb) (f) (s : State) : (modBox mb f s).slots = s.slots := rfl
@[simp] theorem modBox_upd (mb) (f) (s : State) : (modBox mb f s).upd = s.upd := rfl
@[simp] theorem modBox_save (mb) (f) (s : State) : (modBox mb f s).save = s.save := rfl
@[simp] theorem modBox_app (mb) (f) (s : State) : (modBox mb f s).app = s.app := rfl
@[simp] theorem modBox_dispStore (mb) (f) (s : State) : (modBox mb f s).dispStore = s.dispStore := rfl
@[simp] theorem modBox_keys (mb) (f) (s : State) : (modBox mb f s).keys = s.keys := rfl
@[simp] theorem modBox_pwr (mb) (f) (s : State) : (modBox mb f s).pwr = s.pwr := rfl
@[simp] theorem modBox_pd (mb) (f) (s : State) : (modBox mb f s).pd = s.pd := rfl
@[simp] theorem modBox_hif (mb) (f) (s : State) : (modBox mb f s).hif = s.hif := rfl
@[simp] theorem modBox_tb (mb) (f) (s : State) : (modBox mb f s).tb = s.tb := rfl
@[simp] theorem modBox_wb (mb) (f) (s : State) : (modBox mb f s).wb = s.wb := rfl
@[simp] theorem modBox_ch (mb) (f) (s : State) : (modBox mb f s).ch = s.ch := rfl
@[simp] theorem modBox_isl (mb) (f) (s : State) : (modBox mb f s).isl = s.isl := rfl
@[simp] theorem modBox_weave (mb) (f) (s : State) : (modBox mb f s).weave = s.weave := rfl
@[simp] theorem modBox_met (mb) (f) (s : State) : (modBox mb f s).met = s.met := rfl
@[simp] theorem modBox_bill (mb) (f) (s : State) : (modBox mb f s).bill = s.bill := rfl
@[simp] theorem modBox_saf (mb) (f) (s : State) : (modBox mb f s).saf = s.saf := rfl
@[simp] theorem modBox_blocked (mb) (f) (s : State) : (modBox mb f s).blocked = s.blocked := rfl
@[simp] theorem modBox_bus (mb) (f) (s : State) : (modBox mb f s).bus = s.bus := rfl
@[simp] theorem modBox_disp (mb) (f) (s : State) : (modBox mb f s).disp = s.disp := rfl
@[simp] theorem modBox_pins (mb) (f) (s : State) : (modBox mb f s).pins = s.pins := rfl
@[simp] theorem modBox_key (mb) (f) (s : State) : (modBox mb f s).key = s.key := rfl
@[simp] theorem modBox_veh (mb) (f) (s : State) : (modBox mb f s).veh = s.veh := rfl
@[simp] theorem modBox_run (mb) (f) (s : State) : (modBox mb f s).run = s.run := rfl
@[simp] theorem modBox_net (mb) (f) (s : State) : (modBox mb f s).net = s.net := rfl
@[simp] theorem modBox_svc (mb) (f) (s : State) : (modBox mb f s).svc = s.svc := rfl
@[simp] theorem modBox_cfg (mb) (f) (s : State) : (modBox mb f s).cfg = s.cfg := rfl
@[simp] theorem modBox_mbx (mb) (f) (s : State) : (modBox mb f s).mbx = { s.mbx with cmd := vmod s.mbx.cmd mb f } := rfl

/-! `modCh` -/

@[simp] theorem modCh_pending (i) (f) (s : State) : (modCh i f s).pending = s.pending := rfl
@[simp] theorem modCh_nd (i) (f) (s : State) : (modCh i f s).nd = s.nd := rfl
@[simp] theorem modCh_fab (i) (f) (s : State) : (modCh i f s).fab = s.fab := rfl
@[simp] theorem modCh_time (i) (f) (s : State) : (modCh i f s).time = s.time := rfl
@[simp] theorem modCh_wch (i) (f) (s : State) : (modCh i f s).wch = s.wch := rfl
@[simp] theorem modCh_legal (i) (f) (s : State) : (modCh i f s).legal = s.legal := rfl
@[simp] theorem modCh_safStore (i) (f) (s : State) : (modCh i f s).safStore = s.safStore := rfl
@[simp] theorem modCh_slots (i) (f) (s : State) : (modCh i f s).slots = s.slots := rfl
@[simp] theorem modCh_upd (i) (f) (s : State) : (modCh i f s).upd = s.upd := rfl
@[simp] theorem modCh_save (i) (f) (s : State) : (modCh i f s).save = s.save := rfl
@[simp] theorem modCh_app (i) (f) (s : State) : (modCh i f s).app = s.app := rfl
@[simp] theorem modCh_dispStore (i) (f) (s : State) : (modCh i f s).dispStore = s.dispStore := rfl
@[simp] theorem modCh_keys (i) (f) (s : State) : (modCh i f s).keys = s.keys := rfl
@[simp] theorem modCh_pwr (i) (f) (s : State) : (modCh i f s).pwr = s.pwr := rfl
@[simp] theorem modCh_pd (i) (f) (s : State) : (modCh i f s).pd = s.pd := rfl
@[simp] theorem modCh_hif (i) (f) (s : State) : (modCh i f s).hif = s.hif := rfl
@[simp] theorem modCh_mbx (i) (f) (s : State) : (modCh i f s).mbx = s.mbx := rfl
@[simp] theorem modCh_tb (i) (f) (s : State) : (modCh i f s).tb = s.tb := rfl
@[simp] theorem modCh_wb (i) (f) (s : State) : (modCh i f s).wb = s.wb := rfl
@[simp] theorem modCh_isl (i) (f) (s : State) : (modCh i f s).isl = s.isl := rfl
@[simp] theorem modCh_weave (i) (f) (s : State) : (modCh i f s).weave = s.weave := rfl
@[simp] theorem modCh_met (i) (f) (s : State) : (modCh i f s).met = s.met := rfl
@[simp] theorem modCh_bill (i) (f) (s : State) : (modCh i f s).bill = s.bill := rfl
@[simp] theorem modCh_saf (i) (f) (s : State) : (modCh i f s).saf = s.saf := rfl
@[simp] theorem modCh_blocked (i) (f) (s : State) : (modCh i f s).blocked = s.blocked := rfl
@[simp] theorem modCh_bus (i) (f) (s : State) : (modCh i f s).bus = s.bus := rfl
@[simp] theorem modCh_disp (i) (f) (s : State) : (modCh i f s).disp = s.disp := rfl
@[simp] theorem modCh_pins (i) (f) (s : State) : (modCh i f s).pins = s.pins := rfl
@[simp] theorem modCh_key (i) (f) (s : State) : (modCh i f s).key = s.key := rfl
@[simp] theorem modCh_veh (i) (f) (s : State) : (modCh i f s).veh = s.veh := rfl
@[simp] theorem modCh_run (i) (f) (s : State) : (modCh i f s).run = s.run := rfl
@[simp] theorem modCh_net (i) (f) (s : State) : (modCh i f s).net = s.net := rfl
@[simp] theorem modCh_svc (i) (f) (s : State) : (modCh i f s).svc = s.svc := rfl
@[simp] theorem modCh_cfg (i) (f) (s : State) : (modCh i f s).cfg = s.cfg := rfl
@[simp] theorem modCh_ch (i) (f) (s : State) : (modCh i f s).ch = vmod s.ch i f := rfl

/-! `modClosed` -/

@[simp] theorem modClosed_pending (n) (f) (s : State) : (modClosed n f s).pending = s.pending := rfl
@[simp] theorem modClosed_nd (n) (f) (s : State) : (modClosed n f s).nd = s.nd := rfl
@[simp] theorem modClosed_fab (n) (f) (s : State) : (modClosed n f s).fab = s.fab := rfl
@[simp] theorem modClosed_time (n) (f) (s : State) : (modClosed n f s).time = s.time := rfl
@[simp] theorem modClosed_wch (n) (f) (s : State) : (modClosed n f s).wch = s.wch := rfl
@[simp] theorem modClosed_safStore (n) (f) (s : State) : (modClosed n f s).safStore = s.safStore := rfl
@[simp] theorem modClosed_slots (n) (f) (s : State) : (modClosed n f s).slots = s.slots := rfl
@[simp] theorem modClosed_upd (n) (f) (s : State) : (modClosed n f s).upd = s.upd := rfl
@[simp] theorem modClosed_save (n) (f) (s : State) : (modClosed n f s).save = s.save := rfl
@[simp] theorem modClosed_app (n) (f) (s : State) : (modClosed n f s).app = s.app := rfl
@[simp] theorem modClosed_dispStore (n) (f) (s : State) : (modClosed n f s).dispStore = s.dispStore := rfl
@[simp] theorem modClosed_keys (n) (f) (s : State) : (modClosed n f s).keys = s.keys := rfl
@[simp] theorem modClosed_pwr (n) (f) (s : State) : (modClosed n f s).pwr = s.pwr := rfl
@[simp] theorem modClosed_pd (n) (f) (s : State) : (modClosed n f s).pd = s.pd := rfl
@[simp] theorem modClosed_hif (n) (f) (s : State) : (modClosed n f s).hif = s.hif := rfl
@[simp] theorem modClosed_mbx (n) (f) (s : State) : (modClosed n f s).mbx = s.mbx := rfl
@[simp] theorem modClosed_tb (n) (f) (s : State) : (modClosed n f s).tb = s.tb := rfl
@[simp] theorem modClosed_wb (n) (f) (s : State) : (modClosed n f s).wb = s.wb := rfl
@[simp] theorem modClosed_ch (n) (f) (s : State) : (modClosed n f s).ch = s.ch := rfl
@[simp] theorem modClosed_isl (n) (f) (s : State) : (modClosed n f s).isl = s.isl := rfl
@[simp] theorem modClosed_weave (n) (f) (s : State) : (modClosed n f s).weave = s.weave := rfl
@[simp] theorem modClosed_met (n) (f) (s : State) : (modClosed n f s).met = s.met := rfl
@[simp] theorem modClosed_bill (n) (f) (s : State) : (modClosed n f s).bill = s.bill := rfl
@[simp] theorem modClosed_saf (n) (f) (s : State) : (modClosed n f s).saf = s.saf := rfl
@[simp] theorem modClosed_blocked (n) (f) (s : State) : (modClosed n f s).blocked = s.blocked := rfl
@[simp] theorem modClosed_bus (n) (f) (s : State) : (modClosed n f s).bus = s.bus := rfl
@[simp] theorem modClosed_disp (n) (f) (s : State) : (modClosed n f s).disp = s.disp := rfl
@[simp] theorem modClosed_pins (n) (f) (s : State) : (modClosed n f s).pins = s.pins := rfl
@[simp] theorem modClosed_key (n) (f) (s : State) : (modClosed n f s).key = s.key := rfl
@[simp] theorem modClosed_veh (n) (f) (s : State) : (modClosed n f s).veh = s.veh := rfl
@[simp] theorem modClosed_run (n) (f) (s : State) : (modClosed n f s).run = s.run := rfl
@[simp] theorem modClosed_net (n) (f) (s : State) : (modClosed n f s).net = s.net := rfl
@[simp] theorem modClosed_svc (n) (f) (s : State) : (modClosed n f s).svc = s.svc := rfl
@[simp] theorem modClosed_cfg (n) (f) (s : State) : (modClosed n f s).cfg = s.cfg := rfl

/-! `modDemand` -/

@[simp] theorem modDemand_pending (f) (s : State) : (modDemand f s).pending = s.pending := rfl
@[simp] theorem modDemand_nd (f) (s : State) : (modDemand f s).nd = s.nd := rfl
@[simp] theorem modDemand_fab (f) (s : State) : (modDemand f s).fab = s.fab := rfl
@[simp] theorem modDemand_time (f) (s : State) : (modDemand f s).time = s.time := rfl
@[simp] theorem modDemand_wch (f) (s : State) : (modDemand f s).wch = s.wch := rfl
@[simp] theorem modDemand_legal (f) (s : State) : (modDemand f s).legal = s.legal := rfl
@[simp] theorem modDemand_safStore (f) (s : State) : (modDemand f s).safStore = s.safStore := rfl
@[simp] theorem modDemand_slots (f) (s : State) : (modDemand f s).slots = s.slots := rfl
@[simp] theorem modDemand_upd (f) (s : State) : (modDemand f s).upd = s.upd := rfl
@[simp] theorem modDemand_save (f) (s : State) : (modDemand f s).save = s.save := rfl
@[simp] theorem modDemand_app (f) (s : State) : (modDemand f s).app = s.app := rfl
@[simp] theorem modDemand_dispStore (f) (s : State) : (modDemand f s).dispStore = s.dispStore := rfl
@[simp] theorem modDemand_keys (f) (s : State) : (modDemand f s).keys = s.keys := rfl
@[simp] theorem modDemand_pwr (f) (s : State) : (modDemand f s).pwr = s.pwr := rfl
@[simp] theorem modDemand_pd (f) (s : State) : (modDemand f s).pd = s.pd := rfl
@[simp] theorem modDemand_hif (f) (s : State) : (modDemand f s).hif = s.hif := rfl
@[simp] theorem modDemand_mbx (f) (s : State) : (modDemand f s).mbx = s.mbx := rfl
@[simp] theorem modDemand_tb (f) (s : State) : (modDemand f s).tb = s.tb := rfl
@[simp] theorem modDemand_wb (f) (s : State) : (modDemand f s).wb = s.wb := rfl
@[simp] theorem modDemand_ch (f) (s : State) : (modDemand f s).ch = s.ch := rfl
@[simp] theorem modDemand_isl (f) (s : State) : (modDemand f s).isl = s.isl := rfl
@[simp] theorem modDemand_weave (f) (s : State) : (modDemand f s).weave = s.weave := rfl
@[simp] theorem modDemand_met (f) (s : State) : (modDemand f s).met = s.met := rfl
@[simp] theorem modDemand_saf (f) (s : State) : (modDemand f s).saf = s.saf := rfl
@[simp] theorem modDemand_blocked (f) (s : State) : (modDemand f s).blocked = s.blocked := rfl
@[simp] theorem modDemand_bus (f) (s : State) : (modDemand f s).bus = s.bus := rfl
@[simp] theorem modDemand_disp (f) (s : State) : (modDemand f s).disp = s.disp := rfl
@[simp] theorem modDemand_pins (f) (s : State) : (modDemand f s).pins = s.pins := rfl
@[simp] theorem modDemand_key (f) (s : State) : (modDemand f s).key = s.key := rfl
@[simp] theorem modDemand_veh (f) (s : State) : (modDemand f s).veh = s.veh := rfl
@[simp] theorem modDemand_run (f) (s : State) : (modDemand f s).run = s.run := rfl
@[simp] theorem modDemand_net (f) (s : State) : (modDemand f s).net = s.net := rfl
@[simp] theorem modDemand_svc (f) (s : State) : (modDemand f s).svc = s.svc := rfl
@[simp] theorem modDemand_cfg (f) (s : State) : (modDemand f s).cfg = s.cfg := rfl

/-! `modDisp` -/

@[simp] theorem modDisp_pending (f) (s : State) : (modDisp f s).pending = s.pending := rfl
@[simp] theorem modDisp_nd (f) (s : State) : (modDisp f s).nd = s.nd := rfl
@[simp] theorem modDisp_fab (f) (s : State) : (modDisp f s).fab = s.fab := rfl
@[simp] theorem modDisp_time (f) (s : State) : (modDisp f s).time = s.time := rfl
@[simp] theorem modDisp_wch (f) (s : State) : (modDisp f s).wch = s.wch := rfl
@[simp] theorem modDisp_legal (f) (s : State) : (modDisp f s).legal = s.legal := rfl
@[simp] theorem modDisp_safStore (f) (s : State) : (modDisp f s).safStore = s.safStore := rfl
@[simp] theorem modDisp_slots (f) (s : State) : (modDisp f s).slots = s.slots := rfl
@[simp] theorem modDisp_upd (f) (s : State) : (modDisp f s).upd = s.upd := rfl
@[simp] theorem modDisp_save (f) (s : State) : (modDisp f s).save = s.save := rfl
@[simp] theorem modDisp_app (f) (s : State) : (modDisp f s).app = s.app := rfl
@[simp] theorem modDisp_dispStore (f) (s : State) : (modDisp f s).dispStore = s.dispStore := rfl
@[simp] theorem modDisp_keys (f) (s : State) : (modDisp f s).keys = s.keys := rfl
@[simp] theorem modDisp_pwr (f) (s : State) : (modDisp f s).pwr = s.pwr := rfl
@[simp] theorem modDisp_pd (f) (s : State) : (modDisp f s).pd = s.pd := rfl
@[simp] theorem modDisp_hif (f) (s : State) : (modDisp f s).hif = s.hif := rfl
@[simp] theorem modDisp_mbx (f) (s : State) : (modDisp f s).mbx = s.mbx := rfl
@[simp] theorem modDisp_tb (f) (s : State) : (modDisp f s).tb = s.tb := rfl
@[simp] theorem modDisp_wb (f) (s : State) : (modDisp f s).wb = s.wb := rfl
@[simp] theorem modDisp_ch (f) (s : State) : (modDisp f s).ch = s.ch := rfl
@[simp] theorem modDisp_isl (f) (s : State) : (modDisp f s).isl = s.isl := rfl
@[simp] theorem modDisp_weave (f) (s : State) : (modDisp f s).weave = s.weave := rfl
@[simp] theorem modDisp_met (f) (s : State) : (modDisp f s).met = s.met := rfl
@[simp] theorem modDisp_bill (f) (s : State) : (modDisp f s).bill = s.bill := rfl
@[simp] theorem modDisp_saf (f) (s : State) : (modDisp f s).saf = s.saf := rfl
@[simp] theorem modDisp_blocked (f) (s : State) : (modDisp f s).blocked = s.blocked := rfl
@[simp] theorem modDisp_bus (f) (s : State) : (modDisp f s).bus = s.bus := rfl
@[simp] theorem modDisp_pins (f) (s : State) : (modDisp f s).pins = s.pins := rfl
@[simp] theorem modDisp_key (f) (s : State) : (modDisp f s).key = s.key := rfl
@[simp] theorem modDisp_veh (f) (s : State) : (modDisp f s).veh = s.veh := rfl
@[simp] theorem modDisp_run (f) (s : State) : (modDisp f s).run = s.run := rfl
@[simp] theorem modDisp_net (f) (s : State) : (modDisp f s).net = s.net := rfl
@[simp] theorem modDisp_svc (f) (s : State) : (modDisp f s).svc = s.svc := rfl
@[simp] theorem modDisp_cfg (f) (s : State) : (modDisp f s).cfg = s.cfg := rfl
@[simp] theorem modDisp_disp (f) (s : State) : (modDisp f s).disp = f s.disp := rfl

/-! `modDispStore` -/

@[simp] theorem modDispStore_pending (f) (s : State) : (modDispStore f s).pending = s.pending := rfl
@[simp] theorem modDispStore_nd (f) (s : State) : (modDispStore f s).nd = s.nd := rfl
@[simp] theorem modDispStore_fab (f) (s : State) : (modDispStore f s).fab = s.fab := rfl
@[simp] theorem modDispStore_time (f) (s : State) : (modDispStore f s).time = s.time := rfl
@[simp] theorem modDispStore_wch (f) (s : State) : (modDispStore f s).wch = s.wch := rfl
@[simp] theorem modDispStore_legal (f) (s : State) : (modDispStore f s).legal = s.legal := rfl
@[simp] theorem modDispStore_safStore (f) (s : State) : (modDispStore f s).safStore = s.safStore := rfl
@[simp] theorem modDispStore_slots (f) (s : State) : (modDispStore f s).slots = s.slots := rfl
@[simp] theorem modDispStore_upd (f) (s : State) : (modDispStore f s).upd = s.upd := rfl
@[simp] theorem modDispStore_save (f) (s : State) : (modDispStore f s).save = s.save := rfl
@[simp] theorem modDispStore_app (f) (s : State) : (modDispStore f s).app = s.app := rfl
@[simp] theorem modDispStore_keys (f) (s : State) : (modDispStore f s).keys = s.keys := rfl
@[simp] theorem modDispStore_pwr (f) (s : State) : (modDispStore f s).pwr = s.pwr := rfl
@[simp] theorem modDispStore_pd (f) (s : State) : (modDispStore f s).pd = s.pd := rfl
@[simp] theorem modDispStore_hif (f) (s : State) : (modDispStore f s).hif = s.hif := rfl
@[simp] theorem modDispStore_mbx (f) (s : State) : (modDispStore f s).mbx = s.mbx := rfl
@[simp] theorem modDispStore_tb (f) (s : State) : (modDispStore f s).tb = s.tb := rfl
@[simp] theorem modDispStore_wb (f) (s : State) : (modDispStore f s).wb = s.wb := rfl
@[simp] theorem modDispStore_ch (f) (s : State) : (modDispStore f s).ch = s.ch := rfl
@[simp] theorem modDispStore_isl (f) (s : State) : (modDispStore f s).isl = s.isl := rfl
@[simp] theorem modDispStore_weave (f) (s : State) : (modDispStore f s).weave = s.weave := rfl
@[simp] theorem modDispStore_met (f) (s : State) : (modDispStore f s).met = s.met := rfl
@[simp] theorem modDispStore_bill (f) (s : State) : (modDispStore f s).bill = s.bill := rfl
@[simp] theorem modDispStore_saf (f) (s : State) : (modDispStore f s).saf = s.saf := rfl
@[simp] theorem modDispStore_blocked (f) (s : State) : (modDispStore f s).blocked = s.blocked := rfl
@[simp] theorem modDispStore_bus (f) (s : State) : (modDispStore f s).bus = s.bus := rfl
@[simp] theorem modDispStore_disp (f) (s : State) : (modDispStore f s).disp = s.disp := rfl
@[simp] theorem modDispStore_pins (f) (s : State) : (modDispStore f s).pins = s.pins := rfl
@[simp] theorem modDispStore_key (f) (s : State) : (modDispStore f s).key = s.key := rfl
@[simp] theorem modDispStore_veh (f) (s : State) : (modDispStore f s).veh = s.veh := rfl
@[simp] theorem modDispStore_run (f) (s : State) : (modDispStore f s).run = s.run := rfl
@[simp] theorem modDispStore_net (f) (s : State) : (modDispStore f s).net = s.net := rfl
@[simp] theorem modDispStore_svc (f) (s : State) : (modDispStore f s).svc = s.svc := rfl
@[simp] theorem modDispStore_cfg (f) (s : State) : (modDispStore f s).cfg = s.cfg := rfl
@[simp] theorem modDispStore_dispStore (f) (s : State) : (modDispStore f s).dispStore = f s.dispStore := rfl

/-! `modDrv` -/

@[simp] theorem modDrv_pending (d) (f) (s : State) : (modDrv d f s).pending = s.pending := rfl
@[simp] theorem modDrv_nd (d) (f) (s : State) : (modDrv d f s).nd = s.nd := rfl
@[simp] theorem modDrv_fab (d) (f) (s : State) : (modDrv d f s).fab = s.fab := rfl
@[simp] theorem modDrv_time (d) (f) (s : State) : (modDrv d f s).time = s.time := rfl
@[simp] theorem modDrv_wch (d) (f) (s : State) : (modDrv d f s).wch = s.wch := rfl
@[simp] theorem modDrv_legal (d) (f) (s : State) : (modDrv d f s).legal = s.legal := rfl
@[simp] theorem modDrv_safStore (d) (f) (s : State) : (modDrv d f s).safStore = s.safStore := rfl
@[simp] theorem modDrv_slots (d) (f) (s : State) : (modDrv d f s).slots = s.slots := rfl
@[simp] theorem modDrv_upd (d) (f) (s : State) : (modDrv d f s).upd = s.upd := rfl
@[simp] theorem modDrv_save (d) (f) (s : State) : (modDrv d f s).save = s.save := rfl
@[simp] theorem modDrv_app (d) (f) (s : State) : (modDrv d f s).app = s.app := rfl
@[simp] theorem modDrv_dispStore (d) (f) (s : State) : (modDrv d f s).dispStore = s.dispStore := rfl
@[simp] theorem modDrv_keys (d) (f) (s : State) : (modDrv d f s).keys = s.keys := rfl
@[simp] theorem modDrv_pwr (d) (f) (s : State) : (modDrv d f s).pwr = s.pwr := rfl
@[simp] theorem modDrv_hif (d) (f) (s : State) : (modDrv d f s).hif = s.hif := rfl
@[simp] theorem modDrv_mbx (d) (f) (s : State) : (modDrv d f s).mbx = s.mbx := rfl
@[simp] theorem modDrv_tb (d) (f) (s : State) : (modDrv d f s).tb = s.tb := rfl
@[simp] theorem modDrv_wb (d) (f) (s : State) : (modDrv d f s).wb = s.wb := rfl
@[simp] theorem modDrv_ch (d) (f) (s : State) : (modDrv d f s).ch = s.ch := rfl
@[simp] theorem modDrv_isl (d) (f) (s : State) : (modDrv d f s).isl = s.isl := rfl
@[simp] theorem modDrv_weave (d) (f) (s : State) : (modDrv d f s).weave = s.weave := rfl
@[simp] theorem modDrv_met (d) (f) (s : State) : (modDrv d f s).met = s.met := rfl
@[simp] theorem modDrv_bill (d) (f) (s : State) : (modDrv d f s).bill = s.bill := rfl
@[simp] theorem modDrv_saf (d) (f) (s : State) : (modDrv d f s).saf = s.saf := rfl
@[simp] theorem modDrv_blocked (d) (f) (s : State) : (modDrv d f s).blocked = s.blocked := rfl
@[simp] theorem modDrv_bus (d) (f) (s : State) : (modDrv d f s).bus = s.bus := rfl
@[simp] theorem modDrv_disp (d) (f) (s : State) : (modDrv d f s).disp = s.disp := rfl
@[simp] theorem modDrv_pins (d) (f) (s : State) : (modDrv d f s).pins = s.pins := rfl
@[simp] theorem modDrv_key (d) (f) (s : State) : (modDrv d f s).key = s.key := rfl
@[simp] theorem modDrv_veh (d) (f) (s : State) : (modDrv d f s).veh = s.veh := rfl
@[simp] theorem modDrv_run (d) (f) (s : State) : (modDrv d f s).run = s.run := rfl
@[simp] theorem modDrv_net (d) (f) (s : State) : (modDrv d f s).net = s.net := rfl
@[simp] theorem modDrv_svc (d) (f) (s : State) : (modDrv d f s).svc = s.svc := rfl
@[simp] theorem modDrv_cfg (d) (f) (s : State) : (modDrv d f s).cfg = s.cfg := rfl
@[simp] theorem modDrv_pd (d) (f) (s : State) : (modDrv d f s).pd = { s.pd with drv := vmod s.pd.drv d f } := rfl

/-! `modHif` -/

@[simp] theorem modHif_pending (f) (s : State) : (modHif f s).pending = s.pending := rfl
@[simp] theorem modHif_nd (f) (s : State) : (modHif f s).nd = s.nd := rfl
@[simp] theorem modHif_fab (f) (s : State) : (modHif f s).fab = s.fab := rfl
@[simp] theorem modHif_time (f) (s : State) : (modHif f s).time = s.time := rfl
@[simp] theorem modHif_wch (f) (s : State) : (modHif f s).wch = s.wch := rfl
@[simp] theorem modHif_legal (f) (s : State) : (modHif f s).legal = s.legal := rfl
@[simp] theorem modHif_safStore (f) (s : State) : (modHif f s).safStore = s.safStore := rfl
@[simp] theorem modHif_slots (f) (s : State) : (modHif f s).slots = s.slots := rfl
@[simp] theorem modHif_upd (f) (s : State) : (modHif f s).upd = s.upd := rfl
@[simp] theorem modHif_save (f) (s : State) : (modHif f s).save = s.save := rfl
@[simp] theorem modHif_app (f) (s : State) : (modHif f s).app = s.app := rfl
@[simp] theorem modHif_dispStore (f) (s : State) : (modHif f s).dispStore = s.dispStore := rfl
@[simp] theorem modHif_keys (f) (s : State) : (modHif f s).keys = s.keys := rfl
@[simp] theorem modHif_pwr (f) (s : State) : (modHif f s).pwr = s.pwr := rfl
@[simp] theorem modHif_pd (f) (s : State) : (modHif f s).pd = s.pd := rfl
@[simp] theorem modHif_mbx (f) (s : State) : (modHif f s).mbx = s.mbx := rfl
@[simp] theorem modHif_tb (f) (s : State) : (modHif f s).tb = s.tb := rfl
@[simp] theorem modHif_wb (f) (s : State) : (modHif f s).wb = s.wb := rfl
@[simp] theorem modHif_ch (f) (s : State) : (modHif f s).ch = s.ch := rfl
@[simp] theorem modHif_isl (f) (s : State) : (modHif f s).isl = s.isl := rfl
@[simp] theorem modHif_weave (f) (s : State) : (modHif f s).weave = s.weave := rfl
@[simp] theorem modHif_met (f) (s : State) : (modHif f s).met = s.met := rfl
@[simp] theorem modHif_bill (f) (s : State) : (modHif f s).bill = s.bill := rfl
@[simp] theorem modHif_saf (f) (s : State) : (modHif f s).saf = s.saf := rfl
@[simp] theorem modHif_blocked (f) (s : State) : (modHif f s).blocked = s.blocked := rfl
@[simp] theorem modHif_bus (f) (s : State) : (modHif f s).bus = s.bus := rfl
@[simp] theorem modHif_disp (f) (s : State) : (modHif f s).disp = s.disp := rfl
@[simp] theorem modHif_pins (f) (s : State) : (modHif f s).pins = s.pins := rfl
@[simp] theorem modHif_key (f) (s : State) : (modHif f s).key = s.key := rfl
@[simp] theorem modHif_veh (f) (s : State) : (modHif f s).veh = s.veh := rfl
@[simp] theorem modHif_run (f) (s : State) : (modHif f s).run = s.run := rfl
@[simp] theorem modHif_net (f) (s : State) : (modHif f s).net = s.net := rfl
@[simp] theorem modHif_svc (f) (s : State) : (modHif f s).svc = s.svc := rfl
@[simp] theorem modHif_cfg (f) (s : State) : (modHif f s).cfg = s.cfg := rfl
@[simp] theorem modHif_hif (f) (s : State) : (modHif f s).hif = f s.hif := rfl

/-! `modIsl` -/

@[simp] theorem modIsl_pending (k) (f) (s : State) : (modIsl k f s).pending = s.pending := rfl
@[simp] theorem modIsl_nd (k) (f) (s : State) : (modIsl k f s).nd = s.nd := rfl
@[simp] theorem modIsl_fab (k) (f) (s : State) : (modIsl k f s).fab = s.fab := rfl
@[simp] theorem modIsl_time (k) (f) (s : State) : (modIsl k f s).time = s.time := rfl
@[simp] theorem modIsl_wch (k) (f) (s : State) : (modIsl k f s).wch = s.wch := rfl
@[simp] theorem modIsl_legal (k) (f) (s : State) : (modIsl k f s).legal = s.legal := rfl
@[simp] theorem modIsl_safStore (k) (f) (s : State) : (modIsl k f s).safStore = s.safStore := rfl
@[simp] theorem modIsl_slots (k) (f) (s : State) : (modIsl k f s).slots = s.slots := rfl
@[simp] theorem modIsl_upd (k) (f) (s : State) : (modIsl k f s).upd = s.upd := rfl
@[simp] theorem modIsl_save (k) (f) (s : State) : (modIsl k f s).save = s.save := rfl
@[simp] theorem modIsl_app (k) (f) (s : State) : (modIsl k f s).app = s.app := rfl
@[simp] theorem modIsl_dispStore (k) (f) (s : State) : (modIsl k f s).dispStore = s.dispStore := rfl
@[simp] theorem modIsl_keys (k) (f) (s : State) : (modIsl k f s).keys = s.keys := rfl
@[simp] theorem modIsl_pwr (k) (f) (s : State) : (modIsl k f s).pwr = s.pwr := rfl
@[simp] theorem modIsl_pd (k) (f) (s : State) : (modIsl k f s).pd = s.pd := rfl
@[simp] theorem modIsl_hif (k) (f) (s : State) : (modIsl k f s).hif = s.hif := rfl
@[simp] theorem modIsl_mbx (k) (f) (s : State) : (modIsl k f s).mbx = s.mbx := rfl
@[simp] theorem modIsl_tb (k) (f) (s : State) : (modIsl k f s).tb = s.tb := rfl
@[simp] theorem modIsl_wb (k) (f) (s : State) : (modIsl k f s).wb = s.wb := rfl
@[simp] theorem modIsl_ch (k) (f) (s : State) : (modIsl k f s).ch = s.ch := rfl
@[simp] theorem modIsl_weave (k) (f) (s : State) : (modIsl k f s).weave = s.weave := rfl
@[simp] theorem modIsl_met (k) (f) (s : State) : (modIsl k f s).met = s.met := rfl
@[simp] theorem modIsl_bill (k) (f) (s : State) : (modIsl k f s).bill = s.bill := rfl
@[simp] theorem modIsl_saf (k) (f) (s : State) : (modIsl k f s).saf = s.saf := rfl
@[simp] theorem modIsl_blocked (k) (f) (s : State) : (modIsl k f s).blocked = s.blocked := rfl
@[simp] theorem modIsl_bus (k) (f) (s : State) : (modIsl k f s).bus = s.bus := rfl
@[simp] theorem modIsl_disp (k) (f) (s : State) : (modIsl k f s).disp = s.disp := rfl
@[simp] theorem modIsl_pins (k) (f) (s : State) : (modIsl k f s).pins = s.pins := rfl
@[simp] theorem modIsl_key (k) (f) (s : State) : (modIsl k f s).key = s.key := rfl
@[simp] theorem modIsl_veh (k) (f) (s : State) : (modIsl k f s).veh = s.veh := rfl
@[simp] theorem modIsl_run (k) (f) (s : State) : (modIsl k f s).run = s.run := rfl
@[simp] theorem modIsl_net (k) (f) (s : State) : (modIsl k f s).net = s.net := rfl
@[simp] theorem modIsl_svc (k) (f) (s : State) : (modIsl k f s).svc = s.svc := rfl
@[simp] theorem modIsl_cfg (k) (f) (s : State) : (modIsl k f s).cfg = s.cfg := rfl
@[simp] theorem modIsl_isl (k) (f) (s : State) : (modIsl k f s).isl = vmod s.isl k f := rfl

/-! `modKey` -/

@[simp] theorem modKey_pending (f) (s : State) : (modKey f s).pending = s.pending := rfl
@[simp] theorem modKey_nd (f) (s : State) : (modKey f s).nd = s.nd := rfl
@[simp] theorem modKey_fab (f) (s : State) : (modKey f s).fab = s.fab := rfl
@[simp] theorem modKey_time (f) (s : State) : (modKey f s).time = s.time := rfl
@[simp] theorem modKey_wch (f) (s : State) : (modKey f s).wch = s.wch := rfl
@[simp] theorem modKey_legal (f) (s : State) : (modKey f s).legal = s.legal := rfl
@[simp] theorem modKey_safStore (f) (s : State) : (modKey f s).safStore = s.safStore := rfl
@[simp] theorem modKey_slots (f) (s : State) : (modKey f s).slots = s.slots := rfl
@[simp] theorem modKey_upd (f) (s : State) : (modKey f s).upd = s.upd := rfl
@[simp] theorem modKey_save (f) (s : State) : (modKey f s).save = s.save := rfl
@[simp] theorem modKey_app (f) (s : State) : (modKey f s).app = s.app := rfl
@[simp] theorem modKey_dispStore (f) (s : State) : (modKey f s).dispStore = s.dispStore := rfl
@[simp] theorem modKey_keys (f) (s : State) : (modKey f s).keys = s.keys := rfl
@[simp] theorem modKey_pwr (f) (s : State) : (modKey f s).pwr = s.pwr := rfl
@[simp] theorem modKey_pd (f) (s : State) : (modKey f s).pd = s.pd := rfl
@[simp] theorem modKey_hif (f) (s : State) : (modKey f s).hif = s.hif := rfl
@[simp] theorem modKey_mbx (f) (s : State) : (modKey f s).mbx = s.mbx := rfl
@[simp] theorem modKey_tb (f) (s : State) : (modKey f s).tb = s.tb := rfl
@[simp] theorem modKey_wb (f) (s : State) : (modKey f s).wb = s.wb := rfl
@[simp] theorem modKey_ch (f) (s : State) : (modKey f s).ch = s.ch := rfl
@[simp] theorem modKey_isl (f) (s : State) : (modKey f s).isl = s.isl := rfl
@[simp] theorem modKey_weave (f) (s : State) : (modKey f s).weave = s.weave := rfl
@[simp] theorem modKey_met (f) (s : State) : (modKey f s).met = s.met := rfl
@[simp] theorem modKey_bill (f) (s : State) : (modKey f s).bill = s.bill := rfl
@[simp] theorem modKey_saf (f) (s : State) : (modKey f s).saf = s.saf := rfl
@[simp] theorem modKey_blocked (f) (s : State) : (modKey f s).blocked = s.blocked := rfl
@[simp] theorem modKey_bus (f) (s : State) : (modKey f s).bus = s.bus := rfl
@[simp] theorem modKey_disp (f) (s : State) : (modKey f s).disp = s.disp := rfl
@[simp] theorem modKey_pins (f) (s : State) : (modKey f s).pins = s.pins := rfl
@[simp] theorem modKey_veh (f) (s : State) : (modKey f s).veh = s.veh := rfl
@[simp] theorem modKey_run (f) (s : State) : (modKey f s).run = s.run := rfl
@[simp] theorem modKey_net (f) (s : State) : (modKey f s).net = s.net := rfl
@[simp] theorem modKey_svc (f) (s : State) : (modKey f s).svc = s.svc := rfl
@[simp] theorem modKey_cfg (f) (s : State) : (modKey f s).cfg = s.cfg := rfl
@[simp] theorem modKey_key (f) (s : State) : (modKey f s).key = f s.key := rfl

/-! `modKeys` -/

@[simp] theorem modKeys_pending (f) (s : State) : (modKeys f s).pending = s.pending := rfl
@[simp] theorem modKeys_nd (f) (s : State) : (modKeys f s).nd = s.nd := rfl
@[simp] theorem modKeys_fab (f) (s : State) : (modKeys f s).fab = s.fab := rfl
@[simp] theorem modKeys_time (f) (s : State) : (modKeys f s).time = s.time := rfl
@[simp] theorem modKeys_wch (f) (s : State) : (modKeys f s).wch = s.wch := rfl
@[simp] theorem modKeys_legal (f) (s : State) : (modKeys f s).legal = s.legal := rfl
@[simp] theorem modKeys_safStore (f) (s : State) : (modKeys f s).safStore = s.safStore := rfl
@[simp] theorem modKeys_slots (f) (s : State) : (modKeys f s).slots = s.slots := rfl
@[simp] theorem modKeys_upd (f) (s : State) : (modKeys f s).upd = s.upd := rfl
@[simp] theorem modKeys_save (f) (s : State) : (modKeys f s).save = s.save := rfl
@[simp] theorem modKeys_app (f) (s : State) : (modKeys f s).app = s.app := rfl
@[simp] theorem modKeys_dispStore (f) (s : State) : (modKeys f s).dispStore = s.dispStore := rfl
@[simp] theorem modKeys_pwr (f) (s : State) : (modKeys f s).pwr = s.pwr := rfl
@[simp] theorem modKeys_pd (f) (s : State) : (modKeys f s).pd = s.pd := rfl
@[simp] theorem modKeys_hif (f) (s : State) : (modKeys f s).hif = s.hif := rfl
@[simp] theorem modKeys_mbx (f) (s : State) : (modKeys f s).mbx = s.mbx := rfl
@[simp] theorem modKeys_tb (f) (s : State) : (modKeys f s).tb = s.tb := rfl
@[simp] theorem modKeys_wb (f) (s : State) : (modKeys f s).wb = s.wb := rfl
@[simp] theorem modKeys_ch (f) (s : State) : (modKeys f s).ch = s.ch := rfl
@[simp] theorem modKeys_isl (f) (s : State) : (modKeys f s).isl = s.isl := rfl
@[simp] theorem modKeys_weave (f) (s : State) : (modKeys f s).weave = s.weave := rfl
@[simp] theorem modKeys_met (f) (s : State) : (modKeys f s).met = s.met := rfl
@[simp] theorem modKeys_bill (f) (s : State) : (modKeys f s).bill = s.bill := rfl
@[simp] theorem modKeys_saf (f) (s : State) : (modKeys f s).saf = s.saf := rfl
@[simp] theorem modKeys_blocked (f) (s : State) : (modKeys f s).blocked = s.blocked := rfl
@[simp] theorem modKeys_bus (f) (s : State) : (modKeys f s).bus = s.bus := rfl
@[simp] theorem modKeys_disp (f) (s : State) : (modKeys f s).disp = s.disp := rfl
@[simp] theorem modKeys_pins (f) (s : State) : (modKeys f s).pins = s.pins := rfl
@[simp] theorem modKeys_key (f) (s : State) : (modKeys f s).key = s.key := rfl
@[simp] theorem modKeys_veh (f) (s : State) : (modKeys f s).veh = s.veh := rfl
@[simp] theorem modKeys_run (f) (s : State) : (modKeys f s).run = s.run := rfl
@[simp] theorem modKeys_net (f) (s : State) : (modKeys f s).net = s.net := rfl
@[simp] theorem modKeys_svc (f) (s : State) : (modKeys f s).svc = s.svc := rfl
@[simp] theorem modKeys_cfg (f) (s : State) : (modKeys f s).cfg = s.cfg := rfl
@[simp] theorem modKeys_keys (f) (s : State) : (modKeys f s).keys = f s.keys := rfl

/-! `modLegal` -/

@[simp] theorem modLegal_pending (f) (s : State) : (modLegal f s).pending = s.pending := rfl
@[simp] theorem modLegal_nd (f) (s : State) : (modLegal f s).nd = s.nd := rfl
@[simp] theorem modLegal_fab (f) (s : State) : (modLegal f s).fab = s.fab := rfl
@[simp] theorem modLegal_time (f) (s : State) : (modLegal f s).time = s.time := rfl
@[simp] theorem modLegal_wch (f) (s : State) : (modLegal f s).wch = s.wch := rfl
@[simp] theorem modLegal_safStore (f) (s : State) : (modLegal f s).safStore = s.safStore := rfl
@[simp] theorem modLegal_slots (f) (s : State) : (modLegal f s).slots = s.slots := rfl
@[simp] theorem modLegal_upd (f) (s : State) : (modLegal f s).upd = s.upd := rfl
@[simp] theorem modLegal_save (f) (s : State) : (modLegal f s).save = s.save := rfl
@[simp] theorem modLegal_app (f) (s : State) : (modLegal f s).app = s.app := rfl
@[simp] theorem modLegal_dispStore (f) (s : State) : (modLegal f s).dispStore = s.dispStore := rfl
@[simp] theorem modLegal_keys (f) (s : State) : (modLegal f s).keys = s.keys := rfl
@[simp] theorem modLegal_pwr (f) (s : State) : (modLegal f s).pwr = s.pwr := rfl
@[simp] theorem modLegal_pd (f) (s : State) : (modLegal f s).pd = s.pd := rfl
@[simp] theorem modLegal_hif (f) (s : State) : (modLegal f s).hif = s.hif := rfl
@[simp] theorem modLegal_mbx (f) (s : State) : (modLegal f s).mbx = s.mbx := rfl
@[simp] theorem modLegal_tb (f) (s : State) : (modLegal f s).tb = s.tb := rfl
@[simp] theorem modLegal_wb (f) (s : State) : (modLegal f s).wb = s.wb := rfl
@[simp] theorem modLegal_ch (f) (s : State) : (modLegal f s).ch = s.ch := rfl
@[simp] theorem modLegal_isl (f) (s : State) : (modLegal f s).isl = s.isl := rfl
@[simp] theorem modLegal_weave (f) (s : State) : (modLegal f s).weave = s.weave := rfl
@[simp] theorem modLegal_met (f) (s : State) : (modLegal f s).met = s.met := rfl
@[simp] theorem modLegal_bill (f) (s : State) : (modLegal f s).bill = s.bill := rfl
@[simp] theorem modLegal_saf (f) (s : State) : (modLegal f s).saf = s.saf := rfl
@[simp] theorem modLegal_blocked (f) (s : State) : (modLegal f s).blocked = s.blocked := rfl
@[simp] theorem modLegal_bus (f) (s : State) : (modLegal f s).bus = s.bus := rfl
@[simp] theorem modLegal_disp (f) (s : State) : (modLegal f s).disp = s.disp := rfl
@[simp] theorem modLegal_pins (f) (s : State) : (modLegal f s).pins = s.pins := rfl
@[simp] theorem modLegal_key (f) (s : State) : (modLegal f s).key = s.key := rfl
@[simp] theorem modLegal_veh (f) (s : State) : (modLegal f s).veh = s.veh := rfl
@[simp] theorem modLegal_run (f) (s : State) : (modLegal f s).run = s.run := rfl
@[simp] theorem modLegal_net (f) (s : State) : (modLegal f s).net = s.net := rfl
@[simp] theorem modLegal_svc (f) (s : State) : (modLegal f s).svc = s.svc := rfl
@[simp] theorem modLegal_cfg (f) (s : State) : (modLegal f s).cfg = s.cfg := rfl
@[simp] theorem modLegal_legal (f) (s : State) : (modLegal f s).legal = f s.legal := rfl

/-! `modLs` -/

@[simp] theorem modLs_pending (n) (f) (s : State) : (modLs n f s).pending = s.pending := rfl
@[simp] theorem modLs_nd (n) (f) (s : State) : (modLs n f s).nd = s.nd := rfl
@[simp] theorem modLs_fab (n) (f) (s : State) : (modLs n f s).fab = s.fab := rfl
@[simp] theorem modLs_time (n) (f) (s : State) : (modLs n f s).time = s.time := rfl
@[simp] theorem modLs_wch (n) (f) (s : State) : (modLs n f s).wch = s.wch := rfl
@[simp] theorem modLs_legal (n) (f) (s : State) : (modLs n f s).legal = s.legal := rfl
@[simp] theorem modLs_safStore (n) (f) (s : State) : (modLs n f s).safStore = s.safStore := rfl
@[simp] theorem modLs_slots (n) (f) (s : State) : (modLs n f s).slots = s.slots := rfl
@[simp] theorem modLs_upd (n) (f) (s : State) : (modLs n f s).upd = s.upd := rfl
@[simp] theorem modLs_save (n) (f) (s : State) : (modLs n f s).save = s.save := rfl
@[simp] theorem modLs_app (n) (f) (s : State) : (modLs n f s).app = s.app := rfl
@[simp] theorem modLs_dispStore (n) (f) (s : State) : (modLs n f s).dispStore = s.dispStore := rfl
@[simp] theorem modLs_keys (n) (f) (s : State) : (modLs n f s).keys = s.keys := rfl
@[simp] theorem modLs_pwr (n) (f) (s : State) : (modLs n f s).pwr = s.pwr := rfl
@[simp] theorem modLs_hif (n) (f) (s : State) : (modLs n f s).hif = s.hif := rfl
@[simp] theorem modLs_mbx (n) (f) (s : State) : (modLs n f s).mbx = s.mbx := rfl
@[simp] theorem modLs_tb (n) (f) (s : State) : (modLs n f s).tb = s.tb := rfl
@[simp] theorem modLs_wb (n) (f) (s : State) : (modLs n f s).wb = s.wb := rfl
@[simp] theorem modLs_ch (n) (f) (s : State) : (modLs n f s).ch = s.ch := rfl
@[simp] theorem modLs_isl (n) (f) (s : State) : (modLs n f s).isl = s.isl := rfl
@[simp] theorem modLs_weave (n) (f) (s : State) : (modLs n f s).weave = s.weave := rfl
@[simp] theorem modLs_met (n) (f) (s : State) : (modLs n f s).met = s.met := rfl
@[simp] theorem modLs_bill (n) (f) (s : State) : (modLs n f s).bill = s.bill := rfl
@[simp] theorem modLs_saf (n) (f) (s : State) : (modLs n f s).saf = s.saf := rfl
@[simp] theorem modLs_blocked (n) (f) (s : State) : (modLs n f s).blocked = s.blocked := rfl
@[simp] theorem modLs_bus (n) (f) (s : State) : (modLs n f s).bus = s.bus := rfl
@[simp] theorem modLs_disp (n) (f) (s : State) : (modLs n f s).disp = s.disp := rfl
@[simp] theorem modLs_pins (n) (f) (s : State) : (modLs n f s).pins = s.pins := rfl
@[simp] theorem modLs_key (n) (f) (s : State) : (modLs n f s).key = s.key := rfl
@[simp] theorem modLs_veh (n) (f) (s : State) : (modLs n f s).veh = s.veh := rfl
@[simp] theorem modLs_run (n) (f) (s : State) : (modLs n f s).run = s.run := rfl
@[simp] theorem modLs_net (n) (f) (s : State) : (modLs n f s).net = s.net := rfl
@[simp] theorem modLs_svc (n) (f) (s : State) : (modLs n f s).svc = s.svc := rfl
@[simp] theorem modLs_cfg (n) (f) (s : State) : (modLs n f s).cfg = s.cfg := rfl

/-! `modMet` -/

@[simp] theorem modMet_pending (f) (s : State) : (modMet f s).pending = s.pending := rfl
@[simp] theorem modMet_nd (f) (s : State) : (modMet f s).nd = s.nd := rfl
@[simp] theorem modMet_fab (f) (s : State) : (modMet f s).fab = s.fab := rfl
@[simp] theorem modMet_time (f) (s : State) : (modMet f s).time = s.time := rfl
@[simp] theorem modMet_wch (f) (s : State) : (modMet f s).wch = s.wch := rfl
@[simp] theorem modMet_legal (f) (s : State) : (modMet f s).legal = s.legal := rfl
@[simp] theorem modMet_safStore (f) (s : State) : (modMet f s).safStore = s.safStore := rfl
@[simp] theorem modMet_slots (f) (s : State) : (modMet f s).slots = s.slots := rfl
@[simp] theorem modMet_upd (f) (s : State) : (modMet f s).upd = s.upd := rfl
@[simp] theorem modMet_save (f) (s : State) : (modMet f s).save = s.save := rfl
@[simp] theorem modMet_app (f) (s : State) : (modMet f s).app = s.app := rfl
@[simp] theorem modMet_dispStore (f) (s : State) : (modMet f s).dispStore = s.dispStore := rfl
@[simp] theorem modMet_keys (f) (s : State) : (modMet f s).keys = s.keys := rfl
@[simp] theorem modMet_pwr (f) (s : State) : (modMet f s).pwr = s.pwr := rfl
@[simp] theorem modMet_pd (f) (s : State) : (modMet f s).pd = s.pd := rfl
@[simp] theorem modMet_hif (f) (s : State) : (modMet f s).hif = s.hif := rfl
@[simp] theorem modMet_mbx (f) (s : State) : (modMet f s).mbx = s.mbx := rfl
@[simp] theorem modMet_tb (f) (s : State) : (modMet f s).tb = s.tb := rfl
@[simp] theorem modMet_wb (f) (s : State) : (modMet f s).wb = s.wb := rfl
@[simp] theorem modMet_ch (f) (s : State) : (modMet f s).ch = s.ch := rfl
@[simp] theorem modMet_isl (f) (s : State) : (modMet f s).isl = s.isl := rfl
@[simp] theorem modMet_weave (f) (s : State) : (modMet f s).weave = s.weave := rfl
@[simp] theorem modMet_bill (f) (s : State) : (modMet f s).bill = s.bill := rfl
@[simp] theorem modMet_saf (f) (s : State) : (modMet f s).saf = s.saf := rfl
@[simp] theorem modMet_blocked (f) (s : State) : (modMet f s).blocked = s.blocked := rfl
@[simp] theorem modMet_bus (f) (s : State) : (modMet f s).bus = s.bus := rfl
@[simp] theorem modMet_disp (f) (s : State) : (modMet f s).disp = s.disp := rfl
@[simp] theorem modMet_pins (f) (s : State) : (modMet f s).pins = s.pins := rfl
@[simp] theorem modMet_key (f) (s : State) : (modMet f s).key = s.key := rfl
@[simp] theorem modMet_veh (f) (s : State) : (modMet f s).veh = s.veh := rfl
@[simp] theorem modMet_run (f) (s : State) : (modMet f s).run = s.run := rfl
@[simp] theorem modMet_net (f) (s : State) : (modMet f s).net = s.net := rfl
@[simp] theorem modMet_svc (f) (s : State) : (modMet f s).svc = s.svc := rfl
@[simp] theorem modMet_cfg (f) (s : State) : (modMet f s).cfg = s.cfg := rfl
@[simp] theorem modMet_met (f) (s : State) : (modMet f s).met = f s.met := rfl

/-! `modNet` -/

@[simp] theorem modNet_pending (f) (s : State) : (modNet f s).pending = s.pending := rfl
@[simp] theorem modNet_nd (f) (s : State) : (modNet f s).nd = s.nd := rfl
@[simp] theorem modNet_fab (f) (s : State) : (modNet f s).fab = s.fab := rfl
@[simp] theorem modNet_time (f) (s : State) : (modNet f s).time = s.time := rfl
@[simp] theorem modNet_wch (f) (s : State) : (modNet f s).wch = s.wch := rfl
@[simp] theorem modNet_legal (f) (s : State) : (modNet f s).legal = s.legal := rfl
@[simp] theorem modNet_safStore (f) (s : State) : (modNet f s).safStore = s.safStore := rfl
@[simp] theorem modNet_slots (f) (s : State) : (modNet f s).slots = s.slots := rfl
@[simp] theorem modNet_upd (f) (s : State) : (modNet f s).upd = s.upd := rfl
@[simp] theorem modNet_save (f) (s : State) : (modNet f s).save = s.save := rfl
@[simp] theorem modNet_app (f) (s : State) : (modNet f s).app = s.app := rfl
@[simp] theorem modNet_dispStore (f) (s : State) : (modNet f s).dispStore = s.dispStore := rfl
@[simp] theorem modNet_keys (f) (s : State) : (modNet f s).keys = s.keys := rfl
@[simp] theorem modNet_pwr (f) (s : State) : (modNet f s).pwr = s.pwr := rfl
@[simp] theorem modNet_pd (f) (s : State) : (modNet f s).pd = s.pd := rfl
@[simp] theorem modNet_hif (f) (s : State) : (modNet f s).hif = s.hif := rfl
@[simp] theorem modNet_mbx (f) (s : State) : (modNet f s).mbx = s.mbx := rfl
@[simp] theorem modNet_tb (f) (s : State) : (modNet f s).tb = s.tb := rfl
@[simp] theorem modNet_wb (f) (s : State) : (modNet f s).wb = s.wb := rfl
@[simp] theorem modNet_ch (f) (s : State) : (modNet f s).ch = s.ch := rfl
@[simp] theorem modNet_isl (f) (s : State) : (modNet f s).isl = s.isl := rfl
@[simp] theorem modNet_weave (f) (s : State) : (modNet f s).weave = s.weave := rfl
@[simp] theorem modNet_met (f) (s : State) : (modNet f s).met = s.met := rfl
@[simp] theorem modNet_bill (f) (s : State) : (modNet f s).bill = s.bill := rfl
@[simp] theorem modNet_saf (f) (s : State) : (modNet f s).saf = s.saf := rfl
@[simp] theorem modNet_blocked (f) (s : State) : (modNet f s).blocked = s.blocked := rfl
@[simp] theorem modNet_bus (f) (s : State) : (modNet f s).bus = s.bus := rfl
@[simp] theorem modNet_disp (f) (s : State) : (modNet f s).disp = s.disp := rfl
@[simp] theorem modNet_pins (f) (s : State) : (modNet f s).pins = s.pins := rfl
@[simp] theorem modNet_key (f) (s : State) : (modNet f s).key = s.key := rfl
@[simp] theorem modNet_veh (f) (s : State) : (modNet f s).veh = s.veh := rfl
@[simp] theorem modNet_run (f) (s : State) : (modNet f s).run = s.run := rfl
@[simp] theorem modNet_svc (f) (s : State) : (modNet f s).svc = s.svc := rfl
@[simp] theorem modNet_cfg (f) (s : State) : (modNet f s).cfg = s.cfg := rfl
@[simp] theorem modNet_net (f) (s : State) : (modNet f s).net = f s.net := rfl

/-! `modOut` -/

@[simp] theorem modOut_pending (o) (f) (s : State) : (modOut o f s).pending = s.pending := rfl
@[simp] theorem modOut_nd (o) (f) (s : State) : (modOut o f s).nd = s.nd := rfl
@[simp] theorem modOut_fab (o) (f) (s : State) : (modOut o f s).fab = s.fab := rfl
@[simp] theorem modOut_time (o) (f) (s : State) : (modOut o f s).time = s.time := rfl
@[simp] theorem modOut_wch (o) (f) (s : State) : (modOut o f s).wch = s.wch := rfl
@[simp] theorem modOut_legal (o) (f) (s : State) : (modOut o f s).legal = s.legal := rfl
@[simp] theorem modOut_safStore (o) (f) (s : State) : (modOut o f s).safStore = s.safStore := rfl
@[simp] theorem modOut_slots (o) (f) (s : State) : (modOut o f s).slots = s.slots := rfl
@[simp] theorem modOut_upd (o) (f) (s : State) : (modOut o f s).upd = s.upd := rfl
@[simp] theorem modOut_save (o) (f) (s : State) : (modOut o f s).save = s.save := rfl
@[simp] theorem modOut_app (o) (f) (s : State) : (modOut o f s).app = s.app := rfl
@[simp] theorem modOut_dispStore (o) (f) (s : State) : (modOut o f s).dispStore = s.dispStore := rfl
@[simp] theorem modOut_keys (o) (f) (s : State) : (modOut o f s).keys = s.keys := rfl
@[simp] theorem modOut_pwr (o) (f) (s : State) : (modOut o f s).pwr = s.pwr := rfl
@[simp] theorem modOut_pd (o) (f) (s : State) : (modOut o f s).pd = s.pd := rfl
@[simp] theorem modOut_hif (o) (f) (s : State) : (modOut o f s).hif = s.hif := rfl
@[simp] theorem modOut_mbx (o) (f) (s : State) : (modOut o f s).mbx = s.mbx := rfl
@[simp] theorem modOut_tb (o) (f) (s : State) : (modOut o f s).tb = s.tb := rfl
@[simp] theorem modOut_wb (o) (f) (s : State) : (modOut o f s).wb = s.wb := rfl
@[simp] theorem modOut_ch (o) (f) (s : State) : (modOut o f s).ch = s.ch := rfl
@[simp] theorem modOut_isl (o) (f) (s : State) : (modOut o f s).isl = s.isl := rfl
@[simp] theorem modOut_weave (o) (f) (s : State) : (modOut o f s).weave = s.weave := rfl
@[simp] theorem modOut_met (o) (f) (s : State) : (modOut o f s).met = s.met := rfl
@[simp] theorem modOut_bill (o) (f) (s : State) : (modOut o f s).bill = s.bill := rfl
@[simp] theorem modOut_saf (o) (f) (s : State) : (modOut o f s).saf = s.saf := rfl
@[simp] theorem modOut_blocked (o) (f) (s : State) : (modOut o f s).blocked = s.blocked := rfl
@[simp] theorem modOut_bus (o) (f) (s : State) : (modOut o f s).bus = s.bus := rfl
@[simp] theorem modOut_disp (o) (f) (s : State) : (modOut o f s).disp = s.disp := rfl
@[simp] theorem modOut_pins (o) (f) (s : State) : (modOut o f s).pins = s.pins := rfl
@[simp] theorem modOut_key (o) (f) (s : State) : (modOut o f s).key = s.key := rfl
@[simp] theorem modOut_run (o) (f) (s : State) : (modOut o f s).run = s.run := rfl
@[simp] theorem modOut_net (o) (f) (s : State) : (modOut o f s).net = s.net := rfl
@[simp] theorem modOut_svc (o) (f) (s : State) : (modOut o f s).svc = s.svc := rfl
@[simp] theorem modOut_cfg (o) (f) (s : State) : (modOut o f s).cfg = s.cfg := rfl
@[simp] theorem modOut_veh (o) (f) (s : State) : (modOut o f s).veh = { s.veh with out := s.veh.out.modify o f } := rfl

/-! `modPair` -/

@[simp] theorem modPair_pending (f) (s : State) : (modPair f s).pending = s.pending := rfl
@[simp] theorem modPair_nd (f) (s : State) : (modPair f s).nd = s.nd := rfl
@[simp] theorem modPair_fab (f) (s : State) : (modPair f s).fab = s.fab := rfl
@[simp] theorem modPair_time (f) (s : State) : (modPair f s).time = s.time := rfl
@[simp] theorem modPair_wch (f) (s : State) : (modPair f s).wch = s.wch := rfl
@[simp] theorem modPair_legal (f) (s : State) : (modPair f s).legal = s.legal := rfl
@[simp] theorem modPair_safStore (f) (s : State) : (modPair f s).safStore = s.safStore := rfl
@[simp] theorem modPair_slots (f) (s : State) : (modPair f s).slots = s.slots := rfl
@[simp] theorem modPair_upd (f) (s : State) : (modPair f s).upd = s.upd := rfl
@[simp] theorem modPair_save (f) (s : State) : (modPair f s).save = s.save := rfl
@[simp] theorem modPair_app (f) (s : State) : (modPair f s).app = s.app := rfl
@[simp] theorem modPair_dispStore (f) (s : State) : (modPair f s).dispStore = s.dispStore := rfl
@[simp] theorem modPair_keys (f) (s : State) : (modPair f s).keys = s.keys := rfl
@[simp] theorem modPair_pwr (f) (s : State) : (modPair f s).pwr = s.pwr := rfl
@[simp] theorem modPair_pd (f) (s : State) : (modPair f s).pd = s.pd := rfl
@[simp] theorem modPair_hif (f) (s : State) : (modPair f s).hif = s.hif := rfl
@[simp] theorem modPair_mbx (f) (s : State) : (modPair f s).mbx = s.mbx := rfl
@[simp] theorem modPair_tb (f) (s : State) : (modPair f s).tb = s.tb := rfl
@[simp] theorem modPair_wb (f) (s : State) : (modPair f s).wb = s.wb := rfl
@[simp] theorem modPair_ch (f) (s : State) : (modPair f s).ch = s.ch := rfl
@[simp] theorem modPair_isl (f) (s : State) : (modPair f s).isl = s.isl := rfl
@[simp] theorem modPair_weave (f) (s : State) : (modPair f s).weave = s.weave := rfl
@[simp] theorem modPair_met (f) (s : State) : (modPair f s).met = s.met := rfl
@[simp] theorem modPair_bill (f) (s : State) : (modPair f s).bill = s.bill := rfl
@[simp] theorem modPair_saf (f) (s : State) : (modPair f s).saf = s.saf := rfl
@[simp] theorem modPair_blocked (f) (s : State) : (modPair f s).blocked = s.blocked := rfl
@[simp] theorem modPair_bus (f) (s : State) : (modPair f s).bus = s.bus := rfl
@[simp] theorem modPair_disp (f) (s : State) : (modPair f s).disp = s.disp := rfl
@[simp] theorem modPair_pins (f) (s : State) : (modPair f s).pins = s.pins := rfl
@[simp] theorem modPair_key (f) (s : State) : (modPair f s).key = s.key := rfl
@[simp] theorem modPair_veh (f) (s : State) : (modPair f s).veh = s.veh := rfl
@[simp] theorem modPair_run (f) (s : State) : (modPair f s).run = s.run := rfl
@[simp] theorem modPair_svc (f) (s : State) : (modPair f s).svc = s.svc := rfl
@[simp] theorem modPair_cfg (f) (s : State) : (modPair f s).cfg = s.cfg := rfl

/-! `modPd` -/

@[simp] theorem modPd_pending (f) (s : State) : (modPd f s).pending = s.pending := rfl
@[simp] theorem modPd_nd (f) (s : State) : (modPd f s).nd = s.nd := rfl
@[simp] theorem modPd_fab (f) (s : State) : (modPd f s).fab = s.fab := rfl
@[simp] theorem modPd_time (f) (s : State) : (modPd f s).time = s.time := rfl
@[simp] theorem modPd_wch (f) (s : State) : (modPd f s).wch = s.wch := rfl
@[simp] theorem modPd_legal (f) (s : State) : (modPd f s).legal = s.legal := rfl
@[simp] theorem modPd_safStore (f) (s : State) : (modPd f s).safStore = s.safStore := rfl
@[simp] theorem modPd_slots (f) (s : State) : (modPd f s).slots = s.slots := rfl
@[simp] theorem modPd_upd (f) (s : State) : (modPd f s).upd = s.upd := rfl
@[simp] theorem modPd_save (f) (s : State) : (modPd f s).save = s.save := rfl
@[simp] theorem modPd_app (f) (s : State) : (modPd f s).app = s.app := rfl
@[simp] theorem modPd_dispStore (f) (s : State) : (modPd f s).dispStore = s.dispStore := rfl
@[simp] theorem modPd_keys (f) (s : State) : (modPd f s).keys = s.keys := rfl
@[simp] theorem modPd_pwr (f) (s : State) : (modPd f s).pwr = s.pwr := rfl
@[simp] theorem modPd_hif (f) (s : State) : (modPd f s).hif = s.hif := rfl
@[simp] theorem modPd_mbx (f) (s : State) : (modPd f s).mbx = s.mbx := rfl
@[simp] theorem modPd_tb (f) (s : State) : (modPd f s).tb = s.tb := rfl
@[simp] theorem modPd_wb (f) (s : State) : (modPd f s).wb = s.wb := rfl
@[simp] theorem modPd_ch (f) (s : State) : (modPd f s).ch = s.ch := rfl
@[simp] theorem modPd_isl (f) (s : State) : (modPd f s).isl = s.isl := rfl
@[simp] theorem modPd_weave (f) (s : State) : (modPd f s).weave = s.weave := rfl
@[simp] theorem modPd_met (f) (s : State) : (modPd f s).met = s.met := rfl
@[simp] theorem modPd_bill (f) (s : State) : (modPd f s).bill = s.bill := rfl
@[simp] theorem modPd_saf (f) (s : State) : (modPd f s).saf = s.saf := rfl
@[simp] theorem modPd_blocked (f) (s : State) : (modPd f s).blocked = s.blocked := rfl
@[simp] theorem modPd_bus (f) (s : State) : (modPd f s).bus = s.bus := rfl
@[simp] theorem modPd_disp (f) (s : State) : (modPd f s).disp = s.disp := rfl
@[simp] theorem modPd_pins (f) (s : State) : (modPd f s).pins = s.pins := rfl
@[simp] theorem modPd_key (f) (s : State) : (modPd f s).key = s.key := rfl
@[simp] theorem modPd_veh (f) (s : State) : (modPd f s).veh = s.veh := rfl
@[simp] theorem modPd_run (f) (s : State) : (modPd f s).run = s.run := rfl
@[simp] theorem modPd_net (f) (s : State) : (modPd f s).net = s.net := rfl
@[simp] theorem modPd_svc (f) (s : State) : (modPd f s).svc = s.svc := rfl
@[simp] theorem modPd_cfg (f) (s : State) : (modPd f s).cfg = s.cfg := rfl
@[simp] theorem modPd_pd (f) (s : State) : (modPd f s).pd = f s.pd := rfl

/-! `modPins` -/

@[simp] theorem modPins_pending (f) (s : State) : (modPins f s).pending = s.pending := rfl
@[simp] theorem modPins_nd (f) (s : State) : (modPins f s).nd = s.nd := rfl
@[simp] theorem modPins_fab (f) (s : State) : (modPins f s).fab = s.fab := rfl
@[simp] theorem modPins_time (f) (s : State) : (modPins f s).time = s.time := rfl
@[simp] theorem modPins_wch (f) (s : State) : (modPins f s).wch = s.wch := rfl
@[simp] theorem modPins_legal (f) (s : State) : (modPins f s).legal = s.legal := rfl
@[simp] theorem modPins_safStore (f) (s : State) : (modPins f s).safStore = s.safStore := rfl
@[simp] theorem modPins_slots (f) (s : State) : (modPins f s).slots = s.slots := rfl
@[simp] theorem modPins_upd (f) (s : State) : (modPins f s).upd = s.upd := rfl
@[simp] theorem modPins_save (f) (s : State) : (modPins f s).save = s.save := rfl
@[simp] theorem modPins_app (f) (s : State) : (modPins f s).app = s.app := rfl
@[simp] theorem modPins_dispStore (f) (s : State) : (modPins f s).dispStore = s.dispStore := rfl
@[simp] theorem modPins_keys (f) (s : State) : (modPins f s).keys = s.keys := rfl
@[simp] theorem modPins_pwr (f) (s : State) : (modPins f s).pwr = s.pwr := rfl
@[simp] theorem modPins_pd (f) (s : State) : (modPins f s).pd = s.pd := rfl
@[simp] theorem modPins_hif (f) (s : State) : (modPins f s).hif = s.hif := rfl
@[simp] theorem modPins_mbx (f) (s : State) : (modPins f s).mbx = s.mbx := rfl
@[simp] theorem modPins_tb (f) (s : State) : (modPins f s).tb = s.tb := rfl
@[simp] theorem modPins_wb (f) (s : State) : (modPins f s).wb = s.wb := rfl
@[simp] theorem modPins_ch (f) (s : State) : (modPins f s).ch = s.ch := rfl
@[simp] theorem modPins_isl (f) (s : State) : (modPins f s).isl = s.isl := rfl
@[simp] theorem modPins_weave (f) (s : State) : (modPins f s).weave = s.weave := rfl
@[simp] theorem modPins_met (f) (s : State) : (modPins f s).met = s.met := rfl
@[simp] theorem modPins_bill (f) (s : State) : (modPins f s).bill = s.bill := rfl
@[simp] theorem modPins_saf (f) (s : State) : (modPins f s).saf = s.saf := rfl
@[simp] theorem modPins_blocked (f) (s : State) : (modPins f s).blocked = s.blocked := rfl
@[simp] theorem modPins_bus (f) (s : State) : (modPins f s).bus = s.bus := rfl
@[simp] theorem modPins_disp (f) (s : State) : (modPins f s).disp = s.disp := rfl
@[simp] theorem modPins_key (f) (s : State) : (modPins f s).key = s.key := rfl
@[simp] theorem modPins_veh (f) (s : State) : (modPins f s).veh = s.veh := rfl
@[simp] theorem modPins_run (f) (s : State) : (modPins f s).run = s.run := rfl
@[simp] theorem modPins_net (f) (s : State) : (modPins f s).net = s.net := rfl
@[simp] theorem modPins_svc (f) (s : State) : (modPins f s).svc = s.svc := rfl
@[simp] theorem modPins_cfg (f) (s : State) : (modPins f s).cfg = s.cfg := rfl
@[simp] theorem modPins_pins (f) (s : State) : (modPins f s).pins = f s.pins := rfl

/-! `modPm` -/

@[simp] theorem modPm_pending (b) (n) (f) (s : State) : (modPm b n f s).pending = s.pending := rfl
@[simp] theorem modPm_nd (b) (n) (f) (s : State) : (modPm b n f s).nd = s.nd := rfl
@[simp] theorem modPm_fab (b) (n) (f) (s : State) : (modPm b n f s).fab = s.fab := rfl
@[simp] theorem modPm_time (b) (n) (f) (s : State) : (modPm b n f s).time = s.time := rfl
@[simp] theorem modPm_wch (b) (n) (f) (s : State) : (modPm b n f s).wch = s.wch := rfl
@[simp] theorem modPm_legal (b) (n) (f) (s : State) : (modPm b n f s).legal = s.legal := rfl
@[simp] theorem modPm_safStore (b) (n) (f) (s : State) : (modPm b n f s).safStore = s.safStore := rfl
@[simp] theorem modPm_slots (b) (n) (f) (s : State) : (modPm b n f s).slots = s.slots := rfl
@[simp] theorem modPm_upd (b) (n) (f) (s : State) : (modPm b n f s).upd = s.upd := rfl
@[simp] theorem modPm_save (b) (n) (f) (s : State) : (modPm b n f s).save = s.save := rfl
@[simp] theorem modPm_app (b) (n) (f) (s : State) : (modPm b n f s).app = s.app := rfl
@[simp] theorem modPm_dispStore (b) (n) (f) (s : State) : (modPm b n f s).dispStore = s.dispStore := rfl
@[simp] theorem modPm_keys (b) (n) (f) (s : State) : (modPm b n f s).keys = s.keys := rfl
@[simp] theorem modPm_pwr (b) (n) (f) (s : State) : (modPm b n f s).pwr = s.pwr := rfl
@[simp] theorem modPm_pd (b) (n) (f) (s : State) : (modPm b n f s).pd = s.pd := rfl
@[simp] theorem modPm_hif (b) (n) (f) (s : State) : (modPm b n f s).hif = s.hif := rfl
@[simp] theorem modPm_mbx (b) (n) (f) (s : State) : (modPm b n f s).mbx = s.mbx := rfl
@[simp] theorem modPm_tb (b) (n) (f) (s : State) : (modPm b n f s).tb = s.tb := rfl
@[simp] theorem modPm_wb (b) (n) (f) (s : State) : (modPm b n f s).wb = s.wb := rfl
@[simp] theorem modPm_ch (b) (n) (f) (s : State) : (modPm b n f s).ch = s.ch := rfl
@[simp] theorem modPm_isl (b) (n) (f) (s : State) : (modPm b n f s).isl = s.isl := rfl
@[simp] theorem modPm_weave (b) (n) (f) (s : State) : (modPm b n f s).weave = s.weave := rfl
@[simp] theorem modPm_met (b) (n) (f) (s : State) : (modPm b n f s).met = s.met := rfl
@[simp] theorem modPm_bill (b) (n) (f) (s : State) : (modPm b n f s).bill = s.bill := rfl
@[simp] theorem modPm_saf (b) (n) (f) (s : State) : (modPm b n f s).saf = s.saf := rfl
@[simp] theorem modPm_blocked (b) (n) (f) (s : State) : (modPm b n f s).blocked = s.blocked := rfl
@[simp] theorem modPm_bus (b) (n) (f) (s : State) : (modPm b n f s).bus = s.bus := rfl
@[simp] theorem modPm_disp (b) (n) (f) (s : State) : (modPm b n f s).disp = s.disp := rfl
@[simp] theorem modPm_pins (b) (n) (f) (s : State) : (modPm b n f s).pins = s.pins := rfl
@[simp] theorem modPm_key (b) (n) (f) (s : State) : (modPm b n f s).key = s.key := rfl
@[simp] theorem modPm_veh (b) (n) (f) (s : State) : (modPm b n f s).veh = s.veh := rfl
@[simp] theorem modPm_run (b) (n) (f) (s : State) : (modPm b n f s).run = s.run := rfl
@[simp] theorem modPm_svc (b) (n) (f) (s : State) : (modPm b n f s).svc = s.svc := rfl
@[simp] theorem modPm_cfg (b) (n) (f) (s : State) : (modPm b n f s).cfg = s.cfg := rfl

/-! `modPort` -/

@[simp] theorem modPort_pending (p) (f) (s : State) : (modPort p f s).pending = s.pending := rfl
@[simp] theorem modPort_nd (p) (f) (s : State) : (modPort p f s).nd = s.nd := rfl
@[simp] theorem modPort_fab (p) (f) (s : State) : (modPort p f s).fab = s.fab := rfl
@[simp] theorem modPort_time (p) (f) (s : State) : (modPort p f s).time = s.time := rfl
@[simp] theorem modPort_wch (p) (f) (s : State) : (modPort p f s).wch = s.wch := rfl
@[simp] theorem modPort_legal (p) (f) (s : State) : (modPort p f s).legal = s.legal := rfl
@[simp] theorem modPort_safStore (p) (f) (s : State) : (modPort p f s).safStore = s.safStore := rfl
@[simp] theorem modPort_slots (p) (f) (s : State) : (modPort p f s).slots = s.slots := rfl
@[simp] theorem modPort_upd (p) (f) (s : State) : (modPort p f s).upd = s.upd := rfl
@[simp] theorem modPort_save (p) (f) (s : State) : (modPort p f s).save = s.save := rfl
@[simp] theorem modPort_app (p) (f) (s : State) : (modPort p f s).app = s.app := rfl
@[simp] theorem modPort_dispStore (p) (f) (s : State) : (modPort p f s).dispStore = s.dispStore := rfl
@[simp] theorem modPort_keys (p) (f) (s : State) : (modPort p f s).keys = s.keys := rfl
@[simp] theorem modPort_pwr (p) (f) (s : State) : (modPort p f s).pwr = s.pwr := rfl
@[simp] theorem modPort_pd (p) (f) (s : State) : (modPort p f s).pd = s.pd := rfl
@[simp] theorem modPort_hif (p) (f) (s : State) : (modPort p f s).hif = s.hif := rfl
@[simp] theorem modPort_mbx (p) (f) (s : State) : (modPort p f s).mbx = s.mbx := rfl
@[simp] theorem modPort_tb (p) (f) (s : State) : (modPort p f s).tb = s.tb := rfl
@[simp] theorem modPort_wb (p) (f) (s : State) : (modPort p f s).wb = s.wb := rfl
@[simp] theorem modPort_ch (p) (f) (s : State) : (modPort p f s).ch = s.ch := rfl
@[simp] theorem modPort_isl (p) (f) (s : State) : (modPort p f s).isl = s.isl := rfl
@[simp] theorem modPort_weave (p) (f) (s : State) : (modPort p f s).weave = s.weave := rfl
@[simp] theorem modPort_met (p) (f) (s : State) : (modPort p f s).met = s.met := rfl
@[simp] theorem modPort_bill (p) (f) (s : State) : (modPort p f s).bill = s.bill := rfl
@[simp] theorem modPort_saf (p) (f) (s : State) : (modPort p f s).saf = s.saf := rfl
@[simp] theorem modPort_blocked (p) (f) (s : State) : (modPort p f s).blocked = s.blocked := rfl
@[simp] theorem modPort_bus (p) (f) (s : State) : (modPort p f s).bus = s.bus := rfl
@[simp] theorem modPort_disp (p) (f) (s : State) : (modPort p f s).disp = s.disp := rfl
@[simp] theorem modPort_pins (p) (f) (s : State) : (modPort p f s).pins = s.pins := rfl
@[simp] theorem modPort_key (p) (f) (s : State) : (modPort p f s).key = s.key := rfl
@[simp] theorem modPort_veh (p) (f) (s : State) : (modPort p f s).veh = s.veh := rfl
@[simp] theorem modPort_run (p) (f) (s : State) : (modPort p f s).run = s.run := rfl
@[simp] theorem modPort_svc (p) (f) (s : State) : (modPort p f s).svc = s.svc := rfl
@[simp] theorem modPort_cfg (p) (f) (s : State) : (modPort p f s).cfg = s.cfg := rfl

/-! `modPsp` -/

@[simp] theorem modPsp_pending (p) (f) (s : State) : (modPsp p f s).pending = s.pending := rfl
@[simp] theorem modPsp_nd (p) (f) (s : State) : (modPsp p f s).nd = s.nd := rfl
@[simp] theorem modPsp_fab (p) (f) (s : State) : (modPsp p f s).fab = s.fab := rfl
@[simp] theorem modPsp_time (p) (f) (s : State) : (modPsp p f s).time = s.time := rfl
@[simp] theorem modPsp_wch (p) (f) (s : State) : (modPsp p f s).wch = s.wch := rfl
@[simp] theorem modPsp_legal (p) (f) (s : State) : (modPsp p f s).legal = s.legal := rfl
@[simp] theorem modPsp_safStore (p) (f) (s : State) : (modPsp p f s).safStore = s.safStore := rfl
@[simp] theorem modPsp_slots (p) (f) (s : State) : (modPsp p f s).slots = s.slots := rfl
@[simp] theorem modPsp_upd (p) (f) (s : State) : (modPsp p f s).upd = s.upd := rfl
@[simp] theorem modPsp_save (p) (f) (s : State) : (modPsp p f s).save = s.save := rfl
@[simp] theorem modPsp_app (p) (f) (s : State) : (modPsp p f s).app = s.app := rfl
@[simp] theorem modPsp_dispStore (p) (f) (s : State) : (modPsp p f s).dispStore = s.dispStore := rfl
@[simp] theorem modPsp_keys (p) (f) (s : State) : (modPsp p f s).keys = s.keys := rfl
@[simp] theorem modPsp_pwr (p) (f) (s : State) : (modPsp p f s).pwr = s.pwr := rfl
@[simp] theorem modPsp_pd (p) (f) (s : State) : (modPsp p f s).pd = s.pd := rfl
@[simp] theorem modPsp_hif (p) (f) (s : State) : (modPsp p f s).hif = s.hif := rfl
@[simp] theorem modPsp_mbx (p) (f) (s : State) : (modPsp p f s).mbx = s.mbx := rfl
@[simp] theorem modPsp_tb (p) (f) (s : State) : (modPsp p f s).tb = s.tb := rfl
@[simp] theorem modPsp_wb (p) (f) (s : State) : (modPsp p f s).wb = s.wb := rfl
@[simp] theorem modPsp_ch (p) (f) (s : State) : (modPsp p f s).ch = s.ch := rfl
@[simp] theorem modPsp_isl (p) (f) (s : State) : (modPsp p f s).isl = s.isl := rfl
@[simp] theorem modPsp_weave (p) (f) (s : State) : (modPsp p f s).weave = s.weave := rfl
@[simp] theorem modPsp_met (p) (f) (s : State) : (modPsp p f s).met = s.met := rfl
@[simp] theorem modPsp_bill (p) (f) (s : State) : (modPsp p f s).bill = s.bill := rfl
@[simp] theorem modPsp_saf (p) (f) (s : State) : (modPsp p f s).saf = s.saf := rfl
@[simp] theorem modPsp_blocked (p) (f) (s : State) : (modPsp p f s).blocked = s.blocked := rfl
@[simp] theorem modPsp_bus (p) (f) (s : State) : (modPsp p f s).bus = s.bus := rfl
@[simp] theorem modPsp_disp (p) (f) (s : State) : (modPsp p f s).disp = s.disp := rfl
@[simp] theorem modPsp_key (p) (f) (s : State) : (modPsp p f s).key = s.key := rfl
@[simp] theorem modPsp_veh (p) (f) (s : State) : (modPsp p f s).veh = s.veh := rfl
@[simp] theorem modPsp_run (p) (f) (s : State) : (modPsp p f s).run = s.run := rfl
@[simp] theorem modPsp_net (p) (f) (s : State) : (modPsp p f s).net = s.net := rfl
@[simp] theorem modPsp_svc (p) (f) (s : State) : (modPsp p f s).svc = s.svc := rfl
@[simp] theorem modPsp_cfg (p) (f) (s : State) : (modPsp p f s).cfg = s.cfg := rfl

/-! `modPwr` -/

@[simp] theorem modPwr_pending (f) (s : State) : (modPwr f s).pending = s.pending := rfl
@[simp] theorem modPwr_nd (f) (s : State) : (modPwr f s).nd = s.nd := rfl
@[simp] theorem modPwr_fab (f) (s : State) : (modPwr f s).fab = s.fab := rfl
@[simp] theorem modPwr_time (f) (s : State) : (modPwr f s).time = s.time := rfl
@[simp] theorem modPwr_wch (f) (s : State) : (modPwr f s).wch = s.wch := rfl
@[simp] theorem modPwr_legal (f) (s : State) : (modPwr f s).legal = s.legal := rfl
@[simp] theorem modPwr_safStore (f) (s : State) : (modPwr f s).safStore = s.safStore := rfl
@[simp] theorem modPwr_slots (f) (s : State) : (modPwr f s).slots = s.slots := rfl
@[simp] theorem modPwr_upd (f) (s : State) : (modPwr f s).upd = s.upd := rfl
@[simp] theorem modPwr_save (f) (s : State) : (modPwr f s).save = s.save := rfl
@[simp] theorem modPwr_app (f) (s : State) : (modPwr f s).app = s.app := rfl
@[simp] theorem modPwr_dispStore (f) (s : State) : (modPwr f s).dispStore = s.dispStore := rfl
@[simp] theorem modPwr_keys (f) (s : State) : (modPwr f s).keys = s.keys := rfl
@[simp] theorem modPwr_pd (f) (s : State) : (modPwr f s).pd = s.pd := rfl
@[simp] theorem modPwr_hif (f) (s : State) : (modPwr f s).hif = s.hif := rfl
@[simp] theorem modPwr_mbx (f) (s : State) : (modPwr f s).mbx = s.mbx := rfl
@[simp] theorem modPwr_tb (f) (s : State) : (modPwr f s).tb = s.tb := rfl
@[simp] theorem modPwr_wb (f) (s : State) : (modPwr f s).wb = s.wb := rfl
@[simp] theorem modPwr_ch (f) (s : State) : (modPwr f s).ch = s.ch := rfl
@[simp] theorem modPwr_isl (f) (s : State) : (modPwr f s).isl = s.isl := rfl
@[simp] theorem modPwr_weave (f) (s : State) : (modPwr f s).weave = s.weave := rfl
@[simp] theorem modPwr_met (f) (s : State) : (modPwr f s).met = s.met := rfl
@[simp] theorem modPwr_bill (f) (s : State) : (modPwr f s).bill = s.bill := rfl
@[simp] theorem modPwr_saf (f) (s : State) : (modPwr f s).saf = s.saf := rfl
@[simp] theorem modPwr_blocked (f) (s : State) : (modPwr f s).blocked = s.blocked := rfl
@[simp] theorem modPwr_bus (f) (s : State) : (modPwr f s).bus = s.bus := rfl
@[simp] theorem modPwr_disp (f) (s : State) : (modPwr f s).disp = s.disp := rfl
@[simp] theorem modPwr_pins (f) (s : State) : (modPwr f s).pins = s.pins := rfl
@[simp] theorem modPwr_key (f) (s : State) : (modPwr f s).key = s.key := rfl
@[simp] theorem modPwr_veh (f) (s : State) : (modPwr f s).veh = s.veh := rfl
@[simp] theorem modPwr_run (f) (s : State) : (modPwr f s).run = s.run := rfl
@[simp] theorem modPwr_net (f) (s : State) : (modPwr f s).net = s.net := rfl
@[simp] theorem modPwr_svc (f) (s : State) : (modPwr f s).svc = s.svc := rfl
@[simp] theorem modPwr_cfg (f) (s : State) : (modPwr f s).cfg = s.cfg := rfl
@[simp] theorem modPwr_pwr (f) (s : State) : (modPwr f s).pwr = f s.pwr := rfl

/-! `modRecord` -/

@[simp] theorem modRecord_pending (o) (f) (s : State) : (modRecord o f s).pending = s.pending := rfl
@[simp] theorem modRecord_nd (o) (f) (s : State) : (modRecord o f s).nd = s.nd := rfl
@[simp] theorem modRecord_fab (o) (f) (s : State) : (modRecord o f s).fab = s.fab := rfl
@[simp] theorem modRecord_time (o) (f) (s : State) : (modRecord o f s).time = s.time := rfl
@[simp] theorem modRecord_wch (o) (f) (s : State) : (modRecord o f s).wch = s.wch := rfl
@[simp] theorem modRecord_legal (o) (f) (s : State) : (modRecord o f s).legal = s.legal := rfl
@[simp] theorem modRecord_safStore (o) (f) (s : State) : (modRecord o f s).safStore = s.safStore := rfl
@[simp] theorem modRecord_slots (o) (f) (s : State) : (modRecord o f s).slots = s.slots := rfl
@[simp] theorem modRecord_upd (o) (f) (s : State) : (modRecord o f s).upd = s.upd := rfl
@[simp] theorem modRecord_save (o) (f) (s : State) : (modRecord o f s).save = s.save := rfl
@[simp] theorem modRecord_app (o) (f) (s : State) : (modRecord o f s).app = s.app := rfl
@[simp] theorem modRecord_dispStore (o) (f) (s : State) : (modRecord o f s).dispStore = s.dispStore := rfl
@[simp] theorem modRecord_keys (o) (f) (s : State) : (modRecord o f s).keys = s.keys := rfl
@[simp] theorem modRecord_pwr (o) (f) (s : State) : (modRecord o f s).pwr = s.pwr := rfl
@[simp] theorem modRecord_pd (o) (f) (s : State) : (modRecord o f s).pd = s.pd := rfl
@[simp] theorem modRecord_hif (o) (f) (s : State) : (modRecord o f s).hif = s.hif := rfl
@[simp] theorem modRecord_mbx (o) (f) (s : State) : (modRecord o f s).mbx = s.mbx := rfl
@[simp] theorem modRecord_tb (o) (f) (s : State) : (modRecord o f s).tb = s.tb := rfl
@[simp] theorem modRecord_wb (o) (f) (s : State) : (modRecord o f s).wb = s.wb := rfl
@[simp] theorem modRecord_ch (o) (f) (s : State) : (modRecord o f s).ch = s.ch := rfl
@[simp] theorem modRecord_isl (o) (f) (s : State) : (modRecord o f s).isl = s.isl := rfl
@[simp] theorem modRecord_weave (o) (f) (s : State) : (modRecord o f s).weave = s.weave := rfl
@[simp] theorem modRecord_met (o) (f) (s : State) : (modRecord o f s).met = s.met := rfl
@[simp] theorem modRecord_saf (o) (f) (s : State) : (modRecord o f s).saf = s.saf := rfl
@[simp] theorem modRecord_blocked (o) (f) (s : State) : (modRecord o f s).blocked = s.blocked := rfl
@[simp] theorem modRecord_bus (o) (f) (s : State) : (modRecord o f s).bus = s.bus := rfl
@[simp] theorem modRecord_disp (o) (f) (s : State) : (modRecord o f s).disp = s.disp := rfl
@[simp] theorem modRecord_pins (o) (f) (s : State) : (modRecord o f s).pins = s.pins := rfl
@[simp] theorem modRecord_key (o) (f) (s : State) : (modRecord o f s).key = s.key := rfl
@[simp] theorem modRecord_veh (o) (f) (s : State) : (modRecord o f s).veh = s.veh := rfl
@[simp] theorem modRecord_run (o) (f) (s : State) : (modRecord o f s).run = s.run := rfl
@[simp] theorem modRecord_net (o) (f) (s : State) : (modRecord o f s).net = s.net := rfl
@[simp] theorem modRecord_svc (o) (f) (s : State) : (modRecord o f s).svc = s.svc := rfl
@[simp] theorem modRecord_cfg (o) (f) (s : State) : (modRecord o f s).cfg = s.cfg := rfl

/-! `modRegs` -/

@[simp] theorem modRegs_pending (sel) (tariff) (f) (s : State) : (modRegs sel tariff f s).pending = s.pending := rfl
@[simp] theorem modRegs_nd (sel) (tariff) (f) (s : State) : (modRegs sel tariff f s).nd = s.nd := rfl
@[simp] theorem modRegs_fab (sel) (tariff) (f) (s : State) : (modRegs sel tariff f s).fab = s.fab := rfl
@[simp] theorem modRegs_time (sel) (tariff) (f) (s : State) : (modRegs sel tariff f s).time = s.time := rfl
@[simp] theorem modRegs_wch (sel) (tariff) (f) (s : State) : (modRegs sel tariff f s).wch = s.wch := rfl
@[simp] theorem modRegs_legal (sel) (tariff) (f) (s : State) : (modRegs sel tariff f s).legal = s.legal := rfl
@[simp] theorem modRegs_safStore (sel) (tariff) (f) (s : State) : (modRegs sel tariff f s).safStore = s.safStore := rfl
@[simp] theorem modRegs_slots (sel) (tariff) (f) (s : State) : (modRegs sel tariff f s).slots = s.slots := rfl
@[simp] theorem modRegs_upd (sel) (tariff) (f) (s : State) : (modRegs sel tariff f s).upd = s.upd := rfl
@[simp] theorem modRegs_save (sel) (tariff) (f) (s : State) : (modRegs sel tariff f s).save = s.save := rfl
@[simp] theorem modRegs_app (sel) (tariff) (f) (s : State) : (modRegs sel tariff f s).app = s.app := rfl
@[simp] theorem modRegs_dispStore (sel) (tariff) (f) (s : State) : (modRegs sel tariff f s).dispStore = s.dispStore := rfl
@[simp] theorem modRegs_keys (sel) (tariff) (f) (s : State) : (modRegs sel tariff f s).keys = s.keys := rfl
@[simp] theorem modRegs_pwr (sel) (tariff) (f) (s : State) : (modRegs sel tariff f s).pwr = s.pwr := rfl
@[simp] theorem modRegs_pd (sel) (tariff) (f) (s : State) : (modRegs sel tariff f s).pd = s.pd := rfl
@[simp] theorem modRegs_hif (sel) (tariff) (f) (s : State) : (modRegs sel tariff f s).hif = s.hif := rfl
@[simp] theorem modRegs_mbx (sel) (tariff) (f) (s : State) : (modRegs sel tariff f s).mbx = s.mbx := rfl
@[simp] theorem modRegs_tb (sel) (tariff) (f) (s : State) : (modRegs sel tariff f s).tb = s.tb := rfl
@[simp] theorem modRegs_wb (sel) (tariff) (f) (s : State) : (modRegs sel tariff f s).wb = s.wb := rfl
@[simp] theorem modRegs_ch (sel) (tariff) (f) (s : State) : (modRegs sel tariff f s).ch = s.ch := rfl
@[simp] theorem modRegs_isl (sel) (tariff) (f) (s : State) : (modRegs sel tariff f s).isl = s.isl := rfl
@[simp] theorem modRegs_weave (sel) (tariff) (f) (s : State) : (modRegs sel tariff f s).weave = s.weave := rfl
@[simp] theorem modRegs_met (sel) (tariff) (f) (s : State) : (modRegs sel tariff f s).met = s.met := rfl
@[simp] theorem modRegs_saf (sel) (tariff) (f) (s : State) : (modRegs sel tariff f s).saf = s.saf := rfl
@[simp] theorem modRegs_blocked (sel) (tariff) (f) (s : State) : (modRegs sel tariff f s).blocked = s.blocked := rfl
@[simp] theorem modRegs_bus (sel) (tariff) (f) (s : State) : (modRegs sel tariff f s).bus = s.bus := rfl
@[simp] theorem modRegs_disp (sel) (tariff) (f) (s : State) : (modRegs sel tariff f s).disp = s.disp := rfl
@[simp] theorem modRegs_pins (sel) (tariff) (f) (s : State) : (modRegs sel tariff f s).pins = s.pins := rfl
@[simp] theorem modRegs_key (sel) (tariff) (f) (s : State) : (modRegs sel tariff f s).key = s.key := rfl
@[simp] theorem modRegs_veh (sel) (tariff) (f) (s : State) : (modRegs sel tariff f s).veh = s.veh := rfl
@[simp] theorem modRegs_run (sel) (tariff) (f) (s : State) : (modRegs sel tariff f s).run = s.run := rfl
@[simp] theorem modRegs_net (sel) (tariff) (f) (s : State) : (modRegs sel tariff f s).net = s.net := rfl
@[simp] theorem modRegs_svc (sel) (tariff) (f) (s : State) : (modRegs sel tariff f s).svc = s.svc := rfl
@[simp] theorem modRegs_cfg (sel) (tariff) (f) (s : State) : (modRegs sel tariff f s).cfg = s.cfg := rfl

/-! `modRun` -/

@[simp] theorem modRun_pending (f) (s : State) : (modRun f s).pending = s.pending := rfl
@[simp] theorem modRun_nd (f) (s : State) : (modRun f s).nd = s.nd := rfl
@[simp] theorem modRun_fab (f) (s : State) : (modRun f s).fab = s.fab := rfl
@[simp] theorem modRun_time (f) (s : State) : (modRun f s).time = s.time := rfl
@[simp] theorem modRun_wch (f) (s : State) : (modRun f s).wch = s.wch := rfl
@[simp] theorem modRun_legal (f) (s : State) : (modRun f s).legal = s.legal := rfl
@[simp] theorem modRun_safStore (f) (s : State) : (modRun f s).safStore = s.safStore := rfl
@[simp] theorem modRun_slots (f) (s : State) : (modRun f s).slots = s.slots := rfl
@[simp] theorem modRun_upd (f) (s : State) : (modRun f s).upd = s.upd := rfl
@[simp] theorem modRun_save (f) (s : State) : (modRun f s).save = s.save := rfl
@[simp] theorem modRun_app (f) (s : State) : (modRun f s).app = s.app := rfl
@[simp] theorem modRun_dispStore (f) (s : State) : (modRun f s).dispStore = s.dispStore := rfl
@[simp] theorem modRun_keys (f) (s : State) : (modRun f s).keys = s.keys := rfl
@[simp] theorem modRun_pwr (f) (s : State) : (modRun f s).pwr = s.pwr := rfl
@[simp] theorem modRun_pd (f) (s : State) : (modRun f s).pd = s.pd := rfl
@[simp] theorem modRun_hif (f) (s : State) : (modRun f s).hif = s.hif := rfl
@[simp] theorem modRun_mbx (f) (s : State) : (modRun f s).mbx = s.mbx := rfl
@[simp] theorem modRun_tb (f) (s : State) : (modRun f s).tb = s.tb := rfl
@[simp] theorem modRun_wb (f) (s : State) : (modRun f s).wb = s.wb := rfl
@[simp] theorem modRun_ch (f) (s : State) : (modRun f s).ch = s.ch := rfl
@[simp] theorem modRun_isl (f) (s : State) : (modRun f s).isl = s.isl := rfl
@[simp] theorem modRun_weave (f) (s : State) : (modRun f s).weave = s.weave := rfl
@[simp] theorem modRun_met (f) (s : State) : (modRun f s).met = s.met := rfl
@[simp] theorem modRun_bill (f) (s : State) : (modRun f s).bill = s.bill := rfl
@[simp] theorem modRun_saf (f) (s : State) : (modRun f s).saf = s.saf := rfl
@[simp] theorem modRun_blocked (f) (s : State) : (modRun f s).blocked = s.blocked := rfl
@[simp] theorem modRun_bus (f) (s : State) : (modRun f s).bus = s.bus := rfl
@[simp] theorem modRun_disp (f) (s : State) : (modRun f s).disp = s.disp := rfl
@[simp] theorem modRun_pins (f) (s : State) : (modRun f s).pins = s.pins := rfl
@[simp] theorem modRun_key (f) (s : State) : (modRun f s).key = s.key := rfl
@[simp] theorem modRun_veh (f) (s : State) : (modRun f s).veh = s.veh := rfl
@[simp] theorem modRun_net (f) (s : State) : (modRun f s).net = s.net := rfl
@[simp] theorem modRun_svc (f) (s : State) : (modRun f s).svc = s.svc := rfl
@[simp] theorem modRun_cfg (f) (s : State) : (modRun f s).cfg = s.cfg := rfl
@[simp] theorem modRun_run (f) (s : State) : (modRun f s).run = f s.run := rfl

/-! `modSaf` -/

@[simp] theorem modSaf_pending (o) (f) (s : State) : (modSaf o f s).pending = s.pending := rfl
@[simp] theorem modSaf_nd (o) (f) (s : State) : (modSaf o f s).nd = s.nd := rfl
@[simp] theorem modSaf_fab (o) (f) (s : State) : (modSaf o f s).fab = s.fab := rfl
@[simp] theorem modSaf_time (o) (f) (s : State) : (modSaf o f s).time = s.time := rfl
@[simp] theorem modSaf_wch (o) (f) (s : State) : (modSaf o f s).wch = s.wch := rfl
@[simp] theorem modSaf_legal (o) (f) (s : State) : (modSaf o f s).legal = s.legal := rfl
@[simp] theorem modSaf_safStore (o) (f) (s : State) : (modSaf o f s).safStore = s.safStore := rfl
@[simp] theorem modSaf_slots (o) (f) (s : State) : (modSaf o f s).slots = s.slots := rfl
@[simp] theorem modSaf_upd (o) (f) (s : State) : (modSaf o f s).upd = s.upd := rfl
@[simp] theorem modSaf_save (o) (f) (s : State) : (modSaf o f s).save = s.save := rfl
@[simp] theorem modSaf_app (o) (f) (s : State) : (modSaf o f s).app = s.app := rfl
@[simp] theorem modSaf_dispStore (o) (f) (s : State) : (modSaf o f s).dispStore = s.dispStore := rfl
@[simp] theorem modSaf_keys (o) (f) (s : State) : (modSaf o f s).keys = s.keys := rfl
@[simp] theorem modSaf_pwr (o) (f) (s : State) : (modSaf o f s).pwr = s.pwr := rfl
@[simp] theorem modSaf_pd (o) (f) (s : State) : (modSaf o f s).pd = s.pd := rfl
@[simp] theorem modSaf_hif (o) (f) (s : State) : (modSaf o f s).hif = s.hif := rfl
@[simp] theorem modSaf_mbx (o) (f) (s : State) : (modSaf o f s).mbx = s.mbx := rfl
@[simp] theorem modSaf_tb (o) (f) (s : State) : (modSaf o f s).tb = s.tb := rfl
@[simp] theorem modSaf_wb (o) (f) (s : State) : (modSaf o f s).wb = s.wb := rfl
@[simp] theorem modSaf_ch (o) (f) (s : State) : (modSaf o f s).ch = s.ch := rfl
@[simp] theorem modSaf_isl (o) (f) (s : State) : (modSaf o f s).isl = s.isl := rfl
@[simp] theorem modSaf_weave (o) (f) (s : State) : (modSaf o f s).weave = s.weave := rfl
@[simp] theorem modSaf_met (o) (f) (s : State) : (modSaf o f s).met = s.met := rfl
@[simp] theorem modSaf_bill (o) (f) (s : State) : (modSaf o f s).bill = s.bill := rfl
@[simp] theorem modSaf_blocked (o) (f) (s : State) : (modSaf o f s).blocked = s.blocked := rfl
@[simp] theorem modSaf_bus (o) (f) (s : State) : (modSaf o f s).bus = s.bus := rfl
@[simp] theorem modSaf_disp (o) (f) (s : State) : (modSaf o f s).disp = s.disp := rfl
@[simp] theorem modSaf_pins (o) (f) (s : State) : (modSaf o f s).pins = s.pins := rfl
@[simp] theorem modSaf_key (o) (f) (s : State) : (modSaf o f s).key = s.key := rfl
@[simp] theorem modSaf_veh (o) (f) (s : State) : (modSaf o f s).veh = s.veh := rfl
@[simp] theorem modSaf_run (o) (f) (s : State) : (modSaf o f s).run = s.run := rfl
@[simp] theorem modSaf_net (o) (f) (s : State) : (modSaf o f s).net = s.net := rfl
@[simp] theorem modSaf_svc (o) (f) (s : State) : (modSaf o f s).svc = s.svc := rfl
@[simp] theorem modSaf_cfg (o) (f) (s : State) : (modSaf o f s).cfg = s.cfg := rfl
@[simp] theorem modSaf_saf (o) (f) (s : State) : (modSaf o f s).saf = { s.saf with out := s.saf.out.modify o f } := rfl

/-! `modSafCore` -/

@[simp] theorem modSafCore_pending (f) (s : State) : (modSafCore f s).pending = s.pending := rfl
@[simp] theorem modSafCore_nd (f) (s : State) : (modSafCore f s).nd = s.nd := rfl
@[simp] theorem modSafCore_fab (f) (s : State) : (modSafCore f s).fab = s.fab := rfl
@[simp] theorem modSafCore_time (f) (s : State) : (modSafCore f s).time = s.time := rfl
@[simp] theorem modSafCore_wch (f) (s : State) : (modSafCore f s).wch = s.wch := rfl
@[simp] theorem modSafCore_legal (f) (s : State) : (modSafCore f s).legal = s.legal := rfl
@[simp] theorem modSafCore_safStore (f) (s : State) : (modSafCore f s).safStore = s.safStore := rfl
@[simp] theorem modSafCore_slots (f) (s : State) : (modSafCore f s).slots = s.slots := rfl
@[simp] theorem modSafCore_upd (f) (s : State) : (modSafCore f s).upd = s.upd := rfl
@[simp] theorem modSafCore_save (f) (s : State) : (modSafCore f s).save = s.save := rfl
@[simp] theorem modSafCore_app (f) (s : State) : (modSafCore f s).app = s.app := rfl
@[simp] theorem modSafCore_dispStore (f) (s : State) : (modSafCore f s).dispStore = s.dispStore := rfl
@[simp] theorem modSafCore_keys (f) (s : State) : (modSafCore f s).keys = s.keys := rfl
@[simp] theorem modSafCore_pwr (f) (s : State) : (modSafCore f s).pwr = s.pwr := rfl
@[simp] theorem modSafCore_pd (f) (s : State) : (modSafCore f s).pd = s.pd := rfl
@[simp] theorem modSafCore_hif (f) (s : State) : (modSafCore f s).hif = s.hif := rfl
@[simp] theorem modSafCore_mbx (f) (s : State) : (modSafCore f s).mbx = s.mbx := rfl
@[simp] theorem modSafCore_tb (f) (s : State) : (modSafCore f s).tb = s.tb := rfl
@[simp] theorem modSafCore_wb (f) (s : State) : (modSafCore f s).wb = s.wb := rfl
@[simp] theorem modSafCore_ch (f) (s : State) : (modSafCore f s).ch = s.ch := rfl
@[simp] theorem modSafCore_isl (f) (s : State) : (modSafCore f s).isl = s.isl := rfl
@[simp] theorem modSafCore_weave (f) (s : State) : (modSafCore f s).weave = s.weave := rfl
@[simp] theorem modSafCore_met (f) (s : State) : (modSafCore f s).met = s.met := rfl
@[simp] theorem modSafCore_bill (f) (s : State) : (modSafCore f s).bill = s.bill := rfl
@[simp] theorem modSafCore_blocked (f) (s : State) : (modSafCore f s).blocked = s.blocked := rfl
@[simp] theorem modSafCore_bus (f) (s : State) : (modSafCore f s).bus = s.bus := rfl
@[simp] theorem modSafCore_disp (f) (s : State) : (modSafCore f s).disp = s.disp := rfl
@[simp] theorem modSafCore_pins (f) (s : State) : (modSafCore f s).pins = s.pins := rfl
@[simp] theorem modSafCore_key (f) (s : State) : (modSafCore f s).key = s.key := rfl
@[simp] theorem modSafCore_veh (f) (s : State) : (modSafCore f s).veh = s.veh := rfl
@[simp] theorem modSafCore_run (f) (s : State) : (modSafCore f s).run = s.run := rfl
@[simp] theorem modSafCore_net (f) (s : State) : (modSafCore f s).net = s.net := rfl
@[simp] theorem modSafCore_svc (f) (s : State) : (modSafCore f s).svc = s.svc := rfl
@[simp] theorem modSafCore_cfg (f) (s : State) : (modSafCore f s).cfg = s.cfg := rfl
@[simp] theorem modSafCore_saf (f) (s : State) : (modSafCore f s).saf = f s.saf := rfl

/-! `modSlot` -/

@[simp] theorem modSlot_pending (i) (f) (s : State) : (modSlot i f s).pending = s.pending := rfl
@[simp] theorem modSlot_nd (i) (f) (s : State) : (modSlot i f s).nd = s.nd := rfl
@[simp] theorem modSlot_fab (i) (f) (s : State) : (modSlot i f s).fab = s.fab := rfl
@[simp] theorem modSlot_time (i) (f) (s : State) : (modSlot i f s).time = s.time := rfl
@[simp] theorem modSlot_wch (i) (f) (s : State) : (modSlot i f s).wch = s.wch := rfl
@[simp] theorem modSlot_legal (i) (f) (s : State) : (modSlot i f s).legal = s.legal := rfl
@[simp] theorem modSlot_safStore (i) (f) (s : State) : (modSlot i f s).safStore = s.safStore := rfl
@[simp] theorem modSlot_upd (i) (f) (s : State) : (modSlot i f s).upd = s.upd := rfl
@[simp] theorem modSlot_save (i) (f) (s : State) : (modSlot i f s).save = s.save := rfl
@[simp] theorem modSlot_app (i) (f) (s : State) : (modSlot i f s).app = s.app := rfl
@[simp] theorem modSlot_dispStore (i) (f) (s : State) : (modSlot i f s).dispStore = s.dispStore := rfl
@[simp] theorem modSlot_keys (i) (f) (s : State) : (modSlot i f s).keys = s.keys := rfl
@[simp] theorem modSlot_pwr (i) (f) (s : State) : (modSlot i f s).pwr = s.pwr := rfl
@[simp] theorem modSlot_pd (i) (f) (s : State) : (modSlot i f s).pd = s.pd := rfl
@[simp] theorem modSlot_hif (i) (f) (s : State) : (modSlot i f s).hif = s.hif := rfl
@[simp] theorem modSlot_mbx (i) (f) (s : State) : (modSlot i f s).mbx = s.mbx := rfl
@[simp] theorem modSlot_tb (i) (f) (s : State) : (modSlot i f s).tb = s.tb := rfl
@[simp] theorem modSlot_wb (i) (f) (s : State) : (modSlot i f s).wb = s.wb := rfl
@[simp] theorem modSlot_ch (i) (f) (s : State) : (modSlot i f s).ch = s.ch := rfl
@[simp] theorem modSlot_isl (i) (f) (s : State) : (modSlot i f s).isl = s.isl := rfl
@[simp] theorem modSlot_weave (i) (f) (s : State) : (modSlot i f s).weave = s.weave := rfl
@[simp] theorem modSlot_met (i) (f) (s : State) : (modSlot i f s).met = s.met := rfl
@[simp] theorem modSlot_bill (i) (f) (s : State) : (modSlot i f s).bill = s.bill := rfl
@[simp] theorem modSlot_saf (i) (f) (s : State) : (modSlot i f s).saf = s.saf := rfl
@[simp] theorem modSlot_blocked (i) (f) (s : State) : (modSlot i f s).blocked = s.blocked := rfl
@[simp] theorem modSlot_bus (i) (f) (s : State) : (modSlot i f s).bus = s.bus := rfl
@[simp] theorem modSlot_disp (i) (f) (s : State) : (modSlot i f s).disp = s.disp := rfl
@[simp] theorem modSlot_pins (i) (f) (s : State) : (modSlot i f s).pins = s.pins := rfl
@[simp] theorem modSlot_key (i) (f) (s : State) : (modSlot i f s).key = s.key := rfl
@[simp] theorem modSlot_veh (i) (f) (s : State) : (modSlot i f s).veh = s.veh := rfl
@[simp] theorem modSlot_run (i) (f) (s : State) : (modSlot i f s).run = s.run := rfl
@[simp] theorem modSlot_net (i) (f) (s : State) : (modSlot i f s).net = s.net := rfl
@[simp] theorem modSlot_svc (i) (f) (s : State) : (modSlot i f s).svc = s.svc := rfl
@[simp] theorem modSlot_cfg (i) (f) (s : State) : (modSlot i f s).cfg = s.cfg := rfl
@[simp] theorem modSlot_slots (i) (f) (s : State) : (modSlot i f s).slots = vmod s.slots i f := rfl

/-! `modSolar` -/

@[simp] theorem modSolar_pending (o) (f) (s : State) : (modSolar o f s).pending = s.pending := rfl
@[simp] theorem modSolar_nd (o) (f) (s : State) : (modSolar o f s).nd = s.nd := rfl
@[simp] theorem modSolar_fab (o) (f) (s : State) : (modSolar o f s).fab = s.fab := rfl
@[simp] theorem modSolar_time (o) (f) (s : State) : (modSolar o f s).time = s.time := rfl
@[simp] theorem modSolar_wch (o) (f) (s : State) : (modSolar o f s).wch = s.wch := rfl
@[simp] theorem modSolar_legal (o) (f) (s : State) : (modSolar o f s).legal = s.legal := rfl
@[simp] theorem modSolar_safStore (o) (f) (s : State) : (modSolar o f s).safStore = s.safStore := rfl
@[simp] theorem modSolar_slots (o) (f) (s : State) : (modSolar o f s).slots = s.slots := rfl
@[simp] theorem modSolar_upd (o) (f) (s : State) : (modSolar o f s).upd = s.upd := rfl
@[simp] theorem modSolar_save (o) (f) (s : State) : (modSolar o f s).save = s.save := rfl
@[simp] theorem modSolar_app (o) (f) (s : State) : (modSolar o f s).app = s.app := rfl
@[simp] theorem modSolar_dispStore (o) (f) (s : State) : (modSolar o f s).dispStore = s.dispStore := rfl
@[simp] theorem modSolar_keys (o) (f) (s : State) : (modSolar o f s).keys = s.keys := rfl
@[simp] theorem modSolar_pwr (o) (f) (s : State) : (modSolar o f s).pwr = s.pwr := rfl
@[simp] theorem modSolar_pd (o) (f) (s : State) : (modSolar o f s).pd = s.pd := rfl
@[simp] theorem modSolar_hif (o) (f) (s : State) : (modSolar o f s).hif = s.hif := rfl
@[simp] theorem modSolar_mbx (o) (f) (s : State) : (modSolar o f s).mbx = s.mbx := rfl
@[simp] theorem modSolar_tb (o) (f) (s : State) : (modSolar o f s).tb = s.tb := rfl
@[simp] theorem modSolar_wb (o) (f) (s : State) : (modSolar o f s).wb = s.wb := rfl
@[simp] theorem modSolar_ch (o) (f) (s : State) : (modSolar o f s).ch = s.ch := rfl
@[simp] theorem modSolar_isl (o) (f) (s : State) : (modSolar o f s).isl = s.isl := rfl
@[simp] theorem modSolar_weave (o) (f) (s : State) : (modSolar o f s).weave = s.weave := rfl
@[simp] theorem modSolar_met (o) (f) (s : State) : (modSolar o f s).met = s.met := rfl
@[simp] theorem modSolar_bill (o) (f) (s : State) : (modSolar o f s).bill = s.bill := rfl
@[simp] theorem modSolar_saf (o) (f) (s : State) : (modSolar o f s).saf = s.saf := rfl
@[simp] theorem modSolar_blocked (o) (f) (s : State) : (modSolar o f s).blocked = s.blocked := rfl
@[simp] theorem modSolar_bus (o) (f) (s : State) : (modSolar o f s).bus = s.bus := rfl
@[simp] theorem modSolar_disp (o) (f) (s : State) : (modSolar o f s).disp = s.disp := rfl
@[simp] theorem modSolar_pins (o) (f) (s : State) : (modSolar o f s).pins = s.pins := rfl
@[simp] theorem modSolar_key (o) (f) (s : State) : (modSolar o f s).key = s.key := rfl
@[simp] theorem modSolar_veh (o) (f) (s : State) : (modSolar o f s).veh = s.veh := rfl
@[simp] theorem modSolar_run (o) (f) (s : State) : (modSolar o f s).run = s.run := rfl
@[simp] theorem modSolar_net (o) (f) (s : State) : (modSolar o f s).net = s.net := rfl
@[simp] theorem modSolar_cfg (o) (f) (s : State) : (modSolar o f s).cfg = s.cfg := rfl
@[simp] theorem modSolar_svc (o) (f) (s : State) : (modSolar o f s).svc = { s.svc with solar := s.svc.solar.modify o f } := rfl

/-! `modStr` -/

@[simp] theorem modStr_pending (j) (f) (s : State) : (modStr j f s).pending = s.pending := rfl
@[simp] theorem modStr_nd (j) (f) (s : State) : (modStr j f s).nd = s.nd := rfl
@[simp] theorem modStr_fab (j) (f) (s : State) : (modStr j f s).fab = s.fab := rfl
@[simp] theorem modStr_time (j) (f) (s : State) : (modStr j f s).time = s.time := rfl
@[simp] theorem modStr_wch (j) (f) (s : State) : (modStr j f s).wch = s.wch := rfl
@[simp] theorem modStr_legal (j) (f) (s : State) : (modStr j f s).legal = s.legal := rfl
@[simp] theorem modStr_safStore (j) (f) (s : State) : (modStr j f s).safStore = s.safStore := rfl
@[simp] theorem modStr_slots (j) (f) (s : State) : (modStr j f s).slots = s.slots := rfl
@[simp] theorem modStr_upd (j) (f) (s : State) : (modStr j f s).upd = s.upd := rfl
@[simp] theorem modStr_save (j) (f) (s : State) : (modStr j f s).save = s.save := rfl
@[simp] theorem modStr_app (j) (f) (s : State) : (modStr j f s).app = s.app := rfl
@[simp] theorem modStr_dispStore (j) (f) (s : State) : (modStr j f s).dispStore = s.dispStore := rfl
@[simp] theorem modStr_keys (j) (f) (s : State) : (modStr j f s).keys = s.keys := rfl
@[simp] theorem modStr_pwr (j) (f) (s : State) : (modStr j f s).pwr = s.pwr := rfl
@[simp] theorem modStr_pd (j) (f) (s : State) : (modStr j f s).pd = s.pd := rfl
@[simp] theorem modStr_hif (j) (f) (s : State) : (modStr j f s).hif = s.hif := rfl
@[simp] theorem modStr_mbx (j) (f) (s : State) : (modStr j f s).mbx = s.mbx := rfl
@[simp] theorem modStr_tb (j) (f) (s : State) : (modStr j f s).tb = s.tb := rfl
@[simp] theorem modStr_wb (j) (f) (s : State) : (modStr j f s).wb = s.wb := rfl
@[simp] theorem modStr_ch (j) (f) (s : State) : (modStr j f s).ch = s.ch := rfl
@[simp] theorem modStr_isl (j) (f) (s : State) : (modStr j f s).isl = s.isl := rfl
@[simp] theorem modStr_weave (j) (f) (s : State) : (modStr j f s).weave = s.weave := rfl
@[simp] theorem modStr_met (j) (f) (s : State) : (modStr j f s).met = s.met := rfl
@[simp] theorem modStr_bill (j) (f) (s : State) : (modStr j f s).bill = s.bill := rfl
@[simp] theorem modStr_saf (j) (f) (s : State) : (modStr j f s).saf = s.saf := rfl
@[simp] theorem modStr_blocked (j) (f) (s : State) : (modStr j f s).blocked = s.blocked := rfl
@[simp] theorem modStr_bus (j) (f) (s : State) : (modStr j f s).bus = s.bus := rfl
@[simp] theorem modStr_disp (j) (f) (s : State) : (modStr j f s).disp = s.disp := rfl
@[simp] theorem modStr_pins (j) (f) (s : State) : (modStr j f s).pins = s.pins := rfl
@[simp] theorem modStr_key (j) (f) (s : State) : (modStr j f s).key = s.key := rfl
@[simp] theorem modStr_veh (j) (f) (s : State) : (modStr j f s).veh = s.veh := rfl
@[simp] theorem modStr_run (j) (f) (s : State) : (modStr j f s).run = s.run := rfl
@[simp] theorem modStr_svc (j) (f) (s : State) : (modStr j f s).svc = s.svc := rfl
@[simp] theorem modStr_cfg (j) (f) (s : State) : (modStr j f s).cfg = s.cfg := rfl

/-! `modSun` -/

@[simp] theorem modSun_pending (k) (f) (s : State) : (modSun k f s).pending = s.pending := rfl
@[simp] theorem modSun_nd (k) (f) (s : State) : (modSun k f s).nd = s.nd := rfl
@[simp] theorem modSun_fab (k) (f) (s : State) : (modSun k f s).fab = s.fab := rfl
@[simp] theorem modSun_time (k) (f) (s : State) : (modSun k f s).time = s.time := rfl
@[simp] theorem modSun_wch (k) (f) (s : State) : (modSun k f s).wch = s.wch := rfl
@[simp] theorem modSun_legal (k) (f) (s : State) : (modSun k f s).legal = s.legal := rfl
@[simp] theorem modSun_safStore (k) (f) (s : State) : (modSun k f s).safStore = s.safStore := rfl
@[simp] theorem modSun_slots (k) (f) (s : State) : (modSun k f s).slots = s.slots := rfl
@[simp] theorem modSun_upd (k) (f) (s : State) : (modSun k f s).upd = s.upd := rfl
@[simp] theorem modSun_save (k) (f) (s : State) : (modSun k f s).save = s.save := rfl
@[simp] theorem modSun_app (k) (f) (s : State) : (modSun k f s).app = s.app := rfl
@[simp] theorem modSun_dispStore (k) (f) (s : State) : (modSun k f s).dispStore = s.dispStore := rfl
@[simp] theorem modSun_keys (k) (f) (s : State) : (modSun k f s).keys = s.keys := rfl
@[simp] theorem modSun_pwr (k) (f) (s : State) : (modSun k f s).pwr = s.pwr := rfl
@[simp] theorem modSun_pd (k) (f) (s : State) : (modSun k f s).pd = s.pd := rfl
@[simp] theorem modSun_hif (k) (f) (s : State) : (modSun k f s).hif = s.hif := rfl
@[simp] theorem modSun_mbx (k) (f) (s : State) : (modSun k f s).mbx = s.mbx := rfl
@[simp] theorem modSun_tb (k) (f) (s : State) : (modSun k f s).tb = s.tb := rfl
@[simp] theorem modSun_wb (k) (f) (s : State) : (modSun k f s).wb = s.wb := rfl
@[simp] theorem modSun_ch (k) (f) (s : State) : (modSun k f s).ch = s.ch := rfl
@[simp] theorem modSun_isl (k) (f) (s : State) : (modSun k f s).isl = s.isl := rfl
@[simp] theorem modSun_weave (k) (f) (s : State) : (modSun k f s).weave = s.weave := rfl
@[simp] theorem modSun_met (k) (f) (s : State) : (modSun k f s).met = s.met := rfl
@[simp] theorem modSun_bill (k) (f) (s : State) : (modSun k f s).bill = s.bill := rfl
@[simp] theorem modSun_saf (k) (f) (s : State) : (modSun k f s).saf = s.saf := rfl
@[simp] theorem modSun_blocked (k) (f) (s : State) : (modSun k f s).blocked = s.blocked := rfl
@[simp] theorem modSun_bus (k) (f) (s : State) : (modSun k f s).bus = s.bus := rfl
@[simp] theorem modSun_disp (k) (f) (s : State) : (modSun k f s).disp = s.disp := rfl
@[simp] theorem modSun_pins (k) (f) (s : State) : (modSun k f s).pins = s.pins := rfl
@[simp] theorem modSun_key (k) (f) (s : State) : (modSun k f s).key = s.key := rfl
@[simp] theorem modSun_veh (k) (f) (s : State) : (modSun k f s).veh = s.veh := rfl
@[simp] theorem modSun_run (k) (f) (s : State) : (modSun k f s).run = s.run := rfl
@[simp] theorem modSun_svc (k) (f) (s : State) : (modSun k f s).svc = s.svc := rfl
@[simp] theorem modSun_cfg (k) (f) (s : State) : (modSun k f s).cfg = s.cfg := rfl

/-! `modSvc` -/

@[simp] theorem modSvc_pending (f) (s : State) : (modSvc f s).pending = s.pending := rfl
@[simp] theorem modSvc_nd (f) (s : State) : (modSvc f s).nd = s.nd := rfl
@[simp] theorem modSvc_fab (f) (s : State) : (modSvc f s).fab = s.fab := rfl
@[simp] theorem modSvc_time (f) (s : State) : (modSvc f s).time = s.time := rfl
@[simp] theorem modSvc_wch (f) (s : State) : (modSvc f s).wch = s.wch := rfl
@[simp] theorem modSvc_legal (f) (s : State) : (modSvc f s).legal = s.legal := rfl
@[simp] theorem modSvc_safStore (f) (s : State) : (modSvc f s).safStore = s.safStore := rfl
@[simp] theorem modSvc_slots (f) (s : State) : (modSvc f s).slots = s.slots := rfl
@[simp] theorem modSvc_upd (f) (s : State) : (modSvc f s).upd = s.upd := rfl
@[simp] theorem modSvc_save (f) (s : State) : (modSvc f s).save = s.save := rfl
@[simp] theorem modSvc_app (f) (s : State) : (modSvc f s).app = s.app := rfl
@[simp] theorem modSvc_dispStore (f) (s : State) : (modSvc f s).dispStore = s.dispStore := rfl
@[simp] theorem modSvc_keys (f) (s : State) : (modSvc f s).keys = s.keys := rfl
@[simp] theorem modSvc_pwr (f) (s : State) : (modSvc f s).pwr = s.pwr := rfl
@[simp] theorem modSvc_pd (f) (s : State) : (modSvc f s).pd = s.pd := rfl
@[simp] theorem modSvc_hif (f) (s : State) : (modSvc f s).hif = s.hif := rfl
@[simp] theorem modSvc_mbx (f) (s : State) : (modSvc f s).mbx = s.mbx := rfl
@[simp] theorem modSvc_tb (f) (s : State) : (modSvc f s).tb = s.tb := rfl
@[simp] theorem modSvc_wb (f) (s : State) : (modSvc f s).wb = s.wb := rfl
@[simp] theorem modSvc_ch (f) (s : State) : (modSvc f s).ch = s.ch := rfl
@[simp] theorem modSvc_isl (f) (s : State) : (modSvc f s).isl = s.isl := rfl
@[simp] theorem modSvc_weave (f) (s : State) : (modSvc f s).weave = s.weave := rfl
@[simp] theorem modSvc_met (f) (s : State) : (modSvc f s).met = s.met := rfl
@[simp] theorem modSvc_bill (f) (s : State) : (modSvc f s).bill = s.bill := rfl
@[simp] theorem modSvc_saf (f) (s : State) : (modSvc f s).saf = s.saf := rfl
@[simp] theorem modSvc_blocked (f) (s : State) : (modSvc f s).blocked = s.blocked := rfl
@[simp] theorem modSvc_bus (f) (s : State) : (modSvc f s).bus = s.bus := rfl
@[simp] theorem modSvc_disp (f) (s : State) : (modSvc f s).disp = s.disp := rfl
@[simp] theorem modSvc_pins (f) (s : State) : (modSvc f s).pins = s.pins := rfl
@[simp] theorem modSvc_key (f) (s : State) : (modSvc f s).key = s.key := rfl
@[simp] theorem modSvc_veh (f) (s : State) : (modSvc f s).veh = s.veh := rfl
@[simp] theorem modSvc_run (f) (s : State) : (modSvc f s).run = s.run := rfl
@[simp] theorem modSvc_net (f) (s : State) : (modSvc f s).net = s.net := rfl
@[simp] theorem modSvc_cfg (f) (s : State) : (modSvc f s).cfg = s.cfg := rfl
@[simp] theorem modSvc_svc (f) (s : State) : (modSvc f s).svc = f s.svc := rfl

/-! `modTb` -/

@[simp] theorem modTb_pending (f) (s : State) : (modTb f s).pending = s.pending := rfl
@[simp] theorem modTb_nd (f) (s : State) : (modTb f s).nd = s.nd := rfl
@[simp] theorem modTb_fab (f) (s : State) : (modTb f s).fab = s.fab := rfl
@[simp] theorem modTb_time (f) (s : State) : (modTb f s).time = s.time := rfl
@[simp] theorem modTb_wch (f) (s : State) : (modTb f s).wch = s.wch := rfl
@[simp] theorem modTb_legal (f) (s : State) : (modTb f s).legal = s.legal := rfl
@[simp] theorem modTb_safStore (f) (s : State) : (modTb f s).safStore = s.safStore := rfl
@[simp] theorem modTb_slots (f) (s : State) : (modTb f s).slots = s.slots := rfl
@[simp] theorem modTb_upd (f) (s : State) : (modTb f s).upd = s.upd := rfl
@[simp] theorem modTb_save (f) (s : State) : (modTb f s).save = s.save := rfl
@[simp] theorem modTb_app (f) (s : State) : (modTb f s).app = s.app := rfl
@[simp] theorem modTb_dispStore (f) (s : State) : (modTb f s).dispStore = s.dispStore := rfl
@[simp] theorem modTb_keys (f) (s : State) : (modTb f s).keys = s.keys := rfl
@[simp] theorem modTb_pwr (f) (s : State) : (modTb f s).pwr = s.pwr := rfl
@[simp] theorem modTb_pd (f) (s : State) : (modTb f s).pd = s.pd := rfl
@[simp] theorem modTb_hif (f) (s : State) : (modTb f s).hif = s.hif := rfl
@[simp] theorem modTb_mbx (f) (s : State) : (modTb f s).mbx = s.mbx := rfl
@[simp] theorem modTb_wb (f) (s : State) : (modTb f s).wb = s.wb := rfl
@[simp] theorem modTb_ch (f) (s : State) : (modTb f s).ch = s.ch := rfl
@[simp] theorem modTb_isl (f) (s : State) : (modTb f s).isl = s.isl := rfl
@[simp] theorem modTb_weave (f) (s : State) : (modTb f s).weave = s.weave := rfl
@[simp] theorem modTb_met (f) (s : State) : (modTb f s).met = s.met := rfl
@[simp] theorem modTb_bill (f) (s : State) : (modTb f s).bill = s.bill := rfl
@[simp] theorem modTb_saf (f) (s : State) : (modTb f s).saf = s.saf := rfl
@[simp] theorem modTb_blocked (f) (s : State) : (modTb f s).blocked = s.blocked := rfl
@[simp] theorem modTb_bus (f) (s : State) : (modTb f s).bus = s.bus := rfl
@[simp] theorem modTb_disp (f) (s : State) : (modTb f s).disp = s.disp := rfl
@[simp] theorem modTb_pins (f) (s : State) : (modTb f s).pins = s.pins := rfl
@[simp] theorem modTb_key (f) (s : State) : (modTb f s).key = s.key := rfl
@[simp] theorem modTb_veh (f) (s : State) : (modTb f s).veh = s.veh := rfl
@[simp] theorem modTb_run (f) (s : State) : (modTb f s).run = s.run := rfl
@[simp] theorem modTb_net (f) (s : State) : (modTb f s).net = s.net := rfl
@[simp] theorem modTb_svc (f) (s : State) : (modTb f s).svc = s.svc := rfl
@[simp] theorem modTb_cfg (f) (s : State) : (modTb f s).cfg = s.cfg := rfl
@[simp] theorem modTb_tb (f) (s : State) : (modTb f s).tb = f s.tb := rfl

/-! `modTime` -/

@[simp] theorem modTime_pending (f) (s : State) : (modTime f s).pending = s.pending := rfl
@[simp] theorem modTime_nd (f) (s : State) : (modTime f s).nd = s.nd := rfl
@[simp] theorem modTime_fab (f) (s : State) : (modTime f s).fab = s.fab := rfl
@[simp] theorem modTime_wch (f) (s : State) : (modTime f s).wch = s.wch := rfl
@[simp] theorem modTime_legal (f) (s : State) : (modTime f s).legal = s.legal := rfl
@[simp] theorem modTime_safStore (f) (s : State) : (modTime f s).safStore = s.safStore := rfl
@[simp] theorem modTime_slots (f) (s : State) : (modTime f s).slots = s.slots := rfl
@[simp] theorem modTime_upd (f) (s : State) : (modTime f s).upd = s.upd := rfl
@[simp] theorem modTime_save (f) (s : State) : (modTime f s).save = s.save := rfl
@[simp] theorem modTime_app (f) (s : State) : (modTime f s).app = s.app := rfl
@[simp] theorem modTime_dispStore (f) (s : State) : (modTime f s).dispStore = s.dispStore := rfl
@[simp] theorem modTime_keys (f) (s : State) : (modTime f s).keys = s.keys := rfl
@[simp] theorem modTime_pwr (f) (s : State) : (modTime f s).pwr = s.pwr := rfl
@[simp] theorem modTime_pd (f) (s : State) : (modTime f s).pd = s.pd := rfl
@[simp] theorem modTime_hif (f) (s : State) : (modTime f s).hif = s.hif := rfl
@[simp] theorem modTime_mbx (f) (s : State) : (modTime f s).mbx = s.mbx := rfl
@[simp] theorem modTime_tb (f) (s : State) : (modTime f s).tb = s.tb := rfl
@[simp] theorem modTime_wb (f) (s : State) : (modTime f s).wb = s.wb := rfl
@[simp] theorem modTime_ch (f) (s : State) : (modTime f s).ch = s.ch := rfl
@[simp] theorem modTime_isl (f) (s : State) : (modTime f s).isl = s.isl := rfl
@[simp] theorem modTime_weave (f) (s : State) : (modTime f s).weave = s.weave := rfl
@[simp] theorem modTime_met (f) (s : State) : (modTime f s).met = s.met := rfl
@[simp] theorem modTime_bill (f) (s : State) : (modTime f s).bill = s.bill := rfl
@[simp] theorem modTime_saf (f) (s : State) : (modTime f s).saf = s.saf := rfl
@[simp] theorem modTime_blocked (f) (s : State) : (modTime f s).blocked = s.blocked := rfl
@[simp] theorem modTime_bus (f) (s : State) : (modTime f s).bus = s.bus := rfl
@[simp] theorem modTime_disp (f) (s : State) : (modTime f s).disp = s.disp := rfl
@[simp] theorem modTime_pins (f) (s : State) : (modTime f s).pins = s.pins := rfl
@[simp] theorem modTime_key (f) (s : State) : (modTime f s).key = s.key := rfl
@[simp] theorem modTime_veh (f) (s : State) : (modTime f s).veh = s.veh := rfl
@[simp] theorem modTime_run (f) (s : State) : (modTime f s).run = s.run := rfl
@[simp] theorem modTime_net (f) (s : State) : (modTime f s).net = s.net := rfl
@[simp] theorem modTime_svc (f) (s : State) : (modTime f s).svc = s.svc := rfl
@[simp] theorem modTime_cfg (f) (s : State) : (modTime f s).cfg = s.cfg := rfl
@[simp] theorem modTime_time (f) (s : State) : (modTime f s).time = f s.time := rfl

/-! `modTrip` -/

@[simp] theorem modTrip_pending (d) (f) (s : State) : (modTrip d f s).pending = s.pending := rfl
@[simp] theorem modTrip_nd (d) (f) (s : State) : (modTrip d f s).nd = s.nd := rfl
@[simp] theorem modTrip_fab (d) (f) (s : State) : (modTrip d f s).fab = s.fab := rfl
@[simp] theorem modTrip_time (d) (f) (s : State) : (modTrip d f s).time = s.time := rfl
@[simp] theorem modTrip_wch (d) (f) (s : State) : (modTrip d f s).wch = s.wch := rfl
@[simp] theorem modTrip_legal (d) (f) (s : State) : (modTrip d f s).legal = s.legal := rfl
@[simp] theorem modTrip_slots (d) (f) (s : State) : (modTrip d f s).slots = s.slots := rfl
@[simp] theorem modTrip_upd (d) (f) (s : State) : (modTrip d f s).upd = s.upd := rfl
@[simp] theorem modTrip_save (d) (f) (s : State) : (modTrip d f s).save = s.save := rfl
@[simp] theorem modTrip_app (d) (f) (s : State) : (modTrip d f s).app = s.app := rfl
@[simp] theorem modTrip_dispStore (d) (f) (s : State) : (modTrip d f s).dispStore = s.dispStore := rfl
@[simp] theorem modTrip_keys (d) (f) (s : State) : (modTrip d f s).keys = s.keys := rfl
@[simp] theorem modTrip_pwr (d) (f) (s : State) : (modTrip d f s).pwr = s.pwr := rfl
@[simp] theorem modTrip_pd (d) (f) (s : State) : (modTrip d f s).pd = s.pd := rfl
@[simp] theorem modTrip_hif (d) (f) (s : State) : (modTrip d f s).hif = s.hif := rfl
@[simp] theorem modTrip_mbx (d) (f) (s : State) : (modTrip d f s).mbx = s.mbx := rfl
@[simp] theorem modTrip_tb (d) (f) (s : State) : (modTrip d f s).tb = s.tb := rfl
@[simp] theorem modTrip_wb (d) (f) (s : State) : (modTrip d f s).wb = s.wb := rfl
@[simp] theorem modTrip_ch (d) (f) (s : State) : (modTrip d f s).ch = s.ch := rfl
@[simp] theorem modTrip_isl (d) (f) (s : State) : (modTrip d f s).isl = s.isl := rfl
@[simp] theorem modTrip_weave (d) (f) (s : State) : (modTrip d f s).weave = s.weave := rfl
@[simp] theorem modTrip_met (d) (f) (s : State) : (modTrip d f s).met = s.met := rfl
@[simp] theorem modTrip_bill (d) (f) (s : State) : (modTrip d f s).bill = s.bill := rfl
@[simp] theorem modTrip_saf (d) (f) (s : State) : (modTrip d f s).saf = s.saf := rfl
@[simp] theorem modTrip_blocked (d) (f) (s : State) : (modTrip d f s).blocked = s.blocked := rfl
@[simp] theorem modTrip_bus (d) (f) (s : State) : (modTrip d f s).bus = s.bus := rfl
@[simp] theorem modTrip_disp (d) (f) (s : State) : (modTrip d f s).disp = s.disp := rfl
@[simp] theorem modTrip_pins (d) (f) (s : State) : (modTrip d f s).pins = s.pins := rfl
@[simp] theorem modTrip_key (d) (f) (s : State) : (modTrip d f s).key = s.key := rfl
@[simp] theorem modTrip_veh (d) (f) (s : State) : (modTrip d f s).veh = s.veh := rfl
@[simp] theorem modTrip_run (d) (f) (s : State) : (modTrip d f s).run = s.run := rfl
@[simp] theorem modTrip_net (d) (f) (s : State) : (modTrip d f s).net = s.net := rfl
@[simp] theorem modTrip_svc (d) (f) (s : State) : (modTrip d f s).svc = s.svc := rfl
@[simp] theorem modTrip_cfg (d) (f) (s : State) : (modTrip d f s).cfg = s.cfg := rfl
@[simp] theorem modTrip_safStore (d) (f) (s : State) : (modTrip d f s).safStore = { s.safStore with trips := vmod s.safStore.trips d f } := rfl

/-! `modUpd` -/

@[simp] theorem modUpd_pending (f) (s : State) : (modUpd f s).pending = s.pending := rfl
@[simp] theorem modUpd_nd (f) (s : State) : (modUpd f s).nd = s.nd := rfl
@[simp] theorem modUpd_fab (f) (s : State) : (modUpd f s).fab = s.fab := rfl
@[simp] theorem modUpd_time (f) (s : State) : (modUpd f s).time = s.time := rfl
@[simp] theorem modUpd_wch (f) (s : State) : (modUpd f s).wch = s.wch := rfl
@[simp] theorem modUpd_legal (f) (s : State) : (modUpd f s).legal = s.legal := rfl
@[simp] theorem modUpd_safStore (f) (s : State) : (modUpd f s).safStore = s.safStore := rfl
@[simp] theorem modUpd_slots (f) (s : State) : (modUpd f s).slots = s.slots := rfl
@[simp] theorem modUpd_save (f) (s : State) : (modUpd f s).save = s.save := rfl
@[simp] theorem modUpd_app (f) (s : State) : (modUpd f s).app = s.app := rfl
@[simp] theorem modUpd_dispStore (f) (s : State) : (modUpd f s).dispStore = s.dispStore := rfl
@[simp] theorem modUpd_keys (f) (s : State) : (modUpd f s).keys = s.keys := rfl
@[simp] theorem modUpd_pwr (f) (s : State) : (modUpd f s).pwr = s.pwr := rfl
@[simp] theorem modUpd_pd (f) (s : State) : (modUpd f s).pd = s.pd := rfl
@[simp] theorem modUpd_hif (f) (s : State) : (modUpd f s).hif = s.hif := rfl
@[simp] theorem modUpd_mbx (f) (s : State) : (modUpd f s).mbx = s.mbx := rfl
@[simp] theorem modUpd_tb (f) (s : State) : (modUpd f s).tb = s.tb := rfl
@[simp] theorem modUpd_wb (f) (s : State) : (modUpd f s).wb = s.wb := rfl
@[simp] theorem modUpd_ch (f) (s : State) : (modUpd f s).ch = s.ch := rfl
@[simp] theorem modUpd_isl (f) (s : State) : (modUpd f s).isl = s.isl := rfl
@[simp] theorem modUpd_weave (f) (s : State) : (modUpd f s).weave = s.weave := rfl
@[simp] theorem modUpd_met (f) (s : State) : (modUpd f s).met = s.met := rfl
@[simp] theorem modUpd_bill (f) (s : State) : (modUpd f s).bill = s.bill := rfl
@[simp] theorem modUpd_saf (f) (s : State) : (modUpd f s).saf = s.saf := rfl
@[simp] theorem modUpd_blocked (f) (s : State) : (modUpd f s).blocked = s.blocked := rfl
@[simp] theorem modUpd_bus (f) (s : State) : (modUpd f s).bus = s.bus := rfl
@[simp] theorem modUpd_disp (f) (s : State) : (modUpd f s).disp = s.disp := rfl
@[simp] theorem modUpd_pins (f) (s : State) : (modUpd f s).pins = s.pins := rfl
@[simp] theorem modUpd_key (f) (s : State) : (modUpd f s).key = s.key := rfl
@[simp] theorem modUpd_veh (f) (s : State) : (modUpd f s).veh = s.veh := rfl
@[simp] theorem modUpd_run (f) (s : State) : (modUpd f s).run = s.run := rfl
@[simp] theorem modUpd_net (f) (s : State) : (modUpd f s).net = s.net := rfl
@[simp] theorem modUpd_svc (f) (s : State) : (modUpd f s).svc = s.svc := rfl
@[simp] theorem modUpd_cfg (f) (s : State) : (modUpd f s).cfg = s.cfg := rfl
@[simp] theorem modUpd_upd (f) (s : State) : (modUpd f s).upd = f s.upd := rfl

/-! `modWb` -/

@[simp] theorem modWb_pending (f) (s : State) : (modWb f s).pending = s.pending := rfl
@[simp] theorem modWb_nd (f) (s : State) : (modWb f s).nd = s.nd := rfl
@[simp] theorem modWb_fab (f) (s : State) : (modWb f s).fab = s.fab := rfl
@[simp] theorem modWb_time (f) (s : State) : (modWb f s).time = s.time := rfl
@[simp] theorem modWb_wch (f) (s : State) : (modWb f s).wch = s.wch := rfl
@[simp] theorem modWb_legal (f) (s : State) : (modWb f s).legal = s.legal := rfl
@[simp] theorem modWb_safStore (f) (s : State) : (modWb f s).safStore = s.safStore := rfl
@[simp] theorem modWb_slots (f) (s : State) : (modWb f s).slots = s.slots := rfl
@[simp] theorem modWb_upd (f) (s : State) : (modWb f s).upd = s.upd := rfl
@[simp] theorem modWb_save (f) (s : State) : (modWb f s).save = s.save := rfl
@[simp] theorem modWb_app (f) (s : State) : (modWb f s).app = s.app := rfl
@[simp] theorem modWb_dispStore (f) (s : State) : (modWb f s).dispStore = s.dispStore := rfl
@[simp] theorem modWb_keys (f) (s : State) : (modWb f s).keys = s.keys := rfl
@[simp] theorem modWb_pwr (f) (s : State) : (modWb f s).pwr = s.pwr := rfl
@[simp] theorem modWb_pd (f) (s : State) : (modWb f s).pd = s.pd := rfl
@[simp] theorem modWb_hif (f) (s : State) : (modWb f s).hif = s.hif := rfl
@[simp] theorem modWb_mbx (f) (s : State) : (modWb f s).mbx = s.mbx := rfl
@[simp] theorem modWb_tb (f) (s : State) : (modWb f s).tb = s.tb := rfl
@[simp] theorem modWb_ch (f) (s : State) : (modWb f s).ch = s.ch := rfl
@[simp] theorem modWb_isl (f) (s : State) : (modWb f s).isl = s.isl := rfl
@[simp] theorem modWb_weave (f) (s : State) : (modWb f s).weave = s.weave := rfl
@[simp] theorem modWb_met (f) (s : State) : (modWb f s).met = s.met := rfl
@[simp] theorem modWb_bill (f) (s : State) : (modWb f s).bill = s.bill := rfl
@[simp] theorem modWb_saf (f) (s : State) : (modWb f s).saf = s.saf := rfl
@[simp] theorem modWb_blocked (f) (s : State) : (modWb f s).blocked = s.blocked := rfl
@[simp] theorem modWb_bus (f) (s : State) : (modWb f s).bus = s.bus := rfl
@[simp] theorem modWb_disp (f) (s : State) : (modWb f s).disp = s.disp := rfl
@[simp] theorem modWb_pins (f) (s : State) : (modWb f s).pins = s.pins := rfl
@[simp] theorem modWb_key (f) (s : State) : (modWb f s).key = s.key := rfl
@[simp] theorem modWb_veh (f) (s : State) : (modWb f s).veh = s.veh := rfl
@[simp] theorem modWb_run (f) (s : State) : (modWb f s).run = s.run := rfl
@[simp] theorem modWb_net (f) (s : State) : (modWb f s).net = s.net := rfl
@[simp] theorem modWb_svc (f) (s : State) : (modWb f s).svc = s.svc := rfl
@[simp] theorem modWb_cfg (f) (s : State) : (modWb f s).cfg = s.cfg := rfl
@[simp] theorem modWb_wb (f) (s : State) : (modWb f s).wb = f s.wb := rfl

/-! `modWch` -/

@[simp] theorem modWch_pending (f) (s : State) : (modWch f s).pending = s.pending := rfl
@[simp] theorem modWch_nd (f) (s : State) : (modWch f s).nd = s.nd := rfl
@[simp] theorem modWch_fab (f) (s : State) : (modWch f s).fab = s.fab := rfl
@[simp] theorem modWch_time (f) (s : State) : (modWch f s).time = s.time := rfl
@[simp] theorem modWch_legal (f) (s : State) : (modWch f s).legal = s.legal := rfl
@[simp] theorem modWch_safStore (f) (s : State) : (modWch f s).safStore = s.safStore := rfl
@[simp] theorem modWch_slots (f) (s : State) : (modWch f s).slots = s.slots := rfl
@[simp] theorem modWch_upd (f) (s : State) : (modWch f s).upd = s.upd := rfl
@[simp] theorem modWch_save (f) (s : State) : (modWch f s).save = s.save := rfl
@[simp] theorem modWch_app (f) (s : State) : (modWch f s).app = s.app := rfl
@[simp] theorem modWch_dispStore (f) (s : State) : (modWch f s).dispStore = s.dispStore := rfl
@[simp] theorem modWch_keys (f) (s : State) : (modWch f s).keys = s.keys := rfl
@[simp] theorem modWch_pwr (f) (s : State) : (modWch f s).pwr = s.pwr := rfl
@[simp] theorem modWch_pd (f) (s : State) : (modWch f s).pd = s.pd := rfl
@[simp] theorem modWch_hif (f) (s : State) : (modWch f s).hif = s.hif := rfl
@[simp] theorem modWch_mbx (f) (s : State) : (modWch f s).mbx = s.mbx := rfl
@[simp] theorem modWch_tb (f) (s : State) : (modWch f s).tb = s.tb := rfl
@[simp] theorem modWch_wb (f) (s : State) : (modWch f s).wb = s.wb := rfl
@[simp] theorem modWch_ch (f) (s : State) : (modWch f s).ch = s.ch := rfl
@[simp] theorem modWch_isl (f) (s : State) : (modWch f s).isl = s.isl := rfl
@[simp] theorem modWch_weave (f) (s : State) : (modWch f s).weave = s.weave := rfl
@[simp] theorem modWch_met (f) (s : State) : (modWch f s).met = s.met := rfl
@[simp] theorem modWch_bill (f) (s : State) : (modWch f s).bill = s.bill := rfl
@[simp] theorem modWch_saf (f) (s : State) : (modWch f s).saf = s.saf := rfl
@[simp] theorem modWch_blocked (f) (s : State) : (modWch f s).blocked = s.blocked := rfl
@[simp] theorem modWch_bus (f) (s : State) : (modWch f s).bus = s.bus := rfl
@[simp] theorem modWch_disp (f) (s : State) : (modWch f s).disp = s.disp := rfl
@[simp] theorem modWch_pins (f) (s : State) : (modWch f s).pins = s.pins := rfl
@[simp] theorem modWch_key (f) (s : State) : (modWch f s).key = s.key := rfl
@[simp] theorem modWch_veh (f) (s : State) : (modWch f s).veh = s.veh := rfl
@[simp] theorem modWch_run (f) (s : State) : (modWch f s).run = s.run := rfl
@[simp] theorem modWch_net (f) (s : State) : (modWch f s).net = s.net := rfl
@[simp] theorem modWch_svc (f) (s : State) : (modWch f s).svc = s.svc := rfl
@[simp] theorem modWch_cfg (f) (s : State) : (modWch f s).cfg = s.cfg := rfl
@[simp] theorem modWch_wch (f) (s : State) : (modWch f s).wch = f s.wch := rfl

/-! `modWear` -/

@[simp] theorem modWear_pending (f) (s : State) : (modWear f s).pending = s.pending := rfl
@[simp] theorem modWear_nd (f) (s : State) : (modWear f s).nd = s.nd := rfl
@[simp] theorem modWear_fab (f) (s : State) : (modWear f s).fab = s.fab := rfl
@[simp] theorem modWear_time (f) (s : State) : (modWear f s).time = s.time := rfl
@[simp] theorem modWear_wch (f) (s : State) : (modWear f s).wch = s.wch := rfl
@[simp] theorem modWear_legal (f) (s : State) : (modWear f s).legal = s.legal := rfl
@[simp] theorem modWear_slots (f) (s : State) : (modWear f s).slots = s.slots := rfl
@[simp] theorem modWear_upd (f) (s : State) : (modWear f s).upd = s.upd := rfl
@[simp] theorem modWear_save (f) (s : State) : (modWear f s).save = s.save := rfl
@[simp] theorem modWear_app (f) (s : State) : (modWear f s).app = s.app := rfl
@[simp] theorem modWear_dispStore (f) (s : State) : (modWear f s).dispStore = s.dispStore := rfl
@[simp] theorem modWear_keys (f) (s : State) : (modWear f s).keys = s.keys := rfl
@[simp] theorem modWear_pwr (f) (s : State) : (modWear f s).pwr = s.pwr := rfl
@[simp] theorem modWear_pd (f) (s : State) : (modWear f s).pd = s.pd := rfl
@[simp] theorem modWear_hif (f) (s : State) : (modWear f s).hif = s.hif := rfl
@[simp] theorem modWear_mbx (f) (s : State) : (modWear f s).mbx = s.mbx := rfl
@[simp] theorem modWear_tb (f) (s : State) : (modWear f s).tb = s.tb := rfl
@[simp] theorem modWear_wb (f) (s : State) : (modWear f s).wb = s.wb := rfl
@[simp] theorem modWear_ch (f) (s : State) : (modWear f s).ch = s.ch := rfl
@[simp] theorem modWear_isl (f) (s : State) : (modWear f s).isl = s.isl := rfl
@[simp] theorem modWear_weave (f) (s : State) : (modWear f s).weave = s.weave := rfl
@[simp] theorem modWear_met (f) (s : State) : (modWear f s).met = s.met := rfl
@[simp] theorem modWear_bill (f) (s : State) : (modWear f s).bill = s.bill := rfl
@[simp] theorem modWear_saf (f) (s : State) : (modWear f s).saf = s.saf := rfl
@[simp] theorem modWear_blocked (f) (s : State) : (modWear f s).blocked = s.blocked := rfl
@[simp] theorem modWear_bus (f) (s : State) : (modWear f s).bus = s.bus := rfl
@[simp] theorem modWear_disp (f) (s : State) : (modWear f s).disp = s.disp := rfl
@[simp] theorem modWear_pins (f) (s : State) : (modWear f s).pins = s.pins := rfl
@[simp] theorem modWear_key (f) (s : State) : (modWear f s).key = s.key := rfl
@[simp] theorem modWear_veh (f) (s : State) : (modWear f s).veh = s.veh := rfl
@[simp] theorem modWear_run (f) (s : State) : (modWear f s).run = s.run := rfl
@[simp] theorem modWear_net (f) (s : State) : (modWear f s).net = s.net := rfl
@[simp] theorem modWear_svc (f) (s : State) : (modWear f s).svc = s.svc := rfl
@[simp] theorem modWear_cfg (f) (s : State) : (modWear f s).cfg = s.cfg := rfl
@[simp] theorem modWear_safStore (f) (s : State) : (modWear f s).safStore = { s.safStore with wear := f s.safStore.wear } := rfl

/-! `modWeave` -/

@[simp] theorem modWeave_pending (f) (s : State) : (modWeave f s).pending = s.pending := rfl
@[simp] theorem modWeave_nd (f) (s : State) : (modWeave f s).nd = s.nd := rfl
@[simp] theorem modWeave_fab (f) (s : State) : (modWeave f s).fab = s.fab := rfl
@[simp] theorem modWeave_time (f) (s : State) : (modWeave f s).time = s.time := rfl
@[simp] theorem modWeave_wch (f) (s : State) : (modWeave f s).wch = s.wch := rfl
@[simp] theorem modWeave_legal (f) (s : State) : (modWeave f s).legal = s.legal := rfl
@[simp] theorem modWeave_safStore (f) (s : State) : (modWeave f s).safStore = s.safStore := rfl
@[simp] theorem modWeave_slots (f) (s : State) : (modWeave f s).slots = s.slots := rfl
@[simp] theorem modWeave_upd (f) (s : State) : (modWeave f s).upd = s.upd := rfl
@[simp] theorem modWeave_save (f) (s : State) : (modWeave f s).save = s.save := rfl
@[simp] theorem modWeave_app (f) (s : State) : (modWeave f s).app = s.app := rfl
@[simp] theorem modWeave_dispStore (f) (s : State) : (modWeave f s).dispStore = s.dispStore := rfl
@[simp] theorem modWeave_keys (f) (s : State) : (modWeave f s).keys = s.keys := rfl
@[simp] theorem modWeave_pwr (f) (s : State) : (modWeave f s).pwr = s.pwr := rfl
@[simp] theorem modWeave_pd (f) (s : State) : (modWeave f s).pd = s.pd := rfl
@[simp] theorem modWeave_hif (f) (s : State) : (modWeave f s).hif = s.hif := rfl
@[simp] theorem modWeave_mbx (f) (s : State) : (modWeave f s).mbx = s.mbx := rfl
@[simp] theorem modWeave_tb (f) (s : State) : (modWeave f s).tb = s.tb := rfl
@[simp] theorem modWeave_wb (f) (s : State) : (modWeave f s).wb = s.wb := rfl
@[simp] theorem modWeave_ch (f) (s : State) : (modWeave f s).ch = s.ch := rfl
@[simp] theorem modWeave_isl (f) (s : State) : (modWeave f s).isl = s.isl := rfl
@[simp] theorem modWeave_met (f) (s : State) : (modWeave f s).met = s.met := rfl
@[simp] theorem modWeave_bill (f) (s : State) : (modWeave f s).bill = s.bill := rfl
@[simp] theorem modWeave_saf (f) (s : State) : (modWeave f s).saf = s.saf := rfl
@[simp] theorem modWeave_blocked (f) (s : State) : (modWeave f s).blocked = s.blocked := rfl
@[simp] theorem modWeave_bus (f) (s : State) : (modWeave f s).bus = s.bus := rfl
@[simp] theorem modWeave_disp (f) (s : State) : (modWeave f s).disp = s.disp := rfl
@[simp] theorem modWeave_pins (f) (s : State) : (modWeave f s).pins = s.pins := rfl
@[simp] theorem modWeave_key (f) (s : State) : (modWeave f s).key = s.key := rfl
@[simp] theorem modWeave_veh (f) (s : State) : (modWeave f s).veh = s.veh := rfl
@[simp] theorem modWeave_run (f) (s : State) : (modWeave f s).run = s.run := rfl
@[simp] theorem modWeave_net (f) (s : State) : (modWeave f s).net = s.net := rfl
@[simp] theorem modWeave_svc (f) (s : State) : (modWeave f s).svc = s.svc := rfl
@[simp] theorem modWeave_cfg (f) (s : State) : (modWeave f s).cfg = s.cfg := rfl
@[simp] theorem modWeave_weave (f) (s : State) : (modWeave f s).weave = f s.weave := rfl

/-! `modTimer` -/

@[simp] theorem modTimer_pending (n) (f) (s : State) : (modTimer n f s).pending = s.pending := rfl
@[simp] theorem modTimer_nd (n) (f) (s : State) : (modTimer n f s).nd = s.nd := rfl
@[simp] theorem modTimer_fab (n) (f) (s : State) : (modTimer n f s).fab = s.fab := rfl
@[simp] theorem modTimer_time (n) (f) (s : State) : (modTimer n f s).time = s.time := rfl
@[simp] theorem modTimer_wch (n) (f) (s : State) : (modTimer n f s).wch = s.wch := rfl
@[simp] theorem modTimer_legal (n) (f) (s : State) : (modTimer n f s).legal = s.legal := rfl
@[simp] theorem modTimer_safStore (n) (f) (s : State) : (modTimer n f s).safStore = s.safStore := rfl
@[simp] theorem modTimer_slots (n) (f) (s : State) : (modTimer n f s).slots = s.slots := rfl
@[simp] theorem modTimer_upd (n) (f) (s : State) : (modTimer n f s).upd = s.upd := rfl
@[simp] theorem modTimer_save (n) (f) (s : State) : (modTimer n f s).save = s.save := rfl
@[simp] theorem modTimer_app (n) (f) (s : State) : (modTimer n f s).app = s.app := rfl
@[simp] theorem modTimer_dispStore (n) (f) (s : State) : (modTimer n f s).dispStore = s.dispStore := rfl
@[simp] theorem modTimer_keys (n) (f) (s : State) : (modTimer n f s).keys = s.keys := rfl
@[simp] theorem modTimer_pwr (n) (f) (s : State) : (modTimer n f s).pwr = s.pwr := rfl
@[simp] theorem modTimer_pd (n) (f) (s : State) : (modTimer n f s).pd = s.pd := rfl
@[simp] theorem modTimer_mbx (n) (f) (s : State) : (modTimer n f s).mbx = s.mbx := rfl
@[simp] theorem modTimer_wb (n) (f) (s : State) : (modTimer n f s).wb = s.wb := rfl
@[simp] theorem modTimer_ch (n) (f) (s : State) : (modTimer n f s).ch = s.ch := rfl
@[simp] theorem modTimer_isl (n) (f) (s : State) : (modTimer n f s).isl = s.isl := rfl
@[simp] theorem modTimer_weave (n) (f) (s : State) : (modTimer n f s).weave = s.weave := rfl
@[simp] theorem modTimer_met (n) (f) (s : State) : (modTimer n f s).met = s.met := rfl
@[simp] theorem modTimer_bill (n) (f) (s : State) : (modTimer n f s).bill = s.bill := rfl
@[simp] theorem modTimer_saf (n) (f) (s : State) : (modTimer n f s).saf = s.saf := rfl
@[simp] theorem modTimer_blocked (n) (f) (s : State) : (modTimer n f s).blocked = s.blocked := rfl
@[simp] theorem modTimer_bus (n) (f) (s : State) : (modTimer n f s).bus = s.bus := rfl
@[simp] theorem modTimer_disp (n) (f) (s : State) : (modTimer n f s).disp = s.disp := rfl
@[simp] theorem modTimer_pins (n) (f) (s : State) : (modTimer n f s).pins = s.pins := rfl
@[simp] theorem modTimer_key (n) (f) (s : State) : (modTimer n f s).key = s.key := rfl
@[simp] theorem modTimer_veh (n) (f) (s : State) : (modTimer n f s).veh = s.veh := rfl
@[simp] theorem modTimer_run (n) (f) (s : State) : (modTimer n f s).run = s.run := rfl
@[simp] theorem modTimer_net (n) (f) (s : State) : (modTimer n f s).net = s.net := rfl
@[simp] theorem modTimer_svc (n) (f) (s : State) : (modTimer n f s).svc = s.svc := rfl
@[simp] theorem modTimer_cfg (n) (f) (s : State) : (modTimer n f s).cfg = s.cfg := rfl
@[simp] theorem modTimer_hif (n) (f) (s : State) : (modTimer n f s).hif = s.hif := rfl
@[simp] theorem modTimer_timers (n) (f) (s : State) : (modTimer n f s).tb.timers = vmod s.tb.timers n f := rfl

/-! `modSlotChain` -/

@[simp] theorem modSlotChain_pending (j) (f) (s : State) : (modSlotChain j f s).pending = s.pending := rfl
@[simp] theorem modSlotChain_nd (j) (f) (s : State) : (modSlotChain j f s).nd = s.nd := rfl
@[simp] theorem modSlotChain_fab (j) (f) (s : State) : (modSlotChain j f s).fab = s.fab := rfl
@[simp] theorem modSlotChain_time (j) (f) (s : State) : (modSlotChain j f s).time = s.time := rfl
@[simp] theorem modSlotChain_wch (j) (f) (s : State) : (modSlotChain j f s).wch = s.wch := rfl
@[simp] theorem modSlotChain_legal (j) (f) (s : State) : (modSlotChain j f s).legal = s.legal := rfl
@[simp] theorem modSlotChain_safStore (j) (f) (s : State) : (modSlotChain j f s).safStore = s.safStore := rfl
@[simp] theorem modSlotChain_slots (j) (f) (s : State) : (modSlotChain j f s).slots = s.slots := rfl
@[simp] theorem modSlotChain_upd (j) (f) (s : State) : (modSlotChain j f s).upd = s.upd := rfl
@[simp] theorem modSlotChain_save (j) (f) (s : State) : (modSlotChain j f s).save = s.save := rfl
@[simp] theorem modSlotChain_app (j) (f) (s : State) : (modSlotChain j f s).app = s.app := rfl
@[simp] theorem modSlotChain_dispStore (j) (f) (s : State) : (modSlotChain j f s).dispStore = s.dispStore := rfl
@[simp] theorem modSlotChain_keys (j) (f) (s : State) : (modSlotChain j f s).keys = s.keys := rfl
@[simp] theorem modSlotChain_pwr (j) (f) (s : State) : (modSlotChain j f s).pwr = s.pwr := rfl
@[simp] theorem modSlotChain_pd (j) (f) (s : State) : (modSlotChain j f s).pd = s.pd := rfl
@[simp] theorem modSlotChain_mbx (j) (f) (s : State) : (modSlotChain j f s).mbx = s.mbx := rfl
@[simp] theorem modSlotChain_tb (j) (f) (s : State) : (modSlotChain j f s).tb = s.tb := rfl
@[simp] theorem modSlotChain_wb (j) (f) (s : State) : (modSlotChain j f s).wb = s.wb := rfl
@[simp] theorem modSlotChain_ch (j) (f) (s : State) : (modSlotChain j f s).ch = s.ch := rfl
@[simp] theorem modSlotChain_isl (j) (f) (s : State) : (modSlotChain j f s).isl = s.isl := rfl
@[simp] theorem modSlotChain_met (j) (f) (s : State) : (modSlotChain j f s).met = s.met := rfl
@[simp] theorem modSlotChain_bill (j) (f) (s : State) : (modSlotChain j f s).bill = s.bill := rfl
@[simp] theorem modSlotChain_saf (j) (f) (s : State) : (modSlotChain j f s).saf = s.saf := rfl
@[simp] theorem modSlotChain_blocked (j) (f) (s : State) : (modSlotChain j f s).blocked = s.blocked := rfl
@[simp] theorem modSlotChain_bus (j) (f) (s : State) : (modSlotChain j f s).bus = s.bus := rfl
@[simp] theorem modSlotChain_disp (j) (f) (s : State) : (modSlotChain j f s).disp = s.disp := rfl
@[simp] theorem modSlotChain_pins (j) (f) (s : State) : (modSlotChain j f s).pins = s.pins := rfl
@[simp] theorem modSlotChain_key (j) (f) (s : State) : (modSlotChain j f s).key = s.key := rfl
@[simp] theorem modSlotChain_veh (j) (f) (s : State) : (modSlotChain j f s).veh = s.veh := rfl
@[simp] theorem modSlotChain_run (j) (f) (s : State) : (modSlotChain j f s).run = s.run := rfl
@[simp] theorem modSlotChain_net (j) (f) (s : State) : (modSlotChain j f s).net = s.net := rfl
@[simp] theorem modSlotChain_svc (j) (f) (s : State) : (modSlotChain j f s).svc = s.svc := rfl
@[simp] theorem modSlotChain_cfg (j) (f) (s : State) : (modSlotChain j f s).cfg = s.cfg := rfl
@[simp] theorem modSlotChain_hif (j) (f) (s : State) : (modSlotChain j f s).hif = s.hif := rfl
@[simp] theorem modSlotChain_weave_slots (j) (f) (s : State) : (modSlotChain j f s).weave.slots = vmod s.weave.slots j f := rfl

/-! Conditions and repetitions -/

@[simp] theorem ifDo_true (f : State → State) (s : State) : ifDo true f s = f s := rfl
@[simp] theorem ifDo_false (f : State → State) (s : State) : ifDo false f s = s := rfl
@[simp] theorem forEach_nil {α : Type} (f : α → State → State) (s : State) : forEach [] f s = s := rfl
@[simp] theorem forEach_cons {α : Type} (a : α) (l : List α) (f : α → State → State) (s : State) :
    forEach (a :: l) f s = forEach l f (f a s) := rfl

/-- A well-shaped command is carried out; any other stops. -/
@[simp] theorem when_true (t : State) : when_ true t = .next t := rfl
@[simp] theorem when_false (t : State) : when_ false t = .fault .illFormed := rfl

/-- The two copies of a pair after one of them changed. -/
@[simp] theorem two_modify_get {α : Type} (v : Two α) (o : Outlet) (f : α → α) : (v.modify o f).get o = f (v.get o) := by
  cases o <;> rfl
theorem two_modify_get_ne {α : Type} (v : Two α) {o p : Outlet} (f : α → α) (h : p ≠ o) : (v.modify o f).get p = v.get p := by
  cases o <;> cases p <;> first | rfl | exact absurd rfl h

/-- The elements of a vector after one of them changed. -/
theorem vmod_get {α : Type} {n : Nat} (v : Vector α n) (i j : Fin n) (f : α → α) :
    (vmod v i f)[j] = if i = j then f v[i] else v[j] := by
  simp [vmod, Vector.getElem_set, Fin.ext_iff]
@[simp] theorem vmod_get_self {α : Type} {n : Nat} (v : Vector α n) (i : Fin n) (f : α → α) : (vmod v i f)[i.val] = f v[i.val] := by
  simp [vmod]
theorem vmod_get_val {α : Type} {n : Nat} (v : Vector α n) (i j : Fin n) (f : α → α) :
    (vmod v i f)[j.val] = if i = j then f v[i.val] else v[j.val] := by
  simp [vmod, Vector.getElem_set, Fin.ext_iff]
theorem vmod_get_ne {α : Type} {n : Nat} (v : Vector α n) {i j : Fin n} (f : α → α) (h : j ≠ i) : (vmod v i f)[j.val] = v[j.val] := by
  rw [vmod_get_val, if_neg (fun e => h e.symm)]

end Sys2Proof.Machine
end

