-- ==== Sys2Proof/Machine/Lands.lean ====
section
/-! DEFINITION. The lands: what each group is in each power state (03 R129, Table 3.9; 17 R616, R617), and the boundary-scan chain
(02 R79). -/

namespace Sys2Proof.Machine

/-- The signal lands by group (03 Table 3.9). -/
inductive Land
  | vaux | vbat
  | src (n : Fin 960) | gate (n : Fin 640) | srcCom
  | seg (n : Fin 64) | segCom
  | crkA | crkB | tmpCov | tmpTrm
  | ainP (ch : Channel) | ainN (ch : Channel) | ainH (ch : Fin 12)
  | pv (j : Fin 4)
  | ls (n : Fin 32) | cdH (d : Driver) | cdL (d : Driver) | cdFb (d : Driver)
  | eth (n : Fin 2) | spe (n : Fin 2) | can (n : Fin 4)
  | cp (o : Outlet) | pp (o : Outlet)
  | hifClk | hifSel | hifD (n : Fin 8) | hifRdy | hifIrq
  | pspClk (p : Fin 3) | pspD (p : Fin 3) (n : Fin 8)
  | gp (n : Fin 64)
  | jtagTck | jtagTms | jtagTdi | jtagTdo | jtagTrstN
  | syncIn | rstN
  deriving DecidableEq, Repr

/-- What a land is (03 Table 3.9). -/
inductive LandState
  /-- A supply, a supply that is absent, and a supply land without back-feed. -/
  | supply | absent | noBackFeed
  /-- Driven low or high. -/
  | driven (high : Bool)
  /-- Driven by its function at the levels that the function sets; an input of its function; both at once. -/
  | function
  /-- An input with its pull: none, up or down. -/
  | input (pull : Option Bool)
  /-- An input that is ignored. -/
  | ignored
  | highZ
  /-- High impedance, its keeper holding the level. -/
  | keeper
  /-- Discharged, then high impedance with a resistance to GND in ohms. -/
  | toGnd (ohm : Nat)
  /-- A network, string or bus pair that drives nothing; a switch that is off. -/
  | passive
  | off
  /-- A control pilot in state E: 1 kΩ to GND; in state A, +12 V. -/
  | stateE | stateA
  /-- An island's inputs without supply, clamped to ISk_RET. -/
  | clamped
  deriving DecidableEq, Repr

/-- The boundary-scan chain (02 R79), reached through the JTAG lands in every lifecycle state. -/
def scanChain : List Land :=
  [.hifClk, .hifSel] ++ (List.finRange 8).map .hifD ++ [.hifRdy, .hifIrq]
    ++ (List.finRange 3).flatMap (fun p => .pspClk p :: (List.finRange 8).map (.pspD p))
    ++ (List.finRange 64).map .gp ++ [.syncIn, .tmpCov, .tmpTrm] ++ (List.finRange 4).map .cdFb

/-- The columns of Table 3.9. While the control base is held unpowered with VAUX present, the lands are as in WATCH (R129). -/
def landPower (s : State) : PowerState := if s.pwr.baseHeldOff then .watch else s.pwr.state

/-- A land that is active in RUN and IDLE, and in a state of its own in SAVE, and in WATCH. -/
def inPower (s : State) (active save watch : LandState) : LandState :=
  match landPower s with
  | .run | .idle => active
  | .save => save
  | .watch => watch
  | .off => .highZ

/-- The pins take their functions at start step 8 (17 R616). -/
def pinsConfigured (s : State) : Bool := s.hif.fwReady || s.pwr.state == .save

/-- The pull that a pin's key gives (17 Table 17.3); the emergency-stop inputs have a pull-up (17 Table 17.2). -/
def pullOf (s : State) (i : Fin 64) : Option Bool :=
  if (modulePins s.cfg s.fab).any (fun p => p.2 == i.val && (p.1 == .estopA || p.1 == .estopB)) then some true
  else
    match cfgNat s.cfg s.fab (.gp i .pull) with
    | 1 => some true
    | 2 => some false
    | _ => none

/-- A wake pin of the watch settings block (17 R609). -/
def isWakePin (s : State) (i : Fin 64) : Bool := decide (56 ≤ i.val) && s.wch.settings.wakePins.getLsbD (i.val - 56)

/-- A general-purpose pin (17 R610, R616, R617). -/
def gpState (s : State) (i : Fin 64) : LandState :=
  inPower s
    (if !pinsConfigured s then .input (some false)
     else if pinDrives s i then .driven (s.pins.out.getLsbD i.val) else .input (pullOf s i))
    (if pinDrives s i then .driven (s.pins.out.getLsbD i.val) else .input (pullOf s i))
    (if isWakePin s i then .input (pullOf s i) else .highZ)

/-- The theft-watch island is powered in WATCH (05 R175). -/
def theftPowered (s : State) (k : Island) : Bool :=
  s.wch.settings.theftChannels != 0 && !s.wch.theftSusp && s.wch.settings.theftIsland == k.val

/-- The state of a land (03 R129, Table 3.9). -/
def landState (s : State) : Land → LandState
  | .vaux => if s.pwr.vauxUp then .supply else match s.pwr.state with
    | .save => .noBackFeed
    | _ => .absent
  | .vbat => if s.pwr.state = .off then .absent else .supply
  | .src _ | .gate _ | .srcCom =>
    match landPower s with
    | .run => if s.disp.powered then .function else .toGnd 1000000
    | .off => .highZ
    | _ => .toGnd 1000000
  | .seg n => if s.pwr.state = .off then .highZ else if s.wch.segDriven.getLsbD n.val then .function else .driven false
  | .segCom => if s.pwr.state = .off then .highZ else if s.wch.segUpdating.isSome then .function else .driven false
  | .crkA | .crkB | .tmpCov | .tmpTrm => if s.pwr.state = .off then .highZ else .function
  | .ainP ch | .ainN ch =>
    match landPower s with
    | .run | .idle => .function
    | .watch => if theftPowered s (islandOf ch) then .function else .clamped
    | _ => .clamped
  | .ainH _ => .function
  | .pv _ => inPower s .function .passive .passive
  | .ls n => inPower s (if s.pd.ls[n].out then .driven true else .off) .off .off
  | .cdH d | .cdL d => inPower s (if s.pd.drv[d].phase = .off then .off else .function) .off .off
  | .cdFb _ => inPower s .function (.toGnd 100000) (.toGnd 100000)
  | .eth _ | .spe _ | .can _ => inPower s .function .passive .passive
  | .cp o =>
    match landPower s with
    | .run => if (s.veh.out.get o).drive = .stateE then .stateE else .function
    | .idle => .stateA
    | _ => .stateE
  | .pp _ => inPower s .function .highZ .highZ
  | .hifClk | .hifSel => inPower s (.input none) .ignored .highZ
  | .hifD _ => inPower s .function .highZ .highZ
  | .hifRdy => inPower s (.driven s.hif.rdy) (.driven false) .highZ
  | .hifIrq => inPower s (.driven (hifIrq s)) (.driven (hifIrq s)) .highZ
  | .pspClk _ =>
    match landPower s with
    | .run => if pinsConfigured s then .function else .driven false
    | .idle | .save => .driven false
    | _ => .highZ
  | .pspD _ _ =>
    match landPower s with
    | .run => if pinsConfigured s then .function else .keeper
    | .idle | .save => .keeper
    | _ => .highZ
  | .gp i => gpState s i
  | .jtagTck | .jtagTms | .jtagTdi | .jtagTdo | .jtagTrstN => inPower s .function .highZ .highZ
  | .syncIn => inPower s (.input none) .ignored .ignored
  | .rstN => inPower s (.input (some true)) .ignored .ignored

end Sys2Proof.Machine
end

