-- ==== Sys2Proof/Tests/Slice0.lean ====
section
/-! SUPPORT. Small tests on fixed values, the worked cases of the spec among them, and for every statement with
hypotheses a theorem that shows states and operands which meet them. -/

namespace Sys2Proof.Machine

set_option Elab.async false

/-- A module that runs from step 8 with its application core served, in lifecycle FIELD. -/
def up : State :=
  { State.reset with
    keys := { State.reset.keys with field := 3 }
    time := { valid := true, life := 0x100000000, lifeRestart := false }
    pwr := { state := .run, inReset := false, vauxMv := 12000, appIsland := true }
    pd := { linkUp := true, started := true }
    hif := { rdy := true, startStep := 8, fwReady := true, hostPresent := true }
    saf := { running := true }
    run := { running := some .a } }

/-- A mailbox unit with one command in mailbox 0, rung and not yet taken up. -/
def boxed (code : Nat) (args : Bytes) : Mbx :=
  { cmd := (Vector.replicate 8 {}).set 0 { code := BitVec.ofNat 16 code, seq := 1, len := BitVec.ofNat 10 args.length, state := .pending }
    order := [0], win := Memory.writeBytes [] 0x1000 args }

/-- The module with a command in mailbox 0. -/
def rung (code : Nat) (args : Bytes) : State := { up with mbx := boxed code args }

/-- A module of two DC outlets whose outlet A has this record. -/
def dcOut (x : OutS) : State := { up with fab := { up.fab with variant := .dd }, veh := { out := ⟨x, {}⟩ }, pwr := { up.pwr with modem := ⟨true, true⟩ } }

/-- A public key on P-384, and a signature whose r and s are both the digest of what it signs: under the key, which was worked out from
the digest and is not on the curve, it verifies with one addition. -/
def keyBytes (x y : Nat) : Bytes := 4 :: beBytes 48 x ++ beBytes 48 y
def twice (n : Nat) : Bytes := beBytes 48 n ++ beBytes 48 n

/-- The header of an image of 520 bytes, whose digests and the digest of whose first 416 bytes were worked out with another program;
the key that its signature verifies with, the image, and a download of it. -/
def imageHead : Bytes :=
  u32 0x4D494B49 ++ u16 1 ++ u16 0x48 ++ u32 8 ++ [2, 0] ++ List.replicate 6 0 ++ u32 520 ++ u32 4 ++ u32 4 ++ List.replicate 8 0 ++
    beBytes 48 0xFAA3B11CF7846B8330813A91D3789A6A3AF01851E9723D4D2B6C9176B1BE02CDBC56BFA374FE09CE6D11BE9C5627482A ++
    beBytes 48 0x3690844D61A49F4EE5B74DF88B8E6B24BD5C9C9365ED63C440B6D174BAFF67C7C7C681F66365AA2F4C532E8AD275E9F8 ++
    List.replicate 280 0 ++
    twice 0x4552AB2A080F64FB2AD181C256A796E1B61EC796BA994680B2A661E3FB8857F09C9880E45E600E52F26BD4486755E9FE
def imageKey : Bytes :=
  keyBytes 0x10258AB3396595CD467CB71EB637BBA9DBC3FD06B9BF1DE6F3625C3B82237DD60E648CBCE24AC840D33FCD8026340B4B
    0x9BB59EDB1100BD05156988BF55A9EA5F669ADF6156B196CB83454B6EB5C00C5CC3C24C2C40742072132E8CC544A80EF2
def imageBank : BankMem := { header := imageHead, blocks := [(0, imageHead ++ [0xA1, 2, 3, 4, 0xB1, 2, 3, 4])] }
def downloading (s : State) (stage : Nat) (confirmed : List Nat) (staging : List Staged) : State :=
  { s with
    upd := { stage, header := imageHead, confirmed, bankA := imageBank, bankB := imageBank }
    keys := { State.reset.keys with field := 3, slots := Vector.replicate 64 { state := .valid, kind := 6, data := imageKey } }
    run := { s.run with staging } }

/-- A store with a candidate in slot 1. -/
def withCandidate (s : State) : State := { s with slots := (Vector.replicate 4 {}).set 1 { state := .candidate } }

/-! ## Ill-formed commands: one for each check -/

theorem test_illformed_registerWrite : Instr.wellFormed (.registerWrite 0xA8 0x3C []) = false := by decide
theorem test_illformed_badOpcode : Instr.wellFormed (.badOpcode 0xA8) = false := by decide
theorem test_illformed_earlySelectRelease : Instr.wellFormed (.earlySelectRelease 0xA0 0 [] (.inWord [true])) = false := by decide
theorem test_illformed_readDataReady : Instr.wellFormed (.readDataReady 0x00 0x10 [⟨1, false⟩]) = false := by decide
theorem test_illformed_busyTimeout : Instr.wellFormed (.busyTimeout 0x00 0x10 [] 801 1) = false := by decide
theorem test_illformed_pllDomainFault : Instr.wellFormed (.pllDomainFault .saf) = false := by decide
theorem test_illformed_gpWakeEdge : Instr.wellFormed (.gpWakeEdge 55 true) = false := by decide
theorem test_illformed_theftBurst : Instr.wellFormed (.theftBurst true [[], [], []]) = false := by decide
theorem test_illformed_eventRaise : Instr.wellFormed (.eventRaise 0x8101 (List.replicate 493 0)) = false := by decide +kernel
theorem test_illformed_ageingSensing : Instr.wellFormed (.ageingSensing [1, 2]) = false := by decide

/-! ## The worked cases of the spec -/

/-- Worked case 6.1 step 6: STATE 3, RLEN 16, ST_OK. -/
theorem test_case_6_1_status : cmbStatus { state := .done, rlen := 16 } = 0x30100000 := by decide
/-- Worked case 6.1 step 8: the release frees the mailbox. -/
theorem test_case_6_1_release :
    (match exec (.cmdRelease 1) { up with mbx := { up.mbx with cmd := (Vector.replicate 8 {}).set 0 { state := .done, rlen := 16 } } } with
     | .next t => t.mbx.cmd[0].state == .free
     | _ => false) = true := by decide +kernel
/-- Worked case 6.2: the first 12 bits of 0x12345678 reach HIF_SCRATCH, and PARTIAL is set. -/
theorem test_case_6_2_scratch :
    (match exec (.earlySelectRelease 0xA8 0x3C [] (.inWord [false, false, false, true, false, false, true, false, false, false, true, true])) up with
     | .next t => (t.hif.scratch, t.hif.status.getLsbD 4)
     | _ => (0, false)) = (0x123, true) := by decide +kernel
/-- Worked case 6.2: the same cut of a doorbell rings nothing. -/
theorem test_case_6_2_doorbell :
    (match exec (.earlySelectRelease 0xA8 0x20 [] (.inWord (List.replicate 12 false))) (rung 1 []) with
     | .next t => (t.mbx.order, t.hif.status.getLsbD stPartialDiscard)
     | _ => ([], false)) = ((rung 1 []).mbx.order, true) := by decide +kernel
/-- Worked case 8.1: the word of channel 17. -/
theorem test_case_8_1_word : sampleWord 0x147AE1 false false false true false 5 = 0x147AE115 := by decide
/-- Worked case 10.1 steps 2 and 5: the demands of parts A and B. -/
theorem test_case_10_1_demand :
    demandW (46200000000 * 1000 / 3600) (420 * 32768) = 110000 ∧ demandW (62050000000 * 1000 / 3600) (455 * 32768) = 136374 := by decide
/-- Worked cases 11.2 and 15.1: the duties of the offered currents, in 0.1 %. -/
theorem test_case_11_2_duty :
    [32000, 10000, 16000, 14129, 7875, 6000].map dutyOf = [some 533, some 166, some 266, some 235, some 131, some 100] := by decide
/-- Worked case 12.1: tier 2 trips in the tenth cycle at 60 mA, and not in the ninth. -/
theorem test_case_12_1_tier2 :
    (let cycle := fun (v : Nat) => rcdNext 20 [sampleWord (BitVec.ofNat 24 v) false false false false false 0]
     rcdTrips (Nat.repeat (cycle 4026532) 9 (cycle 3825206 {})) = true ∧ rcdTrips (Nat.repeat (cycle 4026532) 8 (cycle 3825206 {})) = false) := by
  decide +kernel
/-- Worked case 16.1: 11 of the 12 level-phase frames are driven at a stress of 6,250,000 frames. -/
theorem test_case_16_1_frames :
    (let a : Rat := clampFactor (256 * (1 + 40 / 1000000000 * 6250000))
     (a, min 12 (roundRat (12 * 192 * a / 65536)))) = (320, 11) := by decide +kernel
/-- Worked case 18.1: the slots that the envelope names, orphans among them. -/
theorem test_case_18_1_mask :
    (let key (n : Nat) : KeySlot := { state := .valid, kind := 2, usage := 8, derived := true, parent := n }
     let k : KeyStore := { State.reset.keys with
       field := 3, counter := 6
       slots := ((((State.reset.keys.slots.set 8 { key 255 with derived := false }).set 10 (key 8)).set 11 (key 10)).set 12 (key 10)) }
     let plain : Bytes :=
       [3, 10, 0, 0, 0, 0, 0, 0] ++ List.replicate 8 0 ++
       ([1, 20, 0, 0, 7, 0x40, 24, 0] ++ List.replicate 8 0 ++ List.replicate 24 0x55) ++
       ([2, 21, 8, 0, 3, 2, 13, 0] ++ List.replicate 8 0 ++ str "ocpp-client-2")
     match (parseOps 3 plain).map (fun l => applyOps false 0 l { keys := k, auth := none }) with
     | some (.ok e) => slotMask (fun i => k.slots[i] != e.keys.slots[i])
     | _ => 0) = 0x301C00 := by decide +kernel
/-- The header verifies under Iskeco's slot, and the bank's images have its digests (19 Table 19.3, R660). -/
theorem test_header_verifies :
    (let s := downloading up 0 [] []; iskecoSigned s imageHead = true ∧ digestsMatch imageBank = true) := by decide +kernel
/-- So a module with the same keys and no owner's slot takes the header. -/
theorem header_verifies (s : State) (hk : s.keys = (downloading up 0 [] []).keys) (ho : ownerKey s = none) : imageFails s imageHead = none := by
  have key : ∀ t : State, t.keys = (downloading up 0 [] []).keys → slotKey t 3 = imageKey := fun t h => by
    rw [slotKey, slotKeyAt, h]; rfl
  have h := test_header_verifies.1
  have hs : iskecoSigned s imageHead = true := by
    simp only [iskecoSigned, slotVerifies, hk, key s hk, key (downloading up 0 [] []) rfl] at h ⊢
    exact h
  have e : (!signaturesOk s imageHead) = false := by simp only [signaturesOk, hs, ho]; rfl
  rw [imageFails, e]
  decide +kernel
/-- Worked case 19.1: 589 blocks, the last of 3,072 bytes. -/
theorem test_case_19_1_blocks :
    (let h : Bytes := List.replicate 20 0 ++ u32 2411520
     (blockCount h, blockLen h 588)) = (589, 3072) := by decide
/-- Worked case 19.1 step 7: copy 0 becomes sequence 41, ARMED, and copy 1 sequence 42, TRIAL. -/
theorem test_case_19_1_selectors :
    (let u : Upd := { sel0 := { seq := 39 }, sel1 := { seq := 40 } }
     let v := selWrite { state := .trial } (selWrite { state := .armed } u)
     (v.sel0.seq, v.sel0.state, v.sel1.seq, v.sel1.state)) = (41, .armed, 42, .trial) := by decide
/-- Table 4.3: the calendar of the RTC's zero is Saturday 2000-01-01. -/
theorem test_calendar_zero : (civil 0).year = 2000 ∧ (civil 0).month = 1 ∧ (civil 0).day = 1 := by decide
/-- The fault of an ill-formed command, and the step of a well-formed one. -/
theorem test_step_stops : exec (.pllDomainFault .saf) up = .fault .illFormed := rfl
theorem test_step_idles : step up = .next up := rfl
/-- HIF_ID reads the T48's (06 Table 6.3); a reserved address reads zero (00 R19). -/
theorem test_host_reads : hostRead up 0x00 = 0x00480301 ∧ hostRead up 0x38 = 0 ∧ hostRead up 0x4000 = 0 := by decide
/-- Worked cases 7.1 and 11.1: the ramp times at the default slews. -/
theorem test_case_11_1_ramp :
    rampMs (dcOut { delivered := 100000 }) .a 150000 = 1000 ∧ rampMs (dcOut { delivered := 130000 }) .a 40000 = 450 ∧
      rampMs (dcOut { delivered := 40000 }) .a 0 = 200 := by decide +kernel

/-! ## States and operands that meet the hypotheses of the statements -/

theorem wit_StepRunsFrontCommand : { up with pending := [.ao32Tick, .checkpoint] }.pending = Instr.ao32Tick :: [.checkpoint] := rfl

theorem wit_EmptyQueueIdles : up.pending = [] := rfl

/-- States and operands that meet the hypotheses of every clause of StepOfTheQueue. -/
theorem wit_StepOfTheQueue : type_of% wit_StepRunsFrontCommand ∧ type_of% wit_EmptyQueueIdles := ⟨wit_StepRunsFrontCommand, wit_EmptyQueueIdles⟩

theorem wit_WellFormedCommandsComplete :
    (Instr.badOpcode 0x02).wellFormed = true ∧ (Instr.badOpcode 0x00).wellFormed = false ∧ (Instr.outputTest ⟨[], [], [], 0⟩).wellFormed = true ∧
      (let s := { up with fab := { up.fab with disp := { up.fab.disp with width := 2, height := 1, testRow := true } } }
       panelFits s ⟨[1, 2], [3, 4], List.replicate 64 5, 6⟩ = true ∧ panelFits s ⟨[1, 2], [3], List.replicate 64 5, 6⟩ = false) := by decide

theorem wit_MailboxUnitInvariant : Memory.wf up.mbx.win = true ∧ stepsOn { up with pending := [.eventRaise 0x8101 []] } = true := by decide

theorem wit_FusesAndSealedDataStay : stepsOn { up with pending := [.lcRequestRetired 0xA5C30003] } = true := by decide

theorem wit_StepTakesOneCommand : stepsOn { up with pending := [.checkpoint, .ao32Tick] } = true := by decide

theorem wit_WindowsReadAndWrite : Memory.wf [(0x1000, 1), (0x11FF, 2)] = true ∧ ([1, 2] : Bytes).length ≤ 512 := by decide

theorem wit_WindowBurst : (up.hif.rdy = true ∧ up.hif.ignored = false) ∧ up.pwr.inReset = false ∧ Memory.wf up.mbx.win = true ∧ up.mbx.cmd[7].state = .free ∧
    writeShape 0x09 128 = true ∧ 0 % 4 = 0 ∧ 0 + 4 * 128 ≤ 512 ∧ 508 % 4 = 0 ∧ 508 + 4 * 1 ≤ 512 := by decide

/-- States and operands that meet the hypotheses of every clause of WindowBytes. -/
theorem wit_WindowBytes : type_of% wit_WindowsReadAndWrite ∧ type_of% wit_WindowBurst := ⟨wit_WindowsReadAndWrite, wit_WindowBurst⟩

theorem wit_HostPortOpcodes :
    (up.hif.rdy = true ∧ up.hif.ignored = false) ∧ opInvalid 0x02 = true ∧ (opTransfer 0x0F || (0x0F#8) == 0x0F) = true ∧
      (let ws : List ReadWord := [⟨0, false⟩, ⟨0, false⟩]; readShape 0x01 ws.length = true ∧ readFits (0xFFFD#16).toNat ws = true ∧ (0xFFFD#16).toNat % 4 ≠ 0) ∧
      (let ws : List ReadWord := [⟨800, false⟩]; readShape 0x00 ws.length = true ∧ readFits (0x2FFC#16).toNat ws = true ∧ (0x2FFC#16).toNat % 4 = 0 ∧
        up.mbx.badWords = [] ∧ ws.all (fun r => !r.bad) = true) ∧
      (let ws : List ReadWord := [⟨0, false⟩, ⟨800, false⟩]; readShape 0x01 ws.length = true ∧ readFits (0x2FFC#16).toNat ws = true ∧ ws.all (fun r => !r.bad) = true) ∧
      timeoutShape 0x01 (0x1000#16).toNat [] 800 2 = true := by decide

theorem wit_ClosedPortIgnores :
    (let s := { up with hif := { up.hif with rdy := false } }; s.hif.rdy = false ∧ s.hif.ignored = false) ∧
      writeShape 0x08 1 = true ∧ writeShape 0x09 2 = true ∧ readShape 0x00 1 = true ∧ readFits (0x1001#16).toNat [⟨0, false⟩] = true := by decide

/-- States and operands that meet the hypotheses of every clause of HostPortTransactions. -/
theorem wit_HostPortTransactions : type_of% wit_HostPortOpcodes ∧ type_of% wit_ClosedPortIgnores := ⟨wit_HostPortOpcodes, wit_ClosedPortIgnores⟩

theorem wit_RegisterWrites : (up.hif.rdy = true ∧ up.hif.ignored = false) ∧ up.pwr.inReset = false ∧ writeShape 0x08 1 = true ∧
    up.mbx.cmd[7].state = .free ∧ (rung 0x0101 []).mbx.cmd[0].state ≠ .free := by decide

theorem wit_MailboxLifeCycle : (up.hif.rdy = true ∧ up.hif.ignored = false) ∧ up.pwr.inReset = false ∧ up.hif.hostPresent = true ∧
    up.mbx.cmd[0].state = .free ∧ up.mbx.cmd[0].kept.map (·.seq) ≠ some up.mbx.cmd[0].seq ∧ (rung 0x0101 []).mbx.cmd[0].state ≠ .free ∧
    (let k : Kept := ⟨7, 0, []⟩
     let s := { up with mbx := { up.mbx with cmd := up.mbx.cmd.set 0 { code := 0x0101, seq := 7, kept := some k } } }
     s.mbx.cmd[(0 : Mailbox)].state = .free ∧ s.mbx.cmd[(0 : Mailbox)].kept = some k ∧ k.seq = s.mbx.cmd[(0 : Mailbox)].seq ∧ (0 : Mailbox) ∉ s.mbx.order ∧
      servesNow s (boxCode s 0) = true ∧ s.pwr.idleEntry = false) ∧
    (complete 0 .ok [] (rung 0x0101 [])).mbx.cmd[0].state = .done ∧ up.mbx.cmd[0].state ≠ .done ∧
    ((raiseCode 0x8101 [] up).mbx.evt[0].full = true ∧ (raiseCode 0x8101 [] up).mbx.queue = []) ∧ up.mbx.evt[7].full = false := by decide

/-- States and operands that meet the hypotheses of every clause of RegistersAndMailboxes. -/
theorem wit_RegistersAndMailboxes : type_of% wit_RegisterWrites ∧ type_of% wit_MailboxLifeCycle := ⟨wit_RegisterWrites, wit_MailboxLifeCycle⟩

theorem wit_EventsInOrder : ([] : Bytes).length ≤ 492 ∧ baseRuns up = true ∧ up.hif.startStep ≠ 0 ∧ up.hif.hostPresent = true ∧ emptyEvt up.mbx = some 0 ∧
    (let m : Mbx := { evt := Vector.replicate 8 { full := true } }
     emptyEvt m = none ∧ m.queue.length < 128) ∧
    (let m : Mbx := { evt := Vector.replicate 8 { full := true }, queue := List.replicate 128 ⟨0x8101, 0, []⟩ }
     emptyEvt m = none ∧ 128 ≤ m.queue.length) :=
  ⟨by decide, by decide, by decide, rfl, by decide, ⟨by decide, by decide⟩, ⟨by decide, by simp⟩⟩

theorem wit_ModuleReads : serves .moduleVersionGet 0 [] (rung 0x0101 []) ∧ serves .moduleStatusGet 0 [] (rung 0x0103 []) ∧
    serves .commandListGet 0 [0x01, 0] (rung 0x0102 [0x01, 0]) ∧ serves .commandListGet 0 [0x10, 0] (rung 0x0102 [0x10, 0]) ∧
    serves .commandListGet 0 [0x81, 0] (rung 0x0102 [0x81, 0]) ∧ serves .commandListGet 0 [0x90, 0] (rung 0x0102 [0x90, 0]) ∧
    serves .commandListGet 0 [0x91, 0] (rung 0x0102 [0x91, 0]) ∧ rd [0x01, 0] 0 2 = 1 ∧ rd [0x10, 0] 0 2 = 0x10 ∧
    rd [0x81, 0] 0 2 = 0x81 ∧ rd [0x90, 0] 0 2 = 0x90 ∧ rd [0x91, 0] 0 2 = 0x91 := by
  refine ⟨?_, ?_, ?_, ?_, ?_, ?_, ?_, by decide, by decide, by decide, by decide, by decide⟩ <;>
    exact ⟨by decide, by decide, by decide, by decide, by decide⟩

theorem wit_TimeCommands : serves .timeGet 0 [] (rung 0x0201 []) ∧
    (let b : Bytes := [0xff, 0x3c, 0x85, 0xe1, 0x1, 0x0, 0x0, 0x0]; serves .timeSet 0 b (rung 0x0202 b) ∧ rd b 0 8 = 8078572799) ∧
    (let b : Bytes := [0x0, 0x3d, 0x85, 0xe1, 0x1, 0x0, 0x0, 0x0]; serves .timeSet 0 b (rung 0x0202 b) ∧ 8078572799 < rd b 0 8) ∧
    (let b : Bytes := [0, 0, 0, 0]; serves .timeAdjust 0 b (rung 0x0203 b) ∧ (rung 0x0203 b).time.write = none ∧
      rtcInRange (rtcCount (rung 0x0203 b).time + 0 + msToCycles (rdI32 b 0)) = true) ∧
    (let b : Bytes := [0xFF, 0xFF, 0xFF, 0xFF]; serves .timeAdjust 0 b (rung 0x0203 b) ∧
      rtcInRange (rtcCount (rung 0x0203 b).time + 0 + msToCycles (rdI32 b 0)) = false) ∧
    (let b : Bytes := [0xF5, 1, 0, 0]; serves .timeTrimSet 0 b (rung 0x0204 b)) := by
  refine ⟨?_, ⟨?_, by decide⟩, ⟨?_, by decide⟩, ⟨?_, by decide⟩, ⟨?_, by decide⟩, ?_⟩ <;>
    exact ⟨by decide, by decide, by decide, by decide, by decide⟩

theorem wit_TimeRegisters : up.time.write = none ∧ rtcInRange (rtcCount up.time + up.time.slewLeft + msToCycles (0#32).toInt) = true ∧
    ((1#1) ++ (0xe1853cff#32)).toNat = 8078572799 ∧ -500 ≤ ((500#32).setWidth 10 : BitVec 10).toInt ∧
    ((500#32).setWidth 10 : BitVec 10).toInt ≤ 500 ∧ (Master.met ≠ .app0 ∧ Master.met ≠ .app1) ∧
    ownsTimer .app0 11 = true ∧ ownsTimer .met 12 = true ∧ ownsTimer .saf 15 = true ∧ ownsTimer .saf 0 = false ∧
    (let s := { up with tb := { timers := Vector.replicate 16 { running := 2000, due := 1508 } } }
     s.tb.timers[15].running ≠ 0 ∧ s.tb.timers[15].due ≤ 1508) := by decide

/-- States and operands that meet the hypotheses of every clause of TimeOfDay. -/
theorem wit_TimeOfDay : type_of% wit_TimeCommands ∧ type_of% wit_TimeRegisters := ⟨wit_TimeCommands, wit_TimeRegisters⟩

theorem wit_ClockTick : (up.pwr.state ≠ .off ∧ up.time.write = none) ∧ (let t : Time := {}; t.rangeEnd = false ∧ t.slewLeft = 0 ∧ t.trim = 0 ∧ t.trimAcc = 0) ∧
    (let t : Time := { rangeEnd := true }; t.rangeEnd = true) ∧ { up with pwr := { state := .off } }.pwr.state = .off ∧
    (let s := { up with time := { slewing := true } }; s.time.slewing = true ∧ s.time.slewLeft = 0) := by decide

theorem wit_TimeToMetrology :
    (let s := { up with time := { rtcSec := 8078572799, rtcSub := 32767 } }; s.time.rangeEnd = false ∧ rtcCount s.time = rtcMaxCount) ∧
    (let s := { up with tb := { reports := [⟨true, 0, 1, 32768, 0, true⟩] }, met := { running := true } }
     s.tb.reports = ⟨true, 0, 1, 32768, 0, true⟩ :: [] ∧ s.met.running = true) ∧ up.tb.reports = [] := by decide

/-- States and operands that meet the hypotheses of every clause of ClockAndReports. -/
theorem wit_ClockAndReports : type_of% wit_ClockTick ∧ type_of% wit_TimeToMetrology := ⟨wit_ClockTick, wit_TimeToMetrology⟩

theorem wit_ClockFaults :
    (domainOn up .ao32 = true ∧ domainOn up .aof = true ∧ domainOn up .ref = true ∧ domainOn up .met = true ∧ domainOn up .saf = true ∧
      domainOn up .app = true ∧ domainOn up .flt = true ∧ domainOn up .gph = true ∧ up.pwr.inReset = false) ∧
    (lesserPll .gph = true ∧ up.tb.lastPll = []) ∧
    (let s := { up with tb := { faulted := [.flt] } }; domainOut s .flt = true ∧ s.tb.off.contains .flt = false) ∧
    (let s := { up with tb := { faulted := [.mod] }, isl := Vector.replicate 6 { linkUp := true } }
     domainOut s .mod = true ∧ s.tb.off.contains .mod = false ∧ ∀ k : Island, s.isl[k].linkUp = true) ∧
    (let s := { up with pwr := { state := .off } }
     domainOn s .ao32 = false ∧ domainOn s .aof = false ∧ domainOn s .ref = false ∧ domainOn s .met = false ∧ domainOn s .saf = false ∧
      domainOn s .app = false ∧ domainOn s .flt = false) := by decide

theorem wit_VauxAndSave : up.pwr.state = .run ∧ baseRuns up = true ∧ { up with pwr := { state := .save } }.pwr.state = .save ∧
    (let s := { up with pwr := { state := .watch } }; s.pwr.state = .watch ∧ s.pwr.baseHeldOff = false) := by decide

theorem wit_HoldUpSupervision : baseRuns up = true ∧ up.pwr.selfTest = .pending ∧ up.pwr.state = .run ∧
    (let s := { up with pwr := { up.pwr with selfTest := .pass } }; baseRuns s = true ∧ s.pwr.selfTest ≠ .pending ∧ s.pwr.holdupFailed = false) := by decide

/-- States and operands that meet the hypotheses of every clause of SuppliesAndHoldUp. -/
theorem wit_SuppliesAndHoldUp : type_of% wit_VauxAndSave ∧ type_of% wit_HoldUpSupervision := ⟨wit_VauxAndSave, wit_HoldUpSupervision⟩

theorem wit_ModuleResets : 10000 ≤ 10000 ∧ up.pwr.state = .run ∧ 1000 ≤ 1000 ∧ (let s := { up with pwr := { state := .save } }
    s.pwr.state = .save ∧ s.pwr.baseHeldOff = false) ∧ coresPowered up = true ∧ up.pwr.inReset = false ∧ (up.hif.rdy = true ∧ up.hif.ignored = false) ∧
    (let s := { up with hif := {} }; s.fab.minusE = false ∧ s.pwr.state = .run ∧ s.hif.fwReady = false ∧ s.hif.bootServed = false) := by decide

theorem wit_WatchSampling : watchOn up = true ∧
    (let s := { up with wch := { settings := { tamperTrm := false }, covFilter := ⟨true, 1⟩ } }
     s.wch.settings.tamperTrm = false ∧ s.wch.settings.tamperCov = true ∧ s.wch.covOpen = false ∧ s.wch.covFilter = ⟨true, 1⟩) ∧
    (let s := { up with wch := { settings := { tamperTrm := false }, covFilter := ⟨false, 5⟩ } }
     s.wch.settings.tamperTrm = false ∧ s.wch.settings.tamperCov = true ∧ s.wch.covOpen = false ∧ s.wch.covFilter = ⟨false, 5⟩) ∧
    (let s := { up with wch := { settings := { tamperTrm := false, tamperCov := false } } }
     s.wch.settings.tamperTrm = false ∧ s.wch.settings.tamperCov = false) ∧
    (let s := { up with wch := { crackOk := true, crackBad := 1, vbatLowRun := 3 } }
     s.wch.crackOk = true ∧ s.wch.crackBad = 1 ∧ s.wch.vbatLow = false ∧ s.wch.vbatLowRun = 3 ∧ s.wch.vbatAbsent = false ∧ s.wch.settings.vbatFitted = true) ∧
    (let s := { up with wch := { crackGood := 8 } }; s.wch.crackOk = false ∧ s.wch.crackGood = 8) ∧
    (let s := { up with pwr := { state := .idle }, wch := { cpFilter := ⟨⟨true, 1⟩, {}⟩, ppFilter := ⟨{}, ⟨true, 1⟩⟩ } }
     s.pwr.state = .idle ∧ s.wch.cpFilter.get .a = ⟨true, 1⟩ ∧ s.wch.ppFilter.get .b = ⟨true, 1⟩ ∧ s.pwr.state ≠ .watch) ∧
    (let s := { up with pwr := { state := .watch }, wch := { settings := { theftChannels := 1 }, theftFails := 2, theftLast := some (up.time.life - 32768) } }
     (List.replicate 8 ([] : List Bool)).length = 8 ∧ s.pwr.state = .watch ∧ s.wch.settings.theftChannels ≠ 0 ∧ s.wch.theftSusp = false ∧
      s.time.aofFault = false ∧ theftDue s = true ∧ s.wch.theftFails = 2) ∧
    (let s := { up with pwr := { state := .watch }, wch := { theftLast := some (up.time.life - 32767) } }; theftDue s = false) ∧
    { up with pwr := { state := .off } }.pwr.state = .off := by decide

theorem wit_SegmentStrip : basePowered up = true ∧ watchOn up = true ∧ (let s := { up with wch := { segReq := 1 } }
    s.wch.segReq ≠ s.wch.segShown ∧ s.wch.segUpdating = none ∧ s.pwr.state ≠ .watch ∧ s.wch.segLast = none) ∧
    (let s := { up with wch := { segUpdating := some 3, segLast := some (up.time.life - 5240), segFrames := 8 } }
     s.wch.segUpdating = some 3 ∧ s.wch.segLast = some (up.time.life - 5240) ∧ s.wch.segFrames * 655 ≤ (s.time.life - (up.time.life - 5240)).toNat) ∧
    (let s := { up with wch := { segRedriven := up.time.life - 2831155200 } }
     s.wch.segUpdating = none ∧ 86400 * 32768 ≤ (s.time.life - s.wch.segRedriven).toNat) ∧
    (Master.saf ≠ .met ∧ Master.saf ≠ .app0 ∧ Master.saf ≠ .app1) := by decide

theorem wit_WatchdogAndHeartbeat : up.saf.running = true ∧ (0xFFFF0000#32).toNat = up.wb.wdgToken.toNat + (65535 - up.wb.wdgToken.toNat) * 65536 ∧
    up.wb.wdgLast = none ∧ (0#32).toNat ≠ up.wb.wdgToken.toNat + (65535 - up.wb.wdgToken.toNat) * 65536 ∧ baseRuns up = true ∧ watchOn up = true ∧
    (∀ n ∈ [164, 491, 163, 492], { up with wb := { wdgLast := some (up.time.life - BitVec.ofNat 64 n) } }.wb.wdgLast = some (up.time.life - BitVec.ofNat 64 n) ∧
      (up.time.life - (up.time.life - BitVec.ofNat 64 n)).toNat = n) ∧
    { up with saf := {} }.saf.running = false := by decide

/-- States and operands that meet the hypotheses of every clause of SegmentsAndWatchdog. -/
theorem wit_SegmentsAndWatchdog : type_of% wit_SegmentStrip ∧ type_of% wit_WatchdogAndHeartbeat := ⟨wit_SegmentStrip, wit_WatchdogAndHeartbeat⟩

theorem wit_WakesAndIdle :
    (let s := { up with wch := { alarmEn := true } }; s.wch.alarmEn = true ∧ s.time.valid = true ∧ s.wch.alarmSec.toNat ≤ s.time.rtcSec.toNat) ∧
    (let s := { up with pwr := { state := .idle }, met := { running := true }, wch := { settings := { wakePins := 0x81, wakeRising := 0x81, wakeFalling := 0x81 } }
                        net := { port := Vector.replicate 8 { up := true } }
                        cfg := [(.port 3 .wake, .num 0), (.port 3 .ipv4, .text (str "dhcp"))] }
     s.pwr.state = .idle ∧ s.wch.settings.wakePins.getLsbD 0 = true ∧ s.wch.settings.wakePins.getLsbD 7 = true ∧
      s.wch.settings.wakeRising.getLsbD 7 = true ∧ s.wch.settings.wakeFalling.getLsbD 0 = true ∧ s.met.running = true ∧ s.saf.running = true ∧
      s.net.port[3].up = true ∧ wakesPort s 3 .unicast = true ∧ hasAddress s 3 = true) ∧
    (let s := { up with cfg := [(.gen .idleAfterS, .num 60)], pwr := { up.pwr with idleSince := some (up.time.life - 1966080) } }
     idleHeld s = true ∧ pairPort s = none) ∧
    (let s := { up with pwr := { up.pwr with idleEntry := true } }; s.pwr.idleEntry = true ∧ s.pwr.state = .run ∧ anyUpdate s = false) ∧
    (let s := { up with pwr := { state := .idle }, hif := { power := 2 }, key := { boot := { crc := 1 } } }
     s.pwr.state = .idle ∧ s.hif.power = 2 ∧ bankIntact s = false ∧ bankIntact { s with key := {} } = true) ∧
    { up with wch := { settingsNew := some {} } }.wch.settingsNew = some {} ∧ { up with pwr := { state := .watch } }.pwr.state = .watch ∧
    watchOn up = true := by decide +kernel

theorem wit_StartOrder :
    (let s := { State.reset with pwr := { state := .run, inReset := true, rstNLow := false } }
     s.pwr.inReset = true ∧ s.pwr.rstNLow = false ∧ s.pwr.baseHeldOff = false ∧ s.pwr.state = .run) ∧
    (let s := { up with hif := { startStep := 9 }, pwr := { up.pwr with selfTest := .pass }, saf := { running := true, diagPassed := true } }
     baseRuns s = true ∧ s.hif.startStep = 9 ∧ s.pwr.selfTest = .pass ∧ s.saf.running = true ∧ s.saf.diagPassed = true ∧
      s.saf.moduleSafe = false ∧ s.wb.wdgFaulted = false ∧ clocksGood s = true) ∧
    (let s := { up with hif := { startStep := 9 }, pwr := { up.pwr with selfTest := .failed }, wb := { wdgFaulted := true } }
     baseRuns s = true ∧ s.hif.startStep = 9 ∧ s.pwr.selfTest = .failed ∧ s.wb.wdgFaulted = true) := by decide

theorem wit_PermitsAndTrips :
    (let s := { up with pd := { linkUp := true, drv := Vector.replicate 4 { latch := false, permits := ⟨true, true, true, true, true⟩, window := true, fresh := true } } }
     s.pd.drv[3].latch = false ∧ s.pd.drv[3].permits.get .app = true ∧ causeSession ≠ causeLink ∧ causeSession ≠ causeLine ∧ s.pd.drv[3].window = true ∧
       s.pd.drv[3].fresh = true ∧ s.safStore.trips[3].firstPermits ≠ stageBits [.app] ∧ s.pd.linkUp = true) ∧
    (let s := { up with pd := { linkUp := true, drv := Vector.replicate 4 { window := true, fresh := true } }
                        safStore := { trips := Vector.replicate 4 { firstPermits := 0x10 } } }
     s.pd.linkUp = true ∧ s.pd.drv[0].window = true ∧ s.pd.drv[0].fresh = true ∧ s.safStore.trips[0].firstPermits = stageBits [.app]) ∧
    (let s := { up with pd := { linkUp := false, drv := Vector.replicate 4 { window := true } } }; s.pd.drv[0].window = true ∧ s.pd.linkUp = false) ∧
    (let s := { up with wch := { refreshed := true }, saf := { running := true, step9 := true, diagPassed := true }, pwr := { up.pwr with selfTest := .pass } }
     Stage.wch ≠ .saf ∧ mayGrant s 0 .wch = true ∧ mayGrant s 0 .saf = true) := by decide

theorem wit_RearmNeedsFourPermits :
    (let s := { up with pd := { up.pd with drv := Vector.replicate 4 { latch := true, recorded := true, permits := ⟨true, true, true, false, true⟩ } }
                        saf := { running := true, diagPassed := true } }
     s.saf.running = true ∧ s.saf.diagPassed = true ∧ s.pd.drv[2].latch = true ∧ s.pd.drv[2].recorded = true ∧ s.pd.drv[2].gateFailed = false ∧
       causesMet s false 2 = true ∧ rearmPermits s.pd.drv[2].permits = false) ∧
    (let s := { up with pd := { up.pd with drv := Vector.replicate 4 { latch := true, recorded := true, permits := ⟨true, true, true, true, false⟩ } }
                        saf := { running := true, diagPassed := true } }
     let gate : GateTest := ⟨31, 15⟩
     causesMet s false 2 = true ∧ rearmPermits s.pd.drv[2].permits = true ∧ gate.opened = 31 ∧
       gate.closed &&& permitBits s.pd.drv[2].permits = permitBits s.pd.drv[2].permits) := by decide

theorem wit_SafetyReads : serves .tripCauseRead 0 [3, 0] (rung Cmd.tripCauseRead.code [3, 0]) ∧ serves .tripCauseRead 0 [4, 0] (rung Cmd.tripCauseRead.code [4, 0]) ∧
    serves .safetyStatusGet 0 [] (rung Cmd.safetyStatusGet.code []) ∧
    (let s := { rung Cmd.safetyRearmRequest.code [0, 0] with pd := { up.pd with drv := Vector.replicate 4 { latch := false } } }; serves .safetyRearmRequest 0 [0, 0] s ∧ s.pd.drv[0].latch = false) ∧
    (let s := { rung Cmd.safetyRearmRequest.code [0, 0] with pd := { up.pd with drv := Vector.replicate 4 { latch := true, recorded := true, permits := ⟨true, true, true, true, false⟩ } } }
     serves .safetyRearmRequest 0 [0, 0] s ∧ s.pd.drv[0].latch = true ∧
       (let u := modDrv 0 (fun r => { r with requested := true }) (takeUp 0 s)
        let p := { u.pd.drv[0].permits with saf := u.pd.drv[0].permits.saf || safMayGrant u false 0 }
        (causesMet u false 0 && rearmPermits p && u.pd.drv[0].recorded && !u.pd.drv[0].gateFailed) = true)) ∧
    (let s := { rung Cmd.safetyRearmRequest.code [0, 0] with pd := { up.pd with drv := Vector.replicate 4 { latch := true, recorded := false } } }
     serves .safetyRearmRequest 0 [0, 0] s ∧ s.pd.drv[0].latch = true ∧
       (let u := modDrv 0 (fun r => { r with requested := true }) (takeUp 0 s)
        let p := { u.pd.drv[0].permits with saf := u.pd.drv[0].permits.saf || safMayGrant u false 0 }
        (causesMet u false 0 && rearmPermits p && u.pd.drv[0].recorded && !u.pd.drv[0].gateFailed) = false)) := by
  refine ⟨?_, ?_, ?_, ⟨?_, by decide⟩, ⟨?_, by decide⟩, ⟨?_, by decide⟩⟩ <;> exact ⟨by decide, by decide, by decide, by decide, by decide⟩

theorem wit_FirewallAndEgress : basePowered up = true ∧ blocks up ⟨.app0, 0, .legalMram, false, 0, 0, true⟩ = true ∧
    notFormed ⟨.upd, 0, .legalMram, true, 0, 0, true⟩ = true ∧ isApp .dma = true ∧
    (let a : BusAccess := ⟨.saf, 0, .timeBlock, false, 0x00000004, 0, true⟩; blocks up a = false ∧ notFormed a = false ∧ a.region = .timeBlock ∧ a.write = false) ∧
    telemetryBytes up + ([] : Bytes).length ≤ 65536 ∧ { up with net := { port := Vector.replicate 8 { sending := some (.safety, []) } } }.net.port[7].sending ≠ none ∧
    (let q : Port := { safety := [[1]], session := [[2]], telemetry := [[3]], kbps := 10000 }; q.safety = [1] :: [] ∧ safetyMay 0 q [1] = true) ∧
    (let q : Port := { safety := [[1]], session := [[2]], telemetry := [[3]], kbps := 10000, safetySent := [(0, 25000000)], telemetrySince := 0 }
     (∀ a, q.safety.head? = some a → safetyMay 3275 q a = false) ∧ q.session = [2] :: [] ∧ telemetryDue 3275 q = false) ∧
    (let q : Port := { session := [[2]], telemetry := [[3]], telemetrySince := 0 }
     (∀ a, q.safety.head? = some a → safetyMay 3276 q a = false) ∧ q.telemetry = [3] :: [] ∧ telemetryDue 3276 q = true) ∧
    (let q : Port := { telemetry := [[3]] }; (∀ a, q.safety.head? = some a → safetyMay 0 q a = false) ∧ q.telemetry = [3] :: [] ∧ q.session = []) ∧
    (let q : Port := {}; (∀ a, q.safety.head? = some a → safetyMay 0 q a = false) ∧ q.session = [] ∧ q.telemetry = []) := by
  refine ⟨by decide, by decide, by decide, by decide, by decide, by decide, by decide, by decide +kernel, ⟨?_, rfl, by decide⟩, ⟨?_, rfl, by decide⟩,
    ⟨?_, rfl, rfl⟩, ⟨?_, rfl, rfl⟩⟩ <;> intro a h <;> simp at h
  subst h; decide +kernel

/-- States and operands that meet the hypotheses of every clause of SafetyReadsAndEgress. -/
theorem wit_SafetyReadsAndEgress : type_of% wit_SafetyReads ∧ type_of% wit_FirewallAndEgress := ⟨wit_SafetyReads, wit_FirewallAndEgress⟩

theorem wit_LifecycleRequests : up.hif.rdy = true ∧ up.hif.ignored = false ∧ (0x3C5A0003#32).toNat = 0x3C5A * 65536 + 3 ∧
    (0x3C5A0001#32).toNat = 0x3C5A * 65536 + 1 ∧ 3 < (0x3C5A0004#32).toNat % 65536 ∧ (0x3C5A0000#32).toNat % 65536 = 0 ∧
    (0x3C5B0001#32).toNat / 65536 ≠ 0x3C5A ∧ lcAllowed up 2 = false ∧ lifecycle { up with keys := { retired := 1 } } = 3 ∧
    (let s := { up with keys := { slots := Vector.replicate 64 { state := .valid } } }; lcAllowed s 1 = true ∧ lcAllowed s 3 = true) ∧
    (let s := { up with keys := { provisioned := 3 }, key := { auth := some (2, up.time.life - 1966080) } }; lcAllowed s 2 = true ∧
      s.key.auth = some (2, s.time.life - 1966080) ∧ (s.time.life - (s.time.life - 1966080)).toNat ≤ 60 * 32768) ∧
    (let s := { up with key := { auth := some (3, up.time.life - 1966081) } }
     s.key.auth = some (3, s.time.life - 1966081) ∧ 60 * 32768 < (s.time.life - (s.time.life - 1966081)).toNat) := by decide

theorem wit_KeyReads : serves .keySlotStatusGet 0 [] (rung Cmd.keySlotStatusGet.code []) ∧ serves .lifecycleGet 0 [] (rung Cmd.lifecycleGet.code []) ∧
    serves .measurementLogGet 0 [] (rung Cmd.measurementLogGet.code []) ∧
    (let b : Bytes := [3, 0, 0, 0, 0, 0, 0, 0]; serves .deviceCertGet 0 b (rung Cmd.deviceCertGet.code b) ∧ 2 < rd b 0 2) ∧
    (let b : Bytes := [2, 0, 0, 0, 1, 0, 0, 0]; serves .deviceCertGet 0 b (rung Cmd.deviceCertGet.code b) ∧ rd b 0 2 ≤ 2 ∧
      (((rung Cmd.deviceCertGet.code b).fab.certs.getD (rd b 0 2) []).length < rd b 4 4)) ∧
    (let b : Bytes := [2, 0, 0, 0, 0, 0, 0, 0]; serves .deviceCertGet 0 b (rung Cmd.deviceCertGet.code b) ∧ rd b 0 2 ≤ 2 ∧
      (rd b 4 4 ≤ ((rung Cmd.deviceCertGet.code b).fab.certs.getD (rd b 0 2) []).length)) := by
  refine ⟨?_, ?_, ?_, ⟨?_, by decide⟩, ⟨?_, by decide⟩, ⟨?_, by decide⟩⟩ <;> exact ⟨by decide, by decide, by decide, by decide, by decide⟩

theorem wit_ChannelReads : serves .channelStatusGet 0 [] (rung Cmd.channelStatusGet.code []) ∧
    serves .channelSatClear 0 [0, 0, 0, 0, 0, 0x80, 0, 0] (rung Cmd.channelSatClear.code [0, 0, 0, 0, 0, 0x80, 0, 0]) ∧
    serves .calibrationStatusGet 0 [] (rung Cmd.calibrationStatusGet.code []) ∧
    (let b : Bytes := [47, 0, 1, 0]; let s := { rung Cmd.samplesRead.code b with cfg := [(.ch 47 .visible, .num 0)] }; serves .samplesRead 0 b s ∧ rd b 0 1 = 47 ∧ appVisible s 47 = false) ∧
    (let b : Bytes := [48, 0, 1, 0]; let s := rung Cmd.samplesRead.code b; serves .samplesRead 0 b s ∧ 47 < rd b 0 1) ∧
    (let b : Bytes := [47, 0, 125, 0]; let s := { rung Cmd.samplesRead.code b with cfg := [(.ch 47 .visible, .num 1)] }
     serves .samplesRead 0 b s ∧ appVisible s 47 = true ∧ 124 < rd b 2 2) ∧
    (let b : Bytes := [47, 0, 124, 0]
     let s := { rung Cmd.samplesRead.code b with cfg := [(.ch 47 .visible, .num 1)], ch := Vector.replicate 48 { service := .inService } }
     serves .samplesRead 0 b s ∧ appVisible s 47 = true ∧ rd b 2 2 = 124 ∧ isOut s.ch[47] = false) ∧
    (let b : Bytes := [47, 0, 1, 0]
     let s := { rung Cmd.samplesRead.code b with cfg := [(.ch 47 .visible, .num 1)], ch := Vector.replicate 48 { service := .out 1 } }
     serves .samplesRead 0 b s ∧ appVisible s 47 = true ∧ rd b 2 2 = 1 ∧ isOut s.ch[47] = true) := by
  refine ⟨?_, ?_, ?_, ⟨?_, by decide⟩, ⟨?_, by decide⟩, ⟨?_, by decide⟩, ⟨?_, by decide⟩, ⟨?_, by decide⟩⟩ <;>
    exact ⟨by decide, by decide, by decide, by decide, by decide⟩

/-- States and operands that meet the hypotheses of every clause of KeyAndChannelReads. -/
theorem wit_KeyAndChannelReads : type_of% wit_KeyReads ∧ type_of% wit_ChannelReads := ⟨wit_KeyReads, wit_ChannelReads⟩

/-- A module whose slots are valid, and an envelope of one operation 3 on slot 8, counter 1, for device identity 0: its head, what it
carries, its key, and the whole with a tag. -/
def keyed : State := { up with keys := { up.keys with slots := Vector.replicate 64 { state := .valid } } }
def oneHead : Bytes := [0x49, 0x4B, 0x45, 0x56, 1, 0, 1, 0] ++ List.replicate 8 0 ++ [1, 0, 0, 0] ++ List.replicate 12 0
def onePlain : Bytes := [3, 8] ++ List.replicate 14 0
def oneKey : Bytes := hkdf sha256Of ((oneHead.drop 8).take 12) (slotKey keyed 2) (str "IKEV envelope") 32
def oneTag : Bytes := gcmTag (roundKeys oneKey) (List.replicate 12 0) oneHead (gcmCrypt (roundKeys oneKey) (List.replicate 12 0) onePlain)
def oneEnvelope (tag : Bytes) : Bytes := oneHead ++ (gcmCrypt (roundKeys oneKey) (List.replicate 12 0) onePlain ++ tag)

theorem oneEnvelope_head (tag : Bytes) (n m : Nat) (h : n + m ≤ 32) : ((oneEnvelope tag).drop n).take m = (oneHead.drop n).take m := by
  have e : oneHead.length = 32 := by decide
  rw [oneEnvelope, List.drop_append_of_le_length (by omega), List.take_append_of_le_length (by rw [List.length_drop]; omega)]

theorem oneEnvelope_rd (tag : Bytes) (n m : Nat) (h : n + m ≤ 32) : rd (oneEnvelope tag) n m = rd oneHead n m := by
  simp only [rd, oneEnvelope_head tag n m h]

theorem oneEnvelope_opens (tag : Bytes) (h : tag.length = 16) : openEnvelope (oneEnvelope tag) keyed = (oneTag == tag, onePlain) := by
  have e : oneHead.length = 32 := by decide
  have h1 : (oneEnvelope tag).drop 32 = gcmCrypt (roundKeys oneKey) (List.replicate 12 0) onePlain ++ tag := by
    rw [oneEnvelope, ← e, List.drop_left]
  have h2 : (oneEnvelope tag).take 32 = oneHead := by rw [oneEnvelope, ← e, List.take_left]
  have h3 : (oneHead.drop 20).take 12 = List.replicate 12 0 := by decide
  rw [openEnvelope, h1, h2, oneEnvelope_head tag 8 12 (by decide), oneEnvelope_head tag 20 12 (by decide), h3, ← oneKey,
    gcmOpen_sealed oneKey _ oneHead onePlain tag (hkdf256_length _ _ _) h, ← oneTag]

theorem oneEnvelope_length (tag : Bytes) (h : tag.length = 16) : (oneEnvelope tag).length = 64 := by
  have e : oneHead.length = 32 := by decide
  have e' : onePlain.length = 16 := by decide
  rw [oneEnvelope, List.length_append, List.length_append, gcmCrypt_length _ _ _ (roundKeys_last oneKey (hkdf256_length _ _ _)), h, e, e']

theorem oneTag_length : oneTag.length = 16 := gcmTag_length _ _ _ _ (roundKeys_last oneKey (hkdf256_length _ _ _))

theorem oneEnvelope_applies : (applyEnvelope (oneEnvelope oneTag) keyed).1 = .ok := by
  have h := oneEnvelope_opens oneTag oneTag_length
  have hl := oneEnvelope_length oneTag oneTag_length
  simp only [applyEnvelope, h, hl, oneEnvelope_rd oneTag 0 4 (by decide), oneEnvelope_rd oneTag 4 2 (by decide), oneEnvelope_rd oneTag 6 1 (by decide),
    oneEnvelope_rd oneTag 16 4 (by decide), oneEnvelope_head oneTag 8 8 (by decide), beq_self_eq_true]
  decide +kernel

theorem wit_EnvelopesInOrder :
    (∀ tag : Bytes, tag.length = 16 → (let e := oneEnvelope tag
      lifecycle keyed ≠ 3 ∧ rd e 0 4 = 0x56454B49 ∧ rd e 4 2 = 1 ∧ rd e 6 1 = 1 ∧ (parseOps 1 (openEnvelope e keyed).2).isSome = true ∧
        (openEnvelope e keyed).2.length + 48 = e.length ∧ beNat ((e.drop 8).take 8) = keyed.fab.deviceId.toNat ∧ keyed.keys.counterOk = true ∧
        keyed.keys.counter.toNat < rd e 16 4 ∧ rd e 16 4 ≤ (1#32).toNat ∧ slotValid keyed.keys 2 = true)) ∧
    (applyEnvelope (oneEnvelope oneTag) keyed).1 = .ok ∧ (openEnvelope (oneEnvelope (oneTag.map (· + 1))) keyed).1 = false ∧
    (applyEnvelope [] keyed).1 ≠ .ok ∧ beNat (((oneEnvelope oneTag).drop 8).take 8) ≠ (1#64).toNat ∧ lifecycle { up with keys := { retired := 3 } } = 3 ∧
    (let e : Bytes := List.replicate 64 0
     Cmd.keyEnvelopeApply.lenOk e.length e = true ∧ Cmd.keyEnvelopeApply.lenOk 0 [] = false ∧ serves .keyEnvelopeApply 0 e (rung Cmd.keyEnvelopeApply.code e)) ∧
    (let s := { up with svc := { connected := true } }; s.svc.connected = true ∧ appRuns s = true) := by
  have ht : (oneTag.map (· + 1)).length = 16 := by rw [List.length_map, oneTag_length]
  refine ⟨fun tag h => ⟨by decide, oneEnvelope_rd tag 0 4 (by decide), oneEnvelope_rd tag 4 2 (by decide),
      oneEnvelope_rd tag 6 1 (by decide), ?_, ?_, ?_, by decide, ?_, ?_, by decide⟩, oneEnvelope_applies, ?_, by decide,
    by rw [oneEnvelope_head oneTag 8 8 (by decide)]; decide, by decide, ⟨by decide, by decide, by decide, by decide, by decide, by decide, by decide⟩, by decide⟩
  · simp only [oneEnvelope_opens tag h]; decide
  · simp only [oneEnvelope_opens tag h, oneEnvelope_length tag h]; decide
  · simp only [oneEnvelope_head tag 8 8 (by decide)]; decide
  · simp only [oneEnvelope_rd tag 16 4 (by decide)]; decide
  · simp only [oneEnvelope_rd tag 16 4 (by decide)]; decide
  · rw [oneEnvelope_opens _ ht]
    have hl := oneTag_length
    revert hl; generalize oneTag = l
    intro hl
    cases l with
    | nil => simp at hl
    | cons a l => simp

theorem wit_UsageBits :
    (let s := up
     basePowered s = true ∧ s.pwr.appIsland = true ∧ s.keys.slots[(8 : Fin 64)].usage.getLsbD 0 = false ∧ s.keys.slots[(8 : Fin 64)].usage.getLsbD 1 = false ∧
      s.keys.slots[(8 : Fin 64)].usage.getLsbD 2 = false ∧ s.keys.slots[(8 : Fin 64)].usage.getLsbD 4 = false ∧
      s.keys.slots[(8 : Fin 64)].usage.getLsbD 6 = false ∧ s.keys.slots[Fin.ofNat 64 63].kind ≠ 2) ∧
    usageOk 3 0x83 = true ∧ usageOk 1 0x84 = true ∧ usageOk 2 0x88 = true ∧ usageOk 6 0xB0 = true ∧ usageOk 7 0xC0 = true := by decide

/-- A debugger's key, and a module that holds it in slot 63 with an empty challenge. -/
def debugKey : Bytes :=
  keyBytes 0x37AB972F3F16131FC5D8EA58342BB753D68B8ADB8184243A02F5826BB2FAEA4C675754D35CFD136BD0BBA9E461D47F4F
    0xC33BAB5716B13A5794C5BBF8D39DE60961626D361E769D1E92D8719EE69778D31CB51442BB266B9D10AA6929804882F6
def debugged : State :=
  { up with
    keys := { provisioned := 3, slots := Vector.replicate 64 { state := .valid, kind := 6, usage := 0xB0, data := debugKey } }
    key := { challenge := some [] } }

theorem wit_CryptoAndDebug : baseRuns up = true ∧ basePowered up = true ∧ up.pwr.appIsland = true ∧
    (let s := debugged
     requestAllowed s ⟨2, .verify, 63, [], []⟩ = true ∧ requestAllowed s ⟨2, .sign, 63, [], []⟩ = false ∧ lifecycle s = 1 ∧ s.key.debugFails < 3 ∧
      s.key.rngOk = true ∧ s.key.challenge = some [] ∧ debugSlot s 63 = true ∧ debugSlot s 7 = false ∧
      slotVerifies s 63 ([] ++ beBytes 8 s.fab.deviceId.toNat ++ u8 (lifecycle s))
        (twice 0x1DCC9EAE025EE7A8AB754E88D8B39B37BB5739C1F2D4402DA3133BB3CAB0EB7A43A5B8CDE3ADC327F4EFF7E42BB575FA) = true) ∧
    (let j : CryptoJob := ⟨⟨2, .sign, 8, [], []⟩, {}, []⟩
     let s := { up with key := { jobs := [j], debugFails := 3 } }
     s.key.jobs = j :: [] ∧ j.req.channel = 2 ∧ 3 ≤ s.key.debugFails ∧ lifecycle s = 2) ∧
    { up with pwr := { state := .idle } }.pwr.appIsland = false := by decide +kernel

/-- States and operands that meet the hypotheses of every clause of CryptoRequests. -/
theorem wit_CryptoRequests : type_of% wit_UsageBits ∧ type_of% wit_CryptoAndDebug := ⟨wit_UsageBits, wit_CryptoAndDebug⟩

theorem wit_IslandFramesAndLinks :
    (let s := { up with isl := Vector.replicate 6 { powered := true, linkUp := true }, ch := Vector.replicate 48 { cfg := { range := .mv31 } } }
     s.isl[5].powered = true ∧ s.isl[5].linkUp = true ∧ frameGood s.isl[5].lastStatus 0 = false ∧
      frameGood s.isl[5].lastStatus (BitVec.ofNat 40 (0xA0000000 * 256 + (crc8 (beBytes 4 0xA0000000)).toNat)) = true ∧
      islandOf 47 = 5 ∧ s.isl[5].failed.contains 8 = false ∧ (7 : Fin 9) ≠ 8 ∧ s.isl[5].spare = .idle ∧ s.isl[5].darning = none ∧
      s.isl[5].selfTest = none ∧ s.ch[47].cfg.range ≠ .divider) ∧
    (let s := { up with isl := Vector.replicate 6 { powered := true, linkUp := true, spare := .faulty } }
     s.isl[0].linkUp = true ∧ s.isl[0].failed.contains 0 = false ∧ s.isl[0].spare = .faulty) ∧
    (let s := { up with isl := Vector.replicate 6 { powered := true, linkUp := false }, ch := Vector.replicate 48 { cfg := { range := .divider } } }
     s.isl[0].powered = true ∧ s.isl[0].linkUp = false ∧ s.ch[0].cfg.range = .divider) := by decide +kernel

theorem wit_WeaveAndSynchronisation :
    (let s := { up with weave := { running := true, syncDue := true, wraps := 256 }, met := { running := true }
                        ch := Vector.replicate 48 { service := .returning, staleFrames := 0, settle := 0 }
                        cfg := [(.ch 47 .wvDrivers, .num 8)] }
     s.weave.running = true ∧ driversMapped s .wvDrivers 47 ≠ [] ∧ isOut s.ch[47] = false ∧ s.ch[47].stale48 = 0 ∧ s.ch[47].staleFrames = 0 ∧
      s.weave.syncDue = true ∧ s.weave.everLocked = false ∧ 256 * (s.weave.cycles + 1) ≤ s.weave.wraps ∧ s.met.running = true ∧
      s.ch[47].service = .returning ∧ s.ch[47].settle = 0) ∧
    (let s := { up with weave := { running := true, wraps := 255 } }; s.weave.wraps < 256 * (s.weave.cycles + 1)) ∧
    (let s := { rung Cmd.syncTrigger.code [] with weave := { running := true } }; serves .syncTrigger 0 [] s ∧ s.weave.running = true ∧ stillSettling s = false) ∧
    (let s := { rung Cmd.syncTrigger.code [] with ch := Vector.replicate 48 { service := .inService, settle := 1 } }
     serves .syncTrigger 0 [] s ∧ stillSettling s = true) := by
  refine ⟨by decide, by decide, ⟨?_, by decide⟩, ⟨?_, by decide⟩⟩ <;> exact ⟨by decide, by decide, by decide, by decide, by decide⟩

theorem wit_Darning :
    (let s := { up with isl := Vector.replicate 6 { powered := true, linkUp := true, calNext := 7 }, ch := Vector.replicate 48 { service := .inService } }
     s.isl[5].powered = true ∧ s.isl[5].linkUp = true ∧ calDue s 5 7 = true ∧ deferReason s 5 7 = none ∧ s.isl[5].spare = .idle ∧ s.isl[5].darning = none ∧
       s.isl[5].selfTest = none ∧ s.isl[5].spareDone = false ∧ s.isl[5].spare ≠ .faulty) ∧
    (let s := { up with isl := Vector.replicate 6 { powered := true, linkUp := true, spare := .faulty } }
     calDue s 0 0 = true ∧ deferReason s 0 0 = some 1 ∧ s.isl[0].spare = .faulty ∧ s.isl[0].darning = none) ∧
    (∀ st : DarnStep, ∀ (l : List (Rat × Rat)), let d : Darning := ⟨7, st, l, 0⟩
      { up with isl := Vector.replicate 6 { darning := some d } }.isl[5].darning = some d ∧ d.m = 7 ∧ d.step = st ∧ d.weight = 0) ∧
    (let l : List (Rat × Rat) := List.replicate 256 (1, 1 + 1 / 1000)
     256 ≤ l.length ∧ (∀ p ∈ l, |p.1 - p.2| ≤ (1 + |p.1|) / 2000) ∧ ∀ p ∈ l, |p.1 - p.2| ≤ (1 + |p.2|) / 2000) ∧
    (let l : List (Rat × Rat) := List.replicate 256 (1, 1 + 1 / 500)
     256 ≤ l.length ∧ (∃ p ∈ l, ¬ |p.1 - p.2| ≤ (1 + |p.1|) / 2000) ∧ ∃ p ∈ l, ¬ |p.1 - p.2| ≤ (1 + |p.2|) / 2000) ∧
    ([] : List (Rat × Rat)).length < 256 ∧
    (∀ t ∈ [(⟨7, true, false⟩ : PairTest), ⟨6, true, true⟩], { up with isl := Vector.replicate 6 { selfTest := some t } }.isl[5].selfTest = some t ∧ t.under = true) := by
  refine ⟨by decide, by decide, fun st l => ⟨rfl, rfl, rfl, rfl⟩, ⟨by rw [List.length_replicate], ?_, ?_⟩, ⟨by rw [List.length_replicate],
    ⟨(1, 1 + 1 / 500), List.mem_replicate.2 ⟨by decide, rfl⟩, by decide +kernel⟩, ⟨(1, 1 + 1 / 500), List.mem_replicate.2 ⟨by decide, rfl⟩, by decide +kernel⟩⟩, by decide, by decide⟩ <;> intro p h <;> rw [List.eq_of_mem_replicate h] <;> decide +kernel

theorem wit_EnergyBooking : (0 : Rat) ≤ 1 / 2 ∧ (0 : Rat) ≤ 7 / 2 ∧
    (let s := { up with met := { running := true, waitPeriod := false }
                        fab := { up.fab with profile := { up.fab.profile with sel := ⟨{ wiring := .w1p2w, volts := [0, 1], amps := [2] }, {}, {}⟩ } } }
     s.met.running = true ∧ s.met.waitPeriod = false ∧ isWired (selProfile s .supply) = true ∧
       ((selChannels (selProfile s .supply)).map (newest s)).any wordBad = true) := by decide +kernel

/-- A module that meters its outlet A with one phase, on channels that deliver clean samples. -/
def metered : State :=
  { up with
    met := { running := true, waitPeriod := false }
    fab := { up.fab with profile := { up.fab.profile with sel := ⟨{}, { wiring := .w1p2w, volts := [0, 1], amps := [2] }, {}⟩ } }
    ch := Vector.replicate 48 { service := .inService, metPort := { desc := { count := 1 } } } }

theorem wit_MeteringRows :
    (let s := metered; let p := selProfile s .a
     s.met.running = true ∧ s.met.requests = [] ∧ up.met.running = false ∧ s.met.waitPeriod = false ∧ isWired p = true ∧ ((selChannels p).map (newest s)).any wordBad = false ∧
      (selChannels p).any (fun i => s.ch[i].service != .inService) = false ∧ (s.met.acc.get .a).held = false ∧
      s.met.aged.contains (0, 2) = false ∧ allSelectors.any (fun x => usesModulator s (selProfile s x) 0 2) = true ∧
      240 * cfgNat s.cfg s.fab (.gen .calInterval) * 32768 < (s.time.life - (s.isl[0]).calLife[2]).toNat ∧
      s.met.windowCycles < 10 ∧ (s.met.acc.get .a).gap = false ∧ (s.met.acc.get .a).gapSince = none ∧ baseRuns s = true) ∧
    { up with met := { running := true, waitPeriod := true } }.met.waitPeriod = true ∧
    (let s := { metered with met := { metered.met with windowCycles := 10 } }
     (if cfgNat s.cfg s.fab (.gen .mainsHz) = 50 then 10 else 12) ≤ s.met.windowCycles) ∧
    (let s := { metered with
       met := { metered.met with acc := ⟨{}, { last := some { volts := [], amps := [], comp := 0 }, synced := true, skipped := 16 }, {}⟩ }
       veh := { out := ⟨{ id := 1, billed := true }, {}⟩ } }
     let a := s.met.acc.get .a
     Selector.a = selOfOutlet .a ∧ a.last = some { volts := [], amps := [], comp := 0 } ∧ a.synced = true ∧ a.skipped ≠ 0 ∧ a.broken = false ∧
       a.held = false ∧ bridges s .a = true ∧ sessionOpen s .a = true ∧ (s.veh.out.get .a).billed = true) ∧
    (∀ n ∈ [32768, 32769], let s := { metered with
       met := { metered.met with acc := ⟨{}, { gapSince := some (up.time.life - BitVec.ofNat 64 n) }, {}⟩ }, veh := { out := ⟨{ id := 1, billed := true }, {}⟩ } }
     (s.met.acc.get .a).gapSince = some (up.time.life - BitVec.ofNat 64 n) ∧ (s.time.life - (up.time.life - BitVec.ofNat 64 n)).toNat = n ∧
       sessionOpen s .a = true ∧ (s.veh.out.get .a).billed = true) ∧
    { metered with met := { metered.met with acc := ⟨{}, { gap := true }, {}⟩ } }.met.acc.a.gap = true := by decide +kernel

theorem wit_MeterReads : serves .meterRead 0 [2, 0] (rung Cmd.meterRead.code [2, 0]) ∧ serves .meterRead 0 [3, 0] (rung Cmd.meterRead.code [3, 0]) ∧
    rd [2, 0] 0 2 = selNum .b ∧ 2 < rd [3, 0] 0 2 ∧
    (let b : Bytes := [48, 1, 63, 1]; serves .harmonicsRead 0 b (rung Cmd.harmonicsRead.code b) ∧ 47 < rd b 0 1) ∧
    (let b : Bytes := [47, 1, 63, 1]; let s := { rung Cmd.harmonicsRead.code b with ch := Vector.replicate 48 { cfg := { mode := .fixed } } }
     serves .harmonicsRead 0 b s ∧ rd b 0 1 = 47 ∧ s.ch[47].cfg.mode ≠ .mains) ∧
    (let b : Bytes := [47, 1, 63, 1]; let s := { rung Cmd.harmonicsRead.code b with ch := Vector.replicate 48 { cfg := { mode := .mains } }, met := { h := 0 } }
     serves .harmonicsRead 0 b s ∧ s.ch[47].cfg.mode = .mains ∧ rd b 1 1 = 1 ∧ rd b 2 1 = 63 ∧ rd b 3 1 = 1 ∧ s.met.h = 0) ∧
    (let b : Bytes := [47, 1, 63, 1]; let s := { rung Cmd.harmonicsRead.code b with ch := Vector.replicate 48 { cfg := { mode := .mains } }, met := { h := 40 } }
     serves .harmonicsRead 0 b s ∧ s.ch[47].cfg.mode = .mains ∧ s.met.h ≠ 0) ∧
    (let b : Bytes := [47, 2, 63, 1]; let s := { rung Cmd.harmonicsRead.code b with ch := Vector.replicate 48 { cfg := { mode := .mains } } }
     serves .harmonicsRead 0 b s ∧ 64 < rd b 1 1 + rd b 2 1) := by
  refine ⟨?_, ?_, by decide, by decide, ⟨?_, by decide⟩, ⟨?_, by decide⟩, ⟨?_, by decide⟩, ⟨?_, by decide⟩, ⟨?_, by decide⟩⟩ <;>
    exact ⟨by decide, by decide, by decide, by decide, by decide⟩

/-- A module that holds log entry 1 and record 1. -/
def logged (code : Nat) (args : Bytes) : State :=
  let r : Record := { number := 1, outlet := .a, session := 1, idKind := 0, identity := [], idSource := 0, readings := [], bidirectional := false, text := [0x4F] }
  { rung code args with legal := { log := [{ number := 1, kind := 1, epoch := 0, life := 0, rtc := 0, rtcValid := true, continued := false, subject := 0xFF, data := [] }], nextEntry := 2, records := [r] } }

theorem wit_BillingReads : serves .billingRegistersRead 0 [7, 0] (rung Cmd.billingRegistersRead.code [7, 0]) ∧
    serves .billingRegistersRead 0 [8, 0] (rung Cmd.billingRegistersRead.code [8, 0]) ∧ rd [7, 0] 0 2 = 7 ∧ 7 < rd [8, 0] 0 2 ∧
    serves .demandRead 0 [1, 0, 11, 0] (rung Cmd.demandRead.code [1, 0, 11, 0]) ∧ serves .demandRead 0 [1, 0, 12, 0] (rung Cmd.demandRead.code [1, 0, 12, 0]) ∧
    rd [1, 0, 11, 0] 0 2 ≤ 1 ∧ rd [1, 0, 11, 0] 2 2 ≤ 11 ∧ 11 < rd [1, 0, 12, 0] 2 2 ∧
    (let b : Bytes := [1, 0, 0, 0, 1, 0, 0, 0]; let s := logged Cmd.legalLogRead.code b
     serves .legalLogRead 0 b s ∧ rd b 4 2 = 1 ∧ damaged s.legal.badEntries (rd b 0 4 + 0) = false ∧
       s.legal.log.find? (fun e => e.number == rd b 0 4 + 0) = s.legal.log[0]? ∧ s.legal.log.length = rd b 4 2) ∧
    (let b : Bytes := [2, 0, 0, 0, 15, 0, 0, 0]; let s := logged Cmd.legalLogRead.code b
     serves .legalLogRead 0 b s ∧ rd b 4 2 = 15 ∧ ∀ e ∈ s.legal.log, e.number ≠ rd b 0 4 + 0) ∧
    (let b : Bytes := [1, 0, 0, 0, 16, 0, 0, 0]; serves .legalLogRead 0 b (logged Cmd.legalLogRead.code b) ∧ 15 < rd b 4 2) ∧
    (let b : Bytes := [1, 0, 0, 0, 1, 0, 0, 0]; let s := logged Cmd.sessionRecordRead.code b
     serves .sessionRecordRead 0 b s ∧ s.legal.records.find? (fun r => r.number == rd b 0 4 && !r.text.isEmpty) = s.legal.records[0]? ∧
       damaged s.legal.badRecords (rd b 0 4) = false ∧ rd b 4 4 = 1 ∧ damaged [(1, 1)] (rd b 0 4) = true) ∧
    (let b : Bytes := [2, 0, 0, 0, 2, 0, 0, 0]; let s := logged Cmd.sessionRecordRead.code b
     serves .sessionRecordRead 0 b s ∧ s.legal.records.find? (fun r => r.number == rd b 0 4 && !r.text.isEmpty) = none ∧ 1 < rd b 4 4) := by
  refine ⟨?_, ?_, by decide, by decide, ?_, ?_, by decide, by decide, by decide, ⟨?_, by decide⟩, ⟨?_, by decide⟩, ⟨?_, by decide⟩, ⟨?_, by decide⟩, ⟨?_, by decide⟩⟩ <;>
    exact ⟨by decide, by decide, by decide, by decide, by decide⟩

/-- States and operands that meet the hypotheses of every clause of MeterAndBillingReads. -/
theorem wit_MeterAndBillingReads : type_of% wit_MeterReads ∧ type_of% wit_BillingReads := ⟨wit_MeterReads, wit_BillingReads⟩

theorem wit_TariffAndDemand :
    (let s (sec : BitVec 33) : State := { up with met := { running := true }, time := { up.time with rtcSec := sec }, bill := { table := ⟨1, [⟨1, 0x7F, 1⟩]⟩, logWait := [{ kind := 1, epoch := 0, life := 0, rtc := 0, rtcValid := true, continued := false, subject := 0xFF, data := [] }] } }
     (s 60).met.running = true ∧ (s 60).time.valid = true ∧ (s 60).bill.table.entries[0]? = some ⟨1, 0x7F, 1⟩ ∧ remoteDue (s 60) = false ∧
       entryStarts (s 60) ⟨1, 0x7F, 1⟩ = true ∧ entryStarts (s 61) ⟨1, 0x7F, 1⟩ = false ∧ entryStarts (s 120) ⟨1, 0x7F, 1⟩ = false ∧
       ((s 60).bill.held.map (·.second)) ≠ some (s 60).time.rtcSec.toNat ∧ 1 ≠ (s 60).bill.tariff ∧ (s 60).bill.logWait ≠ [] ∧
       (s 3600).time.rtcSec.toNat % (60 * (s 3600).bill.demand.keys.intervalMin) = 0 ∧ (s 61).time.rtcSec.toNat % (60 * (s 61).bill.demand.keys.intervalMin) ≠ 0 ∧
       (s 3600).time.rtcSec.toNat % (60 * (s 3600).bill.demand.keys.subMin) = 0 ∧ (s 61).time.rtcSec.toNat % (60 * (s 61).bill.demand.keys.subMin) ≠ 0 ∧
       lastReset (s 60).bill.demand.keys.resetDay 60 ≤ ((s 60).bill.demand.fixedPeriods.headD {}).start ∧
       ((s 3000000).bill.demand.fixedPeriods.headD {}).start < lastReset (s 3000000).bill.demand.keys.resetDay (s 3000000).time.rtcSec.toNat) ∧
    (let s := { up with met := { running := true }, bill := { table := ⟨1, [⟨1, 0x7F, 0⟩]⟩, remote := some ⟨2, 0⟩ } }
     s.met.running = true ∧ remoteDue s = true) := by decide +kernel

theorem wit_TariffCommands :
    (let b : Bytes := [1, 0, 0, 0, 7, 0x7F, 0x9F, 0x05, 0, 0, 0, 0]
     serves .tariffTableLoad 0 b (rung Cmd.tariffTableLoad.code b) ∧ tableFails (tableArgs b) = none) ∧
    (let b : Bytes := [1, 0, 0, 0, 8, 0x7F, 0x9F, 0x05, 0, 0, 0, 0]
     serves .tariffTableLoad 0 b (rung Cmd.tariffTableLoad.code b) ∧ tableFails (tableArgs b) = some .tariffRange) ∧
    (let b : Bytes := [7, 1, 0, 0, 1, 0, 0, 0, 0, 0, 0, 0]
     serves .tariffSwitch 0 b (rung Cmd.tariffSwitch.code b) ∧ switchFails (rung Cmd.tariffSwitch.code b) (rd b 0 1) (rd b 1 1) (rd b 4 8) = none) ∧
    (let b : Bytes := [8, 1, 0, 0, 1, 0, 0, 0, 0, 0, 0, 0]
     serves .tariffSwitch 0 b (rung Cmd.tariffSwitch.code b) ∧ switchFails (rung Cmd.tariffSwitch.code b) (rd b 0 1) (rd b 1 1) (rd b 4 8) = some .tariffRange) ∧
    up.time.valid = true ∧ (up.time.rtcSec.toNat < 34560000) ∧ up.time.rtcSec.toNat ≤ 0 ∧ { up with met := { running := true } }.met.running = true := by
  refine ⟨⟨?_, by decide⟩, ⟨?_, by decide⟩, ⟨?_, by decide⟩, ⟨?_, by decide⟩, by decide, by decide, by decide, by decide⟩ <;>
    exact ⟨by decide, by decide, by decide, by decide, by decide⟩

theorem wit_RecordsSigned :
    (let r : Record := { number := 1, outlet := .a, session := 1, idKind := 0, identity := [], idSource := 0, readings := [], bidirectional := false, closed := true }
     let s := { up with met := { running := true }, legal := { records := [r] } }
     s.met.running = true ∧ unsignedRecord s .a = some r ∧ unsignedRecord s .b = none ∧ s.legal.fault = none ∧ r.failures = 0 ∧
       { r with failures := 1 }.failures ≠ 0) ∧ { up with legal := { fault := some 0 } }.legal.fault ≠ none := by decide

/-- States and operands that meet the hypotheses of every clause of TariffCommandsAndRecords. -/
theorem wit_TariffCommandsAndRecords : type_of% wit_TariffCommands ∧ type_of% wit_RecordsSigned := ⟨wit_TariffCommands, wit_RecordsSigned⟩

theorem wit_PilotAndCable : (10800 : Int) < 12000 ∧ pilotRead { up with veh := { out := ⟨{ drive := .plus12 }, {}⟩ } } .a = true ∧
    cpNext .a 12000 = .a ∧ cpNext .a 9000 ≠ .a ∧ ppOf 100 ≠ PpState.noCable ∧ 8 ≤ up.hif.startStep.toNat ∧ up.pwr.state = .run ∧
    outNat { up with cfg := [(.out .a .ppMode, .num 1)] } .a .ppMode ≠ 0 ∧ { up with pwr := { state := .idle } }.pwr.state ≠ .run ∧
    (let s := { up with fab := { up.fab with variant := .ad }, veh := { out := ⟨{}, { state := .transfer, pp := .cable 32, drive := .pwm 500, cp := .c }⟩ } }
     (isDc s .a = false ∧ isDc s .b = true ∨ isDc s .a = true ∨ isDc s .b = false) ∧ (s.veh.out.get .b).drive = .pwm 500 ∧ (s.veh.out.get .b).force = none ∧
       (s.veh.out.get .b).cp = .c ∧ (s.veh.out.get .b).state ≠ .idle ∧ (s.veh.out.get .b).state ≠ .ended ∧ (s.veh.out.get .b).state ≠ .fault) ∧
    (let s := { up with fab := { up.fab with variant := .aa }, veh := { out := ⟨{ state := .transfer, pp := .cable 32 }, {}⟩ } }
     isDc s .a = false ∧ outNat s .a .ppMode = 0 ∧ (s.veh.out.get .a).state = .transfer ∧ ppOf 0 = .fault ∧ ppOf 0 ≠ (s.veh.out.get .a).pp ∧
       (s.veh.out.get .b).state = .idle ∧ ppOf 0 ≠ (s.veh.out.get .b).pp) ∧
    (let s := { up with fab := { up.fab with variant := .dd } }; isDc s .a = true ∧ outNat s .a .ppMode = 0 ∧ ppOf 0 ≠ (s.veh.out.get .a).pp) ∧
    (let s := { up with veh := { out := ⟨{ lockout := true, cpASince := some (up.time.life - 65536) }, {}⟩ } }
     (s.veh.out.get .a).lockout = true ∧ (s.veh.out.get .a).cp = .a ∧ (s.veh.out.get .a).cpASince = some (up.time.life - 65536)) := by decide

theorem wit_Handshake :
    (let s := dcOut { state := .plugged, slac := .param }; linkUsable s .a = true ∧ (s.veh.out.get .a).slac = .param) ∧
    (let s := dcOut { state := .plugged, slac := .sounded }; linkUsable s .a = true ∧ (s.veh.out.get .a).slac = .sounded ∧ s.key.rngOk = true ∧
      (s.veh.out.get .a).attenDb ≤ cfgNat (outCfg s .a) s.fab (.gen .slacAtten) ∧ betterElsewhere s .a = false) ∧
    (let s := dcOut { state := .plugged, slac := .sounded, attenDb := 255 }; cfgNat (outCfg s .a) s.fab (.gen .slacAtten) < (s.veh.out.get .a).attenDb) ∧
    (let s := dcOut { state := .plugged, slac := .matched }; linkUsable s .a = true ∧ (s.veh.out.get .a).slac = .matched ∧ (s.veh.out.get .a).state = .plugged) ∧
    (let s := dcOut { state := .negotiating, sdp := .tls }; linkUsable s .a = true ∧ (s.veh.out.get .a).sdp ≠ .none ∧ isDc s .a = true) ∧
    (let s := dcOut { state := .authorising, protocol := some .iso20, authorised := true }; isHlc (s.veh.out.get .a) = true ∧ (s.veh.out.get .a).state = .authorising) ∧
    (let s := dcOut { state := .paused, pauseSince := some 0 }; (s.veh.out.get .a).state = .paused ∧ (s.veh.out.get .a).pauseSince = some 0) ∧
    (let s := dcOut { state := .stopping, stopSince := some 0 }; (s.veh.out.get .a).state = .stopping ∧ (s.veh.out.get .a).stopSince = some 0) ∧
    (dcOut { state := .insulation }).veh.out.a.state = .insulation ∧ (let x := (dcOut { state := .preCharge }).veh.out.a; x.state = .preCharge ∧ x.preReady = false) ∧
    (let s := dcOut { state := .transfer, slac := .matched, protocol := some .din }; (s.veh.out.get .a).state = .transfer ∧ (s.veh.out.get .a).slac = .matched) := by decide

theorem wit_Energising :
    (let s := { dcOut { state := .negotiating, protocol := some .iso20, id := 1, authorised := true } with
       pd := { drv := Vector.replicate 4 { latch := false, permits := ⟨true, true, true, true, false⟩ } } }
     isDc s .a = true ∧ isHlc (s.veh.out.get .a) = true ∧ sessionOpen s .a = true ∧ (s.veh.out.get .a).authorised = true ∧ ready s .a = true) ∧
    (let s := dcOut { state := .insulation, insTest := .ramping, testMv := 500000 }; (s.veh.out.get .a).state = .insulation ∧
      20 * (((475000 : Nat) : Int) - (s.veh.out.get .a).testMv).natAbs ≤ (s.veh.out.get .a).testMv) ∧
    (let s := dcOut { state := .insulation, insTest := .stable, testMv := 500000 }; isDc s .a = true ∧ s.saf.running = true ∧
      100 * (s.veh.out.get .a).testMv ≤ min 50000 60000 * 1000 ∧ min 49999 60000 * 1000 < 100 * (s.veh.out.get .a).testMv) ∧
    (let s := { dcOut { state := .transfer, protocol := some .iso20 } with saf := { running := true, out := ⟨{ imd := { badRun := 1 } }, {}⟩ } }
     (s.veh.out.get .a).state = .transfer ∧ min 5999 6000 * 1000 < 100 * 60000 ∧ (s.saf.out.get .a).imd.badRun = 1 ∧ (s.veh.out.get .a).reversing = false ∧
      (s.veh.out.get .a).targetW = none ∧ (s.veh.out.get .a).delivered.natAbs + (s.veh.out.get .a).delivered.natAbs / 10 + (if isDc s .a then 2000 else 1000) < (2001 : Int).natAbs) ∧
    (let s := { dcOut { state := .preCharge, preReady := true, protocol := some .din } with
       pd := { drv := Vector.replicate 4 { latch := false, permits := ⟨true, true, true, true, false⟩ } } }
     (s.veh.out.get .a).state = .preCharge ∧ (s.veh.out.get .a).preReady = true ∧ ready s .a = true) ∧
    (let s := { up with fab := { up.fab with variant := .aa }, veh := { out := ⟨{ held := true, state := .transfer }, {}⟩ } }
     isDc s .a = false ∧ (s.veh.out.get .a).held = true ∧ (s.veh.out.get .a).state = .transfer ∧ holdoffOver s .a = true) ∧
    (let s := dcOut { state := .paused, negotiating := true, dwell := some 0 }; (s.veh.out.get .a).negotiating = true ∧ (s.veh.out.get .a).dwell = some 0) := by decide

theorem wit_SessionCommands :
    (let b : Bytes := [0, 0, 0, 0, 0, 0, 0, 0]; let s := { rung Cmd.sessionStart.code b with pwr := { up.pwr with selfTest := .pass } }
     serves .sessionStart 0 b s ∧ rd b 0 1 = Outlet.a.num ∧ rd b 1 1 ≤ 1 ∧ rd b 2 1 ≤ 3 ∧ lifecycle s = 2 ∧ startBarred s .a false = false ∧
       (∀ c ∈ startChecks s .a false [] false, c.1 = false)) ∧
    (let b : Bytes := [0, 1, 0, 0, 0, 0, 0, 0]; let s := rung Cmd.sessionStart.code b
     serves .sessionStart 0 b s ∧ lifecycle s = 2 ∧ startBarred s .a true = false ∧
       (startChecks s .a true [] false).map (·.1) = [false, false, false, false, true, false, false] ∧ startBarred { s with wch := { s.wch with trmOpen := true } } .a true = true ∧
       lifecycle { s with keys := {} } = 0) ∧
    (let b : Bytes := [1, 0, 0, 0, 1, 0, 0, 0]; let s := { rung Cmd.sessionStop.code b with veh := { out := ⟨{}, { id := 1 }⟩ } }
     serves .sessionStop 0 b s ∧ sessionOf s (rd b 0 4) = some .b ∧ sessionOf up (rd b 0 4) = none) ∧
    (serves .sessionStatusGet 0 [1, 0] (rung Cmd.sessionStatusGet.code [1, 0]) ∧ rd [1, 0] 0 2 = Outlet.b.num ∧
      serves .sessionStatusGet 0 [2, 0] (rung Cmd.sessionStatusGet.code [2, 0]) ∧ 1 < rd [2, 0] 0 2) ∧
    (let b : Bytes := [0, 0, 0, 0, 0x70, 0x17, 0, 0]
     let s := { rung Cmd.setpointSet.code b with fab := { up.fab with variant := .aa }, veh := { out := ⟨{ id := 1, state := .transfer, pp := .cable 32 }, {}⟩ } }
     serves .setpointSet 0 b s ∧ rd b 0 1 = Outlet.a.num ∧ sessionOpen s .a = true ∧ stateIn s .a [.stopping, .ended, .fault] = false ∧ rd b 1 1 = 0 ∧
       rdI32 b 4 = 6000 ∧ 6000 ≤ limitMa s .a false ∧ (s.veh.out.get .a).exporting = false ∧ sessionOpen up .a = false) := by
  refine ⟨⟨?_, by decide⟩, ⟨?_, by decide⟩, ⟨?_, by decide⟩, ⟨?_, by decide, ?_, by decide⟩, ⟨?_, by decide⟩⟩ <;>
    exact ⟨by decide, by decide, by decide, by decide, by decide⟩

theorem wit_ResidualEarthAndInsulation :
    (let ac (words : List Word32) : State := { up with
       fab := { up.fab with variant := .aa, profile := { up.fab.profile with sel := ⟨{ wiring := .w1p2w, unMv := 230000 }, {}, {}⟩ } }
       cfg := [(.out .a .rcdEnable, .num 1), (.out .a .rcdChannel, .num 4), (.out .a .rcdMvPerMa, .num 20), (.out .a .peChannel, .num 3), (.gen .penEnable, .num 1)]
       saf := { running := true, out := ⟨{ rcd := { tier3 := 1 } }, {}⟩ }
       ch := Vector.replicate 48 { safPort := { ring := words } } }
     let n (s : State) : Rcd := rcdNext (outNat s .a .rcdMvPerMa)
       ((portWords s.ch[(Fin.ofNat 48 (outNat s .a .rcdChannel) : Channel)].safPort 256).filter (fun (w : Word32) => !w.getLsbD 5 && !w.getLsbD 3)) (s.saf.out.get .a).rcd
     (ac []).saf.running = true ∧ hasRcd (ac []) .a = true ∧ rcdTrips (n (ac [])) = false ∧ rcdTrips (n (ac (List.replicate 256 0x80))) = true ∧
       (peLimit (ac []) .a).isSome = true ∧ penRuns (ac []) = true) ∧
    (let ws : List Word32 := [0x80]; ws ≠ [] ∧ ws.any wordSat = true) ∧ (let ws : List Word32 := [0]; ws ≠ [] ∧ ¬ (ws.any wordSat = true ∨
       4500 * (ws.length * (8388608 * 20)) ≤ 2500000 * ((ws.map wordValue).foldl (· + ·) 0).natAbs)) ∧
    (let s := dcOut {}; isDc s .a = true ∧ hasRcd s .a = false) := by decide +kernel

theorem wit_OutletSupervision :
    (let dc (phase : CoilPhase) (hot : Bool) (ms : Nat) : State := { dcOut { veh := some { targetMv := 0, maxMv := 500000, maxMa := 0, maxW := 0, dischargeMa := 0 }, force := some .stateF } with
       cfg := [(.out .a .tempChannels, .list [5])]
       isl := Vector.replicate 6 { selfTestLife := some (up.time.life - 2831155201) }
       ch := Vector.replicate 48 { lostSince := some (up.time.life - BitVec.ofNat 64 (ms * 32768 / 1000 + 1)) }
       saf := { running := true, ctlDie := { hot }, pwrDie := { hot }, out := ⟨{ dischargeDue := true }, {}⟩ }
       pd := { drv := Vector.replicate 4 { phase, weldDue := true, holdMa := 1000 } } }
     let l (ms : Nat) : Life := up.time.life - BitVec.ofNat 64 (ms * 32768 / 1000 + 1)
     let s := dc .off true 100
     (s.saf.running = true ∧ (cfgItems (outCfg s .a) s.fab (.out .a .tempChannels)).contains 5 = true ∧ isDc s .a = true ∧
       (s.saf.out.get .a).dischargeDue = true ∧ usesChannel s .a 5 = true ∧ s.saf.lost.contains 5 = false ∧ s.ch[5].lostSince = some (l 100) ∧
       msecs 100 ≤ (s.time.life - l 100).toNat ∧ s.pd.drv[0].phase = .off ∧ contactorsClosed s .a = false ∧ (s.veh.out.get .a).cp = .a ∧
       s.pd.drv[0].weldDue = true ∧ baseRuns s = true ∧ 20 * 50 ≤ s.pd.drv[0].holdMa ∧ 3000 + 3000 < s.pwr.vauxMv ∧
       (s.veh.out.get .a).force = some .stateF ∧ s.isl[0].selfTestLife = some (s.time.life - 2831155201) ∧
       86400 * 32768 < (s.time.life - (s.time.life - 2831155201)).toNat ∧ s.saf.ctlDie.hot = true ∧ s.saf.pwrDie.hot = true ∧
       (s.veh.out.get .a).veh.isSome = true) ∧
     (let t := dc .hold false 98
      contactorsClosed t .a = true ∧ t.saf.ctlDie.hot = false ∧ t.saf.pwrDie.hot = false ∧ t.ch[5].lostSince = some (l 98) ∧ (t.time.life - l 98).toNat < msecs 100)) ∧
    (let s := { up with fab := { up.fab with variant := .aa } }; isDc s .a = false ∧ contactorsClosed { s with pd := { drv := Vector.replicate 4 { phase := .hold } } } .a = true) := by
  decide +kernel

theorem wit_SafetyCycleAndSeam :
    (let s := { up with cfg := [(.gen .estopA, .num 1), (.gen .estopB, .num 2)] }; hasEstop s = true ∧ s.saf.running = true) ∧
    (let s := { up with cfg := [(.gen .seamA, .num 4), (.gen .seamB, .num 5), (.gen .companions, .list [7])], saf := { running := true, seam := { degradedSince := some (up.time.life - 1966080) } } }
     seamExists s = true ∧ (seamPort s .a).bind (seamNodes s) = some (0, 0xFFFF) ∧ seamParse 0 [] = none ∧
       (seamParse 0 (seamFrame 1 7 0xFFFF 1 1 1 0)).isSome = true ∧ ((seamParse 0 (seamFrame 1 7 0xFFFF 1 1 1 0)).map (·.src)) = some 7 ∧
       ((seamPeers s).find? (fun q => q.node == 7)).isSome = true ∧ seamDegraded s = true ∧
       60 * 32768 ≤ (s.time.life - (up.time.life - 1966080)).toNat) := by decide +kernel

theorem wit_SwitchCommands :
    serves .loadSwitchSet 0 (u32 1 ++ u32 1) (rung Cmd.loadSwitchSet.code (u32 1 ++ u32 1)) ∧
    serves .loadSwitchRestart 0 (u32 1) (rung Cmd.loadSwitchRestart.code (u32 1)) ∧
    serves .loadSwitchStatusGet 0 [] (rung Cmd.loadSwitchStatusGet.code []) ∧
    serves .wearCountersRead 0 [] (rung Cmd.wearCountersRead.code []) ∧
    (let s := { up with cfg := [(.out .a .rcdSupplyLs, .num 0), (.out .a .shuntTripLs, .num 1)] }
     (lsNamed s 1).any (fun n => (lsOwner s n).isSome) = true ∧ outOpt s .a .rcdSupplyLs = some 0 ∧ lsOwner s 1 = some (s.pd.shunt.get .a).isSome ∧
       s.pd.started = true ∧ s.pd.linkUp = true ∧ s.pd.linkHold = false ∧ s.pd.lsFail = false ∧ s.pwr.state = .run ∧ s.pwr.ovCut = false) ∧
    { up with pd := {} }.pd.started = false ∧
    (lsNamed up 1).any (fun n => (lsOwner up n).isSome) = false ∧ up.pd.ls[(0 : Fin 32)].trip = .none ∧ lsOwner up 0 = none ∧ up.pd.started = true ∧
    (let s := { up with pd := { ls := Vector.replicate 32 { trip := .i2t } } }; (lsNamed s 1).any (fun n => s.pd.ls[n].trip == .i2t) = true) := by decide

theorem wit_SwitchEvents : up.pd.started = true ∧
    (let s := { up with pd := { started := true, ls := Vector.replicate 32 { out := true, theta := 1210000000, limitRun := 40 } } }
     lsGov s 0 = 0 ∧ s.pd.ls[(0 : Fin 32)].out = true ∧ s.pd.ls[(0 : Fin 32)].trip = .none ∧ 1210000000 ≤ s.pd.ls[(0 : Fin 32)].theta ∧ 40 ≤ s.pd.ls[(0 : Fin 32)].limitRun) ∧
    (let s := { up with pd := { started := true, ls := Vector.replicate 32 { out := true, theta := 1209999999, limitRun := 39 } } }
     s.pd.ls[(0 : Fin 32)].theta < 1210000000 ∧ s.pd.ls[(0 : Fin 32)].limitRun < 40 ∧ s.pd.ls[lsGov s 1].trip = .none ∧ lsKey s 0 .thermal ≠ 1 ∧
       (s.time.life :: (s.pd.ls[lsGov s 1].shutdowns.filter (fun l => (s.time.life - l).toNat ≤ 60 * 32768))).length < 9) ∧
    (let s := { up with cfg := [(.ls 0 .thermal, .num 1)] }; lsKey s 0 .thermal = 1 ∧ lsKey up 0 .thermal ≠ 1) ∧ { up with pd := {} }.pd.started = false ∧
    up.pd.ls[(0 : Fin 32)].out = false ∧ up.pd.ls[(1 : Fin 32)].out = false ∧ 10 * 1100 ≤ 11 * wireMa 0 := by decide

theorem wit_DriverEvents :
    (let s := { dcOut { state := .preCharge } with cfg := [(.cd 1 .mirror, .num 1), (.cd 0 .mirror, .num 0)], pd := { drv := Vector.replicate 4 { phase := .pullIn, pullMinMa := 500, pullMs := 100, driveStart := 0, mirrorDue := true } } }
     s.pd.drv[(1 : Driver)].phase = .pullIn ∧ s.pd.drv[(1 : Driver)].pullMinMa ≤ 500 ∧ 499 < s.pd.drv[(1 : Driver)].pullMinMa ∧
       msecs s.pd.drv[(1 : Driver)].pullMs ≤ (s.time.life - s.pd.drv[(1 : Driver)].driveStart).toNat ∧
       msecs (cfgNat (outCfg s .a) s.fab (.cd 1 .mirrorMs)) ≤ (s.time.life - s.pd.drv[(1 : Driver)].driveStart).toNat ∧
       s.pd.drv[(1 : Driver)].mirrorDue = true ∧ up.pd.drv[(0 : Driver)].phase = .off ∧ isDc s .a = true ∧ s.pd.drv[secondDriver .a].phase ≠ .off ∧
       stateIn s .a [.insulation, .preCharge, .transfer] = true ∧ s.pd.drv[firstDriver .a].permits.app = false ∧ outletOf (secondDriver .a) = .a) ∧
    (let s := { up with pd := { drv := Vector.replicate 4 { phase := .pullIn, pullMs := 100, driveStart := up.time.life } } }
     (s.time.life - s.pd.drv[(1 : Driver)].driveStart).toNat < msecs s.pd.drv[(1 : Driver)].pullMs) ∧
    { up with pd := { shunt := ⟨some 0, none⟩ } }.pd.shunt.a = some 0 ∧ (let s := { up with pwr := { state := .watch } }; s.pwr.state ≠ .run ∧ s.pwr.state ≠ .idle) ∧
    (let s := { dcOut {} with cfg := [(.cd 1 .mirror, .num 0)] }; mainOpen s 1 = true) ∧ (let s := { dcOut {} with cfg := [(.cd 1 .mirror, .num 1)] }; mainOpen s 1 = false) := by decide

/-- States and operands that meet the hypotheses of every clause of SwitchAndDriverEvents. -/
theorem wit_SwitchAndDriverEvents : type_of% wit_SwitchEvents ∧ type_of% wit_DriverEvents := ⟨wit_SwitchEvents, wit_DriverEvents⟩

set_option synthInstance.maxSize 1024 in
theorem wit_PortsAndStrings :
    (let x : Str := { seq := 0x11, known := [{ addr := 0x1234, missed := 2 }], attempt := some ⟨0x1234, 0x11, 1, true, up.time.life⟩, discoverAt := some up.time.life }
     let o (l : Option Life) : Optimiser := { addr := 0x1234, missed := 2, polledAt := l }
     let y (l : Option Life) : Str := { known := [o l] }
     let s := { up with cfg := [(.str 0 .enable, .num 1)]
                        net := { port := Vector.replicate 8 { busOff := true }, str := ⟨#[y none, x, y (some 0), { y (some up.time.life) with freeAt := up.time.life + 1, discoverAt := some up.time.life }], rfl⟩ } }
     let e (j : Fin 4) : State := { s with cfg := [(.str j .enable, .num 1)] }
     baseRuns s = true ∧ 8 ≤ s.hif.startStep.toNat ∧ portServes s 0 100000 = true ∧ portServes s 0 1 = false ∧ (s.net.port[(0 : Fin 8)].up = false ∧ s.net.port[(0 : Fin 8)].kbps = 0) ∧
       stringRuns s 0 = true ∧ s.net.str[(0 : Fin 4)].rounds = 0 ∧ s.net.str[(0 : Fin 4)].attempt = none ∧ s.net.str[(0 : Fin 4)].discoverAt = none ∧
       s.net.str[(0 : Fin 4)].known.find? (fun x => x.addr == (o none).addr) = some (o none) ∧ (o none).polledAt = none ∧
       s.net.str[(0 : Fin 4)].freeAt.toNat ≤ s.time.life.toNat ∧
       (stringRuns (e 2) 2 = true ∧ s.net.str[(2 : Fin 4)].known.find? (fun x => x.addr == (o (some 0)).addr) = some (o (some 0)) ∧
         secs (cfgNat (e 2).cfg s.fab (.str 2 .pollS)) ≤ (s.time.life - 0).toNat) ∧
       (stringRuns (e 3) 3 = true ∧ (o (some s.time.life)).polledAt = some s.time.life ∧ (s.time.life - s.time.life).toNat < secs (cfgNat (e 3).cfg s.fab (.str 3 .pollS)) ∧
         s.time.life.toNat < s.net.str[(3 : Fin 4)].freeAt.toNat ∧ s.net.str[(3 : Fin 4)].discoverAt = some s.time.life ∧ s.net.str[(3 : Fin 4)].rounds = 0 ∧
         (s.time.life - s.time.life).toNat < secs (cfgNat s.cfg s.fab (.gen .pvDiscover))) ∧
       s.net.port[canPort 0].busOff = true ∧ s.net.str[(1 : Fin 4)].attempt = some ⟨0x1234, 0x11, 1, true, s.time.life⟩ ∧
       (s.time.life - s.time.life).toNat < stringCycles s.net.str[(1 : Fin 4)].sent + msecs 20 ∧ cfgBool s.cfg s.fab (.str 0 .discover) = true ∧
       stringRuns (e 1) 1 = true) ∧
    (let h : Bytes := [0x12, 16, 0, 0, 0, 0, 0x34, 0x12, 0, 0, 0x11, 0, 1, 0, 0, 0, 2, 0, 0, 0, 3, 0, 4, 0, 0, 0, 0, 0]
     parseString (h ++ u16 (crc16 h).toNat) = some (2, 0x1234, 0x11, h.drop 12) ∧ (h.drop 12).length = 16) ∧ up.net.port[canPort 0].busOff = false ∧
    (∀ tries ∈ [1, 3], let s := { up with net := { str := Vector.replicate 4 { rounds := 1, attempt := some ⟨1, 1, tries, true, 0⟩ } } }
     s.net.str[(0 : Fin 4)].rounds ≠ 0 ∧ s.net.str[(0 : Fin 4)].attempt = some ⟨1, 1, tries, true, 0⟩ ∧
       stringCycles s.net.str[(0 : Fin 4)].sent + msecs 20 ≤ (s.time.life - 0).toNat) ∧
    serves .portStatusGet 0 [] (rung Cmd.portStatusGet.code []) := by decide +kernel

theorem wit_KeepAliveAndSunSpec :
    serves .rsdKeepaliveSet 0 [16, 0] (rung Cmd.rsdKeepaliveSet.code [16, 0]) ∧ serves .rsdKeepaliveSet 0 [15, 1] (rung Cmd.rsdKeepaliveSet.code [15, 1]) ∧
    15 < rd [16, 0] 0 1 ∧ rd [15, 1] 0 1 ≤ 15 ∧ rd [15, 1] 1 1 ≤ 1 ∧
    serves .stringStatusGet 0 [3, 0] (rung Cmd.stringStatusGet.code [3, 0]) ∧ serves .stringStatusGet 0 [4, 0] (rung Cmd.stringStatusGet.code [4, 0]) ∧
    (let x := fun (r e : Bool) => ({ sending := true, request := r, enable := e, silentSince := some (up.time.life - 327680) } : Str)
     let s := { up with cfg := [(.str 0 .enable, .num 1), (.str 1 .enable, .num 1), (.str 2 .enable, .num 1)]
                        net := { str := ⟨#[x false true, x true false, { x true true with sending := false }, x false false], rfl⟩ } }
     s.net.str[(0 : Fin 4)].sending = true ∧ (s.net.str[(0 : Fin 4)].request && keepAliveKey s 0) = false ∧ s.net.str[(0 : Fin 4)].enable = true ∧
       (s.net.str[(1 : Fin 4)].request && keepAliveKey s 1) = true ∧ s.net.str[(1 : Fin 4)].enable = false ∧
       s.net.str[(3 : Fin 4)].enable = false ∧ (s.net.str[(3 : Fin 4)].request && keepAliveKey s 3) = false ∧ s.net.str[(2 : Fin 4)].sending = false ∧
       keepAliveKey s 2 = true ∧ domainOut s .per = false ∧ baseRuns s = true ∧ s.net.str[(2 : Fin 4)].silentSince = some (s.time.life - 327680) ∧
       10 * 32768 ≤ (s.time.life - (s.time.life - 327680)).toNat) ∧
    (let s (d : SunDev) : State := { up with cfg := [(.sunDev 0, .text (str "10.0.0.7,1,0")), (.gen .sunPort, .num 0)], net := { sun := Vector.replicate 8 d } }
     let a := s { repeats := 2, failed := 3 }
     sunRuns a 0 = true ∧ 2 ≤ a.net.sun[(0 : Fin 8)].repeats ∧ sunString a 0 = some 0 ∧ 3 ≤ a.net.sun[(0 : Fin 8)].failed ∧
     (let b := s { readAt := some up.time.life }
      sunRuns b 0 = true ∧ b.net.sun[(0 : Fin 8)].repeats = 0 ∧ b.net.sun[(0 : Fin 8)].readAt = some b.time.life ∧
        (b.time.life - b.time.life).toNat < secs (cfgNat b.cfg b.fab (.gen .sunS))) ∧
     (s { repeats := 1 }).net.sun[(0 : Fin 8)].repeats < 2 ∧ (s {}).net.sun[(0 : Fin 8)].readAt = none) := by decide +kernel

theorem wit_PowerModules :
    (let pm (at_ : Option Life) : State := { up with cfg := [(.can 0 .role, .num 0)], net := { pmAt := Vector.replicate 4 at_, pm := Vector.replicate 4 (Vector.replicate 32 { state := 1, seq := 5, firstGood := true, cycleBegun := true }) } }
     let s := pm (some 0)
     isPower s 0 = true ∧ appRuns s = true ∧ domainOut s .per = false ∧ s.net.port[canPort 0].busOff = false ∧ s.net.pm[(0 : Fin 4)][(1 : Fin 32)].state = 1 ∧
       s.net.pmAt[(0 : Fin 4)] = some 0 ∧ msecs (cfgNat s.cfg s.fab (.gen .pmCycle)) ≤ (s.time.life - 0).toNat ∧ (pm none).net.pmAt[(0 : Fin 4)] = none ∧
       (pm (some up.time.life)).net.pmAt[(0 : Fin 4)] = some s.time.life ∧ (s.time.life - s.time.life).toNat < msecs (cfgNat s.cfg s.fab (.gen .pmCycle)) ∧
       (1 : Fin 32).val ≠ 0 ∧ (busNodes s 0).length = 31 ∧
     (let good : Bytes := [1, 5, 0, 0] ++ List.replicate 28 0
      let bad : Bytes := [3, 5, 0, 0] ++ List.replicate 28 0
      good.length = 32 ∧ rd good 0 1 = 1 ∧ BitVec.ofNat 8 (rd good 1 1) = s.net.pm[(0 : Fin 4)][(1 : Fin 32)].seq ∧ rd good 2 2 = 0 ∧ rd bad 0 1 = 3)) ∧
    (let s := { up with cfg := [(.can 0 .role, .num 0)], net := { port := Vector.replicate 8 { busOff := true } } }
     isPower s 0 = true ∧ s.net.port[canPort 0].busOff = true ∧ s.net.pm[(0 : Fin 4)][(1 : Fin 32)].state ≠ 2 ∧
     s.net.pm[(0 : Fin 4)][(1 : Fin 32)].firstGood = false) ∧
    serves .powerModuleStatusGet 0 [3, 0] (rung Cmd.powerModuleStatusGet.code [3, 0]) ∧
    serves .powerModuleStatusGet 0 [4, 0] (rung Cmd.powerModuleStatusGet.code [4, 0]) := by decide +kernel

theorem wit_PairLink :
    (let c : Cfg := [(.gen .pairPort, .num 1)]
     let s := fun (r : PairRole) => { up with cfg := c, net := { pair := { role := r, peer := some 9, known := some 9, handover := some 7, owns := true, lostAt := some 0, lastFrame := some 1 } } }
     let f := fun (r : PairRole) => pairFrame 9 { role := r, priority := 100 } 2 false false none 0 0
     pairRuns (s .leader) = true ∧ (s .leader).net.pair.handover = some 7 ∧ parsePair (s .follower) [] = none ∧
       (parsePair (s .follower) (f .leader)).map (·.role) = some 0 ∧ (parsePair (s .leader) (f .follower)).map (·.role) = some 1 ∧
       (parsePair (s .alone) (f .alone)).map (·.role) = some 2 ∧ (s .leader).net.pair.owns = true ∧ (s .leader).net.pair.lostAt = some 0 ∧
       5 * 32768 ≤ ((s .leader).time.life - 0).toNat ∧ (up.time.life - up.time.life).toNat < 5 * 32768 ∧
       (s .follower).net.pair.peer ≠ none ∧ (s .follower).net.pair.peerIdle = false ∧ msecs 100 ≤ ((s .follower).time.life - (s .follower).net.pair.lastLife).toNat ∧
       up.net.pair.peer = none ∧ (s .leader).net.pair.role ≠ .alone) ∧
    (let r := rung Cmd.pairRoleSwapRequest.code []
     let s := fun (x : Bool) (y : Option Word32) => { r with net := { pair := { role := .leader, peer := some 9, reduction := x, retryFrame := y } } }
     serves .pairRoleSwapRequest 0 [] r ∧ serves .pairRoleSwapRequest 0 [] (s true none) ∧ serves .pairRoleSwapRequest 0 [] (s false none) ∧
       serves .pairRoleSwapRequest 0 [] (s false (some 9)) ∧ r.net.pair.role = .alone ∧ mayAsk (s false none).net.pair 1 = true ∧
       mayAsk (s false (some 9)).net.pair 1 = false) ∧
    serves .pairStatusGet 0 [] (rung Cmd.pairStatusGet.code []) := by decide +kernel

theorem wit_OperatorConnection :
    (let s := { up with cfg := [(.gen .ocppVersion, .num 0), (.gen .idleMode, .num 1), (.gen .ocppPort, .num 0)] }
     let w (l : Life) : State := { s with svc := { waitMs := 1000, waitAt := l }, net := { port := Vector.replicate 8 { up := true } } }
     let on (beat : Life) : State := { s with svc := { connected := true, booted := true, beatAt := beat, lastTime := some (up.time.life - 117964800), sent := [{ kind := .boot }, { kind := .heartbeat }] } }
     let ntp := { up with cfg := [(.gen .ntpServer, .text (str "ntp.example"))] }
     appRuns s = true ∧ ocppVersion s ≠ none ∧ lifecycle s ≠ 3 ∧ s.svc.connected = false ∧ (on 0).svc.connected = true ∧ awaits (on 0) .boot = true ∧
       s.svc.waitMs = 0 ∧ s.net.port[(Fin.ofNat 8 (cfgNat s.cfg s.fab (.gen .ocppPort)) : Fin 8)].up = false ∧
       (w 0).net.port[(Fin.ofNat 8 (cfgNat s.cfg s.fab (.gen .ocppPort)) : Fin 8)].up = true ∧ 0 < (w 0).svc.waitMs ∧
       msecs (w 0).svc.waitMs ≤ ((w 0).time.life - (w 0).svc.waitAt).toNat ∧ ((w up.time.life).time.life - (w up.time.life).svc.waitAt).toNat < msecs (w 0).svc.waitMs ∧
       (on 0).svc.booted = true ∧ awaits (on 0) .heartbeat = true ∧ s.svc.lastTime = none ∧ (on 0).svc.lastTime = some (s.time.life - 117964800) ∧
       cfgNat s.cfg s.fab (.gen .heartbeatS) * 32768 ≤ ((on 0).time.life - (on 0).svc.beatAt).toNat ∧
       ((on up.time.life).time.life - (on up.time.life).svc.beatAt).toNat < cfgNat s.cfg s.fab (.gen .heartbeatS) * 32768 ∧
       3600 * 32768 ≤ (s.time.life - (s.time.life - 117964800)).toNat ∧ (s.time.life - (s.time.life - 117964799)).toNat < 3600 * 32768 ∧
       usesNtp ntp = true ∧ appRuns ntp = true ∧ usesNtp s = false ∧ cfgNat s.cfg s.fab (.gen .idleMode) = 1) := by decide +kernel

set_option synthInstance.maxSize 1024 in
theorem wit_AuthorisationAnswers :
    (let id := str "04A2B9"
     let e : ListEntry := ⟨id, some .blocked, 0, []⟩
     let e2 : ListEntry := ⟨str "OK", some .accepted, 0, []⟩
     let w : AuthWait := { outlet := none, kind := 1, id, locally := false, source := 2, event := true }
     let s (polled : Option Life) : State := { up with
                        cfg := [(.gen .readerPort, .num 0), (.gen .localPreAuthorize, .num 1)]
                        svc := { connected := true, booted := true, waiting := [w], sent := [{ kind := .authorize, text := id }], readerUid := some [1, 2, 3, 4], polledAt := polled }
                        app := { list := [e, e2] } }
     let t := s (some 0)
     appRuns t = true ∧ findEntry t id = some (e, 0) ∧ entryResult t e = some 1 ∧ findEntry t (str "OK") = some (e2, 0) ∧ entryResult t e2 = some 0 ∧
       cfgBool t.cfg t.fab (.gen .localPreAuthorize) = true ∧ findEntry t [] = none ∧ findEntry up [] = none ∧ up.svc.connected = false ∧
       t.svc.sent.any (fun m => m.kind == .authorize && m.text == id) = true ∧ t.svc.waiting.find? (fun w => w.id == id) = some w ∧
       t.svc.waiting.find? (fun w => w.id == id && decide (cfgNat t.cfg t.fab (.gen .messageTimeoutS) * 32768 ≤ (t.time.life - w.asked).toNat)) = some w ∧
       (up.time.life - { w with asked := up.time.life }.asked).toNat < cfgNat up.cfg up.fab (.gen .messageTimeoutS) * 32768 ∧
       t.svc.waiting.find? (fun w => w.id == []) = none ∧ cfgOpt t.cfg t.fab (.gen .readerPort) ≠ none ∧
       t.svc.polledAt = some 0 ∧ msecs (cfgNat t.cfg t.fab (.gen .readerPollMs)) ≤ (t.time.life - 0).toNat ∧ (s none).svc.polledAt = none ∧
       (s (some up.time.life)).svc.polledAt = some t.time.life ∧ (t.time.life - t.time.life).toNat < msecs (cfgNat t.cfg t.fab (.gen .readerPollMs)) ∧
       readerAnswer (List.replicate 12 0) = some none ∧ readerAnswer ([1, 4, 1, 2, 3, 4] ++ List.replicate 6 0) = some (some [1, 2, 3, 4])) ∧
    (let b := fun (k : BitVec 8) => ([0xFF, k, 1, 0, 0x41] : Bytes)
     let r := fun (k : BitVec 8) => rung Cmd.authIdentitySubmit.code (b k)
     serves .authIdentitySubmit 0 (b 1) (r 1) ∧ serves .authIdentitySubmit 0 (b 3) (r 3) ∧ serves .authIdentitySubmit 0 (b 4) (r 4) ∧
       serves .authIdentitySubmit 0 (b 1) { r 1 with keys := { retired := 3 } } ∧ lifecycle { r 1 with keys := { retired := 3 } } = 3 ∧ lifecycle (r 1) ≠ 3) := by decide +kernel

theorem wit_OperatorRequests :
    (let s := { up with cfg := [(.gen .ocppVersion, .num 0)], time := { valid := true, life := 0x100000000, rtcSec := 100 }, disp := { verified := true }
                        svc := { connected := true, reservations := [{ number := 1, outlet := some .b, id := [], parent := [], expiry := 200 }] } }
     appRuns s = true ∧ s.svc.connected = true ∧ ocppVersion s = some 0 ∧ stateIn s .a [.idle] = true ∧ mayReserve s (some .a) 2 101 = true ∧ mayReserve s (some .a) 2 100 = false ∧
       mayStart s .a [] = true ∧ mayStart (dcOut { state := .fault }) .a [] = false ∧ waitsForId (dcOut { state := .plugged, billed := true }) .a = true ∧
       s.svc.reservations.any (fun r => r.number == 1) = true ∧ s.svc.reservations.any (fun r => r.number == 2) = false ∧
       operatorKey (str "outA.rcd.enable") = none ∧ (operatorKey (str "HeartbeatInterval")).isSome = true ∧ (str "HeartbeatInterval").length + (str "60").length ≤ 65536 ∧
       onTrial s = false ∧ sessionOf s 1 = none ∧
       s.svc.heldIds.any (fun h => h.outlet == some .a) = false ∧ switchFails s 7 0 0 = none ∧ (switchFails s 8 0 0).isSome = true ∧ tableFails [(0, 0x7F, 0)] = none ∧ (tableFails []).isSome = true ∧
       sessionOpen s .a = false) ∧
    (let s := { up with cfg := [(.gen .ocppVersion, .num 1)], svc := { connected := true } }; ocppVersion s ≠ some 0 ∧ s.svc.connected = true) := by decide +kernel

theorem wit_MessagesAndSolar :
    (let b : Bytes := [0, 2, 0, 0, 0x6F, 0x17, 0, 0]
     let c : Bytes := [0, 1, 0, 0, 0, 0, 0, 0]
     serves .solarFollowSet 0 b (rung Cmd.solarFollowSet.code b) ∧ rdI32 b 4 < 6000 ∧ rd b 1 1 = 2 ∧ serves .solarFollowSet 0 c (rung Cmd.solarFollowSet.code c) ∧
       rd c 0 1 ≤ 1 ∧ rd c 1 1 < 2) ∧
    (let x := fun (p : Bool) => ({ mode := 1, paused := p, below := some (up.time.life - 3276800000), above := some (up.time.life - 3276800000) } : Solar)
     let d := dcOut { state := .transfer, id := 1, billed := true }
     let s := { d with cfg := [(.gen .freeTariffs, .list [0])]
                       svc := { connected := true, solar := ⟨x false, x true⟩, sent := [{ kind := .record, nums := [0, 7] }], producedAt := some 0, solarAt := some 0
                                meterAt := ⟨0, up.time.life⟩ }, veh := { out := ⟨d.veh.out.get .a, d.veh.out.get .a⟩ } }
     let since (o : Outlet) : Nat := (s.time.life - (if (s.veh.out.get o).startLife.toNat ≤ (s.svc.meterAt.get o).toNat then s.svc.meterAt.get o else (s.veh.out.get o).startLife)).toNat
     appRuns s = true ∧ s.svc.connected = true ∧ (s.veh.out.get .a).billed = true ∧ sessionOpen s .a = true ∧ cfgNat s.cfg s.fab (.gen .meterIntervalS) ≠ 0 ∧
       cfgNat s.cfg s.fab (.gen .meterIntervalS) * 32768 ≤ since .a ∧ since .b < cfgNat s.cfg s.fab (.gen .meterIntervalS) * 32768 ∧
       s.svc.producedAt = some 0 ∧ 32768 ≤ (s.time.life - 0).toNat ∧ s.svc.solarAt = some 0 ∧ cfgNat s.cfg s.fab (.gen .solarUpdateS) * 32768 ≤ (s.time.life - 0).toNat ∧
       (s.time.life - s.time.life).toNat < cfgNat s.cfg s.fab (.gen .solarUpdateS) * 32768 ∧
       (s.svc.sent.find? (fun m => msgRecord m == some 7)).isSome = true ∧ s.svc.sent.find? (fun m => msgRecord m == some 8) = none ∧
       followsSun s .a = true ∧ followsSun s .b = true ∧ followsSun d .a = false ∧ freeTariff s = true ∧
       (s.svc.solar.get .a).mode = 1 ∧ (s.svc.solar.get .a).paused = false ∧ (s.svc.solar.get .b).paused = true ∧
       (s.svc.solar.get .a).below = some (s.time.life - 3276800000) ∧ (s.svc.solar.get .b).above = some (s.time.life - 3276800000) ∧
       cfgNat s.cfg s.fab (.gen .solarStopS) * 32768 ≤ (s.time.life - (s.time.life - 3276800000)).toNat ∧
       cfgNat s.cfg s.fab (.gen .solarStartS) * 32768 ≤ (s.time.life - (s.time.life - 3276800000)).toNat ∧ (d.svc.solar.get .a).mode ≠ 1) ∧
    (let d := dcOut { state := .transfer, id := 1 }
     let s := { d with svc := { solar := ⟨{ mode := 2 }, {}⟩ } }; followsSun s .a = true ∧ followsSun s .b = false) := by decide +kernel

theorem wit_DisplayRectangles :
    (let r := fun (y w h : BitVec 8) (n : Nat) => ([1, 0, y, 0, w, 0, h, 0, 0, 0, 0, 0] ++ List.replicate n 0xF3 : Bytes)
     let s := fun (c : Nat) (b : Bytes) => { rung c b with fab := { up.fab with disp := { up.fab.disp with width := 100, height := 100, legalRows := 20 } }, cfg := [(.gen .dispEnable, .num 1)], disp := { powered := true } }
     let cw := Cmd.displayRegionWrite.code
     let cu := Cmd.displayUpdate.code
     serves .displayRegionWrite 0 (r 2 2 3 3) (s cw (r 2 2 3 3)) ∧ serves .displayRegionWrite 0 (r 79 2 2 2) (s cw (r 79 2 2 2)) ∧
       serves .displayRegionWrite 0 (r 1 100 1 50) (s cw (r 1 100 1 50)) ∧ 100 < 1 + rd (r 1 100 1 50) 4 2 ∧ 80 < rd (r 79 2 2 2) 2 2 + rd (r 79 2 2 2) 6 2 ∧
       serves .displayUpdate 0 (r 2 2 3 0) (s cu (r 2 2 3 0)) ∧ dieGood (s cu (r 2 2 3 0)) = true ∧ Memory.wf up.disp.target = true ∧
       serves .displayUpdate 0 (r 2 2 3 0) { s cu (r 2 2 3 0) with disp := { powered := true, slots := Vector.replicate 8 (some ⟨50, 50, 1, 1, 0, false, false, 0, 0, []⟩) } } ∧
       overlaps 1 2 2 3 ⟨50, 50, 1, 1, 0, false, false, 0, 0, []⟩ = false) := by decide +kernel

theorem wit_DisplayEngine :
    (let w : PixWave := ⟨0, 3, [1]⟩
     let d : Disp := { powered := true, slots := (Vector.replicate 8 none).set 0 (some ⟨0, 0, 1, 1, 7, false, false, 0, 0, []⟩) |>.set 1 (some ⟨1, 0, 1, 1, 8, false, true, 1, 1, [w]⟩) |>.set 2 (some ⟨1, 0, 1, 1, 8, false, true, 0, 1, [w]⟩) }
     let s := { up with cfg := [(.gen .dispEnable, .num 1)], disp := d, met := { running := true } }
     dispDrives s = true ∧ dispDrives { s with disp := {} } = false ∧ s.disp.slots[(0 : Fin 8)] = some ⟨0, 0, 1, 1, 7, false, false, 0, 0, []⟩ ∧
       s.disp.slots[(1 : Fin 8)] = some ⟨1, 0, 1, 1, 8, false, true, 1, 1, [w]⟩ ∧ s.disp.slots[(2 : Fin 8)] = some ⟨1, 0, 1, 1, 8, false, true, 0, 1, [w]⟩ ∧
       s.disp.slots[(3 : Fin 8)] = none ∧ s.met.running = true ∧ rectPixels 0 0 0 0 = []) ∧
    (let b : Bytes := List.replicate 8 0xFF ++ [0, 1, 0, 0, 0, 0, 0, 0]
     let c : Bytes := List.replicate 8 0xFF ++ [0x80, 1, 0, 0, 0, 0, 0, 0]
     serves .segmentSet 0 b (rung Cmd.segmentSet.code b) ∧ serves .segmentSet 0 c (rung Cmd.segmentSet.code c) ∧
       BitVec.ofNat 64 (rd b 8 8) &&& 0xFF = 0 ∧ BitVec.ofNat 64 (rd c 8 8) &&& 0xFF ≠ 0) ∧
    serves .displayStatusGet 0 [] (rung Cmd.displayStatusGet.code []) := by decide +kernel

theorem wit_DisplayFaults :
    (let fab : Fab := { up.fab with disp := { up.fab.disp with width := 2, height := 1, testRow := true } }
     let charges : OutputCharges := ⟨[1, 2], [3, 4], List.replicate 64 5, 6⟩
     let s (tested : Bool) (time : Nat) : State := { up with
       cfg := [(.gen .dispEnable, .num 1), (.gen .ageing, .num 1)], fab
       disp := { powered := true, startTested := tested, startDone := true, runTime := time, deciC := some 0, deciCAt := some 0 }, wch := { crackOk := true } }
     let t := s true 2831155200
     panelFits t charges = true ∧ t.disp.powered = true ∧ t.disp.startTested = true ∧ anyUpdate t = false ∧ t.disp.testAt + 86400 * 32768 ≤ t.disp.runTime ∧
       (s false 0).disp.startTested = false ∧ (s true 0).disp.runTime < (s true 0).disp.testAt + 86400 * 32768 ∧ up.disp.powered = false ∧
       panelFits { up with fab } charges = true ∧ dispDrives t = true ∧ cfgNat t.cfg t.fab (.gen .ageing) = 1 ∧ t.fab.disp.testRow = true ∧ t.disp.sensedAt = none ∧
       (List.replicate 16 100).length = 16 ∧ t.pwr.state = .run ∧ t.disp.tilesAt + 3600 * 32768 ≤ t.disp.runTime ∧ t.disp.deciCAt = some 0 ∧
       600 * 32768 ≤ (t.time.life - 0).toNat ∧ (t.time.life - t.time.life).toNat < 600 * 32768 ∧ displayGood t = true ∧ t.disp.verified = false ∧
       10 * 29 < 3 * 100 ∧ 3 * 100 ≤ 10 * 30 ∧ 10 * 120 ≤ 12 * 100 ∧ displayGood up = up.disp.verified) ∧
    (let g : List (DispOutput × Nat) := [(.source 0, 1), (.source 1, 20), (.source 2, 20)]
     (.source 0, 1) ∈ g ∧ 10 * 1 < twiceMedian (g.map Prod.snd)) := by decide +kernel

set_option synthInstance.maxSize 1024 in
theorem wit_PortsAndPins :
    (let b := fun (w t : BitVec 8) => ([0, 0xFF, 0, w, t, 0, 0, 0, 0xE8, 3, 0, 0] ++ List.replicate t.toNat 0xAA : Bytes)
     let s := fun (x : Bytes) => { rung Cmd.pspTransfer.code x with pins := { psp := Vector.replicate 3 { keys := { enable := true, lanes := 1, marker := true } } } }
     serves .pspTransfer 0 (b 1 2) (s (b 1 2)) ∧ serves .pspTransfer 0 (b 0 2) (s (b 0 2)) ∧ serves .pspTransfer 0 (b 0 0) (s (b 0 0)) ∧
       domainOut (s (b 0 0)) .per = false ∧ (s (b 0 0)).pins.psp[(0 : Fin 3)].keys.enable = true ∧ 1 < pspBits (rd (b 1 2) 3 1) ∧ pspBits (rd (b 0 2) 3 1) ≤ 1 ∧
       pspBits (rd (b 0 2) 3 1 / 4) ≤ 1 ∧ rd (b 0 2) 8 4 = 1000 ∧ rd (b 0 2) 4 2 = 2 ∧ (s (b 0 0)).pins.psp[(0 : Fin 3)].queue = [] ∧
     (let t : Transfer := { host := 0, ticket := 0, select := none, active := false, txBits := 1, rxBits := 1, fdx := false, firstX1 := false, receive := 1, k := 50, data := [] }
      let u := { up with pins := { psp := Vector.replicate 3 { keys := { marker := true, timeoutUs := 2, readyByte := 0xA5 }, queue := [t] } } }
      u.pins.psp[(0 : Fin 3)].queue = t :: [] ∧ mayRun u 0 t = true ∧ u.pins.psp[(0 : Fin 3)].keys.marker = true ∧ up.pins.psp[(0 : Fin 3)].keys.marker = false ∧
        t.receive ≠ 0 ∧ t.fdx = false ∧ t.txBits = 1 ∧ busyBefore u.pins.psp[(0 : Fin 3)].keys t [[0], [0xA5]] = some 1 ∧
        busyBefore u.pins.psp[(0 : Fin 3)].keys t [[0], [0]] = none ∧ 50 * u.pins.psp[(0 : Fin 3)].keys.timeoutUs ≤ 2 * t.k ∧
        busyBefore u.pins.psp[(0 : Fin 3)].keys t [[0]] = none ∧ 1 * t.k < 50 * u.pins.psp[(0 : Fin 3)].keys.timeoutUs)) ∧
    (let b : Bytes := u64 1 ++ u64 1
     let s := fun (f : PinFn) => { rung Cmd.gpioSet.code b with pins := { fn := Vector.replicate 64 f } }
     serves .gpioSet 0 b (s .out) ∧ serves .gpioSet 0 b (s .select) ∧ (rd b 0 8).testBit 0 = true ∧ (s .out).pins.fn[(0 : Fin 64)] = .out ∧
       (s .select).pins.fn[(0 : Fin 64)] = .select ∧ pinOwned (s .out) 0 = false ∧ (List.range 63).all (fun i => !(rd b 0 8).testBit (i + 1))) ∧
    serves .gpioGet 0 [] (rung Cmd.gpioGet.code []) ∧ serves .watchStatusGet 0 [] (rung Cmd.watchStatusGet.code []) := by decide +kernel

theorem wit_ConfigCandidate :
    (let b := fun (f x : BitVec 8) => ([f, 0, x, 0] : Bytes)
     let s := fun (x : Bytes) => rung Cmd.configCandidateOpen.code x
     serves .configCandidateOpen 0 (b 0 2) (s (b 0 2)) ∧ serves .configCandidateOpen 0 (b 9 1) (s (b 9 1)) ∧ serves .configCandidateOpen 0 (b 0 1) (s (b 0 1)) ∧
       writesFormat (s (b 0 1)) = 0) ∧
    (let b : Bytes := [2, 0, 0, 0, 0x61]
     let big : Bytes := [0xE0, 0xFF, 0, 0, 0x61]
     let r := rung Cmd.configCandidateWrite.code b
     serves .configCandidateWrite 0 b r ∧ serves .configCandidateWrite 0 b (withCandidate r) ∧ candidateSlot r = none ∧ candidateSlot (withCandidate r) = some 1 ∧
       serves .configCandidateWrite 0 big (withCandidate (rung Cmd.configCandidateWrite.code big)) ∧ 65504 < rd big 0 4 + (big.length - 4)) ∧
    (let k := fun (n v : Bytes) => u16 n.length ++ u16 v.length ++ n ++ v
     let q := fun (x : Bytes) => withCandidate (rung Cmd.configKeySet.code x)
     let good := k (str "ocpp.heartbeat_s") (str "60")
     serves .configKeySet 0 good (q good) ∧ (findKey (str "ocpp.heartbeat_s")).isSome = true ∧ findKey (str "no.such") = none ∧
       serves .configKeySet 0 (k [] []) (q (k [] [])) ∧ rd (k [] []) 0 2 = 0) ∧
    ((((findKey (str "ocpp.heartbeat_s")).bind (fun x => parseKey up.fab x (str "60"))).isSome = true) ∧
       ((findKey (str "ocpp.heartbeat_s")).bind (fun x => parseKey up.fab x (str "x"))).isNone = true) ∧
    (let g := fun (x : BitVec 8) (n : Bytes) => ([x, 0] ++ u16 n.length ++ n : Bytes)
     let w := fun (x : Bytes) => withCandidate (rung Cmd.configKeyGet.code x)
     let n := str "ocpp.heartbeat_s"
     serves .configKeyGet 0 (g 3 [1]) (w (g 3 [1])) ∧ serves .configKeyGet 0 (g 0 n) (w (g 0 n)) ∧
       serves .configKeyGet 0 (g 2 n) (w (g 2 n)) ∧ previousSlot (w (g 1 n)) = none) ∧
    serves .configInfoGet 0 [] (rung Cmd.configInfoGet.code []) := by
  refine ⟨?_, ?_, ?_, ?_, ?_, ?_⟩ <;> decide +kernel

theorem wit_ConfigCommitAndRevert :
    (let r := rung Cmd.configCommit.code []
     let v := rung Cmd.configRevert.code []
     let x := fun (s : State) (l : Bytes) => { s with slots := (Vector.replicate 4 {}).set 1 { state := .candidate, body := l } }
     let y := fun (s : State) => { s with slots := (Vector.replicate 4 {}).set 1 { state := .committed, commit := 1 } |>.set 2 { state := .committed, commit := 2 } }
     let z := fun (s : State) => { s with slots := (Vector.replicate 4 {}).set 1 { state := .committed, commit := 1, readable := false } |>.set 2 { state := .committed, commit := 2 } }
     serves .configCommit 0 [] r ∧ candidateSlot r = none ∧ serves .configCommit 0 [] (x r (str "junk")) ∧ candidateSlot (x r []) = some 1 ∧
       (commitFails (x r (str "junk")) (x r (str "junk")).slots[(1 : Fin 4)]).isSome = true ∧ onTrial r = false ∧ migrationSlot r = none ∧
       serves .configCommit 0 [] { x r [] with hif := { r.hif with trial := true } } ∧
       serves .configRevert 0 [] v ∧ previousSlot v = none ∧ serves .configRevert 0 [] (y v) ∧ previousSlot (y v) = some 1 ∧ (y v).slots[(1 : Fin 4)].readable = true ∧
       (y v).slots[(1 : Fin 4)].format.toNat = writesFormat (y v) ∧ serves .configRevert 0 [] (z v) ∧ previousSlot (z v) = some 1 ∧ maxCommit (y v) < 2 ^ 32 - 1) := by decide +kernel

/-- States and operands that meet the hypotheses of every clause of ConfigurationCommands. -/
theorem wit_ConfigurationCommands : type_of% wit_ConfigCandidate ∧ type_of% wit_ConfigCommitAndRevert := ⟨wit_ConfigCandidate, wit_ConfigCommitAndRevert⟩

theorem wit_Downloads :
    (let b := fun (st : Nat) => downloading (rung Cmd.updateBegin.code imageHead) st [] []
     serves .updateBegin 0 imageHead (b 0) ∧ serves .updateBegin 0 imageHead (b 5) ∧ imageFails (takeUp 0 (b 0)) imageHead = none ∧
       imageFails { b 0 with keys := { State.reset.keys with field := 3 } } imageHead = some .hdrSignature ∧ lifecycle (b 0) ≠ 3) ∧
    (let bw := fun (n off : BitVec 8) => ([n, 0, 0, 0, off, 0, 0, 0, 1, 2, 3, 4] : Bytes)
     let w := fun (n off : BitVec 8) => downloading (rung Cmd.updateBlockWrite.code (bw n off)) 1 [] []
     serves .updateBlockWrite 0 (bw 0 4) (w 0 4) ∧ serves .updateBlockWrite 0 (bw 0 1) (w 0 1) ∧ serves .updateBlockWrite 0 (bw 1 0) (w 1 0) ∧
       blockCount imageHead = 1 ∧ blockLen imageHead 0 = 520 ∧ (w 0 4).upd.stage = 1 ∧ (w 0 4).upd.holder = .host) ∧
    (let v := fun (st : Nat) (c : List Nat) => downloading (rung Cmd.updateVerify.code []) st c []
     serves .updateVerify 0 [] (v 2 [0]) ∧ serves .updateVerify 0 [] (v 1 []) ∧ serves .updateVerify 0 [] (v 5 [0]) ∧ serves .updateVerify 0 [] (v 0 []) ∧
       firstUnconfirmed (v 2 [0]).upd = blockCount (v 2 [0]).upd.header ∧ firstUnconfirmed (v 1 []).upd ≠ blockCount (v 1 []).upd.header) ∧
    (let v := takeUp 0 (downloading (rung Cmd.updateVerify.code []) 2 [0] [])
     imageFails v v.upd.header = none ∧ digestsMatch (bankOf v v.upd.target) = true ∧ digestsMatch { header := imageHead } = false) ∧
    (let a := fun (st : Nat) => downloading (rung Cmd.updateAbort.code []) st [] []
     serves .updateAbort 0 [] (a 1) ∧ serves .updateAbort 0 [] (a 0) ∧ serves .updateAbort 0 [] (a 5) ∧ serves .updateStatusGet 0 [] (rung Cmd.updateStatusGet.code [])) ∧
    (let x : Staged := ⟨0, wordsFrom 0 (List.replicate 520 1)⟩
     let s := downloading up 1 [] [x]
     s.run.staging.find? (fun x => x.block == 0) = some x ∧ (stagedBytes s.upd.header x).isSome = true ∧ 0 < blockCount s.upd.header) ∧
    (let s := { rung Cmd.updateAbort.code [] with keys := { State.reset.keys with retired := 3 } }
     serves .updateAbort 0 [] s ∧ lifecycle (takeUp 0 s) = 3) := by
  refine ⟨⟨?_, ?_, header_verifies _ rfl (by decide +kernel), ?_, ?_⟩, ?_, ?_, ⟨header_verifies _ rfl (by decide +kernel), test_header_verifies.2, ?_⟩, ?_, ?_, ?_⟩ <;>
    decide +kernel

theorem wit_TriggersAndTrials :
    (up.hif.rdy = true ∧ up.hif.ignored = false ∧ (0x5AC30003#32).toNat = 0x5AC3 * 65536 + 3 ∧ (0x5AC30001#32).toNat = 0x5AC3 * 65536 + 1 ∧
      3 < (0x5AC30004#32).toNat % 65536 ∧ (0x5AC30000#32).toNat % 65536 = 0 ∧ (0x5AC40001#32).toNat / 65536 ≠ 0x5AC3) ∧
    (let s := { up with upd := { stage := 4 }, hif := { up.hif with trial := true }, run := { up.run with healthy := 1800 * 32768 }
                        time := { up.time with rtcSec := 10 }, svc := { connected := true, install := some 10, updateWaits := true } }
     lifecycle s ≠ 3 ∧ s.upd.stage = 4 ∧ anySession s = false ∧ onTrial s = true ∧ 1800 * 32768 ≤ s.run.healthy ∧ onTrial up = false ∧ installDue s = true ∧ appRuns s = true ∧
       activationFails s = none ∧ installDue up = false ∧ s.svc.connected = true ∧ activationFails { s with upd := {} } ≠ none ∧ baseRuns s = true ∧
       lifecycle { up with keys := { retired := 3 } } = 3 ∧ anySession (dcOut { id := 1 }) = true) ∧
    (let s := { up with svc := { connected := true }, upd := { stage := 1, holder := .host } }
     appRuns s = true ∧ s.upd.stage = 1 ∧ s.upd.holder = .host ∧ imageFails up imageHead = some .hdrSignature) ∧
    (let s := { downloading up 0 [] [] with svc := { connected := true } }
     s.svc.connected = true ∧ appRuns s = true ∧ lifecycle s ≠ 3 ∧ s.upd.stage ≠ 5 ∧ s.upd.stage ≠ 1 ∧ imageFails s imageHead = none) ∧
    (let s := { up with wch := { rinseTime := 1000000000000 } }
     basePowered s = true ∧ s.wch.rinsePos[regionIndex .keyStore] < granules .keyStore ∧ rinsePaced s = true ∧ (MemRegion.legal ≠ .keyStore) ∧ 0 < correctable .legal ∧
       basePowered { up with pwr := { state := .watch } } = false ∧
       rinsePaced { up with wch := { rinsePos := Vector.replicate 14 0 |>.set 0 1 } } = false ∧
       (let t := { s with wch := { s.wch with rinsePos := vmod s.wch.rinsePos (regionIndex .keyStore) (· + 1) } }; granulesDone t.wch ≠ granulesAll) ∧
       granules .keyStore ≤ (Vector.replicate 14 (granules .keyStore))[regionIndex .keyStore]) := by
  refine ⟨?_, ?_, ?_, ⟨rfl, by decide, by decide, by decide, by decide, header_verifies _ rfl (by decide +kernel)⟩, ?_⟩ <;> decide +kernel

theorem wit_TimesOutOfRange :
    (let b : Bytes := [0x0, 0x3d, 0x85, 0xe1, 0x1, 0x0, 0x0, 0x0]; serves .timeSet 0 b (rung Cmd.timeSet.code b) ∧ 8078572799 < rd b 0 8) ∧
    (let b : Bytes := [0xFF, 0xFF, 0xFF, 0xFF]; serves .timeAdjust 0 b (rung Cmd.timeAdjust.code b) ∧
      rtcCount (rung Cmd.timeAdjust.code b).time + writtenOffset (rung Cmd.timeAdjust.code b).time + msToCycles (rdI32 b 0) < 0) ∧
    (let s := { up with time := { rtcSec := 8078572799, rtcSub := 32767 } }; 8078572799 * 32768 + 32767 < rtcCount s.time + writtenOffset s.time + msToCycles (1#32).toInt) ∧
    8078572799 < ((1#1) ++ (0xe1853d00#32)).toNat := by decide

end Sys2Proof.Machine
end

section
/-! SUPPORT. The rows of the supplies, the save and the hold-up capacitor (03 R96, R103, R108, R109, R114 to R116): the state
that each row leaves where its condition holds, and the proof of SuppliesAndHoldUp from them. -/

namespace Sys2Proof.Machine

/-! ### The supplied module -/

theorem baseSupplied_iff {s : State} : baseSupplied s = true ↔ s.pwr.state = .run ∨ s.pwr.state = .idle := by
  simp [baseSupplied]

theorem baseSupplied_eq_false_of_save {s : State} (h : s.pwr.state = .save) : baseSupplied s = false := by
  simp [baseSupplied, h]

/-! ### VAUX (R96, R109, R119) -/

theorem exec_vauxOvCut_of_supplied {s : State} (h : baseSupplied s = true) (mv : Nat) :
    exec (.vauxOvCut mv) s = .next (raise .vauxHigh (u32 mv)
      (applyLs (withdraw allDrivers [] causeVauxOv { s with pwr := { s.pwr with vauxMv := mv, ovCut := true } }))) := by
  change execVauxOvCut mv s = _
  rw [execVauxOvCut, h, ifDo_true]
  rfl

theorem exec_vauxOvRelease (mv : Nat) (s : State) :
    exec (.vauxOvRelease mv) s = .next (applyLs { s with pwr := { s.pwr with vauxMv := mv, ovCut := false } }) := rfl

theorem exec_vauxLow_of_baseRuns {s : State} (h : baseRuns s = true) (mv : Nat) :
    exec (.vauxLow mv) s = .next (raise .vauxLow (u32 mv) { s with pwr := { s.pwr with vauxMv := mv } }) := by
  change execVauxLow mv s = _
  rw [execVauxLow, h, ifDo_true]
  rfl

/-- The start from WATCH and OFF, for a control base that R114 does not hold unpowered. -/
theorem exec_vauxStartDebounced_of_unpowered {s : State} (h : s.pwr.state = .watch ∨ s.pwr.state = .off)
    (hheld : s.pwr.baseHeldOff = false) (mv : Nat) :
    exec (.vauxStartDebounced mv) s =
      .next { s with pwr := { s.pwr with vauxMv := mv, vauxUp := true, state := .run, inReset := true } } := by
  have hstart : ((s.pwr.state == .watch || s.pwr.state == .off) && !(s.pwr.baseHeldOff && s.pwr.vauxUp)) = true := by
    simpa [hheld] using h
  change execVauxStartDebounced mv s = _
  rw [execVauxStartDebounced, hstart, ifDo_true]
  simp [modPwr, hheld]

theorem exec_vauxStartDebounced_of_powered {s : State} (h : s.pwr.state ≠ .watch ∧ s.pwr.state ≠ .off) (mv : Nat) :
    exec (.vauxStartDebounced mv) s = .next { s with pwr := { s.pwr with vauxMv := mv, vauxUp := true } } := by
  have hstay : ((s.pwr.state == .watch || s.pwr.state == .off) && !(s.pwr.baseHeldOff && s.pwr.vauxUp)) = false := by
    simp [h.1, h.2]
  change execVauxStartDebounced mv s = _
  rw [execVauxStartDebounced, hstay, ifDo_false]
  rfl

/-! ### The save (R108, R109, R116) -/

theorem exec_saveEntry_of_supplied {s : State} (h : baseSupplied s = true) (clamped : BitVec 32) (cut : Option HifCut) :
    exec (.saveEntry clamped cut) s =
      .next (beginSave (fun n => some (clamped.getLsbD n.val)) cut { s with pwr := { s.pwr with vauxUp := false } }) := by
  change execSaveEntry clamped cut s = _
  rw [execSaveEntry, h, ifDo_true]
  rfl

theorem exec_saveEntry_of_unsupplied {s : State} (h : baseSupplied s = false) (clamped : BitVec 32) (cut : Option HifCut) :
    exec (.saveEntry clamped cut) s = .next { s with pwr := { s.pwr with vauxUp := false } } := by
  change execSaveEntry clamped cut s = _
  rw [execSaveEntry, h, ifDo_false]
  rfl

section
variable {s : State} (h : s.pwr.state = .save)
include h

theorem exec_saveComplete_of_save (cap : Nat) :
    exec (.saveComplete cap) s = .next (afterSave (writeSave .complete 9 (drainTo cap (runSave 8 0 s)))) := by
  change execSaveComplete cap s = _
  rw [execSaveComplete, beq_iff_eq.mpr h, ifDo_true]

theorem exec_lastCall_of_save (step items : Nat) :
    exec (.lastCall step items) s =
      let t := drainTo 11000 (runSave step items s)
      .next (afterSave (writeSave .endedAt t.wch.saveStep t)) := by
  change execLastCall step items s = _
  rw [execLastCall, beq_iff_eq.mpr h, ifDo_true]

theorem exec_converterStop_of_save (step items : Nat) :
    exec (.converterStop step items) s = .next (afterSave (drainTo 9000 (runSave step items s))) := by
  change execConverterStop step items s = _
  rw [execConverterStop, beq_iff_eq.mpr h, ifDo_true]

end

/-! ### The hold-up capacitor (R103, R115, R120) -/

section
variable {s : State} (hruns : baseRuns s = true) (hpend : s.pwr.selfTest = .pending)
include hruns hpend

theorem exec_holdupSelftestComplete_of_pending (uF mOhm uA : Nat) :
    exec (.holdupSelftestComplete uF mOhm uA) s = .next (endSelfTest (selfTestOutcome uF mOhm uA) uF mOhm uA
      { s with pwr := { s.pwr with capMv := 33000, capRem := 0 } }) := by
  change execHoldupSelftestComplete uF mOhm uA s = _
  rw [execHoldupSelftestComplete, hruns, beq_iff_eq.mpr hpend, Bool.and_self, ifDo_true]
  rfl

theorem exec_holdupSelftestTimeout_of_pending (uF mv : Nat) :
    exec (.holdupSelftestTimeout uF mv) s =
      .next (endSelfTest .failed uF 0 0 { s with pwr := { s.pwr with capMv := min mv 30999, capRem := 0 } }) := by
  change execHoldupSelftestTimeout uF mv s = _
  rw [execHoldupSelftestTimeout, hruns, beq_iff_eq.mpr hpend, Bool.and_self, ifDo_true]
  rfl

end

theorem exec_holdupLow_of_tested {s : State} (hruns : baseRuns s = true) (htested : s.pwr.selfTest ≠ .pending)
    (hgood : s.pwr.holdupFailed = false) (mv : Nat) :
    exec (.holdupLow mv) s =
      let t := showOutOfService (raise .holdupFailed (u32 s.pwr.uF ++ u32 s.pwr.mOhm ++ u32 s.pwr.uA)
        { s with pwr := { s.pwr with capMv := mv, capRem := 0, holdupFailed := true } })
      .next (forEach (Outlet.all.filter (sessionOpen s)) (fun o => stopSession o .holdupFailed .normal) t) := by
  have hfails : (baseRuns s && s.pwr.selfTest != .pending && !s.pwr.holdupFailed) = true := by
    simp [hruns, htested, hgood]
  change execHoldupLow mv s = _
  rw [execHoldupLow, hfails, ifDo_true]
  rfl

/-! ### A rail fault (R114) -/

theorem exec_railFault_of_supplied {s : State} (h : baseSupplied s = true) :
    exec .railFault s =
      let t := railFaultNow (withdraw allDrivers [.wch] causeRail s)
      .next (beginSave (fun _ => none) none { t with pwr := { t.pwr with resetAfterSave := true } }) := by
  change execRailFault s = _
  rw [execRailFault, h, ifDo_true]
  rfl

/-! ### The statement -/

/-- Settles O15: each clause is the lemma of its row. -/
theorem suppliesAndHoldUp : Obligations.SuppliesAndHoldUp := by
  unfold Obligations.SuppliesAndHoldUp
  refine ⟨fun s mv => ⟨?ovCut, exec_vauxOvRelease mv s, ?low, ?entry, ?inSave, ?start, ?back⟩,
    fun s uF mOhm uA mv => ⟨rfl, ?selfTest, ?holdupLow, ?rail⟩⟩
  case ovCut => exact fun h => exec_vauxOvCut_of_supplied (baseSupplied_iff.mpr h) mv
  case low => exact fun h => exec_vauxLow_of_baseRuns h mv
  case entry =>
    exact fun clamped cut => ⟨fun h => exec_saveEntry_of_supplied (baseSupplied_iff.mpr h) clamped cut,
      fun h => exec_saveEntry_of_unsupplied (baseSupplied_eq_false_of_save h) clamped cut⟩
  case inSave =>
    exact fun h => ⟨exec_saveComplete_of_save h,
      fun step items => ⟨exec_lastCall_of_save h step items, exec_converterStop_of_save h step items⟩⟩
  case start => exact fun h hheld => exec_vauxStartDebounced_of_unpowered h hheld mv
  case back =>
    intro h
    have hpowered : s.pwr.state ≠ .watch ∧ s.pwr.state ≠ .off := by
      rcases h with h | h | h <;> simp [h]
    exact exec_vauxStartDebounced_of_powered hpowered mv
  case selfTest =>
    exact fun hruns hpend => ⟨exec_holdupSelftestComplete_of_pending hruns hpend uF mOhm uA,
      exec_holdupSelftestTimeout_of_pending hruns hpend uF mv⟩
  case holdupLow => exact fun hruns htested hgood => exec_holdupLow_of_tested hruns htested hgood mv
  case rail => exact fun h => exec_railFault_of_supplied (baseSupplied_iff.mpr h)

end Sys2Proof.Machine
end

section
/-! SUPPORT. The state after a watch-domain power-on reset (01 R61; 04 Table 4.3; 05 Tables 5.6 and 5.7; 06 Tables 6.3 and
6.4; 13 R497): each unit that is an array starts with one and the same entry, and the mailbox unit meets its invariant. -/

namespace Sys2Proof.Machine

/-! ### The entries of the arrays -/

theorem reset_cmd (mb : Mailbox) : State.reset.mbx.cmd[mb] = {} := Vector.getElem_replicate _

theorem reset_timers (n : Fin 16) : State.reset.tb.timers[n] = {} := Vector.getElem_replicate _

theorem reset_drv (d : Driver) : State.reset.pd.drv[d] = {} := Vector.getElem_replicate _

theorem reset_ls (n : Fin 32) : State.reset.pd.ls[n] = {} := Vector.getElem_replicate _

/-- Nothing is listed, queued, kept or presented after reset. -/
theorem mailOk_reset : MailOk State.reset.mbx where
  canonical := rfl
  inWindows := fun _ hlisted => absurd hlisted List.not_mem_nil
  queued := Nat.zero_le _
  inOrder := fun hqueued => absurd rfl hqueued
  kept := Nat.zero_le _
  response := fun mb => by rw [reset_cmd]; exact Nat.zero_le _
  keptResponse := fun mb k hkept => by rw [reset_cmd] at hkept; exact absurd hkept nofun

/-! ### The statement -/

/-- Settles O4: the single registers are read off `State.reset`, those of the arrays off their common entry. -/
theorem resetState : Obligations.ResetState := by
  unfold Obligations.ResetState
  refine ⟨mailOk_reset, rfl, ?time, ⟨rfl, rfl, ?timers⟩, ?watch, ?watchBase, ?drivers, ?switches, ?host⟩
  case time => exact ⟨rfl, rfl, rfl, rfl, rfl, rfl, rfl, rfl, rfl, rfl, rfl⟩
  case timers => exact fun n => by rw [reset_timers]; exact ⟨rfl, rfl, rfl, rfl, rfl, rfl⟩
  case watch => exact ⟨rfl, rfl, rfl, rfl, rfl, rfl, rfl, rfl, rfl, rfl, rfl⟩
  case watchBase => exact ⟨rfl, rfl, rfl, rfl⟩
  case drivers => exact fun d => by rw [reset_drv]; exact ⟨rfl, rfl, rfl⟩
  case switches => exact fun n => by rw [reset_ls]
  case host => exact ⟨rfl, rfl, rfl, rfl, rfl, rfl, rfl, rfl, rfl, rfl, rfl, rfl, rfl⟩

end Sys2Proof.Machine
end

section
/-! SUPPORT. The writes of the RTC and the timers (04 R136, R140, R142 to R145, R152, R155; 07 Table 7.5): what each operation
does in range and out of range, the commands and registers that use them, and the proofs of TimeOfDay and
TimesOutOfRange. -/

namespace Sys2Proof.Machine

/-! ### A condition that is known -/

theorem next_ifDo_of_true {c : Bool} (h : c = true) (f : State → State) (s : State) : (.next (ifDo c f s) : Out) = .next (f s) := by
  rw [h, ifDo_true]

theorem next_ifDo_of_false {c : Bool} (h : c = false) (f : State → State) (s : State) : (.next (ifDo c f s) : Out) = .next s := by
  rw [h, ifDo_false]

/-! ### The RTC's range (R152) -/

theorem rtcInRange_eq_false_iff {n : Int} : rtcInRange n = false ↔ n < 0 ∨ 8078572799 * 32768 + 32767 < n := by
  rw [rtcInRange, Bool.and_eq_false_iff, decide_eq_false_iff_not, decide_eq_false_iff_not, not_le, not_le, rtcMaxCount]

/-- With no write in the cycle the offset that stands is the unabsorbed slew (R155). -/
theorem writtenOffset_of_no_write {t : Time} (h : t.write = none) : writtenOffset t = t.slewLeft := by
  rw [writtenOffset, h]

/-! ### The operations: an absolute second, an adjustment, a trim -/

section
variable {s : State}

theorem setSecond_of_le {sec : Nat} (h : sec ≤ 8078572799) : setSecond sec s =
    (false, { s with time := { s.time with write := some ⟨true, sec * 32768 - rtcCount s.time⟩ } }) :=
  if_pos h

theorem setSecond_of_gt {sec : Nat} (h : 8078572799 < sec) :
    setSecond sec s = (true, { s with time := { s.time with adjRefused := true } }) :=
  if_neg (Nat.not_le_of_gt h)

theorem adjustMs_of_inRange {ms : Int} (hwrite : s.time.write = none)
    (h : rtcInRange (rtcCount s.time + s.time.slewLeft + msToCycles ms) = true) :
    adjustMs ms s = (false, { s with time := { s.time with write := some ⟨false, msToCycles ms⟩ } }) := by
  rw [← writtenOffset_of_no_write hwrite] at h
  rw [adjustMs, if_pos h, hwrite]
  rfl

theorem adjustMs_of_outOfRange {ms : Int} (h : rtcInRange (rtcCount s.time + writtenOffset s.time + msToCycles ms) = false) :
    adjustMs ms s = (true, { s with time := { s.time with adjRefused := true } }) :=
  if_neg (Bool.eq_false_iff.mp h)

theorem clipTrim_of_mem {v : Int} (hlo : -500 ≤ v) (hhi : v ≤ 500) : clipTrim v = v := by
  rw [clipTrim, min_eq_right hhi, max_eq_right hlo]

/-- A trim within its limits is taken as it is, and TRIM_CLIPPED stays. -/
theorem setTrim_of_mem {w : BitVec 10} (hlo : -500 ≤ w.toInt) (hhi : w.toInt ≤ 500) :
    setTrim w.toInt s = { s with time := { s.time with trim := w } } := by
  rw [setTrim, clipTrim_of_mem hlo hhi, BitVec.ofInt_toInt, bne_self_eq_false]
  simp only [Bool.or_false]
  rfl

end

/-! ### The commands (07 Table 7.5) -/

section
variable {mb : Mailbox} {b : Bytes} {s : State}

theorem exec_timeGet_served (h : serves .timeGet mb b s) :
    exec (.timeGet mb) s = .next (complete mb .ok (u64 s.time.life.toNat ++ u64 s.time.rtcSec.toNat ++
      u16 s.time.rtcSub.toNat ++ u16 s.legal.epoch.toNat ++ u32 (rtcStatus s.time) ++ i32 s.time.trim.toInt ++
      u32 s.time.adjLimit) (takeUp mb s)) :=
  congrArg Host.Outcome.next (runCommand_served _ rfl h)

theorem exec_timeSet_of_le (h : serves .timeSet mb b s) (hsec : rd b 0 8 ≤ 8078572799) :
    exec (.timeSet mb) s = .next { takeUp mb s with
      time := { s.time with write := some ⟨true, rd b 0 8 * 32768 - rtcCount s.time⟩ }
      tb := { s.tb with waiting := s.tb.waiting ++ [mb] } } := by
  change execTimeSet mb s = _
  rw [execTimeSet, runCommand_served _ rfl h]
  simp only [setSecond_of_le hsec]
  rfl

theorem exec_timeSet_of_gt (h : serves .timeSet mb b s) (hsec : 8078572799 < rd b 0 8) :
    exec (.timeSet mb) s =
      .next (complete mb .rtcRange [] { takeUp mb s with time := { s.time with adjRefused := true } }) := by
  change execTimeSet mb s = _
  rw [execTimeSet, runCommand_served _ rfl h]
  simp only [setSecond_of_gt hsec]
  rfl

theorem exec_timeAdjust_of_inRange (h : serves .timeAdjust mb b s) (hwrite : s.time.write = none)
    (hin : rtcInRange (rtcCount s.time + s.time.slewLeft + msToCycles (rdI32 b 0)) = true) :
    exec (.timeAdjust mb) s = .next { takeUp mb s with
      time := { s.time with write := some ⟨false, msToCycles (rdI32 b 0)⟩ }
      tb := { s.tb with waiting := s.tb.waiting ++ [mb] } } := by
  have hadjust := adjustMs_of_inRange (s := takeUp mb s) hwrite hin
  change execTimeAdjust mb s = _
  rw [execTimeAdjust, runCommand_served _ rfl h]
  simp only [hadjust]
  rfl

theorem exec_timeAdjust_of_outOfRange (h : serves .timeAdjust mb b s)
    (hout : rtcInRange (rtcCount s.time + writtenOffset s.time + msToCycles (rdI32 b 0)) = false) :
    exec (.timeAdjust mb) s =
      .next (complete mb .rtcRange [] { takeUp mb s with time := { s.time with adjRefused := true } }) := by
  have hadjust := adjustMs_of_outOfRange (s := takeUp mb s) hout
  change execTimeAdjust mb s = _
  rw [execTimeAdjust, runCommand_served _ rfl h]
  simp only [hadjust]
  rfl

theorem exec_timeTrimSet_served (h : serves .timeTrimSet mb b s) :
    exec (.timeTrimSet mb) s =
      let v := rdI32 b 0
      let w := clipTrim v
      .next (complete mb (if w = v then .ok else .trimClipped) (i32 w) { takeUp mb s with
        time := { s.time with trim := BitVec.ofInt 10 w, trimClipped := s.time.trimClipped || w != v } }) :=
  congrArg Host.Outcome.next (runCommand_served _ rfl h)

end

/-! ### The registers of the RTC (R136, R140, R145) -/

theorem rtcWriter_iff {m : Master} : rtcWriter m = true ↔ m = .app0 ∨ m = .app1 := by
  simp [rtcWriter]

theorem rtcWriter_eq_false {m : Master} (h0 : m ≠ .app0) (h1 : m ≠ .app1) : rtcWriter m = false := by
  simp [rtcWriter, h0, h1]

section
variable {m : Master} (hm : rtcWriter m = true) (s : State)
include hm

theorem exec_rtcAdjMsWrite_whole (w : Word32) : exec (.rtcAdjMsWrite m w true) s = .next (adjustMs w.toInt s).2 :=
  next_ifDo_of_true (by rw [hm, Bool.and_true]) _ _

theorem exec_rtcSetLoWrite_whole (hi : BitVec 1) (lo : Word32) :
    exec (.rtcSetLoWrite m hi lo true) s = .next (setSecond (hi ++ lo).toNat { s with tb := { s.tb with setHi := hi } }).2 :=
  next_ifDo_of_true hm _ _

theorem exec_rtcTrimWrite_writer (w : Word32) :
    exec (.rtcTrimWrite m w) s = .next (setTrim (w.setWidth 10 : BitVec 10).toInt s) :=
  next_ifDo_of_true hm _ _

/-- 00 R21: RTC_ADJ_MS and RTC_SET_LO act on whole words alone. -/
theorem exec_rtcWrites_partial (w : Word32) (hi : BitVec 1) :
    exec (.rtcAdjMsWrite m w false) s = .next s ∧
      exec (.rtcSetLoWrite m hi w false) s = .next { s with tb := { s.tb with setHi := hi } } :=
  ⟨next_ifDo_of_false (Bool.and_false _) _ _, next_ifDo_of_true hm _ _⟩

end

theorem exec_rtcWrites_of_other_master {m : Master} (hm : rtcWriter m = false) (s : State) (w lo : Word32) (hi : BitVec 1)
    (whole : Bool) :
    exec (.rtcAdjMsWrite m w whole) s = .next s ∧ exec (.rtcSetLoWrite m hi lo whole) s = .next s ∧
      exec (.rtcTrimWrite m w) s = .next s :=
  ⟨next_ifDo_of_false (by rw [hm, Bool.false_and]) _ _,
    next_ifDo_of_false hm _ _, next_ifDo_of_false hm _ _⟩

/-! ### The timers (R142 to R144) -/

theorem exec_tmrPeriodWrite_of_owner {m : Master} {n : Fin 16} (h : ownsTimer m n = true) (p : Word32) (s : State) :
    exec (.tmrPeriodWrite m n p) s = .next { s with tb := { s.tb with timers := vmod s.tb.timers n (setPeriod p) } } :=
  next_ifDo_of_true h _ _

theorem exec_tmrPeriodWrite_of_other {m : Master} {n : Fin 16} (h : ownsTimer m n = false) (p : Word32) (s : State) :
    exec (.tmrPeriodWrite m n p) s = .next s :=
  next_ifDo_of_false h _ _

theorem vmod_congr {α : Type} {n : Nat} {v : Vector α n} {i : Fin n} {f g : α → α} (h : f v[i] = g v[i]) :
    vmod v i f = vmod v i g := by
  rw [vmod, vmod, h]

/-- A period that runs and ends within the present AO32 cycle (R142, R143, R157). -/
theorem exec_tmrPeriodEvent_of_due {s : State} {n : Fin 16} (hrun : s.tb.timers[n].running ≠ 0)
    (hdue : s.tb.timers[n].due ≤ 1508) : exec (.tmrPeriodEvent n) s =
      .next { s with tb := { s.tb with timers := vmod s.tb.timers n (fun t => { t with
        evt := true, overrun := t.overrun || t.evt, irq := t.irq || (t.irqEn && ownerRuns s n), running := t.period
        due := t.due + t.period.toNat }) } } := by
  have hends : ¬ (s.tb.timers[n].running = 0 ∨ 1508 < s.tb.timers[n].due) :=
    not_or.mpr ⟨hrun, not_lt.mpr hdue⟩
  refine congrArg (fun ts => Host.Outcome.next { s with tb := { s.tb with timers := ts } }) (vmod_congr ?_)
  exact if_neg hends

/-! ### The statements -/

/-- Settles O12: each clause is the lemma of its command or register. -/
theorem timeOfDay : Obligations.TimeOfDay := by
  unfold Obligations.TimeOfDay
  refine ⟨fun mb b s => ⟨exec_timeGet_served, ?set, ?adjust, exec_timeTrimSet_served⟩,
    fun s m => ⟨?writer, ?otherMaster, ?period, ?otherOwner, ?event⟩⟩
  case set => exact fun h => ⟨exec_timeSet_of_le h, exec_timeSet_of_gt h⟩
  case adjust =>
    intro h hwrite
    refine ⟨exec_timeAdjust_of_inRange h hwrite, fun hout => exec_timeAdjust_of_outOfRange h ?_⟩
    rwa [writtenOffset_of_no_write hwrite]
  case writer =>
    intro hm hwrite
    have hm := rtcWriter_iff.mpr hm
    refine ⟨fun w hin => ?_, fun hi lo hsec => ?_, exec_rtcWrites_partial hm s, fun w hlo hhi => ?_⟩
    · rw [exec_rtcAdjMsWrite_whole hm, adjustMs_of_inRange hwrite hin]
    · rw [exec_rtcSetLoWrite_whole hm, setSecond_of_le hsec]
    · rw [exec_rtcTrimWrite_writer hm, setTrim_of_mem hlo hhi]
  case otherMaster => exact fun h0 h1 => exec_rtcWrites_of_other_master (rtcWriter_eq_false h0 h1) s
  case period => exact fun n p h => exec_tmrPeriodWrite_of_owner h p s
  case otherOwner => exact fun n p h => exec_tmrPeriodWrite_of_other h p s
  case event => exact fun n => exec_tmrPeriodEvent_of_due

/-- Settles O60: the operations refuse what lies out of range, whoever asks. -/
theorem timesOutOfRange : Obligations.TimesOutOfRange := by
  unfold Obligations.TimesOutOfRange
  refine ⟨fun s mb b => exec_timeSet_of_gt, fun s mb b h hout => ?adjust, fun s m w hm hout => ?adjustRegister,
    fun s m hi lo hm hsec => ?setRegister, fun s => ⟨setSecond_of_le le_rfl, rfl⟩⟩
  case adjust => exact exec_timeAdjust_of_outOfRange h (rtcInRange_eq_false_iff.mpr hout)
  case adjustRegister =>
    rw [exec_rtcAdjMsWrite_whole (rtcWriter_iff.mpr hm), adjustMs_of_outOfRange (rtcInRange_eq_false_iff.mpr hout)]
  case setRegister => rw [exec_rtcSetLoWrite_whole (rtcWriter_iff.mpr hm), setSecond_of_gt hsec]

end Sys2Proof.Machine
end

section
/-! SUPPORT. The AO32 cycle and the reports to MET (04 R131, R133, R137, R139, R141, R153; 19 R664): the conditions of a
cycle are read once, at its beginning, and hold of every state within it; the RTC's count; the proof of ClockAndReports. -/

namespace Sys2Proof.Machine

/-! ### What the conditions of an AO32 cycle read -/

/-- The fields that `baseRuns` and `healthy` read are the same in both states. -/
structure SameConditions (s t : State) : Prop where
  state : t.pwr.state = s.pwr.state
  inReset : t.pwr.inReset = s.pwr.inReset
  hif : t.hif = s.hif
  run : t.run = s.run
  fab : t.fab = s.fab
  cfg : t.cfg = s.cfg

namespace SameConditions

variable {s t u : State}

theorem trans (h : SameConditions s t) (k : SameConditions t u) : SameConditions s u :=
  ⟨k.state.trans h.state, k.inReset.trans h.inReset, k.hif.trans h.hif, k.run.trans h.run, k.fab.trans h.fab,
    k.cfg.trans h.cfg⟩

theorem baseRuns_eq (h : SameConditions s t) : baseRuns t = baseRuns s := by
  rw [baseRuns, baseRuns, h.state, h.inReset]

theorem healthy_eq (h : SameConditions s t) : healthy t = healthy s := by
  rw [healthy, healthy, h.state, h.inReset, h.hif, h.run, h.fab, h.cfg]

theorem ifDo (h : SameConditions s t) {c : Bool} {f : State → State} (hf : SameConditions t (f t)) :
    SameConditions s (ifDo c f t) := by
  cases c with
  | false => exact h
  | true => exact h.trans hf

theorem forEach {α : Type} {f : α → State → State} (hf : ∀ a x, SameConditions x (f a x)) (l : List α) (s : State) :
    SameConditions s (forEach l f s) := by
  induction l generalizing s with
  | nil => exact ⟨rfl, rfl, rfl, rfl, rfl, rfl⟩
  | cons a l ih => exact (hf a s).trans (ih (f a s))

end SameConditions

theorem sameConditions_timersTick (s : State) : SameConditions s (timersTick s) :=
  SameConditions.ifDo ⟨rfl, rfl, rfl, rfl, rfl, rfl⟩ ⟨rfl, rfl, rfl, rfl, rfl, rfl⟩

theorem sameConditions_chargeTick (s : State) : SameConditions s (chargeTick s) := by
  unfold chargeTick
  split_ifs <;> exact ⟨rfl, rfl, rfl, rfl, rfl, rfl⟩

theorem sameConditions_noteIdle (s : State) : SameConditions s (noteIdle s) := ⟨rfl, rfl, rfl, rfl, rfl, rfl⟩

theorem sameConditions_portNext (p : Fin 8) (s : State) : SameConditions s (portNext p s) := by
  have hnext : SameConditions s (modPort p (fun _ => nextFrame s.time.life s.net.port[p]) s) := ⟨rfl, rfl, rfl, rfl, rfl, rfl⟩
  exact hnext.ifDo ⟨rfl, rfl, rfl, rfl, rfl, rfl⟩

theorem sameConditions_startPorts (s : State) : SameConditions s (startPorts s) :=
  SameConditions.forEach sameConditions_portNext _ s

/-! ### The RTC's count (R133, R137, R140, R153) -/

theorem slewStep_write (t : Time) : (slewStep t).2.write = t.write := by
  unfold slewStep
  split_ifs <;> rfl

theorem trimStep_write (d : Int) (t : Time) : (trimStep d t).2.write = t.write := by
  unfold trimStep
  dsimp only
  split_ifs <;> rfl

/-- The count leaves the writes of the cycle as they stand. -/
theorem rtcTick_write (t : Time) : (rtcTick t).write = t.write := by
  unfold rtcTick
  split_ifs
  · rfl
  · exact (trimStep_write _ _).trans (slewStep_write t)

theorem rtcTick_of_rangeEnd {t : Time} (h : t.rangeEnd = true) : rtcTick t = t := if_pos h

theorem slewStep_of_absorbed {t : Time} (h : t.slewLeft = 0) : slewStep t = (0, { t with slewPhase := 0 }) := if_pos h

theorem trimStep_of_untrimmed {t : Time} (d : Int) (htrim : t.trim = 0) (hacc : t.trimAcc = 0) : trimStep d t = (0, t) := by
  have hsum : t.trimAcc + t.trim.toInt = 0 := by rw [htrim, hacc]; rfl
  have hsame : { t with trimAcc := 0 } = t := by rw [← hacc]
  simp only [trimStep, hsum]
  rw [if_neg (by decide), if_neg (by omega), hsame]

/-- Without slew and trim the count is one up to the last count. -/
theorem rtcTick_of_plain {t : Time} (hend : t.rangeEnd = false) (hslew : t.slewLeft = 0) (htrim : t.trim = 0)
    (hacc : t.trimAcc = 0) :
    rtcTick t = { t with
      slewPhase := 0
      rtcSec := BitVec.ofNat 33 ((min rtcMaxCount (rtcCount t + 1)).toNat / 32768)
      rtcSub := BitVec.ofNat 15 ((min rtcMaxCount (rtcCount t + 1)).toNat % 32768) } := by
  have htrimStep : trimStep 0 { t with slewPhase := 0 } = (0, { t with slewPhase := 0 }) := trimStep_of_untrimmed 0 htrim hacc
  rw [rtcTick, if_neg (Bool.eq_false_iff.mp hend), slewStep_of_absorbed hslew]
  simp only [htrimStep, add_zero]
  rfl

/-! ### The cycle -/

theorem applyWrite_of_no_write {s : State} (h : s.time.write = none) : applyWrite s = s := by
  rw [applyWrite, h]

theorem exec_ao32Tick_of_off {s : State} (h : s.pwr.state = .off) : exec .ao32Tick s = .next s :=
  next_ifDo_of_false (by rw [h]; rfl) _ _

/-- What a running control base counts in a cycle: the rinse's time, the time in IDLE's conditions, and idle ports. -/
def baseTick (s : State) : State :=
  startPorts (noteIdle { s with wch := { s.wch with rinseTime := s.wch.rinseTime + 1 } })

/-- What RUN counts in a cycle: the display's time. -/
def runTick (s : State) : State := { s with disp := { s.disp with runTime := s.disp.runTime + 1 } }

/-- What a healthy trial counts in a cycle. -/
def trialTick (s : State) : State := { s with run := { s.run with healthy := s.run.healthy + 1 } }

theorem sameConditions_baseTick (s : State) : SameConditions s (baseTick s) := by
  let r : State := { s with wch := { s.wch with rinseTime := s.wch.rinseTime + 1 } }
  have hr : SameConditions s r := ⟨rfl, rfl, rfl, rfl, rfl, rfl⟩
  exact (hr.trans (sameConditions_noteIdle r)).trans (sameConditions_startPorts (noteIdle r))

theorem sameConditions_runTick (s : State) : SameConditions s (runTick s) := ⟨rfl, rfl, rfl, rfl, rfl, rfl⟩

/-- The row with its conditions as it reads them, at the beginning of the cycle. -/
theorem exec_ao32Tick_of_supplied {s : State} (hsupplied : s.pwr.state ≠ .off) :
    exec .ao32Tick s = .next (restartNow (ifDo (healthy s) trialTick (ifDo (baseRuns s && s.pwr.state == .run) runTick
      (ifDo (baseRuns s) baseTick (chargeTick (timersTick (applyWrite
        { s with time := rtcTick { s.time with life := s.time.life + 1 } }))))))) :=
  next_ifDo_of_true (bne_iff_ne.mpr hsupplied) _ _

/-- The conditions read at the beginning of the cycle are those of the states within it. -/
theorem exec_ao32Tick_of_no_write {s : State} (hsupplied : s.pwr.state ≠ .off) (hwrite : s.time.write = none) :
    exec .ao32Tick s =
      let t := chargeTick (timersTick { s with time := rtcTick { s.time with life := s.time.life + 1 } })
      let u := if baseRuns t then startPorts (noteIdle { t with wch := { t.wch with rinseTime := t.wch.rinseTime + 1 } }) else t
      let v := if baseRuns u && u.pwr.state == .run then { u with disp := { u.disp with runTime := u.disp.runTime + 1 } } else u
      .next (restartNow (if healthy v then { v with run := { v.run with healthy := v.run.healthy + 1 } } else v)) := by
  let r : State := { s with time := rtcTick { s.time with life := s.time.life + 1 } }
  let t := chargeTick (timersTick r)
  let u := ifDo (baseRuns t) baseTick t
  let v := ifDo (baseRuns u && u.pwr.state == .run) runTick u
  have happlied : applyWrite r = r := applyWrite_of_no_write ((rtcTick_write _).trans hwrite)
  have hr : SameConditions s r := ⟨rfl, rfl, rfl, rfl, rfl, rfl⟩
  have ht : SameConditions s t := (hr.trans (sameConditions_timersTick r)).trans (sameConditions_chargeTick _)
  have hu : SameConditions s u := ht.ifDo (sameConditions_baseTick t)
  have hv : SameConditions s v := hu.ifDo (sameConditions_runTick u)
  calc exec .ao32Tick s
      = .next (restartNow (ifDo (healthy s) trialTick (ifDo (baseRuns s && s.pwr.state == .run) runTick
          (ifDo (baseRuns s) baseTick (chargeTick (timersTick (applyWrite r))))))) := exec_ao32Tick_of_supplied hsupplied
    _ = .next (restartNow (ifDo (healthy s) trialTick (ifDo (baseRuns s && s.pwr.state == .run) runTick
          (ifDo (baseRuns s) baseTick t)))) := by rw [happlied]
    _ = .next (restartNow (ifDo (healthy s) trialTick (ifDo (baseRuns s && s.pwr.state == .run) runTick u))) := by
          rw [← ht.baseRuns_eq]
    _ = .next (restartNow (ifDo (healthy s) trialTick v)) := by rw [← hu.baseRuns_eq, ← hu.state]
    _ = .next (restartNow (ifDo (healthy v) trialTick v)) := by rw [← hv.healthy_eq]

theorem exec_slewAbsorbed_of_absorbed {s : State} (hslewing : s.time.slewing = true) (hleft : s.time.slewLeft = 0) :
    exec .slewAbsorbed s = .next { s with time := { s.time with slewing := false } } :=
  next_ifDo_of_true (by rw [hslewing, hleft]; rfl) _ _

/-! ### The range end and MET's reports (R139, R153; 10 Table 10.4) -/

theorem exec_rtcRangeEnd_of_last {s : State} (hend : s.time.rangeEnd = false) (hlast : rtcCount s.time = rtcMaxCount) :
    exec .rtcRangeEnd s =
      let t := raise .rtcRangeEnd [] { s with time := { s.time with rangeEnd := true, valid := false } }
      .next (if s.met.running then log 0x0014 noSubject [] t else t) := by
  have hends : (!s.time.rangeEnd && decide (rtcCount s.time = rtcMaxCount)) = true := by simp [hend, hlast]
  exact next_ifDo_of_true hends _ _

section
variable {s : State}

theorem exec_metTimeReport_of_report {r : TimeReport} {rest : List TimeReport} (hreports : s.tb.reports = r :: rest)
    (hmet : s.met.running = true) :
    exec .metTimeReport s = .next (if r.step then stepReport r { s with tb := { s.tb with reports := rest } }
      else slewReport r { s with tb := { s.tb with reports := rest } }) := by
  change execMetTimeReport s = _
  rw [execMetTimeReport, hreports]
  simp only [hmet, ifDo_true]
  split_ifs <;> rfl

theorem exec_metTimeReport_of_none (h : s.tb.reports = []) : exec .metTimeReport s = .next s := by
  change execMetTimeReport s = _
  rw [execMetTimeReport, h]

end

/-! ### The statement -/

/-- Settles O13: each clause is the lemma of its row or of the RTC's count. -/
theorem clockAndReports : Obligations.ClockAndReports := by
  unfold Obligations.ClockAndReports
  exact ⟨fun s => ⟨exec_ao32Tick_of_no_write, fun t => rtcTick_of_plain, fun t => rtcTick_of_rangeEnd, exec_ao32Tick_of_off,
      exec_slewAbsorbed_of_absorbed⟩,
    fun s => ⟨exec_rtcRangeEnd_of_last, fun r rest => exec_metTimeReport_of_report, exec_metTimeReport_of_none⟩⟩

end Sys2Proof.Machine
end

section
/-! SUPPORT. The faults of the clock domains and their readmission (04 Table 4.7, R159, R160): the state that each row leaves
for a domain that is on, and the proof of ClockFaults from them. -/

namespace Sys2Proof.Machine

/-! ### The domains that reset or stop other units -/

section
variable {s : State}

theorem exec_ao32Fault_of_on (h : domainOn s .ao32 = true) :
    exec .ao32Fault s = (let t := clockFault .ao32 { s with time := { s.time with holdover := true } }
      .next (if s.met.running && !s.time.holdover then log 0x0013 noSubject (u8 0) t else t)) :=
  next_ifDo_of_true h _ _

theorem exec_aofFault_of_on (h : domainOn s .aof = true) :
    exec .aofFault s = .next (clockFault .aof { s with time := { s.time with aofFault := true } }) :=
  next_ifDo_of_true h _ _

theorem exec_refFault_of_on (h : domainOn s .ref = true) :
    exec .refFault s =
      let t := skipSave (railFaultNow (clockFault .ref (withdraw allDrivers [.wch] causeClock s)))
      .next (afterSave { t with pwr := { t.pwr with resetAfterSave := t.pwr.vauxUp } }) :=
  next_ifDo_of_true h _ _

theorem exec_metClockFault_of_on (h : domainOn s .met = true) (hreset : s.pwr.inReset = false) :
    exec .metClockFault s =
      let t := clockFault .met (withdraw allDrivers [.wch] causeClock (if s.met.running then metReset s else s))
      .next { t with pwr := { t.pwr with savesMet := false } } :=
  next_ifDo_of_true (by rw [h, hreset]; rfl) _ _

theorem exec_safClockFault_of_on (h : domainOn s .saf = true) :
    exec .safClockFault s =
      let t := safReset causeClock (clockFault .saf (withdraw allDrivers [.wch] causeClock s))
      .next { t with pwr := { t.pwr with savesSaf := false } } :=
  next_ifDo_of_true h _ _

theorem exec_fltFault_of_on (h : domainOn s .flt = true) (hreset : s.pwr.inReset = false) :
    exec .fltFault s =
      let t := dropSync (forEach (List.finRange 48) (fun i => takeOut i 3) (safTrip allDrivers causeClock (clockFault .flt s)))
      .next { t with weave := { t.weave with running := false } } :=
  next_ifDo_of_true (by rw [h, hreset]; rfl) _ _

end

/-! ### The application's clock -/

theorem loseEvents_pwr (n : Nat) (s : State) : (loseEvents n s).pwr = s.pwr := by
  unfold loseEvents
  split_ifs <;> rfl

theorem placeEvent_pwr (code : BitVec 16) (payload : Bytes) (s : State) : (placeEvent code payload s).pwr = s.pwr := by
  unfold placeEvent
  dsimp only
  split
  · rfl
  · split_ifs
    · rfl
    · rw [loseEvents_pwr]

/-- An event leaves the supplies as they are. -/
theorem raise_pwr (e : Ev) (fields : Bytes) (s : State) : (raise e fields s).pwr = s.pwr := by
  unfold raise raiseCode
  split_ifs
  · rfl
  · exact placeEvent_pwr _ _ s
  · rfl
  · rfl

theorem clockFault_pwr (d : Domain) (s : State) : (clockFault d s).pwr = s.pwr := raise_pwr _ _ _

theorem coresPowered_clockFault (d : Domain) (s : State) : coresPowered (clockFault d s) = coresPowered s := by
  rw [coresPowered, coresPowered, clockFault_pwr]

theorem exec_appClockFault_of_on {s : State} (h : domainOn s .app = true) (hreset : s.pwr.inReset = false) :
    exec .appClockFault s =
      let t := clockFault .app s
      let u := if coresPowered s then appReset t else t
      .next { u with pwr := { u.pwr with savesApp := false } } :=
  next_ifDo_of_true (by rw [h, hreset]; rfl) _ _

/-! ### The lesser PLL domains -/

/-- A first fault leaves the domain to be readmitted (Table 4.7). -/
theorem exec_pllDomainFault_of_first {d : Domain} {s : State} (hpll : lesserPll d = true) (hon : domainOn s d = true)
    (hreset : s.pwr.inReset = false) (hfirst : s.tb.lastPll = []) :
    exec (.pllDomainFault d) s =
      let t := clockFault d s
      .next (pllStops d false { t with tb := { t.tb with lastPll := (d, s.time.life) :: t.tb.lastPll.filter (fun x => x.1 != d) } }) := by
  have hacts : (domainOn s d && !s.pwr.inReset) = true := by rw [hon, hreset]; rfl
  change execPllDomainFault d s = _
  rw [execPllDomainFault, hfirst, hpll, when_true]
  exact next_ifDo_of_true hacts _ _

/-! ### Readmission (R160) -/

/-- A domain that is not left off comes back, MOD once every island link is back. -/
theorem exec_domainReadmitted_of_faulted {d : Domain} {s : State} (hout : domainOut s d = true)
    (hoff : s.tb.off.contains d = false) (hlinks : d ≠ .mod ∨ ∀ k : Island, s.isl[k].linkUp = true) :
    exec (.domainReadmitted d) s = .next (raise .clockFault (u8 (domainCode d) ++ u8 1)
      (domainResumes d { s with tb := { s.tb with faulted := s.tb.faulted.filter (fun x => x != d) } })) := by
  have hback : (d != .mod || s.isl.toList.all (·.linkUp)) = true := by
    rw [Bool.or_eq_true, bne_iff_ne]
    refine hlinks.imp_right fun hup => List.all_eq_true.mpr fun x hx => ?_
    obtain ⟨k, hk, rfl⟩ := Vector.mem_iff_getElem.mp (Vector.mem_toList_iff.mp hx)
    exact hup ⟨k, hk⟩
  exact next_ifDo_of_true (by rw [hout, hoff, hback]; rfl) _ _

/-! ### A domain that is off -/

/-- The fault of a domain that is off does nothing (log 87), in the row of each domain of its own. -/
theorem exec_clockFault_of_domainOff (s : State) :
    ∀ c ∈ [(Instr.ao32Fault, Domain.ao32), (.aofFault, .aof), (.refFault, .ref), (.metClockFault, .met), (.safClockFault, .saf),
        (.appClockFault, .app), (.fltFault, .flt)], domainOn s c.2 = false → exec c.1 s = .next s := by
  have hreset {d : Domain} (h : domainOn s d = false) : (domainOn s d && !s.pwr.inReset) = false := by
    rw [h, Bool.false_and]
  simp only [List.forall_mem_cons]
  exact ⟨fun h => next_ifDo_of_false h _ _, fun h => next_ifDo_of_false h _ _, fun h => next_ifDo_of_false h _ _,
    fun h => next_ifDo_of_false (hreset h) _ _, fun h => next_ifDo_of_false h _ _,
    fun h => next_ifDo_of_false (hreset h) _ _, fun h => next_ifDo_of_false (hreset h) _ _,
    List.forall_mem_nil _⟩

/-! ### The statement -/

/-- Settles O14: each clause is the lemma of its row. -/
theorem clockFaults : Obligations.ClockFaults := by
  unfold Obligations.ClockFaults
  refine fun s => ⟨exec_ao32Fault_of_on, exec_aofFault_of_on, exec_refFault_of_on, exec_metClockFault_of_on,
    exec_safClockFault_of_on, exec_appClockFault_of_on, exec_fltFault_of_on, fun d => exec_pllDomainFault_of_first, ?readmitted,
    ?modReadmitted, exec_clockFault_of_domainOff s⟩
  case readmitted => exact fun d hout hoff hmod => exec_domainReadmitted_of_faulted hout hoff (.inl hmod)
  case modReadmitted => exact fun hout hoff hup => exec_domainReadmitted_of_faulted hout hoff (.inr hup)

end Sys2Proof.Machine
end

section
/-! SUPPORT. The peripheral serial ports, the general-purpose pins and the watch domain's status (17 R597 to R610; 07 Tables
7.18 and 7.19): what each command and row does where its conditions hold, and the proof of PortsAndPins from them. -/

namespace Sys2Proof.Machine

/-! ### The checks of a command, one after another (07 R256) -/

@[simp] theorem guards_nil (s : State) (k : Reply) : guards [] s k = k := rfl
@[simp] theorem guards_cons_true (st : Status) (l : List (Bool × Status)) (s : State) (k : Reply) :
    guards ((true, st) :: l) s k = refuse st s := rfl
@[simp] theorem guards_cons_false (st : Status) (l : List (Bool × Status)) (s : State) (k : Reply) :
    guards ((false, st) :: l) s k = guards l s k := rfl

/-! ### PSP_TRANSFER (R598 to R607) -/

/-- A PSP_TRANSFER on an enabled port, in its clock domain, without a select. -/
structure PlainTransfer (b : Bytes) (u : State) : Prop where
  port : rd b 0 1 < 3
  enabled : (u.pins.psp[(Fin.ofNat 3 (rd b 0 1) : Fin 3)]).keys.enable = true
  clocked : domainOut u .per = false
  unselected : rd b 1 1 = 0xFF
  active : rd b 2 1 ≤ 1

/-- The transmit and the receive width fit the wired lanes of a port. -/
abbrev WidthsFit (b : Bytes) (k : PspKeys) : Prop :=
  pspBits (rd b 3 1) ≤ max k.lanes 1 ∧ pspBits (rd b 3 1 / 4) ≤ max k.lanes 1

/-- Half duplex, lengths and clock within their ranges (07 Table 7.18). -/
structure TransferInRange (b : Bytes) : Prop where
  halfDuplex : (rd b 3 1).testBit 4 = false
  transmit : rd b 4 2 ≤ 500
  receive : rd b 6 2 ≤ 500
  clockLow : 1 ≤ rd b 8 4
  clockHigh : rd b 8 4 ≤ 50000

section
variable {s : State} {mb : Mailbox} {b : Bytes}

theorem exec_pspTransfer_of_wide (h : serves .pspTransfer mb b s) (hplain : PlainTransfer b (takeUp mb s))
    (hwide : ¬ WidthsFit b (takeUp mb s).pins.psp[(Fin.ofNat 3 (rd b 0 1) : Fin 3)].keys) :
    exec (.pspTransfer mb) s = .next (complete mb .argRange [] (takeUp mb s)) := by
  obtain ⟨hport, henabled, hclocked, hselect, hactive⟩ := hplain
  have hcheck := decide_eq_true (not_and_or.mp hwide)
  simp only [not_le, Bool.decide_or] at hcheck
  change execPspTransfer mb s = _
  rw [execPspTransfer, runCommand_served _ rfl h]
  simp only [hport, henabled, hclocked, hselect, hcheck, Nat.not_lt.mpr hactive, Nat.not_lt.mpr (Nat.le_of_lt_succ hport),
    show ¬ 0xFF < 64 by decide, decide_true, decide_false, Bool.not_true, Bool.or_false, Bool.and_false, Bool.false_and,
    bne_self_eq_false, Bool.true_or, guards_cons_false, guards_cons_true]
  rfl

/-- The command as its port's queue holds it. -/
def queuedTransfer (mb : Mailbox) (b : Bytes) (ticket : Nat) : Transfer :=
  { host := mb, ticket, select := none, active := rd b 2 1 == 1, txBits := pspBits (rd b 3 1), rxBits := pspBits (rd b 3 1 / 4)
    fdx := false, firstX1 := (BitVec.ofNat 8 (rd b 3 1)).getLsbD 5, receive := rd b 6 2, k := pspDivisor (rd b 8 4)
    data := (b.drop 12).take (rd b 4 2) }

/-- A plain transfer that fits its lanes passes every check: it completes at once where it moves no byte, and joins its
port's queue where it moves some. -/
theorem exec_pspTransfer_of_fits (h : serves .pspTransfer mb b s) (hplain : PlainTransfer b (takeUp mb s))
    (hfits : WidthsFit b (takeUp mb s).pins.psp[(Fin.ofNat 3 (rd b 0 1) : Fin 3)].keys) (hrange : TransferInRange b) :
    exec (.pspTransfer mb) s =
      let u := takeUp mb s
      .next (if rd b 4 2 = 0 ∧ rd b 6 2 = 0 then complete mb .ok [] u
        else startTransfers { u with pins := { u.pins with
          tickets := u.pins.tickets + 1
          psp := vmod u.pins.psp (Fin.ofNat 3 (rd b 0 1))
            (fun x => { x with queue := x.queue ++ [queuedTransfer mb b u.pins.tickets] }) } }) := by
  obtain ⟨hport, henabled, hclocked, hselect, hactive⟩ := hplain
  obtain ⟨hduplex, htransmit, hreceive, hlow, hhigh⟩ := hrange
  obtain ⟨htx, hrx⟩ := hfits
  have hfdx : (BitVec.ofNat 8 (rd b 3 1)).getLsbD 4 = false := by rw [BitVec.getLsbD_ofNat, hduplex, Bool.and_false]
  change execPspTransfer mb s = _
  rw [execPspTransfer, runCommand_served _ rfl h]
  simp only [hport, henabled, hclocked, hselect, hfdx, Nat.not_lt.mpr hactive, Nat.not_lt.mpr (Nat.le_of_lt_succ hport),
    Nat.not_lt.mpr htx, Nat.not_lt.mpr hrx, Nat.not_lt.mpr htransmit, Nat.not_lt.mpr hreceive, Nat.not_lt.mpr hhigh,
    beq_false_of_ne (Nat.one_le_iff_ne_zero.mp hlow),
    show ¬ 0xFF < 64 by decide, decide_true, decide_false, Bool.not_true, Bool.or_false, Bool.and_false, Bool.false_and,
    bne_self_eq_false, Bool.false_eq_true, if_false, guards_cons_false, guards_nil]
  split_ifs <;> rfl

end

/-! ### The run of a transfer (R602, R604 to R606) -/

theorem waitsMarker_iff {k : PspKeys} {t : Transfer} : waitsMarker k t = true ↔ k.marker = true ∧ t.receive ≠ 0 ∧ t.fdx = false := by
  simp [waitsMarker, and_assoc]

theorem waitsMarker_eq_false_iff {k : PspKeys} {t : Transfer} :
    waitsMarker k t = false ↔ k.marker = false ∨ t.receive = 0 ∨ t.fdx = true := by
  rw [← Bool.not_eq_true, waitsMarker_iff, not_and_or, not_and_or, Bool.not_eq_true, ne_eq, not_not, Bool.not_eq_false]

theorem waitOut_eq_false_of_lt {k : PspKeys} {t : Transfer} {n : Nat} (h : n * t.k < 50 * k.timeoutUs) : waitOut k t n = false :=
  decide_eq_false (Nat.not_le_of_lt h)

section
variable {s : State} {p : Fin 3} (g : List Bytes) (l : List (List (Nat × Bool)))

theorem exec_pspRows_of_emptyQueue (h : s.pins.psp[p].queue = []) :
    exec (.pspTransferRun p g l) s = .next s ∧ exec (.pspBusyTimeout p) s = .next s := by
  have hnone : runningTransfer s p = none := by rw [runningTransfer, h]; rfl
  constructor
  · change execPspTransferRun p g l s = _
    rw [execPspTransferRun, hnone]
  · change execPspBusyTimeout p s = _
    rw [execPspBusyTimeout, hnone]

variable {t : Transfer} {q : List Transfer} (hqueue : s.pins.psp[p].queue = t :: q)
include hqueue

theorem runningTransfer_of_queue : runningTransfer s p = some t := by
  rw [runningTransfer, hqueue]
  rfl

/-- A busy wait's time-out ends the head that waits for its marker, and no other. -/
theorem exec_pspBusyTimeout_of_running (hmay : mayRun s p t = true) : exec (.pspBusyTimeout p) s =
    .next (ifDo (waitsMarker s.pins.psp[p].keys t) (endTransfer p t .pspBusyTimeout []) s) := by
  change execPspBusyTimeout p s = _
  rw [execPspBusyTimeout, runningTransfer_of_queue hqueue]
  dsimp only
  rw [hmay, Bool.true_and]

theorem exec_pspTransferRun_of_noWait (hmay : mayRun s p t = true) (hwait : waitsMarker s.pins.psp[p].keys t = false) :
    exec (.pspTransferRun p g l) s = .next (runTransfer p t 0 l s) := by
  change execPspTransferRun p g l s = _
  rw [execPspTransferRun, runningTransfer_of_queue hqueue]
  simp only [hmay, hwait, Bool.not_true, Bool.not_false, Bool.false_eq_true, if_true, if_false]

section
variable (hmay : mayRun s p t = true) (hwait : waitsMarker s.pins.psp[p].keys t = true)
include hmay hwait

/-- A head that waits runs after the groups before its marker. -/
theorem exec_pspTransferRun_of_marker {n : Nat} (hbusy : busyBefore s.pins.psp[p].keys t g = some n) :
    exec (.pspTransferRun p g l) s = .next (runTransfer p t n l s) := by
  change execPspTransferRun p g l s = _
  rw [execPspTransferRun, runningTransfer_of_queue hqueue]
  simp only [hmay, hwait, hbusy, Bool.not_true, Bool.false_eq_true, if_false]

/-- Without a marker in time the busy wait runs out, or goes on. -/
theorem exec_pspTransferRun_of_noMarker (hbusy : busyBefore s.pins.psp[p].keys t g = none) :
    exec (.pspTransferRun p g l) s =
      .next (ifDo (waitOut s.pins.psp[p].keys t g.length) (endTransfer p t .pspBusyTimeout []) s) := by
  change execPspTransferRun p g l s = _
  rw [execPspTransferRun, runningTransfer_of_queue hqueue]
  simp only [hmay, hwait, hbusy, Bool.not_true, Bool.false_eq_true, if_false]

end
end

theorem receivedBytes_length (t : Transfer) (l : List (List (Nat × Bool))) : (receivedBytes t l).length = t.receive := by
  simp [receivedBytes]

theorem length_bits_of_bytes (b : Bytes) : (b.flatMap (fun x => (List.range 8).map (fun i => x.getMsbD i))).length = 8 * b.length := by
  simp [List.length_flatMap, Nat.mul_comm]

/-- On one lane each bit takes a clock of its own. -/
theorem pspClocked_length_of_oneLane (n : Nat) (b : Bytes) : (pspClocked [n] b).length = 8 * b.length := by
  rw [pspClocked, List.length_map, List.length_range, length_bits_of_bytes, List.length_singleton, Nat.div_one]

theorem drivenLanes_length_of_x1 {t : Transfer} (hwidth : t.txBits = 1) (hduplex : t.fdx = false) :
    (drivenLanes t).length = 8 * t.data.length := by
  have hone : pspOut 1 = [0] := rfl
  have hsent : sentBytes t = t.data := by rw [sentBytes, hduplex]; rfl
  simp only [drivenLanes, hwidth, hone, hsent]
  split
  · rw [List.length_append, pspClocked_length_of_oneLane, pspClocked_length_of_oneLane, ← Nat.mul_add, ← List.length_append,
      List.take_append_drop]
  · exact pspClocked_length_of_oneLane 0 _

/-- The busy groups that are counted stand before the first marker. -/
theorem busyBefore_spec {k : PspKeys} {t : Transfer} {g : List Bytes} {n : Nat} (h : busyBefore k t g = some n) :
    (∃ b, g[n]? = some b ∧ isMarker k t b = true) ∧ ∀ m, m < n → ∀ b, g[m]? = some b → isMarker k t b = false := by
  obtain ⟨i, hfind, hin⟩ := Option.bind_eq_some_iff.mp h
  have hi : i = n := by
    split at hin
    · cases hin
    · exact Option.some.inj hin
  subst hi
  obtain ⟨hlt, hmarker, hbefore⟩ := List.findIdx?_eq_some_iff_getElem.mp hfind
  refine ⟨⟨g[i], List.getElem?_eq_getElem hlt, hmarker⟩, fun m hm b hb => ?_⟩
  obtain ⟨hml, rfl⟩ := List.getElem?_eq_some_iff.mp hb
  exact Bool.eq_false_iff.mpr (hbefore m hm)

/-! ### Words of pins -/

theorem getLsbD_setPin (w : BitVec 64) (i j : Fin 64) (v : Bool) :
    (setPin w i v).getLsbD j.val = if j = i then v else w.getLsbD j.val := by
  have hbit : (BitVec.ofNat 64 (2 ^ i.val)).getLsbD j.val = decide (j = i) := by
    rw [BitVec.getLsbD_ofNat, Nat.testBit_two_pow, decide_eq_true j.isLt, Bool.true_and, decide_eq_decide, Fin.ext_iff, eq_comm]
  cases v
  · rw [setPin, if_neg Bool.false_ne_true, BitVec.getLsbD_and, BitVec.getLsbD_not, hbit]
    by_cases hji : j = i
    · simp only [hji, decide_true, Bool.not_true, Bool.and_false, if_true]
    · simp only [hji, decide_false, Bool.not_false, j.isLt, decide_true, Bool.and_true, if_false]
  · rw [setPin, if_pos rfl, BitVec.getLsbD_or, hbit]
    by_cases hji : j = i
    · simp only [hji, decide_true, Bool.or_true, if_true]
    · simp only [hji, decide_false, Bool.or_false, if_false]

/-- Setting pins one after another: those of the list that meet a condition take their levels, and no other changes. -/
theorem getLsbD_foldl_setPin (c : Fin 64 → Prop) [DecidablePred c] (v : Fin 64 → Bool) (j : Fin 64) (l : List (Fin 64))
    (w : BitVec 64) : (l.foldl (fun w i => if c i then setPin w i (v i) else w) w).getLsbD j.val =
      if j ∈ l ∧ c j then v j else w.getLsbD j.val := by
  induction l generalizing w with
  | nil => simp
  | cons i l ih =>
    rw [List.foldl_cons, ih]
    by_cases hc : c i
    · rw [if_pos hc, getLsbD_setPin]
      by_cases hj : j = i
      · simp only [hj, hc, List.mem_cons, true_or, and_true, if_true, ite_self]
      · simp only [hj, List.mem_cons, false_or, if_false]
    · rw [if_neg hc]
      by_cases hj : j = i
      · simp only [hj, hc, and_false]
      · simp only [hj, List.mem_cons, false_or]

/-! ### GPIO_SET (R608; 07 Table 7.18) -/

section
variable {s : State} {mb : Mailbox} {b : Bytes}

/-- The pins that a GPIO_SET names. -/
def namedPins (b : Bytes) : List (Fin 64) := (List.finRange 64).filter (fun i => (BitVec.ofNat 64 (rd b 0 8)).getLsbD i.val)

theorem mem_namedPins {b : Bytes} {i : Fin 64} : i ∈ namedPins b ↔ (rd b 0 8).testBit i.val = true := by
  rw [namedPins, List.mem_filter, BitVec.getLsbD_ofNat, decide_eq_true i.isLt, Bool.true_and]
  exact and_iff_right (List.mem_finRange i)

/-- A pin that GPIO_SET may not set: a select, or one that a module function owns. -/
abbrev Unsettable (s : State) (i : Fin 64) : Prop := s.pins.fn[i] = .select ∨ pinOwned s i = true

/-- The levels after the named pins of function out or od are set. -/
def setOutputs (b : Bytes) (x : Pins) : BitVec 64 :=
  (namedPins b).foldl (fun w i =>
    if x.fn[i] = .out ∨ x.fn[i] = .od then setPin w i ((BitVec.ofNat 64 (rd b 8 8)).getLsbD i.val) else w) x.out

theorem getLsbD_setOutputs (b : Bytes) (x : Pins) (i : Fin 64) : (setOutputs b x).getLsbD i.val =
    if (rd b 0 8).testBit i.val = true ∧ (x.fn[i] = .out ∨ x.fn[i] = .od) then (rd b 8 8).testBit i.val else x.out.getLsbD i.val := by
  rw [setOutputs, getLsbD_foldl_setPin (fun i => x.fn[i] = .out ∨ x.fn[i] = .od), BitVec.getLsbD_ofNat, decide_eq_true i.isLt,
    Bool.true_and]
  simp only [mem_namedPins]

theorem exec_gpioSet_of_unsettable (h : serves .gpioSet mb b s)
    (hpin : ∃ i, (rd b 0 8).testBit i.val = true ∧ Unsettable (takeUp mb s) i) :
    exec (.gpioSet mb) s = .next (complete mb .gpOwned [] (takeUp mb s)) := by
  obtain ⟨i, hnamed, hi⟩ := hpin
  have hany : (namedPins b).any (fun i => (takeUp mb s).pins.fn[i] == .select || pinOwned (takeUp mb s) i) = true :=
    List.any_eq_true.mpr ⟨i, mem_namedPins.mpr hnamed, by rwa [Bool.or_eq_true, beq_iff_eq]⟩
  change execGpioSet mb s = _
  rw [execGpioSet, runCommand_served _ rfl h]
  rw [namedPins] at hany
  simp only [hany, guards_cons_true]
  rfl

theorem exec_gpioSet_of_settable (h : serves .gpioSet mb b s)
    (hpins : ∀ i, (rd b 0 8).testBit i.val = true → ¬ Unsettable (takeUp mb s) i) :
    exec (.gpioSet mb) s =
      let u := takeUp mb s
      .next (complete mb .ok [] { u with pins := { u.pins with out := setOutputs b u.pins } }) := by
  have hany : (namedPins b).any (fun i => (takeUp mb s).pins.fn[i] == .select || pinOwned (takeUp mb s) i) = false :=
    List.any_eq_false.mpr fun i hi => by
      rw [Bool.or_eq_true, beq_iff_eq]
      exact hpins i (mem_namedPins.mp hi)
  change execGpioSet mb s = _
  rw [execGpioSet, runCommand_served _ rfl h]
  rw [namedPins] at hany
  simp only [hany, guards_cons_false, guards_nil]
  rfl

end

/-! ### GPIO_GET and WATCH_STATUS_GET (R610, 05 R185; 07 Tables 7.18 and 7.19) -/

/-- A word of pins as the sum of its bits. -/
theorem foldl_shifted_bits {n : Nat} (f : Fin n → Bool) :
    (List.finRange n).foldl (fun a i => a + b1 (f i) <<< i.val) 0 = Nat.ofBits f := by
  have hsum : (List.finRange n).foldl (fun a i => a + b1 (f i) <<< i.val) 0 = ∑ i : Fin n, b1 (f i) <<< i.val := by
    rw [← List.foldl_map (f := fun i : Fin n => b1 (f i) <<< i.val) (g := (· + ·)), ← List.sum_eq_foldl]
    exact (Fin.sum_univ_def _).symm
  rw [hsum]
  clear hsum
  induction n with
  | zero => rfl
  | succ n ih =>
    have hdouble (i : Fin n) : b1 (f i.succ) <<< i.succ.val = 2 * b1 (f i.succ) <<< i.val := by
      rw [Fin.val_succ, Nat.shiftLeft_succ]
    have hlow : b1 (f 0) <<< (0 : Fin (n + 1)).val = (f 0).toNat := by
      cases f 0 <;> rfl
    rw [Fin.sum_univ_succ, Nat.ofBits_succ, ← ih, Finset.mul_sum, hlow, Nat.add_comm]
    exact congrArg (· + _) (Finset.sum_congr rfl fun i _ => hdouble i)

section
variable {s : State} {mb : Mailbox} {b : Bytes}

theorem exec_gpioGet_served (h : serves .gpioGet mb b s) (levels : BitVec 64) :
    exec (.gpioGet mb levels) s =
      .next (complete mb .ok (u64 levels.toNat ++ u64 (Nat.ofBits (pinDrives (takeUp mb s)))) (takeUp mb s)) := by
  rw [← foldl_shifted_bits]
  exact congrArg Host.Outcome.next (runCommand_served _ rfl h)

theorem exec_watchStatusGet_served (h : serves .watchStatusGet mb b s) :
    exec (.watchStatusGet mb) s =
      let u := takeUp mb s
      .next (complete mb .ok (u32 (wchStatus u.wch) ++ u32 u.wb.wakeCause.toNat ++ u16 u.wch.crackOhm.toNat
        ++ u16 u.wch.ring.length ++ u16 u.wch.lost.toNat ++ u16 0) u) :=
  congrArg Host.Outcome.next (runCommand_served _ rfl h)

end

/-! ### The statement -/

/-- Settles O56: each clause is the lemma of its command or row. -/
theorem portsAndPins : Obligations.PortsAndPins := by
  unfold Obligations.PortsAndPins
  refine ⟨?transfer, fun s p hempty g l => exec_pspRows_of_emptyQueue g l hempty, ?running, fun s p t n l => rfl, receivedBytes_length,
    fun t => drivenLanes_length_of_x1, fun k t g n => busyBefore_spec,
    fun s mb b h => ⟨exec_gpioSet_of_unsettable h, fun hpins => ?gpioSet⟩,
    fun s mb b l h => ⟨.ofNat 64 (Nat.ofBits (pinDrives (takeUp mb s))), ?gpioGet, fun i => ?drives⟩,
    fun s mb b => exec_watchStatusGet_served⟩
  case transfer =>
    intro s mb b h u p t r lanes hport henabled hclocked hselect hactive
    have hplain : PlainTransfer b u := ⟨hport, henabled, hclocked, hselect, hactive⟩
    refine ⟨fun hwide => exec_pspTransfer_of_wide h hplain fun hfits => ?_,
      fun htx hrx hduplex ht hr hlow hhigh => ?_⟩
    · exact hwide.elim (Nat.not_lt.mpr hfits.1) (Nat.not_lt.mpr hfits.2)
    · have hexec := exec_pspTransfer_of_fits h hplain ⟨htx, hrx⟩ ⟨hduplex, ht, hr, hlow, hhigh⟩
      refine ⟨fun ht0 hr0 => hexec.trans (congrArg Host.Outcome.next (if_pos ⟨ht0, hr0⟩)),
        fun hsome => hexec.trans (congrArg Host.Outcome.next (if_neg ?_))⟩
      exact not_and_or.mpr hsome
  case running =>
    intro s p t q hqueue hmay
    refine ⟨fun hno g l => exec_pspTransferRun_of_noWait g l hqueue hmay (waitsMarker_eq_false_iff.mpr hno),
      fun hmarker hreceive hhalf g l => ?_, fun hmarker hreceive hhalf => ?_, fun hmarker => ?_⟩
    · have hwait := waitsMarker_iff.mpr ⟨hmarker, hreceive, hhalf⟩
      have hnoMarker := exec_pspTransferRun_of_noMarker g l hqueue hmay hwait
      exact ⟨fun n => exec_pspTransferRun_of_marker g l hqueue hmay hwait,
        fun hnone hout => (hnoMarker hnone).trans (next_ifDo_of_true (decide_eq_true hout) _ _),
        fun hnone hin => (hnoMarker hnone).trans (next_ifDo_of_false (waitOut_eq_false_of_lt hin) _ _)⟩
    · exact (exec_pspBusyTimeout_of_running hqueue hmay).trans
        (next_ifDo_of_true (waitsMarker_iff.mpr ⟨hmarker, hreceive, hhalf⟩) _ _)
    · exact (exec_pspBusyTimeout_of_running hqueue hmay).trans
        (next_ifDo_of_false (waitsMarker_eq_false_iff.mpr (.inl hmarker)) _ _)
  case gpioSet =>
    refine ⟨_, exec_gpioSet_of_settable h fun i hnamed => not_or.mpr ?_, getLsbD_setOutputs b _⟩
    exact (hpins i hnamed).imp_right Bool.eq_false_iff.mp
  case gpioGet =>
    rw [exec_gpioGet_served h l, BitVec.toNat_ofNat, Nat.mod_eq_of_lt (Nat.ofBits_lt_two_pow _)]
  case drives =>
    rw [BitVec.getLsbD_ofNat, Nat.testBit_ofBits_lt _ _ i.isLt, decide_eq_true i.isLt, Bool.true_and]

end Sys2Proof.Machine
end

section
/-! SUPPORT. HIF_UPD_TRIGGER, the trial's confirmation, the operator's update, and the rinse (05 R187 to R197; 06 R233; 19 R661 to
R673): what each row does where its conditions hold, and the proof of TriggersAndTrials from them. -/

namespace Sys2Proof.Machine

/-! ### HIF_UPD_TRIGGER (06 R233, Table 6.5) -/

theorem keyWord_of_code {upper n code : Nat} {w : Word32} (hword : w.toNat = upper * 65536 + code) (hlow : 1 ≤ code)
    (hhigh : code ≤ n) (hsmall : code < 65536) : keyWord upper n w = some code := by
  have hupper : w.toNat / 65536 = upper := by omega
  have hcode : w.toNat % 65536 = code := by omega
  rw [keyWord, hupper, hcode, if_pos ⟨rfl, hlow, hhigh⟩]

theorem keyWord_of_other {upper n : Nat} {w : Word32}
    (h : w.toNat / 65536 ≠ upper ∨ w.toNat % 65536 = 0 ∨ n < w.toNat % 65536) : keyWord upper n w = none :=
  if_neg fun ⟨hupper, hlow, hhigh⟩ => by omega

/-- The three triggers' rows write their word on an open port. -/
theorem exec_updTrigger_of_open {s : State} {w : Word32} {i : Instr} (hopen : portOpen s)
    (hi : i = .updActivate w ∨ i = .updConfirm w ∨ i = .updFallback w) :
    exec i s = .next (updTrigger w
      { s with hif := { s.hif with buffered := min 128 (s.hif.buffered + 1), rdy := false, sent := phases 0x08 s } }) := by
  obtain ⟨hrdy, hnot⟩ := hopen
  have htake : transaction 0x08 (fun s => s |> buffer 1 |> updTrigger w) s =
      updTrigger w (buffer 1 (drive (phases 0x08 s) s)) := by
    rw [transaction, hnot, hrdy]
    rfl
  obtain rfl | rfl | rfl := hi <;> exact congrArg Host.Outcome.next htake

theorem updTrigger_of_code {s : State} {w : Word32} {n : Nat} (hn : n = 1 ∨ n = 2 ∨ n = 3)
    (hword : w.toNat = 0x5AC3 * 65536 + n) : updTrigger w s = updRequest n w s := by
  rw [updTrigger, keyWord_of_code hword (by omega) (by omega) (by omega)]

theorem updTrigger_of_other {s : State} {w : Word32}
    (h : w.toNat / 65536 ≠ 0x5AC3 ∨ w.toNat % 65536 = 0 ∨ 3 < w.toNat % 65536) : updTrigger w s = setStatus stKeyRefused s := by
  rw [updTrigger, keyWord_of_other h]

/-! ### Activation, confirmation and fallback requested (R662, R664, R665) -/

section
variable {s : State}

theorem activationFails_of_retired (h : lifecycle s = 3) : activationFails s = some .notPermitted := if_pos h

theorem activationFails_of_unverified (hlife : lifecycle s ≠ 3) (hstage : s.upd.stage ≠ 4) :
    activationFails s = some .updNotVerified := by
  rw [activationFails, if_neg hlife, if_pos hstage]

theorem activationFails_of_session (hlife : lifecycle s ≠ 3) (hstage : s.upd.stage = 4) (hsession : anySession s = true) :
    activationFails s = some .state := by
  rw [activationFails, if_neg hlife, if_neg (not_not.mpr hstage), if_pos hsession]

theorem activationFails_of_ready (hlife : lifecycle s ≠ 3) (hstage : s.upd.stage = 4) (hsession : anySession s = false) :
    activationFails s = none := by
  rw [activationFails, if_neg hlife, if_neg (not_not.mpr hstage), if_neg (Bool.eq_false_iff.mp hsession)]

variable {w : Word32}

theorem updRequest_activation_of_fails {st : Status} (h : activationFails s = some st) : updRequest 1 w s = triggerDone w st s := by
  rw [updRequest, h]

theorem updRequest_activation_of_ready (h : activationFails s = none) : updRequest 1 w s = activate s := by
  rw [updRequest, h]

theorem updRequest_confirmation_of_trial (h : onTrial s = true) : updRequest 2 w s = triggerDone w .ok (confirmTrial s) := if_pos h

theorem updRequest_of_noTrial (h : onTrial s = false) :
    updRequest 2 w s = triggerDone w .updNotOnTrial s ∧ updRequest 3 w s = triggerDone w .updNoFallback s :=
  ⟨if_neg (Bool.eq_false_iff.mp h), if_pos (by rw [h]; rfl)⟩

theorem updRequest_fallback_of_trial (h : onTrial s = true) :
    updRequest 3 w s = if anySession s then triggerDone w .state s else fallBack .ok s :=
  if_neg (by rw [h]; exact Bool.false_ne_true)

end

/-! ### What reports and messages leave of an update -/

/-- Update control, its volatile part, the trial and the operator's installation are the same in both states. -/
structure SameUpdate (s t : State) : Prop where
  upd : t.upd = s.upd
  run : t.run = s.run
  trial : t.hif.trial = s.hif.trial
  install : t.svc.install = s.svc.install
  waits : t.svc.updateWaits = s.svc.updateWaits

namespace SameUpdate

variable {s t u : State}

theorem refl (s : State) : SameUpdate s s := ⟨rfl, rfl, rfl, rfl, rfl⟩

theorem trans (h : SameUpdate s t) (k : SameUpdate t u) : SameUpdate s u :=
  ⟨k.upd.trans h.upd, k.run.trans h.run, k.trial.trans h.trial, k.install.trans h.install, k.waits.trans h.waits⟩

theorem foldl {α : Type} {f : State → α → State} (hf : ∀ x a, SameUpdate x (f x a)) (l : List α) (s : State) :
    SameUpdate s (l.foldl f s) := by
  induction l generalizing s with
  | nil => exact refl s
  | cons a l ih => exact (hf s a).trans (ih (f s a))

theorem ifDo (c : Bool) {f : State → State} (hf : SameUpdate s (f s)) : SameUpdate s (ifDo c f s) := by
  cases c with
  | false => exact refl s
  | true => exact hf

end SameUpdate

theorem sameUpdate_loseEvents (n : Nat) (s : State) : SameUpdate s (loseEvents n s) := by
  unfold loseEvents
  split_ifs <;> exact ⟨rfl, rfl, rfl, rfl, rfl⟩

theorem sameUpdate_placeEvent (code : BitVec 16) (payload : Bytes) (s : State) : SameUpdate s (placeEvent code payload s) := by
  unfold placeEvent
  dsimp only
  split
  · exact ⟨rfl, rfl, rfl, rfl, rfl⟩
  · split_ifs
    · exact ⟨rfl, rfl, rfl, rfl, rfl⟩
    · refine .trans ?_ (sameUpdate_loseEvents 1 _)
      exact ⟨rfl, rfl, rfl, rfl, rfl⟩

theorem sameUpdate_raise (e : Ev) (fields : Bytes) (s : State) : SameUpdate s (raise e fields s) := by
  unfold raise raiseCode
  split_ifs
  · exact .refl s
  · exact sameUpdate_placeEvent _ _ s
  · exact ⟨rfl, rfl, rfl, rfl, rfl⟩
  · exact .refl s

theorem sameUpdate_flush (s : State) : SameUpdate s (flush s) := by
  refine .trans ?_ (SameUpdate.foldl (f := fun t m => sendNow m t) (fun _ _ => ⟨rfl, rfl, rfl, rfl, rfl⟩) _ _)
  exact ⟨rfl, rfl, rfl, rfl, rfl⟩

theorem sameUpdate_putMsg (m : OpMsg) (s : State) : SameUpdate s (putMsg m s) := by
  unfold putMsg
  split_ifs
  · exact .refl s
  · refine .trans ?_ (sameUpdate_flush _)
    exact ⟨rfl, rfl, rfl, rfl, rfl⟩

theorem sameUpdate_firmwareMsg (v16 v20 : String) (s : State) : SameUpdate s (firmwareMsg v16 v20 s) :=
  .ifDo _ (sameUpdate_putMsg _ s)

theorem sameUpdate_committedEvent (cause : Nat) (s : State) : SameUpdate s (committedEvent cause s) := sameUpdate_raise _ _ s

theorem sameUpdate_settleMigration (s : State) : SameUpdate s (settleMigration s) := by
  unfold settleMigration
  split
  · exact .refl s
  · refine .trans ?_ (SameUpdate.foldl (f := fun t i => emptySlot i t) (fun _ _ => ⟨rfl, rfl, rfl, rfl, rfl⟩) _ _)
    exact ⟨rfl, rfl, rfl, rfl, rfl⟩

/-! ### The boot selector's copies (R661) -/

/-- The highest sequence of the two copies. -/
def topSeq (u : Upd) : Nat := max u.sel0.seq.toNat u.sel1.seq.toNat

/-- The copy that a write of the record makes. -/
def newCopy (r : BootSel) (u : Upd) : BootSel := { r with seq := BitVec.ofNat 32 (topSeq u + 1), valid := true }

/-- A written record is in force, with the highest sequence, while sequences do not wrap. -/
theorem selWrite_spec {r : BootSel} {u : Upd} (hseq : topSeq u + 1 < 2 ^ 32) :
    selCurrent (selWrite r u) = some (newCopy r u) ∧ topSeq (selWrite r u) = topSeq u + 1 := by
  have hnew : (newCopy r u).seq.toNat = topSeq u + 1 := (BitVec.toNat_ofNat _ _).trans (Nat.mod_eq_of_lt hseq)
  have h0 : u.sel0.seq.toNat < topSeq u + 1 := Nat.lt_succ_of_le (le_max_left _ _)
  have h1 : u.sel1.seq.toNat < topSeq u + 1 := Nat.lt_succ_of_le (le_max_right _ _)
  cases hlower : selLower u with
  | true =>
    have hwrite : selWrite r u = { u with sel0 := newCopy r u } := if_pos hlower
    have hnow : selLower { u with sel0 := newCopy r u } = false := by
      rw [selLower, hnew, decide_eq_false (Nat.not_lt_of_lt h1), Bool.and_false]
      rfl
    rw [hwrite, selCurrent, hnow, topSeq, hnew]
    exact ⟨rfl, max_eq_left h1.le⟩
  | false =>
    have hwrite : selWrite r u = { u with sel1 := newCopy r u } := if_neg (Bool.eq_false_iff.mp hlower)
    have hnow : selLower { u with sel1 := newCopy r u } = true := by
      rw [selLower, hnew, decide_eq_true h0]
      exact Bool.or_true _
    rw [hwrite, selCurrent, hnow, topSeq, hnew]
    exact ⟨rfl, max_eq_right h0.le⟩

/-- The record in force after both copies are written, while the highest sequence leaves room for two. -/
theorem selCurrent_selBoth {r : BootSel} {u : Upd} (hseq : topSeq u + 2 < 2 ^ 32) :
    selCurrent (selBoth r u) = some (newCopy r (selWrite r u)) := by
  have htop := (selWrite_spec (r := r) (u := u) (by omega)).2
  exact (selWrite_spec (by omega)).1

theorem selCurrent_congr {u v : Upd} (h0 : u.sel0 = v.sel0) (h1 : u.sel1 = v.sel1) : selCurrent u = selCurrent v := by
  rw [selCurrent, selCurrent, selLower, selLower, h0, h1]

theorem modBank_copies (x : Bank) (f : BankMem → BankMem) (s : State) :
    (modBank x f s).upd.sel0 = s.upd.sel0 ∧ (modBank x f s).upd.sel1 = s.upd.sel1 := by
  cases x <;> exact ⟨rfl, rfl⟩

/-! ### The confirmation of a trial (R664) -/

/-- The record that a confirmation writes. -/
def confirmedRecord (s : State) : BootSel := { confirmed := s.run.running.getD .a }

/-- A confirmation's record written and its settings settled, with the other bank superseded. -/
def settledTrial (s : State) : State :=
  s |> modUpd (selBoth (confirmedRecord s))
    |> settleMigration
    |> modBank (s.run.running.getD .a).other (fun b => { b with superseded := true, verified := false })
    |> firmwareMsg "Installed" "Installed"

/-- A confirmation before its two events. -/
def endedTrial (s : State) : State :=
  settledTrial s
    |> modUpd (fun u => { u with stage := 0, header := [], confirmed := [], trialCandidate := false })
    |> modRun (fun r => { r with healthy := 0 })
    |> changeState (fun h => { h with trial := false })

theorem sameUpdate_endedTrial (s : State) : SameUpdate (endedTrial s) (confirmTrial s) :=
  .trans (sameUpdate_raise .updateConfirmed (u8 (s.run.running.getD .a).num) _) (sameUpdate_committedEvent 0 _)

theorem selCurrent_settledTrial (s : State) : selCurrent (settledTrial s).upd = selCurrent (selBoth (confirmedRecord s) s.upd) := by
  have hsettled := (sameUpdate_settleMigration (modUpd (selBoth (confirmedRecord s)) s)).upd
  obtain ⟨h0, h1⟩ := modBank_copies (s.run.running.getD .a).other (fun b => { b with superseded := true, verified := false })
    (settleMigration (modUpd (selBoth (confirmedRecord s)) s))
  rw [settledTrial, (sameUpdate_firmwareMsg _ _ _).upd, selCurrent_congr h0 h1, hsettled, modUpd_upd]

theorem selCurrent_confirmTrial {s : State} (hseq : topSeq s.upd + 2 < 2 ^ 32) :
    selCurrent (confirmTrial s).upd = some (newCopy (confirmedRecord s) (selWrite (confirmedRecord s) s.upd)) := by
  rw [(sameUpdate_endedTrial s).upd, ← selCurrent_selBoth hseq, ← selCurrent_settledTrial]
  exact selCurrent_congr rfl rfl

/-- A confirmation ends the trial and records the running bank, while the record's sequences do not wrap. -/
theorem confirmTrial_spec {s : State} (hseq : topSeq s.upd + 2 < 2 ^ 32) :
    onTrial (confirmTrial s) = false ∧ (confirmTrial s).upd.stage = 0 ∧ (confirmTrial s).run.healthy = 0 ∧
      (selCurrent (confirmTrial s).upd).map BootSel.confirmed = some (s.run.running.getD .a) ∧
      (selCurrent (confirmTrial s).upd).bind BootSel.trial = none := by
  have hsame := sameUpdate_endedTrial s
  rw [selCurrent_confirmTrial hseq, onTrial, hsame.trial, hsame.upd, hsame.run]
  exact ⟨rfl, rfl, rfl, rfl, rfl⟩

section
variable {s : State}

theorem exec_trialConfirmAuto_of_due (htrial : onTrial s = true) (htime : 1800 * 32768 ≤ s.run.healthy) :
    exec .trialConfirmAuto s = .next (confirmTrial s) :=
  next_ifDo_of_true (by rw [htrial, decide_eq_true htime]; rfl) _ _

theorem exec_trialConfirmAuto_of_early (h : onTrial s = false ∨ s.run.healthy < 1800 * 32768) :
    exec .trialConfirmAuto s = .next s :=
  next_ifDo_of_false (Bool.and_eq_false_iff.mpr (h.imp_right fun htime => decide_eq_false (Nat.not_le_of_lt htime))) _ _

end

/-! ### The operator's activation (R671) -/

section
variable {s : State}

theorem exec_operatorActivation_of_due (hdue : installDue s = true) (hruns : appRuns s = true) :
    exec .operatorActivation s = .next (ifDo (activationFails s).isNone activate s) := by
  change execOperatorActivation s = _
  rw [execOperatorActivation, hdue, hruns, Bool.true_and, Bool.and_true]

theorem exec_operatorActivation_of_notDue (h : installDue s = false) : exec .operatorActivation s = .next s :=
  next_ifDo_of_false (by rw [h]; rfl) _ _

end

/-! ### The operator's update (R671, R673, Table 19.6) -/

/-- The operator's download run with the image that has arrived. -/
def operatorDownload (h image : Bytes) (s : State) : State :=
  takeImage image (firmwareMsg "Downloading" "Downloading" (beginDownload .operator h (answer true s)))

/-- The whole image of a download answers its header's checks and digests. -/
def imageGood (t : State) : Bool := (imageFails t t.upd.header).isNone && digestsMatch (bankOf t t.upd.target)

/-- A whole download judged: the installation of a good image waits for its time, with a message where a session holds it
(Table 19.6). -/
def judgedDownload (n : Nat) (session good : Bool) (t : State) : State :=
  let u := t |> firmwareMsg "Downloaded" "Downloaded" |> judgeBank good
  if !good then firmwareMsg "InstallationFailed" "InvalidSignature" u
  else
    u |> firmwareMsg "Downloaded" "SignatureVerified"
      |> modSvc (fun v => { v with install := some n, updateWaits := true })
      |> ifDo session (firmwareMsg "Downloaded" "InstallScheduled")

theorem judgedDownload_spec (n : Nat) (session good : Bool) (t : State) :
    let v := judgedDownload n session good t
    if good then v.svc.install = some n ∧ v.svc.updateWaits = true ∧ v.upd.stage = 4
    else v = firmwareMsg "InstallationFailed" "InvalidSignature" (judgeBank false (firmwareMsg "Downloaded" "Downloaded" t)) := by
  cases good with
  | false => exact rfl
  | true =>
    let u := judgeBank true (firmwareMsg "Downloaded" "Downloaded" t)
    have hverified := sameUpdate_firmwareMsg "Downloaded" "SignatureVerified" u
    have hlast := SameUpdate.ifDo session (sameUpdate_firmwareMsg "Downloaded" "InstallScheduled"
      (modSvc (fun v => { v with install := some n, updateWaits := true }) (firmwareMsg "Downloaded" "SignatureVerified" u)))
    exact ⟨hlast.install, hlast.waits, congrArg Upd.stage (hlast.upd.trans hverified.upd)⟩

theorem updateRefused_eq_false {s : State} (hlife : lifecycle s ≠ 3) (hstage : s.upd.stage ≠ 5)
    (hfree : s.upd.stage ≠ 1 ∨ s.upd.holder ≠ .host) :
    (lifecycle s = 3 || s.upd.stage == 5 || (s.upd.stage == 1 && s.upd.holder == .host)) = false := by
  rw [decide_eq_false hlife, beq_false_of_ne hstage, Bool.false_or, Bool.false_or, Bool.and_eq_false_iff]
  exact hfree.imp beq_false_of_ne beq_false_of_ne

section
variable {s : State} {h image : Bytes} {c : Bool} {n : Nat} (hconn : s.svc.connected = true) (hruns : appRuns s = true)
include hconn hruns

theorem exec_updateFirmware_of_refused
    (href : lifecycle s = 3 ∨ s.upd.stage = 5 ∨ (s.upd.stage = 1 ∧ s.upd.holder = .host)) :
    exec (.updateFirmware h image c n) s = .next (answer false s) := by
  have hcond : (lifecycle s = 3 || s.upd.stage == 5 || (s.upd.stage == 1 && s.upd.holder == .host)) = true := by
    simpa [or_assoc] using href
  change execUpdateFirmware h image c n s = _
  rw [execUpdateFirmware, hconn, hruns]
  exact congrArg Host.Outcome.next (if_pos hcond)

section
variable (hlife : lifecycle s ≠ 3) (hstage : s.upd.stage ≠ 5) (hfree : s.upd.stage ≠ 1 ∨ s.upd.holder ≠ .host)
include hlife hstage hfree

theorem exec_updateFirmware_of_badSignature (hbad : c = false ∨ imageFails s h = some .hdrSignature) :
    exec (.updateFirmware h image c n) s = .next (putMsg
      { kind := .firmware, text := str (if ocppVersion s = some 0 then "DownloadFailed" else "InvalidSignature") }
      (answer true s)) := by
  have hfails : (if c = true then imageFails s h else some .hdrSignature) = some .hdrSignature := by
    cases c with
    | false => rfl
    | true => exact hbad.resolve_left Bool.noConfusion
  change execUpdateFirmware h image c n s = _
  rw [execUpdateFirmware, hconn, hruns, Bool.true_and, ifDo_true]
  simp only [updateRefused_eq_false hlife hstage hfree, hfails, Bool.false_eq_true, if_false, beq_iff_eq]

section
variable (hsig : c = true) (himage : imageFails s h = none)
include hsig himage

theorem exec_updateFirmware_of_incomplete
    (hpart : firstUnconfirmed (operatorDownload h image s).upd ≠ blockCount (operatorDownload h image s).upd.header) :
    exec (.updateFirmware h image c n) s = .next (firmwareMsg "DownloadFailed" "DownloadFailed" (operatorDownload h image s)) := by
  change execUpdateFirmware h image c n s = _
  rw [execUpdateFirmware, hconn, hruns, Bool.true_and, ifDo_true]
  simp only [updateRefused_eq_false hlife hstage hfree, hsig, himage, Bool.false_eq_true, if_false, if_true]
  exact congrArg Host.Outcome.next (if_pos hpart)

theorem exec_updateFirmware_of_whole
    (hwhole : firstUnconfirmed (operatorDownload h image s).upd = blockCount (operatorDownload h image s).upd.header) :
    exec (.updateFirmware h image c n) s =
      .next (judgedDownload n (anySession s) (imageGood (operatorDownload h image s)) (operatorDownload h image s)) := by
  change execUpdateFirmware h image c n s = _
  rw [execUpdateFirmware, hconn, hruns, Bool.true_and, ifDo_true]
  simp only [updateRefused_eq_false hlife hstage hfree, hsig, himage, Bool.false_eq_true, if_false, if_true]
  exact congrArg Host.Outcome.next (if_neg (not_not.mpr hwhole))

end
end
end

/-! ### The rinse (05 R187 to R197) -/

section
variable {s : State} {r : MemRegion}

theorem exec_rinseGranule_of_notNext
    (h : basePowered s = false ∨ granules r ≤ s.wch.rinsePos[regionIndex r] ∨ rinsePaced s = false) (x : GranuleOutcome) :
    exec (.rinseGranule r x) s = .next s := by
  have hcond : (basePowered s && decide (s.wch.rinsePos[regionIndex r] < granules r) && rinsePaced s) = false := by
    rw [Bool.and_eq_false_iff, Bool.and_eq_false_iff, decide_eq_false_iff_not, not_lt, or_assoc]
    exact h
  exact next_ifDo_of_false hcond _ _

/-- What the rinse does with a granule's errors, before it passes on. -/
def rinseRead (r : MemRegion) (n : Nat) (s : State) : State :=
  let addr := Config.regionBase r + BitVec.ofNat 32 (64 * s.wch.rinsePos[regionIndex r])
  s |> ifDo (r == .keyStore) eraseOrphans
    |> ifDo (decide (0 < n ∧ n ≤ correctable r)) (modWch (fun w => { w with rinsed := bump w.rinsed (regionIndex r) }))
    |> ifDo (decide (correctable r < n)) (fun s => s |> memUncorrectable r addr 0xFFFFFFFF |> regionLost r addr)

theorem exec_rinseGranule_of_next (hpower : basePowered s = true) (hpos : s.wch.rinsePos[regionIndex r] < granules r)
    (hpace : rinsePaced s = true) :
    exec (.rinseGranule r .foreground) s = .next (passGranule r s) ∧
      ∀ n, exec (.rinseGranule r (.read n)) s = .next (passGranule r (rinseRead r n s)) := by
  have hcond : (basePowered s && decide (s.wch.rinsePos[regionIndex r] < granules r) && rinsePaced s) = true := by
    rw [hpower, decide_eq_true hpos, hpace]
    rfl
  exact ⟨next_ifDo_of_true hcond _ _, fun n => next_ifDo_of_true hcond _ _⟩

theorem rinseRead_clean (r : MemRegion) (s : State) : rinseRead r 0 s = ifDo (r == .keyStore) eraseOrphans s := by
  have hcorrected : decide (0 < 0 ∧ 0 ≤ correctable r) = false := decide_eq_false fun h => Nat.lt_irrefl 0 h.1
  rw [rinseRead, hcorrected, decide_eq_false (Nat.not_lt_zero (correctable r))]
  rfl

theorem rinseRead_corrected {n : Nat} (hkey : r ≠ .keyStore) (hlow : 0 < n) (hhigh : n ≤ correctable r) :
    rinseRead r n s = { s with wch := { s.wch with rinsed := bump s.wch.rinsed (regionIndex r) } } := by
  have hcorrected : decide (0 < n ∧ n ≤ correctable r) = true := decide_eq_true ⟨hlow, hhigh⟩
  rw [rinseRead, beq_false_of_ne hkey, hcorrected, decide_eq_false (Nat.not_lt_of_le hhigh)]
  rfl

theorem rinseRead_uncorrectable {n : Nat} (hkey : r ≠ .keyStore) (hn : correctable r < n) :
    rinseRead r n s =
      let a := Config.regionBase r + BitVec.ofNat 32 (64 * s.wch.rinsePos[regionIndex r])
      regionLost r a (memUncorrectable r a 0xFFFFFFFF s) := by
  have hcorrected : decide (0 < n ∧ n ≤ correctable r) = false := decide_eq_false fun h => Nat.not_le_of_lt hn h.2
  rw [rinseRead, beq_false_of_ne hkey, hcorrected, decide_eq_true hn]
  rfl

/-- Before the end of the pass a granule passed moves the region's place, and at the region's end its rings. -/
theorem passGranule_within :
    let t := { s with wch := { s.wch with rinsePos := vmod s.wch.rinsePos (regionIndex r) (· + 1) } }
    granulesDone t.wch ≠ granulesAll →
      passGranule r s = ifDo (s.wch.rinsePos[regionIndex r] + 1 == granules r) (moveRings r) t := by
  intro t ht
  have hplace : t.wch.rinsePos[regionIndex r] = s.wch.rinsePos[regionIndex r] + 1 := vmod_get_self _ _ _
  have hpass : (granulesDone t.wch == granulesAll) = false := beq_false_of_ne ht
  rw [← hplace]
  exact congrArg (fun x => ifDo x _ _) hpass

end

/-! ### The statement -/

/-- Settles O59: each clause is the lemma of its row. -/
theorem triggersAndTrials : Obligations.TriggersAndTrials := by
  unfold Obligations.TriggersAndTrials
  refine ⟨fun s w i hopen hi => ⟨fun n hn hword => ?code, fun hother => ?other⟩, fun s w => ?request, fun s => ?time,
    fun s h image c n hconn hruns => ?operator, fun s r hpower hpos hpace => ?rinse,
    fun s r hnot x => exec_rinseGranule_of_notNext hnot x, fun s r hpass => ?pass⟩
  case code => rw [exec_updTrigger_of_open hopen hi, updTrigger_of_code hn hword]
  case other => rw [exec_updTrigger_of_open hopen hi, updTrigger_of_other hother]
  case request =>
    refine ⟨fun hretired => updRequest_activation_of_fails (activationFails_of_retired hretired),
      fun hlife hstage => updRequest_activation_of_fails (activationFails_of_unverified hlife hstage),
      fun hlife hstage hsession => updRequest_activation_of_fails (activationFails_of_session hlife hstage hsession),
      fun hlife hstage hsession => updRequest_activation_of_ready (activationFails_of_ready hlife hstage hsession),
      updRequest_of_noTrial, updRequest_confirmation_of_trial, fun htrial hsession => ?_, fun htrial hsession => ?_⟩
    · exact (updRequest_fallback_of_trial htrial).trans (if_pos hsession)
    · exact (updRequest_fallback_of_trial htrial).trans (if_neg (Bool.eq_false_iff.mp hsession))
  case time =>
    refine ⟨exec_trialConfirmAuto_of_due, exec_trialConfirmAuto_of_early, ?_, fun hdue hruns => ⟨fun hready => ?_, fun hfails => ?_⟩,
      exec_operatorActivation_of_notDue⟩
    · exact (lt_or_ge (topSeq s.upd + 2) (2 ^ 32)).imp_left confirmTrial_spec
    · rw [exec_operatorActivation_of_due hdue hruns, hready]
      rfl
    · rw [exec_operatorActivation_of_due hdue hruns]
      exact next_ifDo_of_false (Option.isNone_eq_false_iff.mpr (Option.isSome_iff_ne_none.mpr hfails)) _ _
  case operator =>
    refine ⟨exec_updateFirmware_of_refused hconn hruns, fun hlife hstage hfree => ⟨?_, fun hsig himage => ?_⟩⟩
    · exact exec_updateFirmware_of_badSignature hconn hruns hlife hstage hfree
    · intro t
      by_cases hwhole : firstUnconfirmed t.upd = blockCount t.upd.header
      · exact ⟨_, exec_updateFirmware_of_whole hconn hruns hlife hstage hfree hsig himage hwhole,
          (if_neg (not_not.mpr hwhole)).mpr (judgedDownload_spec n (anySession s) (imageGood t) t)⟩
      · exact ⟨_, exec_updateFirmware_of_incomplete hconn hruns hlife hstage hfree hsig himage hwhole, (if_pos hwhole).mpr rfl⟩
  case rinse =>
    obtain ⟨hforeground, hread⟩ := exec_rinseGranule_of_next hpower hpos hpace
    refine ⟨hforeground, fun hkey => ?_, fun hkey => ⟨?_, fun n hlow hhigh => ?_, fun n hn => ?_⟩⟩
    · subst hkey
      exact (hread 0).trans (by rw [rinseRead_clean]; rfl)
    · rw [hread 0, rinseRead_clean, beq_false_of_ne hkey]
      rfl
    · rw [hread n, rinseRead_corrected hkey hlow hhigh]
    · rw [hread n, rinseRead_uncorrectable hkey hn]
  case pass =>
    refine ⟨fun hinside => ?_, fun hend => ?_⟩
    · rw [passGranule_within hpass, beq_false_of_ne hinside]
      rfl
    · rw [passGranule_within hpass, hend, beq_self_eq_true]
      rfl

end Sys2Proof.Machine
end

section
/-! SUPPORT. Every command keeps what `Keeps` says, from the laws of the rows' meanings (Laws/Keeps*.lean), and the proof of
MailboxUnitInvariant from it. -/

namespace Sys2Proof.Machine

/-- Every command keeps what `Keeps` says: each arm is the law of its row's meaning. -/
theorem keeps_exec {s x : State} (h : Keeps s x) : ∀ i : Instr, OutKeeps s (exec i x)
  | .registerWrite _ _ _ => keeps_execRegisterWrite _ _ _ h
  | .badOpcode _ => keeps_execBadOpcode _ h
  | .setCmdWidth _ => keeps_execSetCmdWidth _ h
  | .resetCmdWidth => keeps_execResetCmdWidth h
  | .readDataReady _ _ _ => keeps_execReadDataReady _ _ _ h
  | .busyTimeout _ _ _ _ _ => keeps_execBusyTimeout _ _ _ _ _ h
  | .earlySelectRelease _ _ _ _ => keeps_execEarlySelectRelease _ _ _ _ h
  | .transactionNotReady => keeps_execTransactionNotReady h
  | .writeBufferDrained => keeps_execWriteBufferDrained h
  | .cmdDoorbell _ => keeps_execCmdDoorbell _ h
  | .cmdRelease _ => keeps_execCmdRelease _ h
  | .evtAck _ => keeps_execEvtAck _ h
  | .hifStatusClear _ => keeps_execHifStatusClear _ h
  | .eventRaise _ _ => keeps_execEventRaise _ _ h
  | .resetKeyAppCores _ => keeps_execResetKeyAppCores _ h
  | .resetKeyRstN _ => keeps_execResetKeyRstN _ h
  | .lcRequestProvisioned _ => keeps_execLcRequestProvisioned _ h
  | .lcRequestField _ => keeps_execLcRequestField _ h
  | .lcRequestRetired _ => keeps_execLcRequestRetired _ h
  | .updActivate _ => keeps_execUpdActivate _ h
  | .updConfirm _ => keeps_execUpdConfirm _ h
  | .updFallback _ => keeps_execUpdFallback _ h
  | .moduleVersionGet _ => keeps_execModuleVersionGet _ h
  | .commandListGet _ => keeps_execCommandListGet _ h
  | .moduleStatusGet _ => keeps_execModuleStatusGet _ h
  | .timeGet _ => keeps_execTimeGet _ h
  | .timeSet _ => keeps_execTimeSet _ h
  | .timeAdjust _ => keeps_execTimeAdjust _ h
  | .timeTrimSet _ => keeps_execTimeTrimSet _ h
  | .configCandidateOpen _ => keeps_execConfigCandidateOpen _ h
  | .configCandidateWrite _ => keeps_execConfigCandidateWrite _ h
  | .configKeySet _ => keeps_execConfigKeySet _ h
  | .configKeyGet _ => keeps_execConfigKeyGet _ h
  | .configCommit _ => keeps_execConfigCommit _ h
  | .configRevert _ => keeps_execConfigRevert _ h
  | .configInfoGet _ => keeps_execConfigInfoGet _ h
  | .updateBegin _ => keeps_execUpdateBegin _ h
  | .updateBlockWrite _ => keeps_execUpdateBlockWrite _ h
  | .stagedBlockCommit _ _ => keeps_execStagedBlockCommit _ _ h
  | .updateStatusGet _ => keeps_execUpdateStatusGet _ h
  | .updateVerify _ => keeps_execUpdateVerify _ h
  | .updateAbort _ => keeps_execUpdateAbort _ h
  | .keyEnvelopeApply _ => keeps_execKeyEnvelopeApply _ h
  | .keySlotStatusGet _ => keeps_execKeySlotStatusGet _ h
  | .lifecycleGet _ => keeps_execLifecycleGet _ h
  | .deviceCertGet _ => keeps_execDeviceCertGet _ h
  | .measurementLogGet _ => keeps_execMeasurementLogGet _ h
  | .syncTrigger _ => keeps_execSyncTrigger _ h
  | .channelStatusGet _ => keeps_execChannelStatusGet _ h
  | .channelSatClear _ => keeps_execChannelSatClear _ h
  | .samplesRead _ => keeps_execSamplesRead _ h
  | .calibrationStatusGet _ => keeps_execCalibrationStatusGet _ h
  | .meterRead _ => keeps_execMeterRead _ h
  | .harmonicsRead _ => keeps_execHarmonicsRead _ h
  | .billingRegistersRead _ => keeps_execBillingRegistersRead _ h
  | .demandRead _ => keeps_execDemandRead _ h
  | .tariffTableLoad _ => keeps_execTariffTableLoad _ h
  | .tariffSwitch _ => keeps_execTariffSwitch _ h
  | .legalLogRead _ => keeps_execLegalLogRead _ h
  | .sessionRecordRead _ => keeps_execSessionRecordRead _ h
  | .sessionStart _ => keeps_execSessionStart _ h
  | .sessionStop _ => keeps_execSessionStop _ h
  | .sessionStatusGet _ => keeps_execSessionStatusGet _ h
  | .setpointSet _ => keeps_execSetpointSet _ h
  | .safetyStatusGet _ => keeps_execSafetyStatusGet _ h
  | .tripCauseRead _ => keeps_execTripCauseRead _ h
  | .safetyRearmRequest _ => keeps_execSafetyRearmRequest _ h
  | .loadSwitchSet _ => keeps_execLoadSwitchSet _ h
  | .loadSwitchStatusGet _ => keeps_execLoadSwitchStatusGet _ h
  | .loadSwitchRestart _ => keeps_execLoadSwitchRestart _ h
  | .wearCountersRead _ => keeps_execWearCountersRead _ h
  | .portStatusGet _ => keeps_execPortStatusGet _ h
  | .stringStatusGet _ => keeps_execStringStatusGet _ h
  | .rsdKeepaliveSet _ => keeps_execRsdKeepaliveSet _ h
  | .pairRoleSwapRequest _ => keeps_execPairRoleSwapRequest _ h
  | .pairStatusGet _ => keeps_execPairStatusGet _ h
  | .powerModuleStatusGet _ => keeps_execPowerModuleStatusGet _ h
  | .authIdentitySubmit _ => keeps_execAuthIdentitySubmit _ h
  | .solarFollowSet _ => keeps_execSolarFollowSet _ h
  | .displayRegionWrite _ => keeps_execDisplayRegionWrite _ h
  | .displayUpdate _ => keeps_execDisplayUpdate _ h
  | .segmentSet _ => keeps_execSegmentSet _ h
  | .displayStatusGet _ => keeps_execDisplayStatusGet _ h
  | .pspTransfer _ => keeps_execPspTransfer _ h
  | .pspTransferRun _ _ _ => keeps_execPspTransferRun _ _ _ h
  | .pspBusyTimeout _ => keeps_execPspBusyTimeout _ h
  | .gpioSet _ => keeps_execGpioSet _ h
  | .gpioGet _ _ => keeps_execGpioGet _ _ h
  | .watchStatusGet _ => keeps_execWatchStatusGet _ h
  | .rtcAdjMsWrite _ _ _ => keeps_execRtcAdjMsWrite _ _ _ h
  | .rtcSetLoWrite _ _ _ _ => keeps_execRtcSetLoWrite _ _ _ _ h
  | .rtcTrimWrite _ _ => keeps_execRtcTrimWrite _ _ h
  | .tmrPeriodWrite _ _ _ => keeps_execTmrPeriodWrite _ _ _ h
  | .tmrPeriodEvent _ => keeps_execTmrPeriodEvent _ h
  | .ao32Tick => keeps_execAo32Tick h
  | .slewAbsorbed => keeps_execSlewAbsorbed h
  | .rtcRangeEnd => keeps_execRtcRangeEnd h
  | .metTimeReport => keeps_execMetTimeReport h
  | .ao32Fault => keeps_execAo32Fault h
  | .aofFault => keeps_execAofFault h
  | .refFault => keeps_execRefFault h
  | .metClockFault => keeps_execMetClockFault h
  | .safClockFault => keeps_execSafClockFault h
  | .appClockFault => keeps_execAppClockFault h
  | .fltFault => keeps_execFltFault h
  | .pllDomainFault _ => keeps_execPllDomainFault _ h
  | .domainReadmitted _ => keeps_execDomainReadmitted _ h
  | .vauxStartDebounced _ => keeps_execVauxStartDebounced _ h
  | .modulePowerOn _ => keeps_execModulePowerOn _ h
  | .startStep9 _ => keeps_execStartStep9 _ h
  | .holdupSelftestComplete _ _ _ => keeps_execHoldupSelftestComplete _ _ _ h
  | .holdupSelftestTimeout _ _ => keeps_execHoldupSelftestTimeout _ _ h
  | .startRepeat => keeps_execStartRepeat h
  | .vauxOvCut _ => keeps_execVauxOvCut _ h
  | .vauxOvRelease _ => keeps_execVauxOvRelease _ h
  | .vauxLow _ => keeps_execVauxLow _ h
  | .saveEntry _ _ => keeps_execSaveEntry _ _ h
  | .saveComplete _ => keeps_execSaveComplete _ h
  | .lastCall _ _ => keeps_execLastCall _ _ h
  | .converterStop _ _ => keeps_execConverterStop _ _ h
  | .holdupLow _ => keeps_execHoldupLow _ h
  | .railFault => keeps_execRailFault h
  | .watchSourceChange _ _ => keeps_execWatchSourceChange _ _ h
  | .rstNLow _ _ => keeps_execRstNLow _ _ h
  | .watchDomainPor => keeps_execWatchDomainPor h
  | .appCoreReset => keeps_execAppCoreReset h
  | .appWatchdogExpiry => keeps_execAppWatchdogExpiry h
  | .safCoreReset => keeps_execSafCoreReset h
  | .permitWithdrawal _ _ _ => keeps_execPermitWithdrawal _ _ _ h
  | .tripWindowClose _ => keeps_execTripWindowClose _ h
  | .permitGrant _ _ => keeps_execPermitGrant _ _ h
  | .safRearm _ _ => keeps_execSafRearm _ _ h
  | .powerDieLinkLoss => keeps_execPowerDieLinkLoss h
  | .firewallBlock _ => keeps_execFirewallBlock _ h
  | .cryptoRequest _ => keeps_execCryptoRequest _ h
  | .cryptoRequestDone _ => keeps_execCryptoRequestDone _ h
  | .tamperSample _ _ => keeps_execTamperSample _ _ h
  | .crackCheck _ => keeps_execCrackCheck _ h
  | .vbatCheck _ => keeps_execVbatCheck _ h
  | .pilotWakeSample _ _ _ => keeps_execPilotWakeSample _ _ _ h
  | .theftBurst _ _ => keeps_execTheftBurst _ _ h
  | .segmentUpdateStart _ => keeps_execSegmentUpdateStart _ h
  | .segmentUpdateEnd => keeps_execSegmentUpdateEnd h
  | .segmentPatternWrite _ _ => keeps_execSegmentPatternWrite _ _ h
  | .segmentRedrive => keeps_execSegmentRedrive h
  | .wdgService _ _ _ => keeps_execWdgService _ _ _ h
  | .wdgLate => keeps_execWdgLate h
  | .heartbeatTick => keeps_execHeartbeatTick h
  | .permitWchRefreshTimeout => keeps_execPermitWchRefreshTimeout h
  | .metCarryRing => keeps_execMetCarryRing h
  | .watchSettingsApply => keeps_execWatchSettingsApply h
  | .rtcAlarmFire => keeps_execRtcAlarmFire h
  | .gpWakeEdge _ _ => keeps_execGpWakeEdge _ _ h
  | .networkWakeFrame _ _ _ => keeps_execNetworkWakeFrame _ _ _ h
  | .arpReplyIdle _ => keeps_execArpReplyIdle _ h
  | .metWakeRequest => keeps_execMetWakeRequest h
  | .safWakeRequest => keeps_execSafWakeRequest h
  | .wakeComplete => keeps_execWakeComplete h
  | .idleEntry => keeps_execIdleEntry h
  | .appIslandRemoved => keeps_execAppIslandRemoved h
  | .rinseGranule _ _ => keeps_execRinseGranule _ _ h
  | .calibrationDue _ _ => keeps_execCalibrationDue _ _ h
  | .darningCompare _ => keeps_execDarningCompare _ h
  | .darningReferenceDone _ _ _ => keeps_execDarningReferenceDone _ _ _ h
  | .darningRelease _ => keeps_execDarningRelease _ h
  | .m8SelfCalibration _ _ _ _ => keeps_execM8SelfCalibration _ _ _ _ h
  | .comparatorSelftest _ _ => keeps_execComparatorSelftest _ _ h
  | .egressFrameDone _ => keeps_execEgressFrameDone _ h
  | .telemetryEnqueue _ _ => keeps_execTelemetryEnqueue _ _ h
  | .islandFrame _ _ _ => keeps_execIslandFrame _ _ _ h
  | .islandLinkLoss _ => keeps_execIslandLinkLoss _ h
  | .islandRestartRetry _ => keeps_execIslandRestartRetry _ h
  | .islandLinkResync _ => keeps_execIslandLinkResync _ h
  | .weaveFrame => keeps_execWeaveFrame h
  | .weaveThresholdTrip _ => keeps_execWeaveThresholdTrip _ h
  | .comparatorTrip _ _ => keeps_execComparatorTrip _ _ h
  | .syncInEdge _ => keeps_execSyncInEdge _ h
  | .synchronisationInstant _ => keeps_execSynchronisationInstant _ h
  | .mainsCycleEnd _ _ _ => keeps_execMainsCycleEnd _ _ _ h
  | .modulatorFailed _ _ => keeps_execModulatorFailed _ _ h
  | .openInputTest _ _ => keeps_execOpenInputTest _ _ h
  | .channelReadmit _ => keeps_execChannelReadmit _ h
  | .metSampleAccumulate _ => keeps_execMetSampleAccumulate _ h
  | .testPulseEnd => keeps_execTestPulseEnd h
  | .integrationPeriodEnd => keeps_execIntegrationPeriodEnd h
  | .harmonicWindowEnd => keeps_execHarmonicWindowEnd h
  | .syncBridge _ => keeps_execSyncBridge _ h
  | .measurementGap _ _ => keeps_execMeasurementGap _ _ h
  | .gapSessionEnd _ => keeps_execGapSessionEnd _ h
  | .metCoreReset => keeps_execMetCoreReset h
  | .calibrationAgeExceeded _ _ => keeps_execCalibrationAgeExceeded _ _ h
  | .startupRotationComplete _ => keeps_execStartupRotationComplete _ h
  | .metRequestWrite _ _ => keeps_execMetRequestWrite _ _ h
  | .checkpoint => keeps_execCheckpoint h
  | .tariffEntryStart _ => keeps_execTariffEntryStart _ h
  | .remoteSwitchEffect => keeps_execRemoteSwitchEffect h
  | .demandIntervalEnd => keeps_execDemandIntervalEnd h
  | .slidingSubEnd => keeps_execSlidingSubEnd h
  | .demandPeriodClose => keeps_execDemandPeriodClose h
  | .logEntryWrite => keeps_execLogEntryWrite h
  | .sessionRecordSigned _ _ => keeps_execSessionRecordSigned _ _ h
  | .cpStateChange _ _ => keeps_execCpStateChange _ _ h
  | .ppChange _ _ => keeps_execPpChange _ _ h
  | .diodeFault _ _ => keeps_execDiodeFault _ _ h
  | .pwmDutyChange _ => keeps_execPwmDutyChange _ h
  | .cmSlacParam _ _ => keeps_execCmSlacParam _ _ h
  | .cmMnbcSound _ _ => keeps_execCmMnbcSound _ _ h
  | .cmSlacMatch _ => keeps_execCmSlacMatch _ h
  | .sdpRequest _ _ => keeps_execSdpRequest _ _ h
  | .supportedAppProtocol _ _ => keeps_execSupportedAppProtocol _ _ h
  | .cableCheck _ _ _ => keeps_execCableCheck _ _ _ h
  | .insulationTestStable _ _ => keeps_execInsulationTestStable _ _ h
  | .preCharge _ _ _ => keeps_execPreCharge _ _ _ h
  | .powerDelivery _ _ => keeps_execPowerDelivery _ _ h
  | .chargeLoopRequest _ _ => keeps_execChargeLoopRequest _ _ h
  | .directionRenegotiation _ _ => keeps_execDirectionRenegotiation _ _ h
  | .setpointRampTick _ _ => keeps_execSetpointRampTick _ _ h
  | .powerTargetConvert _ _ => keeps_execPowerTargetConvert _ _ h
  | .acHoldoffEnd _ => keeps_execAcHoldoffEnd _ h
  | .bptDwellEnd _ => keeps_execBptDwellEnd _ h
  | .stopTimeout _ => keeps_execStopTimeout _ h
  | .pauseTimeout _ => keeps_execPauseTimeout _ h
  | .handshakeTimeout _ => keeps_execHandshakeTimeout _ h
  | .protocolTimeout _ _ => keeps_execProtocolTimeout _ _ h
  | .outletOvercurrent _ _ => keeps_execOutletOvercurrent _ _ h
  | .outletReenable _ => keeps_execOutletReenable _ h
  | .safCycle _ => keeps_execSafCycle _ h
  | .estopOpen _ _ _ => keeps_execEstopOpen _ _ _ h
  | .residualDcCycle _ => keeps_execResidualDcCycle _ h
  | .rcdRefOut _ _ => keeps_execRcdRefOut _ _ h
  | .rcdSensorTest _ _ _ => keeps_execRcdSensorTest _ _ _ h
  | .insulationMeasurement _ _ _ _ => keeps_execInsulationMeasurement _ _ _ _ h
  | .imdSelfCheck _ _ _ => keeps_execImdSelfCheck _ _ _ h
  | .peLoopFault _ _ => keeps_execPeLoopFault _ _ h
  | .penFault _ _ => keeps_execPenFault _ _ h
  | .temperatureReading _ _ _ => keeps_execTemperatureReading _ _ _ h
  | .dcOvervoltage _ _ => keeps_execDcOvervoltage _ _ h
  | .dischargeCheck _ _ => keeps_execDischargeCheck _ _ h
  | .inputUnavailable _ => keeps_execInputUnavailable _ h
  | .dividerPlausibility _ _ _ _ => keeps_execDividerPlausibility _ _ _ _ h
  | .weldCheck _ _ _ _ => keeps_execWeldCheck _ _ _ _ h
  | .coilReadback _ _ _ _ => keeps_execCoilReadback _ _ _ _ h
  | .cpForceFEnd _ => keeps_execCpForceFEnd _ h
  | .seamFrameSend _ => keeps_execSeamFrameSend _ h
  | .seamFrameReceive _ _ => keeps_execSeamFrameReceive _ _ h
  | .seamPathTimeout _ => keeps_execSeamPathTimeout _ h
  | .seamDegradedTimeout => keeps_execSeamDegradedTimeout h
  | .safInternalFault => keeps_execSafInternalFault h
  | .comparatorSelftestAge _ => keeps_execComparatorSelftestAge _ h
  | .dieOvertemp _ _ => keeps_execDieOvertemp _ _ h
  | .lsCurrentSample _ _ _ => keeps_execLsCurrentSample _ _ _ h
  | .i2tTrip _ _ => keeps_execI2tTrip _ _ h
  | .currentLimitTrip _ => keeps_execCurrentLimitTrip _ h
  | .thermalShutdown _ _ => keeps_execThermalShutdown _ _ h
  | .thermalRestart _ _ => keeps_execThermalRestart _ _ h
  | .lsPairApply _ => keeps_execLsPairApply _ h
  | .pullInEnd _ _ => keeps_execPullInEnd _ _ h
  | .mirrorSense _ _ => keeps_execMirrorSense _ _ h
  | .mirrorTimeout _ => keeps_execMirrorTimeout _ h
  | .coilCurrentLimit _ => keeps_execCoilCurrentLimit _ h
  | .shuntTripPulseEnd _ => keeps_execShuntTripPulseEnd _ h
  | .canBusOffRestart _ => keeps_execCanBusOffRestart _ h
  | .linkChange _ _ _ _ _ => keeps_execLinkChange _ _ _ _ _ h
  | .stringPoll _ _ => keeps_execStringPoll _ _ h
  | .stringReply _ _ => keeps_execStringReply _ _ h
  | .stringAttemptTimeout _ => keeps_execStringAttemptTimeout _ h
  | .optimiserRemoved _ _ => keeps_execOptimiserRemoved _ _ h
  | .discoveryRound _ _ _ => keeps_execDiscoveryRound _ _ _ h
  | .keepaliveStop _ _ => keeps_execKeepaliveStop _ _ h
  | .keepaliveResume _ => keeps_execKeepaliveResume _ h
  | .sunspecRead _ _ => keeps_execSunspecRead _ _ h
  | .sunspecTimeout _ => keeps_execSunspecTimeout _ h
  | .pmSetpointCycle _ => keeps_execPmSetpointCycle _ h
  | .pmStatusReceive _ _ _ => keeps_execPmStatusReceive _ _ _ h
  | .pmIdentReceive _ _ _ => keeps_execPmIdentReceive _ _ _ h
  | .pmLost _ _ => keeps_execPmLost _ _ h
  | .pairFrameSend => keeps_execPairFrameSend h
  | .pairFrameReceive _ => keeps_execPairFrameReceive _ h
  | .pairHandover => keeps_execPairHandover h
  | .peerLost => keeps_execPeerLost h
  | .leaderShareRaise => keeps_execLeaderShareRaise h
  | .ocppReconnect _ => keeps_execOcppReconnect _ h
  | .bootNotificationResponse _ _ _ => keeps_execBootNotificationResponse _ _ _ h
  | .heartbeatSend => keeps_execHeartbeatSend h
  | .authorizeResponse _ _ _ => keeps_execAuthorizeResponse _ _ _ h
  | .authOfflineTimeout _ => keeps_execAuthOfflineTimeout _ h
  | .remoteStart _ _ _ => keeps_execRemoteStart _ _ _ h
  | .reserveNow _ _ _ _ _ => keeps_execReserveNow _ _ _ _ _ h
  | .reservationExpire _ => keeps_execReservationExpire _ h
  | .changeConfiguration _ _ => keeps_execChangeConfiguration _ _ h
  | .tariffTableDatatransfer _ => keeps_execTariffTableDatatransfer _ h
  | .tariffSwitchDatatransfer _ _ _ => keeps_execTariffSwitchDatatransfer _ _ _ h
  | .keyEnvelopeDatatransfer _ => keeps_execKeyEnvelopeDatatransfer _ h
  | .updateFirmware _ _ _ _ => keeps_execUpdateFirmware _ _ _ _ h
  | .operatorActivation => keeps_execOperatorActivation h
  | .sendLocalList _ _ _ => keeps_execSendLocalList _ _ _ h
  | .clearCache => keeps_execClearCache h
  | .setChargingProfile _ _ => keeps_execSetChargingProfile _ _ h
  | .meterValuesSend _ => keeps_execMeterValuesSend _ h
  | .recordDelivery _ => keeps_execRecordDelivery _ h
  | .tlsFailure => keeps_execTlsFailure h
  | .idleOcppWindow => keeps_execIdleOcppWindow h
  | .readerPoll _ => keeps_execReaderPoll _ h
  | .identityLapse => keeps_execIdentityLapse h
  | .solarProductionTick => keeps_execSolarProductionTick h
  | .solarUpdate => keeps_execSolarUpdate h
  | .solarStopTimer _ => keeps_execSolarStopTimer _ h
  | .solarStartTimer _ => keeps_execSolarStartTimer _ h
  | .displayUpdateStart _ => keeps_execDisplayUpdateStart _ h
  | .displayFrame => keeps_execDisplayFrame h
  | .displayUpdateEnd _ => keeps_execDisplayUpdateEnd _ h
  | .legalUpdateRequest => keeps_execLegalUpdateRequest h
  | .outputTest _ => keeps_execOutputTest _ h
  | .ageingSensing _ => keeps_execAgeingSensing _ h
  | .tileCounterWrite => keeps_execTileCounterWrite h
  | .displayDieFault => keeps_execDisplayDieFault h
  | .tempChannelStale => keeps_execTempChannelStale h
  | .debugChallenge => keeps_execDebugChallenge h
  | .debugSignature _ _ => keeps_execDebugSignature _ _ h
  | .lcAuthorisationExpire => keeps_execLcAuthorisationExpire h
  | .rngHealthFail => keeps_execRngHealthFail h
  | .rngRestart _ => keeps_execRngRestart _ h
  | .trialConfirmAuto => keeps_execTrialConfirmAuto h
  | .powerDieLinkRestored => keeps_execPowerDieLinkRestored h
  | .protocolMessage _ _ => keeps_execProtocolMessage _ _ h
  | .ocppConnectionLost => keeps_execOcppConnectionLost h
  | .operatorStop _ => keeps_execOperatorStop _ h
  | .heartbeatResponse _ => keeps_execHeartbeatResponse _ h
  | .ntpReply _ _ => keeps_execNtpReply _ _ h
  | .transactionResponse _ _ => keeps_execTransactionResponse _ _ h
  | .cancelReservation _ => keeps_execCancelReservation _ h
  | .installCertificate _ => keeps_execInstallCertificate _ h
  | .watchSramScrub _ _ => keeps_execWatchSramScrub _ _ h
  | .chargingProfilePeriod _ => keeps_execChargingProfilePeriod _ h

theorem keeps_of_exec {i : Instr} {s t : State} (h : exec i s = .next t) : Keeps s t := by
  have hkeeps := keeps_exec (Keeps.refl s) i
  rwa [h] at hkeeps

/-! ### A step -/

theorem step_of_idle {s : State} (h : s.pending = []) : step s = .next s := by rw [step, h]

theorem step_of_pending {s : State} {c : Instr} {rest : List Instr} (h : s.pending = c :: rest) :
    step s = exec c { s with pending := rest } := by rw [step, h]

/-! ### The statement -/

/-- Settles O3: an empty queue changes nothing, and a command acts on a state with the same mailbox unit. -/
theorem mailboxUnitInvariant : Obligations.MailboxUnitInvariant := by
  unfold Obligations.MailboxUnitInvariant
  intro s t hmail hstep
  cases hpending : s.pending with
  | nil =>
    rw [step_of_idle hpending] at hstep
    cases hstep
    exact hmail
  | cons c rest =>
    rw [step_of_pending hpending] at hstep
    exact (keeps_of_exec hstep).mail hmail

end Sys2Proof.Machine
end

section
/-! SUPPORT. The rows whose operands can fail to spell an event (06 R211; 04 Table 4.7): each command answers a next state
exactly where they spell one, and the proof of WellFormedCommandsComplete. -/

namespace Sys2Proof.Machine

/-- Whether the operands spell their row in this state: those of an output test name the outputs of the module's panel. -/
def spelled (s : State) : Instr → Bool
  | .outputTest charges => panelFits s charges
  | i => i.wellFormed

/-- Every row answers a next state where its operands spell it and the fault illFormed elsewhere: each meaning is
`.next t`, or `when_` of its row's shape. -/
theorem exec_eq_when (i : Instr) (s : State) : ∃ t, exec i s = when_ (spelled s i) t := by
  cases i <;> exact ⟨_, rfl⟩

theorem exec_of_spelled {i : Instr} {s : State} (h : spelled s i = true) : ∃ t, exec i s = .next t := by
  obtain ⟨t, hexec⟩ := exec_eq_when i s
  exact ⟨t, by rw [hexec, h, when_true]⟩

theorem exec_of_not_spelled {i : Instr} {s : State} (h : spelled s i = false) : exec i s = .fault .illFormed := by
  obtain ⟨t, hexec⟩ := exec_eq_when i s
  rw [hexec, h, when_false]

theorem spelled_of_wellFormed {i : Instr} {s : State} (hwf : i.wellFormed = true)
    (hfits : ∀ c, i = .outputTest c → panelFits s c = true) : spelled s i = true := by
  cases i with
  | outputTest c => exact hfits c rfl
  | _ => exact hwf

theorem not_spelled_of_not_wellFormed {i : Instr} (s : State) (hwf : i.wellFormed = false) : spelled s i = false := by
  cases i with
  | outputTest c => exact Bool.noConfusion hwf
  | _ => exact hwf

/-! ### The statement -/

/-- Settles O2: whether a command's operands spell its row decides between the next state and the fault. -/
theorem wellFormedCommandsComplete : Obligations.WellFormedCommandsComplete := by
  unfold Obligations.WellFormedCommandsComplete
  refine fun i s => ⟨fun hwf hfits => exec_of_spelled (spelled_of_wellFormed hwf hfits),
    fun hwf => exec_of_not_spelled (not_spelled_of_not_wellFormed s hwf), ?_⟩
  rintro c rfl hfits
  exact exec_of_not_spelled hfits

end Sys2Proof.Machine
end

section
/-! SUPPORT. The writes of the host port (06 R210, R212, R217, R218, R221): what the port does with a transaction, what a
write of words does to the registers and windows, and the proof of WindowBytes. -/

namespace Sys2Proof.Machine

/-! ### A transaction on an open port and on one that is not ready (R213, R217, R218) -/

theorem transaction_of_open {s : State} (h : portOpen s) (op : Byte) (f : State → State) :
    transaction op f s = f (drive (phases op s) s) := by
  obtain ⟨hrdy, hignored⟩ := h
  rw [transaction, hignored, hrdy]
  rfl

theorem transaction_of_notReady {s : State} (hrdy : s.hif.rdy = false) (hignored : s.hif.ignored = false) (op : Byte)
    (f : State → State) : transaction op f s = drive [] (ifDo (s.hif.startStep != 0) (setStatus stNotReady) s) := by
  rw [transaction, hignored, hrdy]
  rfl

/-! ### A write of words (R210, R212) -/

theorem writeShape_length_pos {op : Byte} {n : Nat} (h : writeShape op n = true) : 0 < n := by
  rw [writeShape, Bool.and_eq_true] at h
  obtain ⟨-, hcount⟩ := h
  split at hcount
  · exact of_decide_eq_true hcount
  · rw [beq_iff_eq.mp hcount]; exact Nat.one_pos

theorem exec_registerWrite_of_open {s : State} {op : Byte} {ws : List Word32} (hopen : portOpen s)
    (hshape : writeShape op ws.length = true) (a : BitVec 16) :
    exec (.registerWrite op a ws) s = .next (hostWrite a.toNat ws (drive (phases op s) s)) := by
  change execRegisterWrite op a ws s = _
  rw [execRegisterWrite, hshape, when_true, transaction_of_open hopen]

theorem hostWrite_of_aligned {a : Nat} (h : a % 4 = 0) (ws : List Word32) (s : State) :
    hostWrite a ws s = writeWords (wordAddrs a ws) (fun s => s) s :=
  if_neg (not_not_intro h)

theorem hostWrite_of_unaligned {a : Nat} (h : a % 4 ≠ 0) (ws : List Word32) (s : State) :
    hostWrite a ws s = setStatus stUnaligned s :=
  if_pos h

/-- Words none of which is for the reset key have their effects in order, and the transaction's end adds none. -/
theorem writeWords_of_noResetKey {l : List (Nat × Word32)} (h : ∀ p ∈ l, p.1 ≠ 0x30) (s : State) :
    writeWords l (fun s => s) s = forEach l (fun p => regWrite p.1 p.2) (buffer l.length s) := by
  have hnone : l.filter (fun p => p.1 == 0x30) = [] := by simpa using h
  rw [writeWords, hnone]
  rfl

theorem buffer_of_pos {n : Nat} (h : 0 < n) (s : State) :
    buffer n s = { s with hif := { s.hif with buffered := min 128 (s.hif.buffered + n), rdy := false } } :=
  if_neg h.ne'

/-! ### The words of a burst into one command window (Tables 6.3 and 6.6) -/

theorem cmdWindow_index {mb : Mailbox} {a : Nat} (hlow : cmdWindow mb ≤ a) (hhigh : a < cmdWindow mb + 512) :
    (Fin.ofNat 8 ((a - 0x1000) / 512) : Mailbox) = mb := by
  rw [cmdWindow] at hlow hhigh
  ext
  simp only [Fin.ofNat]
  omega

/-- A word for the window of a FREE mailbox is stored, which ends an error at its address (R221, R239). -/
theorem regWrite_window {s : State} {mb : Mailbox} {a : Nat} (w : Word32) (hreset : s.pwr.inReset = false)
    (hfree : s.mbx.cmd[mb].state = .free) (hlow : cmdWindow mb ≤ a) (hhigh : a < cmdWindow mb + 512) :
    regWrite a w s = { s with mbx := { s.mbx with
      win := Memory.writeBytes s.mbx.win a (leBytes 4 w.toNat), badWords := s.mbx.badWords.filter (fun x => x != a) } } := by
  have hbounds := cmdWindow_bounds mb
  have hmailbox := cmdWindow_index hlow hhigh
  have hwindow : inCmdWindows a = true := by
    rw [inCmdWindows, Bool.and_eq_true, decide_eq_true_eq, decide_eq_true_eq]
    have := mb.isLt
    rw [cmdWindow] at hlow hhigh
    omega
  have hne (k : Nat) (hk : k < 0x1000) : a ≠ k := by omega
  have hregister : ¬ (0x40 ≤ a ∧ a < 0x80) := by omega
  have hfree : s.mbx.cmd[(Fin.ofNat 8 ((a - 0x1000) / 512) : Mailbox)].state = .free := hmailbox ▸ hfree
  simp only [regWrite, plainWrite, hreset, hne, hregister, hwindow, hfree, Nat.reduceLT, Bool.false_eq_true, if_false, if_true]

/-- Within a window the words of a burst stand 4 bytes apart. -/
theorem wordAddrs_cons_of_window {mb : Mailbox} {a : Nat} (w : Word32) (ws : List Word32) (hlow : cmdWindow mb ≤ a)
    (hhigh : a + 4 * (ws.length + 1) ≤ cmdWindow mb + 512) :
    wordAddrs a (w :: ws) = (a, w) :: wordAddrs (a + 4) ws := by
  cases ws with
  | nil => rfl
  | cons v ws =>
    have hnext : nextAddr a = a + 4 := by
      have := mb.isLt
      rw [List.length_cons] at hhigh
      rw [cmdWindow] at hlow hhigh
      have hwindow : (inCmdWindows a || inEvtWindows a) = true := by
        simp only [inCmdWindows, Bool.or_eq_true, Bool.and_eq_true, decide_eq_true_eq]
        omega
      rw [nextAddr, if_neg (by omega), if_pos hwindow]
      omega
    rw [wordAddrs, hnext]

/-- The bytes of a burst, each word least significant byte first (R212). -/
def burstBytes (ws : List Word32) : Bytes := ws.flatMap (fun w => leBytes 4 w.toNat)

theorem leBytes_length (n v : Nat) : (leBytes n v).length = n := by simp [leBytes]

theorem burstBytes_length (ws : List Word32) : (burstBytes ws).length = 4 * ws.length := by
  simp [burstBytes, List.length_flatMap, leBytes_length, Nat.mul_comm]

theorem getD_leBytes {n k : Nat} (h : k < n) (v : Nat) : (leBytes n v).getD k 0 = BitVec.ofNat 8 (v >>> (8 * k)) := by
  simp [leBytes, h]

theorem getD_burstBytes (ws : List Word32) (k : Nat) :
    (burstBytes ws).getD k 0 = ((ws.getD (k / 4) 0) >>> (8 * (k % 4))).setWidth 8 := by
  induction ws generalizing k with
  | nil => simp [burstBytes]
  | cons w ws ih =>
    have hcons : burstBytes (w :: ws) = leBytes 4 w.toNat ++ burstBytes ws := rfl
    rw [hcons]
    by_cases hk : k < 4
    · rw [List.getD_append _ _ _ _ (by rwa [leBytes_length]), getD_leBytes hk, Nat.div_eq_of_lt hk, Nat.mod_eq_of_lt hk]
      exact BitVec.eq_of_toNat_eq (by simp)
    · obtain ⟨j, rfl⟩ : ∃ j, k = j + 4 := ⟨k - 4, by omega⟩
      rw [List.getD_append_right _ _ _ _ (by rw [leBytes_length]; omega), leBytes_length, Nat.add_sub_cancel, ih,
        Nat.add_div_right _ (by decide), Nat.add_mod_right]
      rfl

theorem Memory.writeBytes_append (m : List Host.Cell) (a : Nat) (l k : Bytes) :
    Memory.writeBytes m a (l ++ k) = Memory.writeBytes (Memory.writeBytes m a l) (a + l.length) k := by
  induction l generalizing m a with
  | nil => rfl
  | cons v l ih =>
    rw [List.cons_append, Memory.writeBytes, ih, List.length_cons, Nat.add_right_comm, Nat.add_assoc]
    rfl

/-- The words of a burst into the window of a FREE mailbox: their bytes are stored, and which errors end is all else. -/
theorem forEach_regWrite_window {mb : Mailbox} (ws : List Word32) {s : State} {a : Nat} (hreset : s.pwr.inReset = false)
    (hfree : s.mbx.cmd[mb].state = .free) (hlow : cmdWindow mb ≤ a) (hhigh : a + 4 * ws.length ≤ cmdWindow mb + 512) :
    ∃ bad, forEach (wordAddrs a ws) (fun p => regWrite p.1 p.2) s =
      { s with mbx := { s.mbx with win := Memory.writeBytes s.mbx.win a (burstBytes ws), badWords := bad } } := by
  induction ws generalizing s a with
  | nil => exact ⟨_, rfl⟩
  | cons w ws ih =>
    rw [List.length_cons] at hhigh
    have hhere := regWrite_window w hreset hfree hlow (by omega)
    obtain ⟨bad, hrest⟩ := ih (s := regWrite a w s) (a := a + 4) (by rw [hhere]; exact hreset)
      (by rw [hhere]; exact hfree) (by omega) (by omega)
    refine ⟨bad, ?_⟩
    have hbytes : burstBytes (w :: ws) = leBytes 4 w.toNat ++ burstBytes ws := rfl
    rw [wordAddrs_cons_of_window w ws hlow hhigh, forEach_cons, hrest, hhere, hbytes, Memory.writeBytes_append, leBytes_length]

theorem wordAddrs_length (a : Nat) (ws : List Word32) : (wordAddrs a ws).length = ws.length := by
  induction ws generalizing a with
  | nil => rfl
  | cons w ws ih => rw [wordAddrs, List.length_cons, ih, List.length_cons]

theorem le_of_mem_wordAddrs {mb : Mailbox} {ws : List Word32} {a : Nat} (hlow : cmdWindow mb ≤ a)
    (hhigh : a + 4 * ws.length ≤ cmdWindow mb + 512) {p : Nat × Word32} (hp : p ∈ wordAddrs a ws) :
    cmdWindow mb ≤ p.1 := by
  induction ws generalizing a with
  | nil => exact absurd hp List.not_mem_nil
  | cons w ws ih =>
    rw [List.length_cons] at hhigh
    rw [wordAddrs_cons_of_window w ws hlow hhigh, List.mem_cons] at hp
    obtain rfl | hp := hp
    · exact hlow
    · exact ih (by omega) (by omega) hp

theorem hostWrite_window {mb : Mailbox} {ws : List Word32} {s : State} {a : Nat} (hreset : s.pwr.inReset = false)
    (hfree : s.mbx.cmd[mb].state = .free) (hwords : 0 < ws.length) (haligned : a % 4 = 0) (hlow : cmdWindow mb ≤ a)
    (hhigh : a + 4 * ws.length ≤ cmdWindow mb + 512) :
    ∃ bad, hostWrite a ws s = { s with
      hif := { s.hif with buffered := min 128 (s.hif.buffered + ws.length), rdy := false }
      mbx := { s.mbx with win := Memory.writeBytes s.mbx.win a (burstBytes ws), badWords := bad } } := by
  have hkey : ∀ p ∈ wordAddrs a ws, p.1 ≠ 0x30 := fun p hp => by
    have := le_of_mem_wordAddrs hlow hhigh hp
    have := cmdWindow_bounds mb
    omega
  rw [hostWrite_of_aligned haligned, writeWords_of_noResetKey hkey, wordAddrs_length, buffer_of_pos hwords]
  exact forEach_regWrite_window ws hreset hfree hlow hhigh

/-! ### The statement -/

/-- A window written whole reads the bytes given and zeros beyond them (Table 6.6). -/
theorem read_writeWindow {m : List Host.Cell} (hm : Memory.wf m = true) {vs : Bytes} (hvs : vs.length ≤ 512) (base a : Nat) :
    Memory.read (writeWindow m base vs) a = if base ≤ a ∧ a < base + 512 then vs.getD (a - base) 0 else Memory.read m a := by
  have hpad : padTo 512 vs = vs ++ List.replicate (512 - vs.length) 0 :=
    List.take_of_length_le (by rw [List.length_append, List.length_replicate]; omega)
  rw [writeWindow, Memory.read_writeBytes _ hm, padTo_length, hpad]
  split_ifs
  · by_cases hin : a - base < vs.length
    · rw [List.getD_append _ _ _ _ hin]
    · rw [List.getD_append_right _ _ _ _ (by omega), List.getD_eq_default vs _ (by omega),
        List.getD_eq_getElem?_getD, List.getElem?_getD_replicate_default_eq]
  · rfl

/-- Settles O7: the laws of the windows' bytes, and a burst as the bytes of its words written in a row. -/
theorem windowBytes : Obligations.WindowBytes := by
  unfold Obligations.WindowBytes
  refine ⟨fun m hm => ⟨fun a b vs => Memory.read_writeBytes vs hm a b, fun a vs => Memory.wf_writeBytes vs a hm,
    fun base a vs hvs => read_writeWindow hm hvs base a⟩, ?burst⟩
  intro s op mb off ws hopen hreset hwf hfree hshape halign hfits base
  have hbounds := cmdWindow_bounds mb
  have hbase : (BitVec.ofNat 16 base).toNat = base := Nat.mod_eq_of_lt (by omega)
  obtain ⟨bad, hwrite⟩ := hostWrite_window (s := drive (phases op s) s) hreset hfree (writeShape_length_pos hshape)
    (a := base) (by rw [show base = 0x1000 + 0x200 * mb.val + off from rfl]; omega) (Nat.le_add_right _ _) (by omega)
  refine ⟨_, (exec_registerWrite_of_open hopen hshape _).trans (by rw [hbase, hwrite]), fun a => ?_,
    Memory.wf_writeBytes _ _ hwf, rfl⟩
  rw [← getD_burstBytes, ← burstBytes_length]
  exact Memory.read_writeBytes _ hwf base a

end Sys2Proof.Machine
end

section
/-! SUPPORT. The reads, special opcodes and errors of the host port (06 Table 6.2, R209 to R218, R232): what the port sends in
a read, what every row does on a port that is not ready, and the proof of HostPortTransactions. -/

namespace Sys2Proof.Machine

/-! ### The addresses of a read (R210) -/

/-- The next address is as aligned as the address before it. -/
theorem nextAddr_mod_four (a : Nat) : nextAddr a % 4 = a % 4 := by
  rw [nextAddr]
  split_ifs <;> omega

/-- A read from an unaligned address has no busy word: only a window word of an aligned address can be busy (R215). -/
theorem readFits_cons_of_unaligned {a : Nat} {r : ReadWord} {l : List ReadWord} (ha : a % 4 ≠ 0)
    (hfits : readFits a (r :: l) = true) : r.busy = 0 ∧ readFits (nextAddr a) l = true := by
  simp only [readFits, beq_eq_false_iff_ne.mpr ha, Bool.false_and, Bool.or_false, Bool.and_eq_true, beq_iff_eq] at hfits
  obtain ⟨⟨-, hbusy⟩, hrest⟩ := hfits
  exact ⟨hbusy, hrest⟩

/-! ### What the port sends in a read (R212, R214, R215) -/

theorem sendMore_sendMore (l k : List Sent) (s : State) : sendMore k (sendMore l s) = sendMore (l ++ k) s := by
  simp only [sendMore, modHif, List.append_assoc]

theorem sendMore_nil (s : State) : sendMore [] s = s := by
  simp only [sendMore, modHif, List.append_nil]

/-- What the port sends for the words of an unaligned read: a zero for each, and the marker before the first. -/
theorem serveRead_of_unaligned {l : List ReadWord} {a : Nat} (ha : a % 4 ≠ 0) (hfits : readFits a l = true) (first : Bool)
    (s : State) : serveRead a first l s =
      sendMore ((if first && !l.isEmpty then [.marker] else []) ++ List.replicate l.length (.data 0)) s := by
  induction l generalizing a first s with
  | nil => rw [List.isEmpty_nil, Bool.not_true, Bool.and_false]; exact (sendMore_nil s).symm
  | cons r l ih =>
    obtain ⟨hbusy, hrest⟩ := readFits_cons_of_unaligned ha hfits
    have hnext : nextAddr a % 4 ≠ 0 := by rwa [nextAddr_mod_four]
    have hword (t : State) : readWord r a t = sendMore [.data 0] t := if_pos ha
    rw [serveRead, hbusy]
    simp only [hword, ih hnext hrest, sendMore_sendMore, List.length_cons, List.replicate_succ]
    cases first <;> rfl

/-- What the port sends for the words of an aligned read without an uncorrectable error. -/
def readSent (s : State) : Nat → Bool → List ReadWord → List Sent
  | _, _, [] => []
  | a, first, r :: l =>
    List.replicate r.busy .busy ++ ((if first || r.busy != 0 then [.marker] else []) ++
      .data (hostRead s a) :: readSent s (nextAddr a) false l)

theorem readSent_congr {s t : State} (h : ∀ a, hostRead t a = hostRead s a) (a : Nat) (first : Bool) (l : List ReadWord) :
    readSent t a first l = readSent s a first l := by
  induction l generalizing a first with
  | nil => rfl
  | cons r l ih => rw [readSent, readSent, ih, h]

theorem readWord_of_good {s : State} {r : ReadWord} {a : Nat} (ha : a % 4 = 0) (hbad : s.mbx.badWords = [])
    (hr : r.bad = false) : readWord r a s = sendMore [.data (hostRead s a)] s := by
  have hgood : wordFails r a s = false := by rw [wordFails, hbad, hr]; rfl
  rw [readWord, if_neg (not_not_intro ha), hgood]
  rfl

theorem serveRead_of_good {l : List ReadWord} {a : Nat} {s : State} (ha : a % 4 = 0) (hbad : s.mbx.badWords = [])
    (hl : ∀ r ∈ l, r.bad = false) (first : Bool) : serveRead a first l s = sendMore (readSent s a first l) s := by
  induction l generalizing a first s with
  | nil => exact (sendMore_nil s).symm
  | cons r l ih =>
    obtain ⟨hr, hrest⟩ := List.forall_mem_cons.mp hl
    have hnext : nextAddr a % 4 = 0 := by rwa [nextAddr_mod_four]
    have hword (k : List Sent) : readWord r a (sendMore k s) = sendMore [.data (hostRead s a)] (sendMore k s) :=
      readWord_of_good ha hbad hr
    have hserve (k : List Sent) : serveRead (nextAddr a) false l (sendMore k s) =
        sendMore (readSent s (nextAddr a) false l) (sendMore k s) := by
      rw [ih (s := sendMore k s) hnext hbad hrest, readSent_congr (t := sendMore k s) (s := s) (fun _ => rfl)]
    simp only [serveRead, readSent, hword, sendMore_sendMore, hserve, List.append_assoc, List.singleton_append]

/-- The word that an element of what the port sends carries. -/
def dataWord : Sent → Option Word32
  | .data w => some w
  | _ => none

theorem filterMap_dataWord_busy (n : Nat) : (List.replicate n Sent.busy).filterMap dataWord = [] := by
  induction n with
  | zero => rfl
  | succ n ih => rw [List.replicate_succ, List.filterMap_cons_none rfl, ih]

/-- The words of a read are those at the successive addresses (R210). -/
theorem filterMap_dataWord_readSent (s : State) (a : Nat) (first : Bool) (l : List ReadWord) :
    (readSent s a first l).filterMap dataWord = (List.range l.length).map (fun i => hostRead s (addrPlus a i)) := by
  induction l generalizing a first with
  | nil => rfl
  | cons r l ih =>
    have hmarker : (if first || r.busy != 0 then [Sent.marker] else []).filterMap dataWord = [] := by split_ifs <;> rfl
    rw [readSent, List.filterMap_append, List.filterMap_append, filterMap_dataWord_busy, hmarker,
      List.filterMap_cons_some (f := dataWord) (b := hostRead s a) rfl, ih, List.length_cons, List.range_succ_eq_map,
      List.map_cons, List.map_map]
    rfl

theorem filterMap_dataWord_phases (op : Byte) (s : State) : (phases op s).filterMap dataWord = [] := by
  rw [phases, List.filterMap_append]
  split_ifs <;> rfl

/-! ### The rows on an open port -/

theorem beginRead_of_unaligned {a : Nat} (h : a % 4 ≠ 0) (op : Byte) (s : State) : beginRead op a s =
    { s with hif := { s.hif with sentBits := opDataBits op, status := s.hif.status ||| 0x002 } } := by
  rw [beginRead, bne_iff_ne.mpr h]
  rfl

theorem beginRead_of_aligned {a : Nat} (h : a % 4 = 0) (op : Byte) (s : State) : beginRead op a s =
    { s with hif := { s.hif with sentBits := opDataBits op } } := by
  rw [beginRead, h]
  rfl

theorem readShape_ne_nil {op : Byte} {l : List ReadWord} (h : readShape op l.length = true) : l ≠ [] := by
  rintro rfl
  simp [readShape] at h

section
variable {s : State} (hopen : portOpen s)
include hopen

theorem exec_badOpcode_of_open {op : Byte} (hop : opInvalid op = true) : exec (.badOpcode op) s =
    .next { s with hif := { s.hif with status := s.hif.status ||| 0x001, sent := phases op s } } := by
  change execBadOpcode op s = _
  rw [execBadOpcode, hop, when_true, transaction_of_open hopen]
  rfl

theorem exec_setCmdWidth_of_open (w : Word32) : exec (.setCmdWidth w) s =
    .next { s with hif := { s.hif with cmdWidth := w.setWidth 2, sent := phases 0x0F s } } :=
  congrArg Host.Outcome.next (transaction_of_open hopen _ _)

theorem exec_resetCmdWidth_of_open : exec .resetCmdWidth s =
    .next { s with hif := { s.hif with cmdWidth := 0, sent := phases 0xFF s } } :=
  congrArg Host.Outcome.next (transaction_of_open hopen _ _)

theorem exec_readDataReady_of_open {op : Byte} {a : BitVec 16} {ws : List ReadWord} (hshape : readShape op ws.length = true)
    (hfits : readFits a.toNat ws = true) : exec (.readDataReady op a ws) s =
      .next (serveRead a.toNat true ws (beginRead op a.toNat (drive (phases op s) s))) := by
  change execReadDataReady op a ws s = _
  rw [execReadDataReady, hshape, hfits, Bool.and_self, when_true, transaction_of_open hopen]

theorem exec_readDataReady_of_unaligned {op : Byte} {a : BitVec 16} {ws : List ReadWord}
    (hshape : readShape op ws.length = true) (hfits : readFits a.toNat ws = true) (ha : a.toNat % 4 ≠ 0) :
    exec (.readDataReady op a ws) s = .next { s with hif := { s.hif with
      sentBits := opDataBits op, status := s.hif.status ||| 0x002
      sent := phases op s ++ .marker :: List.replicate ws.length (.data 0) } } := by
  have hsome : ws.isEmpty = false := List.isEmpty_eq_false_iff.mpr (readShape_ne_nil hshape)
  rw [exec_readDataReady_of_open hopen hshape hfits, serveRead_of_unaligned ha hfits, hsome, beginRead_of_unaligned ha]
  rfl

theorem exec_readDataReady_of_good {op : Byte} {a : BitVec 16} {ws : List ReadWord} (hshape : readShape op ws.length = true)
    (hfits : readFits a.toNat ws = true) (ha : a.toNat % 4 = 0) (hbad : s.mbx.badWords = [])
    (hws : ws.all (fun r => !r.bad) = true) : exec (.readDataReady op a ws) s =
      .next { s with hif := { s.hif with
        sentBits := opDataBits op, sent := phases op s ++ readSent s a.toNat true ws } } := by
  have hgood : ∀ r ∈ ws, r.bad = false := by simpa using hws
  rw [exec_readDataReady_of_open hopen hshape hfits, beginRead_of_aligned ha, serveRead_of_good ha (by exact hbad) hgood,
    readSent_congr (s := s) (fun _ => by rfl)]
  rfl

theorem exec_busyTimeout_of_open {op : Byte} {a : BitVec 16} {busy left : Nat}
    (hshape : timeoutShape op a.toNat [] busy left = true) : exec (.busyTimeout op a [] busy left) s =
      .next { s with hif := { s.hif with
        status := s.hif.status ||| 0x004, sentBits := opDataBits op
        sent := phases op s ++ (List.replicate busy .busy ++ .marker :: List.replicate left (.data 0xEEEE0040)) } } := by
  have haligned : a.toNat % 4 = 0 := by
    simp only [timeoutShape, Bool.and_eq_true, beq_iff_eq] at hshape
    obtain ⟨⟨-, haligned⟩, -⟩ := hshape
    exact haligned
  change execBusyTimeout op a [] busy left s = _
  rw [execBusyTimeout, hshape, when_true, transaction_of_open hopen, beginRead_of_aligned haligned, serveRead,
    errorWord]
  rfl

theorem exec_earlySelectRelease_of_open {op : Byte} (hop : (opTransfer op || op == 0x0F) = true) (a : BitVec 16) :
    exec (.earlySelectRelease op a [] .beforeData) s =
      .next { s with hif := { s.hif with status := s.hif.status ||| 0x040, sent := phases op s } } := by
  have hshape : cutShape op 0 .beforeData = true := by rw [cutShape, hop]; rfl
  change execEarlySelectRelease op a [] .beforeData s = _
  rw [execEarlySelectRelease, List.length_nil, hshape, when_true, transaction_of_open hopen]
  rfl

theorem exec_transactionNotReady_of_open : exec .transactionNotReady s = .next s := by
  obtain ⟨hrdy, -⟩ := hopen
  exact next_ifDo_of_false (by rw [hrdy]; rfl) _ _

end

/-! ### The rows on a port that is not ready (R218) -/

/-- What a transaction begun while HIF_RDY is low leaves. -/
def notReady (s : State) : State :=
  { s with hif := { s.hif with sent := [], status := if s.hif.startStep = 0 then s.hif.status else s.hif.status ||| 0x400 } }

section
variable {s : State} (hrdy : s.hif.rdy = false) (hignored : s.hif.ignored = false)
include hrdy hignored

theorem transaction_eq_notReady (op : Byte) (f : State → State) : transaction op f s = notReady s := by
  rw [transaction_of_notReady hrdy hignored, notReady]
  by_cases hstep : s.hif.startStep = 0
  · rw [if_pos hstep, hstep]; rfl
  · rw [if_neg hstep, bne_iff_ne.mpr hstep]; rfl

theorem exec_transactionNotReady_of_notReady : exec .transactionNotReady s = .next (notReady s) := by
  change Host.Outcome.next (ifDo (!s.hif.rdy) (transaction 0x00 (fun s => s)) s) = _
  rw [hrdy, Bool.not_false, ifDo_true, transaction_eq_notReady hrdy hignored]

theorem exec_registerWrite_of_notReady {op : Byte} {ws : List Word32} (hshape : writeShape op ws.length = true)
    (a : BitVec 16) : exec (.registerWrite op a ws) s = .next (notReady s) := by
  change execRegisterWrite op a ws s = _
  rw [execRegisterWrite, hshape, when_true, transaction_eq_notReady hrdy hignored]

theorem exec_readDataReady_of_notReady {op : Byte} {a : BitVec 16} {ws : List ReadWord}
    (hshape : readShape op ws.length = true) (hfits : readFits a.toNat ws = true) :
    exec (.readDataReady op a ws) s = .next (notReady s) := by
  change execReadDataReady op a ws s = _
  rw [execReadDataReady, hshape, hfits, Bool.and_self, when_true, transaction_eq_notReady hrdy hignored]

theorem exec_singleWrites_of_notReady (w : Word32) :
    ∀ i ∈ [Instr.cmdDoorbell w, .cmdRelease w, .evtAck w, .setCmdWidth w], exec i s = .next (notReady s) := by
  have hnext (op : Byte) (f : State → State) : (.next (transaction op f s) : Out) = .next (notReady s) := by
    rw [transaction_eq_notReady hrdy hignored]
  simp only [List.forall_mem_cons]
  exact ⟨hnext _ _, hnext _ _, hnext _ _, hnext _ _, List.forall_mem_nil _⟩

end

/-! ### The statement -/

/-- Settles O8: each clause is the lemma of its row on a port that is open or not ready. -/
theorem hostPortTransactions : Obligations.HostPortTransactions := by
  unfold Obligations.HostPortTransactions
  refine ⟨fun s hopen => ⟨fun op => exec_badOpcode_of_open hopen, exec_setCmdWidth_of_open hopen,
    exec_resetCmdWidth_of_open hopen, ?read, fun op a busy left => exec_busyTimeout_of_open hopen,
    fun op a hop => exec_earlySelectRelease_of_open hopen hop a, exec_transactionNotReady_of_open hopen⟩,
    fun s => ⟨?notReady, rfl⟩⟩
  case read =>
    intro op a ws hshape hfits h
    refine ⟨exec_readDataReady_of_unaligned hopen hshape hfits, fun ha hbad hws => ?_⟩
    have hexec := exec_readDataReady_of_good hopen hshape hfits ha hbad hws
    have hwords : (phases op s ++ readSent s a.toNat true ws).filterMap dataWord =
        (List.range ws.length).map (fun i => hostRead s (addrPlus a.toNat i)) := by
      rw [List.filterMap_append, filterMap_dataWord_phases, filterMap_dataWord_readSent, List.nil_append]
    refine ⟨fun n hn => ?_, _, hexec, hwords⟩
    have hsent : readSent s a.toNat true ws = List.replicate n .busy ++ [.marker, .data (hostRead s a.toNat)] := by
      subst hn
      rfl
    rw [hexec, hsent]
  case notReady =>
    intro hrdy hignored
    have hclosed := exec_transactionNotReady_of_notReady hrdy hignored
    refine ⟨hclosed, fun op a ws hshape => ?_, fun w => ?_, fun op a ws hshape hfits => ?_⟩
    · rw [hclosed, exec_registerWrite_of_notReady hrdy hignored hshape]
    · have hsingle := exec_singleWrites_of_notReady hrdy hignored w
      simpa only [List.forall_mem_cons, List.not_mem_nil, false_imp_iff, implies_true, and_true, hclosed] using hsingle
    · rw [hclosed, exec_readDataReady_of_notReady hrdy hignored hshape hfits]

end Sys2Proof.Machine
end

section
/-! SUPPORT. The host's writes of single registers, and the doorbell, release and acknowledgement of one mailbox (06 R217 to
R227, Tables 6.3 and 6.6): the state that each write leaves, and the proof of RegistersAndMailboxes. -/

namespace Sys2Proof.Machine

/-! ### A write of one word (R212, R217) -/

/-- The port after a write of one word has begun: the phases driven, and a place of the write buffer taken. -/
def wordTaken (op : Byte) (s : State) : State :=
  { s with hif := { s.hif with buffered := min 128 (s.hif.buffered + 1), rdy := false, sent := phases op s } }

theorem hostWrite_word {a : Nat} (haligned : a % 4 = 0) (hkey : a ≠ 0x30) (w : Word32) (s : State) :
    hostWrite a [w] s = regWrite a w (buffer 1 s) := by
  rw [hostWrite_of_aligned haligned, writeWords_of_noResetKey (by simpa [wordAddrs] using hkey)]
  rfl

theorem exec_registerWrite_word {s : State} {op : Byte} (hopen : portOpen s) (hshape : writeShape op 1 = true)
    {a : BitVec 16} (haligned : a.toNat % 4 = 0) (hkey : a.toNat ≠ 0x30) (w : Word32) :
    exec (.registerWrite op a [w]) s = .next (regWrite a.toNat w (wordTaken op s)) := by
  rw [exec_registerWrite_of_open hopen hshape, hostWrite_word haligned hkey, buffer_of_pos Nat.one_pos]
  rfl

theorem regWrite_of_running {s : State} (hreset : s.pwr.inReset = false) {a : Nat}
    (ha : a ∉ [0x20, 0x24, 0x28, 0x30, 0x34, 0x38]) (w : Word32) : regWrite a w s = plainWrite a w s := by
  simp only [List.mem_cons, List.not_mem_nil, or_false, not_or] at ha
  simp only [regWrite, hreset, ha, Bool.false_eq_true, if_false]

theorem exec_registerWrite_plain {s : State} {op : Byte} (hopen : portOpen s) (hreset : s.pwr.inReset = false)
    (hshape : writeShape op 1 = true) {a : BitVec 16} (haligned : a.toNat % 4 = 0)
    (ha : a.toNat ∉ [0x20, 0x24, 0x28, 0x30, 0x34, 0x38]) (w : Word32) :
    exec (.registerWrite op a [w]) s = .next (plainWrite a.toNat w (wordTaken op s)) := by
  have hkey : a.toNat ≠ 0x30 := fun h => ha (by rw [h]; decide)
  rw [exec_registerWrite_word hopen hshape haligned hkey, regWrite_of_running (by exact hreset) ha]

theorem exec_registerWrite_of_unaligned {s : State} {op : Byte} (hopen : portOpen s) (hshape : writeShape op 1 = true)
    {a : BitVec 16} (ha : a.toNat % 4 ≠ 0) (w : Word32) : exec (.registerWrite op a [w]) s =
      .next { s with hif := { s.hif with status := s.hif.status ||| 0x002, sent := phases op s } } := by
  rw [exec_registerWrite_of_open hopen hshape, hostWrite_of_unaligned ha]
  rfl

/-! ### CMB_CMDn and CMB_LENn (R221) -/

/-- The addresses of CMB_CMDn and CMB_LENn. -/
theorem toNat_cmbCmd (mb : Mailbox) : (BitVec.ofNat 16 (0x40 + 4 * mb.val)).toNat = 0x40 + 4 * mb.val :=
  Nat.mod_eq_of_lt (by omega)
theorem toNat_cmbLen (mb : Mailbox) : (BitVec.ofNat 16 (0x60 + 4 * mb.val)).toNat = 0x60 + 4 * mb.val :=
  Nat.mod_eq_of_lt (by omega)

theorem boxAt_add (base : Nat) (mb : Mailbox) : boxAt (base + 4 * mb.val) base = mb := by
  ext
  simp only [boxAt, Fin.ofNat]
  omega

/-- A word of the registers CMB_CMDn and CMB_LENn goes to a FREE mailbox alone. -/
theorem plainWrite_box {a : Nat} (ha : 0x40 ≤ a ∧ a < 0x80) (w : Word32) (s : State) :
    plainWrite a w s =
      let mb := boxAt a (if a < 0x60 then 0x40 else 0x60)
      if s.mbx.cmd[mb].state = .free then
        modBox mb (fun b => if a < 0x60 then { b with code := w.setWidth 16, seq := (w >>> 16).setWidth 16 }
          else { b with len := w.setWidth 10 }) s
      else writeIgnored s := by
  have hne (k : Nat) (hk : k < 0x40) : a ≠ k := by omega
  simp only [plainWrite, hne, ha, Nat.reduceLT, and_self, if_false, if_true]

section
variable {s : State} {mb : Mailbox}

theorem plainWrite_cmbCmd_of_free (hfree : s.mbx.cmd[mb].state = .free) (w : Word32) : plainWrite (0x40 + 4 * mb.val) w s =
    modBox mb (fun b => { b with code := w.setWidth 16, seq := (w >>> 16).setWidth 16 }) s := by
  have hcmd : 0x40 + 4 * mb.val < 0x60 := by omega
  simp only [plainWrite_box (a := 0x40 + 4 * mb.val) ⟨by omega, by omega⟩, hcmd, if_true, boxAt_add, hfree]

theorem plainWrite_cmbCmd_of_busy (hbusy : s.mbx.cmd[mb].state ≠ .free) (w : Word32) :
    plainWrite (0x40 + 4 * mb.val) w s = writeIgnored s := by
  have hcmd : 0x40 + 4 * mb.val < 0x60 := by omega
  simp only [plainWrite_box (a := 0x40 + 4 * mb.val) ⟨by omega, by omega⟩, hcmd, if_true, boxAt_add, hbusy, if_false]

theorem plainWrite_cmbLen_of_free (hfree : s.mbx.cmd[mb].state = .free) (w : Word32) : plainWrite (0x60 + 4 * mb.val) w s =
    modBox mb (fun b => { b with len := w.setWidth 10 }) s := by
  have hlen : ¬ 0x60 + 4 * mb.val < 0x60 := by omega
  simp only [plainWrite_box (a := 0x60 + 4 * mb.val) ⟨by omega, by omega⟩, hlen, if_true, if_false, boxAt_add, hfree]

end

/-! ### Doorbells, releases and acknowledgements (R221 to R227) -/

/-- The bit of a mailbox in a word of HIF_CMD_DOORBELL, HIF_CMD_RELEASE and HIF_EVT_ACK names it alone (R224). -/
theorem namedBoxes_bit : ∀ mb : Mailbox, namedBoxes (BitVec.ofNat 32 (2 ^ mb.val)) = [mb] := by decide

theorem regWrite_boxes {s : State} (hreset : s.pwr.inReset = false) (w : Word32) :
    regWrite 0x20 w s = doorbell w s ∧ regWrite 0x24 w s = forEach (namedBoxes w) releaseBox s ∧
      regWrite 0x28 w s = forEach (namedBoxes w) ackBox s := by
  refine ⟨?_, ?_, ?_⟩ <;> rw [regWrite, hreset] <;> rfl

theorem doorbell_bit (mb : Mailbox) (s : State) : doorbell (BitVec.ofNat 32 (2 ^ mb.val)) s =
    ifDo ((s.pwr.state == .idle || s.pwr.idleEntry) && s.mbx.cmd[mb].state == .free) (fireWake 2) (ringBox mb s) := by
  rw [doorbell, namedBoxes_bit, List.any_cons, List.any_nil, Bool.or_false]
  rfl

section
variable {s : State} (hopen : portOpen s) (hreset : s.pwr.inReset = false) (mb : Mailbox)
include hopen hreset

theorem exec_cmdDoorbell_bit : exec (.cmdDoorbell (BitVec.ofNat 32 (2 ^ mb.val))) s =
    .next (ifDo ((s.pwr.state == .idle || s.pwr.idleEntry) && s.mbx.cmd[mb].state == .free) (fireWake 2)
      (ringBox mb (wordTaken 0x08 s))) := by
  obtain ⟨hdoorbell, -, -⟩ := regWrite_boxes (s := wordTaken 0x08 s) hreset (BitVec.ofNat 32 (2 ^ mb.val))
  refine (exec_registerWrite_word hopen (op := 0x08) (a := 0x20) rfl rfl (by decide) _).trans (congrArg _ ?_)
  exact hdoorbell.trans (doorbell_bit mb _)

theorem exec_cmdRelease_bit : exec (.cmdRelease (BitVec.ofNat 32 (2 ^ mb.val))) s =
    .next (releaseBox mb (wordTaken 0x08 s)) := by
  obtain ⟨-, hrelease, -⟩ := regWrite_boxes (s := wordTaken 0x08 s) hreset (BitVec.ofNat 32 (2 ^ mb.val))
  refine (exec_registerWrite_word hopen (op := 0x08) (a := 0x24) rfl rfl (by decide) _).trans (congrArg _ ?_)
  exact hrelease.trans (by rw [namedBoxes_bit]; rfl)

theorem exec_evtAck_bit : exec (.evtAck (BitVec.ofNat 32 (2 ^ mb.val))) s = .next (ackBox mb (wordTaken 0x08 s)) := by
  obtain ⟨-, -, hack⟩ := regWrite_boxes (s := wordTaken 0x08 s) hreset (BitVec.ofNat 32 (2 ^ mb.val))
  refine (exec_registerWrite_word hopen (op := 0x08) (a := 0x28) rfl rfl (by decide) _).trans (congrArg _ ?_)
  exact hack.trans (by rw [namedBoxes_bit]; rfl)

end

section
variable {s : State} {mb : Mailbox}

theorem presentReports_of_present (h : s.hif.hostPresent = true) : presentReports s = s := if_pos h

/-- The mailbox rung by an accepted doorbell: PENDING, last in the order of doorbells. -/
def pendingBox (mb : Mailbox) (s : State) : State :=
  { s with mbx := { s.mbx with cmd := vmod s.mbx.cmd mb (fun b => { b with state := .pending }), order := s.mbx.order ++ [mb] } }

theorem ringBox_of_free (hfree : s.mbx.cmd[mb].state = .free) (hhost : s.hif.hostPresent = true) :
    ringBox mb s = presentRepeat mb (pendingBox mb s) := by
  rw [ringBox, if_pos hfree, presentReports_of_present hhost]
  rfl

theorem ringBox_of_busy (h : s.mbx.cmd[mb].state ≠ .free) : ringBox mb s = setStatus stDoorbellBusy s := if_neg h

/-- A command whose SEQ is not that of the kept result waits to be taken up (R223). -/
theorem presentRepeat_of_new (h : s.mbx.cmd[mb].kept.map (·.seq) ≠ some s.mbx.cmd[mb].seq) : presentRepeat mb s = s := by
  rw [presentRepeat]
  cases hkept : s.mbx.cmd[mb].kept with
  | none => rfl
  | some k =>
    have hseq : (k.seq == s.mbx.cmd[mb].seq) = false := by
      rw [hkept] at h
      exact beq_eq_false_iff_ne.mpr fun heq => h (congrArg some heq)
    have hnone : repeats s mb = false := by
      rw [repeats, hkept, Option.map_some, Option.getD_some, hseq, Bool.and_false]
    simp only [hnone, Bool.false_eq_true, if_false]

/-- A command with the SEQ of the kept result, served now: the result is presented again (R223; log 18). -/
theorem presentRepeat_of_kept {k : Kept} (hpending : s.mbx.cmd[mb].state = .pending)
    (hserved : servesNow s (boxCode s mb) = true) (hkept : s.mbx.cmd[mb].kept = some k) (hseq : k.seq = s.mbx.cmd[mb].seq) :
    presentRepeat mb s = presentKept mb k { s with mbx := { s.mbx with order := s.mbx.order.filter (fun m => m != mb) } } := by
  have hrepeats : repeats s mb = true := by
    rw [repeats, hpending, hserved, hkept, Option.map_some, Option.getD_some, hseq, beq_self_eq_true, beq_self_eq_true]
    rfl
  simp only [presentRepeat, hkept, hrepeats, if_true]

theorem refill_of_emptyQueue (h : s.mbx.queue = []) : refill s = s := by
  rw [refill, h]

theorem servesNow_run {code : Nat} (h : servesNow s code = true) : s.pwr.state = .run := by
  by_contra hstate
  rw [servesNow, bne_iff_ne.mpr hstate] at h
  exact Bool.false_ne_true h

end

theorem pendingBox_cmd (mb : Mailbox) (s : State) :
    (pendingBox mb s).mbx.cmd[mb] = { s.mbx.cmd[mb] with state := .pending } := by
  rw [pendingBox, vmod_get, if_pos rfl]

section
variable {s : State} {mb : Mailbox} (hopen : portOpen s) (hreset : s.pwr.inReset = false)
include hopen hreset

theorem exec_cmdDoorbell_of_busy (hbusy : s.mbx.cmd[mb].state ≠ .free) :
    exec (.cmdDoorbell (BitVec.ofNat 32 (2 ^ mb.val))) s = .next (setStatus stDoorbellBusy (wordTaken 0x08 s)) := by
  rw [exec_cmdDoorbell_bit hopen hreset, beq_eq_false_iff_ne.mpr hbusy, Bool.and_false, ifDo_false,
    ringBox_of_busy (by exact hbusy)]

variable (hhost : s.hif.hostPresent = true) (hfree : s.mbx.cmd[mb].state = .free)
include hhost hfree

theorem exec_cmdDoorbell_of_free : exec (.cmdDoorbell (BitVec.ofNat 32 (2 ^ mb.val))) s =
    .next (ifDo (s.pwr.state == .idle || s.pwr.idleEntry) (fireWake 2)
      (presentRepeat mb (pendingBox mb (wordTaken 0x08 s)))) := by
  rw [exec_cmdDoorbell_bit hopen hreset, beq_iff_eq.mpr hfree, Bool.and_true, ringBox_of_free (by exact hfree) (by exact hhost)]

theorem exec_cmdDoorbell_of_new (hnew : s.mbx.cmd[mb].kept.map (·.seq) ≠ some s.mbx.cmd[mb].seq) :
    exec (.cmdDoorbell (BitVec.ofNat 32 (2 ^ mb.val))) s =
      .next (ifDo (s.pwr.state == .idle || s.pwr.idleEntry) (fireWake 2) (pendingBox mb (wordTaken 0x08 s))) := by
  rw [exec_cmdDoorbell_of_free hopen hreset hhost hfree, presentRepeat_of_new (by rw [pendingBox_cmd]; exact hnew)]

theorem exec_cmdDoorbell_of_kept {k : Kept} (hkept : s.mbx.cmd[mb].kept = some k) (hseq : k.seq = s.mbx.cmd[mb].seq)
    (hwaits : mb ∉ s.mbx.order) (hserved : servesNow s (boxCode s mb) = true) (hentry : s.pwr.idleEntry = false) :
    exec (.cmdDoorbell (BitVec.ofNat 32 (2 ^ mb.val))) s = .next (presentKept mb k { wordTaken 0x08 s with
      mbx := { s.mbx with cmd := vmod s.mbx.cmd mb (fun b => { b with state := .pending }) } }) := by
  have hawake : (s.pwr.state == .idle || s.pwr.idleEntry) = false := by
    rw [servesNow_run hserved, hentry]
    rfl
  have hcmd : (pendingBox mb (wordTaken 0x08 s)).mbx.cmd[mb] = { s.mbx.cmd[mb] with state := .pending } := pendingBox_cmd mb _
  have hcode : boxCode (pendingBox mb (wordTaken 0x08 s)) mb = boxCode s mb := by rw [boxCode, hcmd, boxCode]
  have horder : (s.mbx.order ++ [mb]).filter (fun m => m != mb) = s.mbx.order := by
    have hother : ∀ m ∈ s.mbx.order, (m != mb) = true := fun m hm => bne_iff_ne.mpr (ne_of_mem_of_not_mem hm hwaits)
    rw [List.filter_append, List.filter_eq_self.mpr hother, List.filter_cons_of_neg (by simp),
      List.filter_nil, List.append_nil]
  rw [exec_cmdDoorbell_of_free hopen hreset hhost hfree, hawake, ifDo_false,
    presentRepeat_of_kept (k := k) (by rw [hcmd]) (by rw [hcode]; exact hserved) (by rw [hcmd]; exact hkept)
      (by rw [hcmd]; exact hseq),
    show (pendingBox mb (wordTaken 0x08 s)).mbx.order = s.mbx.order ++ [mb] from rfl, horder]
  rfl

end

/-! ### The statement -/

/-- Settles O9: each clause is the lemma of its register or of its mailbox's write. -/
theorem registersAndMailboxes : Obligations.RegistersAndMailboxes := by
  unfold Obligations.RegistersAndMailboxes
  refine ⟨fun s op w hopen hreset hshape => ?registers, fun s mb hopen hreset hhost => ?boxes⟩
  case registers =>
    have hplain {a : BitVec 16} (haligned : a.toNat % 4 = 0) (ha : a.toNat ∉ [0x20, 0x24, 0x28, 0x30, 0x34, 0x38]) :=
      exec_registerWrite_plain hopen hreset hshape haligned ha w
    have hbox {a : Nat} (haligned : a % 4 = 0) (hlow : 0x40 ≤ a) (hhigh : a < 0x80) :
        exec (.registerWrite op (BitVec.ofNat 16 a) [w]) s = .next (plainWrite a w (wordTaken op s)) := by
      have ha : (BitVec.ofNat 16 a).toNat = a := Nat.mod_eq_of_lt (by omega)
      have hspecial : a ∉ [0x20, 0x24, 0x28, 0x30, 0x34, 0x38] := by
        simp only [List.mem_cons, List.not_mem_nil, or_false, not_or]
        omega
      rw [hplain (by rwa [ha]) (by rwa [ha]), ha]
    refine ⟨hplain rfl (by decide), hplain rfl (by decide), rfl, hplain rfl (by decide), fun mb hfree => ⟨?_, ?_⟩,
      fun mb hbusy => ?_, hplain rfl (by decide), exec_registerWrite_of_unaligned hopen hshape (by decide) w⟩
    · exact (hbox (by omega) (by omega) (by omega)).trans (congrArg _ (plainWrite_cmbCmd_of_free (by exact hfree) w))
    · exact (hbox (by omega) (by omega) (by omega)).trans (congrArg _ (plainWrite_cmbLen_of_free (by exact hfree) w))
    · exact (hbox (by omega) (by omega) (by omega)).trans (congrArg _ (plainWrite_cmbCmd_of_busy (by exact hbusy) w))
  case boxes =>
    refine ⟨fun hfree hnew => ?_, fun k hfree hkept hseq hwaits hserved hentry => ?_, fun hbusy => ?_, fun hdone => ?_,
      fun hbusy => ?_, fun hfull hqueue => ?_, fun hempty => ?_⟩
    · exact exec_cmdDoorbell_of_new hopen hreset hhost hfree hnew
    · exact exec_cmdDoorbell_of_kept hopen hreset hhost hfree hkept hseq hwaits hserved hentry
    · exact exec_cmdDoorbell_of_busy hopen hreset hbusy
    · rw [exec_cmdRelease_bit hopen hreset]
      exact congrArg Host.Outcome.next (if_pos hdone)
    · rw [exec_cmdRelease_bit hopen hreset]
      exact congrArg Host.Outcome.next (if_neg hbusy)
    · rw [exec_evtAck_bit hopen hreset]
      exact congrArg Host.Outcome.next ((if_pos hfull).trans (refill_of_emptyQueue hqueue))
    · rw [exec_evtAck_bit hopen hreset]
      exact congrArg Host.Outcome.next (if_neg (Bool.eq_false_iff.mp hempty))

end Sys2Proof.Machine
end

section
/-! SUPPORT. An event on its way to the host (06 R225, R226, R228; 07 R262): where it is placed, and the proof of
EventsInOrder. -/

namespace Sys2Proof.Machine

/-! ### The place of an event -/

section
variable {s : State} (code : BitVec 16) (payload : Bytes)

theorem placeEvent_of_empty {i : Mailbox} (h : emptyEvt s.mbx = some i) : placeEvent code payload s =
    { s with mbx := fillEvt i ⟨code, s.mbx.nextSeq, payload⟩ { s.mbx with nextSeq := s.mbx.nextSeq + 1 } } := by
  have hempty : emptyEvt { s.mbx with nextSeq := s.mbx.nextSeq + 1 } = some i := h
  simp only [placeEvent, hempty]

theorem placeEvent_of_full (hfull : emptyEvt s.mbx = none) (hqueue : s.mbx.queue.length < 128) :
    placeEvent code payload s = { s with mbx := { s.mbx with
      nextSeq := s.mbx.nextSeq + 1, queue := s.mbx.queue ++ [⟨code, s.mbx.nextSeq, payload⟩] } } := by
  have hnone : emptyEvt { s.mbx with nextSeq := s.mbx.nextSeq + 1 } = none := hfull
  simp only [placeEvent, hnone, hqueue, if_true]

theorem placeEvent_of_queueFull (hfull : emptyEvt s.mbx = none) (hqueue : 128 ≤ s.mbx.queue.length) :
    placeEvent code payload s = loseEvents 1 { s with mbx := { s.mbx with
      nextSeq := s.mbx.nextSeq + 1, queue := s.mbx.queue.drop 1 ++ [⟨code, s.mbx.nextSeq, payload⟩] } } := by
  have hnone : emptyEvt { s.mbx with nextSeq := s.mbx.nextSeq + 1 } = none := hfull
  simp only [placeEvent, hnone, not_lt.mpr hqueue, if_false]

end

/-! ### The row -/

theorem raiseCode_of_host {s : State} (hstarted : s.hif.startStep ≠ 0) (hhost : s.hif.hostPresent = true) (code : BitVec 16)
    (fields : Bytes) : raiseCode code fields s = placeEvent code (eventHeader s ++ fields) s := by
  have hpresent : hostPresent s = true := by rw [hostPresent, hhost, Bool.true_or]
  rw [raiseCode, if_neg hstarted, if_pos hpresent]

theorem exec_eventRaise_of_host {s : State} {code : BitVec 16} {fields : Bytes} (hlength : fields.length ≤ 492)
    (hruns : baseRuns s = true) (hstarted : s.hif.startStep ≠ 0) (hhost : s.hif.hostPresent = true) :
    exec (.eventRaise code fields) s = .next (placeEvent code (eventHeader s ++ fields) s) := by
  change execEventRaise code fields s = _
  rw [execEventRaise, decide_eq_true hlength, when_true, hruns, ifDo_true, raiseCode_of_host hstarted hhost]

/-! ### The statement -/

/-- Settles O10: the row places the event, in one of the three places. -/
theorem eventsInOrder : Obligations.EventsInOrder := by
  unfold Obligations.EventsInOrder
  intro s code fields hlength hruns hstarted hhost e
  have hraise := exec_eventRaise_of_host (code := code) hlength hruns hstarted hhost
  exact ⟨fun i hempty => hraise.trans (congrArg _ (placeEvent_of_empty code _ hempty)),
    fun hfull hqueue => hraise.trans (congrArg _ (placeEvent_of_full code _ hfull hqueue)),
    fun hfull hqueue => hraise.trans (congrArg _ (placeEvent_of_queueFull code _ hfull hqueue))⟩

end Sys2Proof.Machine
end

section
/-! SUPPORT. The reads of the module, of the keys and of the measurement channels (07 Tables 7.3, 7.4, 7.8 and 7.9): what each
served command answers, and the proofs of ModuleReads and KeyAndChannelReads. -/

namespace Sys2Proof.Machine

/-! ### The module (07 Tables 7.3 and 7.4, R259) -/

section
variable {s : State} {mb : Mailbox} {b : Bytes}

/-- The fields of the application's image and command set in MODULE_VERSION_GET, which the boot ROM answers with 0 and with
its own command set (07 Table 7.3). -/
def applicationFields (boot : Bool) : Bytes :=
  if boot then u8 0 ++ u8 0 ++ u16 0 ++ u16 0x0001
  else u8 4 ++ u8 Config.appMinor.val ++ u16 Config.appBuild.toNat ++ u16 (0x0400 + Config.appMinor.val)

/-- The model chooses between boot ROM and application field by field. -/
theorem applicationFields_eq (boot : Bool) : applicationFields boot =
    u8 (if boot then 0 else 4) ++ u8 (if boot then 0 else Config.appMinor.val) ++ u16 (if boot then 0 else Config.appBuild.toNat) ++
      u16 (if boot then 0x0001 else 0x0400 + Config.appMinor.val) := by
  cases boot <;> rfl

theorem exec_moduleVersionGet_served (h : serves .moduleVersionGet mb b s) :
    exec (.moduleVersionGet mb) s =
      .next (complete mb .ok (u16 0x0048 ++ u8 3 ++ u8 1 ++ beBytes 8 s.fab.deviceId.toNat ++
        u8 (variantCode s.fab.variant) ++ u8 (b1 s.fab.minusE) ++ str "C1A2B0A1B1" ++ u8 2 ++ u8 1 ++
        applicationFields (s.hif.bootServed || !s.hif.fwReady) ++
        u32 s.fab.bootRomVersion.toNat ++ u8 (lifecycle s) ++ u8 ((s.run.running.map Bank.num).getD 0xFF) ++
        u8 (b1 s.hif.trial + 2 * b1 s.hif.legalFault + 4 * b1 s.hif.bootServed) ++ u8 0) (takeUp mb s)) := by
  simp only [applicationFields_eq, ← List.append_assoc]
  exact congrArg Host.Outcome.next (runCommand_served _ rfl h)

theorem exec_commandListGet_served (h : serves .commandListGet mb b s) :
    exec (.commandListGet mb) s = .next (Reply.apply mb (
      if 0x01 ≤ rd b 0 2 ∧ rd b 0 2 ≤ 0x10 then ok (groupMap (rd b 0 2) (servedCodes (takeUp mb s))) (takeUp mb s)
      else if 0x81 ≤ rd b 0 2 ∧ rd b 0 2 ≤ 0x90 then ok (groupMap (rd b 0 2) Ev.codes) (takeUp mb s)
      else refuse .argRange (takeUp mb s))) :=
  congrArg Host.Outcome.next (runCommand_served _ rfl h)

theorem exec_commandListGet_of_commandGroup (h : serves .commandListGet mb b s) (hlo : 0x01 ≤ rd b 0 2) (hhi : rd b 0 2 ≤ 0x10) :
    exec (.commandListGet mb) s =
      .next (complete mb .ok (groupMap (rd b 0 2) (servedCodes (takeUp mb s))) (takeUp mb s)) := by
  rw [exec_commandListGet_served h, if_pos ⟨hlo, hhi⟩]
  rfl

theorem exec_commandListGet_of_eventGroup (h : serves .commandListGet mb b s) (hlo : 0x81 ≤ rd b 0 2) (hhi : rd b 0 2 ≤ 0x90) :
    exec (.commandListGet mb) s = .next (complete mb .ok (groupMap (rd b 0 2) Ev.codes) (takeUp mb s)) := by
  rw [exec_commandListGet_served h, if_neg (by omega), if_pos ⟨hlo, hhi⟩]
  rfl

theorem exec_commandListGet_of_noGroup (h : serves .commandListGet mb b s)
    (hout : rd b 0 2 = 0 ∨ (0x10 < rd b 0 2 ∧ rd b 0 2 < 0x81) ∨ 0x90 < rd b 0 2) :
    exec (.commandListGet mb) s = .next (complete mb .argRange [] (takeUp mb s)) := by
  rw [exec_commandListGet_served h, if_neg (by omega), if_neg (by omega)]
  rfl

theorem exec_moduleStatusGet_served (h : serves .moduleStatusGet mb b s) :
    exec (.moduleStatusGet mb) s =
      .next (complete mb .ok (u8 s.hif.power.toNat ++ u8 s.hif.startStep.toNat ++ u8 (lifecycle s) ++
        u8 (b1 s.hif.legalFault + 2 * b1 s.hif.trial + 4 * b1 s.disp.verified +
          8 * b1 (s.pwr.selfTest == .failed || s.pwr.holdupFailed) + 16 * b1 s.time.valid) ++
        u32 (permitWord s) ++ u8 (latchBits s) ++ u8 0 ++ u16 0 ++ u64 s.time.life.toNat ++ u16 s.legal.epoch.toNat ++ u16 0)
        (takeUp mb s)) :=
  congrArg Host.Outcome.next (runCommand_served _ rfl h)

end

/-- Settles O11: each clause is the lemma of its command. -/
theorem moduleReads : Obligations.ModuleReads := by
  unfold Obligations.ModuleReads
  exact fun mb b s => ⟨exec_moduleVersionGet_served,
    fun h => ⟨exec_commandListGet_of_commandGroup h, exec_commandListGet_of_eventGroup h, exec_commandListGet_of_noGroup h⟩,
    exec_moduleStatusGet_served⟩

/-! ### The keys (07 Table 7.8, R267; 18 Table 18.5, R631, R643) -/

section
variable {s : State} {mb : Mailbox} {b : Bytes}

theorem exec_keySlotStatusGet_served (h : serves .keySlotStatusGet mb b s) :
    exec (.keySlotStatusGet mb) s = .next (complete mb .ok ((List.finRange 64).flatMap (fun i =>
      u8 (keyStateCode s.keys.slots[i].state) ++ u8 s.keys.slots[i].binding ++ u8 s.keys.slots[i].parent ++ u8 0))
      (takeUp mb s)) :=
  congrArg Host.Outcome.next (runCommand_served _ rfl h)

/-- The lifecycle's code by the fuses that read blown (18 R631). -/
theorem lifecycle_eq (s : State) : lifecycle s =
    if s.keys.retired ≠ 0 then 3 else if s.keys.field ≠ 0 then 2 else if s.keys.provisioned ≠ 0 then 1 else 0 := by
  simp only [lifecycle, bne_iff_ne]

theorem exec_lifecycleGet_served (h : serves .lifecycleGet mb b s) :
    exec (.lifecycleGet mb) s = .next (complete mb .ok (u8 (lifecycle s) ++ u8 (debugCode (lifecycle s)) ++ u16 0 ++
      u32 s.keys.counter.toNat ++ beBytes 8 s.fab.deviceId.toNat) (takeUp mb s)) :=
  congrArg Host.Outcome.next (runCommand_served _ rfl h)

/-- The certificate that a DEVICE_CERT_GET names (07 R267). -/
abbrev certNamed (b : Bytes) (s : State) : Bytes := s.fab.certs.getD (rd b 0 2) []

theorem exec_deviceCertGet_served (h : serves .deviceCertGet mb b s) :
    exec (.deviceCertGet mb) s = .next (Reply.apply mb
      (guards [(decide (2 < rd b 0 2), .argRange), (decide ((certNamed b s).length < rd b 4 4), .argRange)] (takeUp mb s)
        (ok (u32 (certNamed b s).length ++ u32 (rd b 4 4) ++ ((certNamed b s).drop (rd b 4 4)).take 504) (takeUp mb s)))) :=
  congrArg Host.Outcome.next (runCommand_served _ rfl h)

theorem exec_deviceCertGet_of_noCertificate (h : serves .deviceCertGet mb b s) (hnum : 2 < rd b 0 2) :
    exec (.deviceCertGet mb) s = .next (complete mb .argRange [] (takeUp mb s)) := by
  rw [exec_deviceCertGet_served h, decide_eq_true hnum, guards_cons_true]
  rfl

theorem exec_deviceCertGet_of_beyond (h : serves .deviceCertGet mb b s) (hnum : rd b 0 2 ≤ 2)
    (hoffset : (certNamed b s).length < rd b 4 4) :
    exec (.deviceCertGet mb) s = .next (complete mb .argRange [] (takeUp mb s)) := by
  rw [exec_deviceCertGet_served h, decide_eq_false (Nat.not_lt.mpr hnum), decide_eq_true hoffset, guards_cons_false,
    guards_cons_true]
  rfl

theorem exec_deviceCertGet_of_within (h : serves .deviceCertGet mb b s) (hnum : rd b 0 2 ≤ 2)
    (hoffset : rd b 4 4 ≤ (certNamed b s).length) :
    exec (.deviceCertGet mb) s = .next (complete mb .ok (u32 (certNamed b s).length ++ u32 (rd b 4 4) ++
      ((certNamed b s).drop (rd b 4 4)).take 504) (takeUp mb s)) := by
  rw [exec_deviceCertGet_served h, decide_eq_false (Nat.not_lt.mpr hnum), decide_eq_false (Nat.not_lt.mpr hoffset),
    guards_cons_false, guards_cons_false, guards_nil]
  rfl

theorem exec_measurementLogGet_served (h : serves .measurementLogGet mb b s) :
    exec (.measurementLogGet mb) s = .next (complete mb .ok (u32 3 ++ u32 0 ++ padTo 48 s.key.boot.metrology ++
      padTo 48 s.key.boot.safety ++ padTo 48 s.key.boot.application) (takeUp mb s)) :=
  congrArg Host.Outcome.next (runCommand_served _ rfl h)

end

/-! ### The channels (07 Table 7.9; 08 R287) -/

section
variable {s : State} {mb : Mailbox} {b : Bytes}

theorem exec_channelStatusGet_served (h : serves .channelStatusGet mb b s) :
    exec (.channelStatusGet mb) s = .next (complete mb .ok ((List.finRange 48).flatMap (fun i =>
      u8 (modeCode s.ch[i].cfg.mode) ++ u8 (b1 s.ch[i].sat + 2 * b1 (isOut s.ch[i]) + 4 * b1 (decide (0 < s.ch[i].staleFrames)) +
        8 * b1 (decide (0 < s.ch[i].settle)) + 16 * b1 (darnedNow s i) + 32 * b1 s.ch[i].cfg.woven) ++
        u8 (rangeCode s.ch[i].cfg.range) ++ u8 0)) (takeUp mb s)) :=
  congrArg Host.Outcome.next (runCommand_served _ rfl h)

theorem exec_channelSatClear_served (h : serves .channelSatClear mb b s) :
    exec (.channelSatClear mb) s = .next (complete mb .ok []
      (forEach ((List.finRange 48).filter (fun i => (rd b 0 8).testBit i.val))
        (fun i => modCh i (fun c => { c with sat := false })) (takeUp mb s))) :=
  congrArg Host.Outcome.next (runCommand_served _ rfl h)

/-- The bytes of a calibration entry that tell of the spare modulator: its state and the channel that it covers. -/
def spareFields (k : Island) : Spare → Bytes
  | .idle => u8 0 ++ u8 0
  | .covering m => u8 1 ++ u8 (channelOf k m.val).val
  | .faulty => u8 2 ++ u8 0

/-- CALIBRATION_STATUS_GET's entry of an island. -/
def calibrationEntry (k : Island) (x : Isl) : Bytes :=
  u8 k.val ++ spareFields k x.spare ++ u8 x.deferrals.toNat ++ u64 x.lastCal.toNat ++ u32 x.calibrations.toNat

theorem exec_calibrationStatusGet_served (h : serves .calibrationStatusGet mb b s) :
    exec (.calibrationStatusGet mb) s =
      .next (complete mb .ok ((List.finRange 6).flatMap (fun k => calibrationEntry k s.isl[k])) (takeUp mb s)) := by
  refine (congrArg Host.Outcome.next (runCommand_served _ rfl h)).trans ?_
  refine congrArg (fun f => Host.Outcome.next (complete mb .ok ((List.finRange 6).flatMap f) (takeUp mb s))) (funext fun k => ?_)
  change _ = calibrationEntry k (takeUp mb s).isl[k]
  rw [calibrationEntry]
  cases hspare : (takeUp mb s).isl[k].spare <;> simp only [hspare, spareFields, List.append_assoc]

end

/-! ### SAMPLES_READ (07 Table 7.9; 01 R33) -/

section
variable {s : State} {mb : Mailbox} {b : Bytes}

/-- What SAMPLES_READ answers: the LIFE of the first word, and the newest words of the application port, oldest first. -/
def sampleBytes (i : Channel) (p : Delivery) (count : Nat) : Bytes :=
  u64 (sampleLife p.desc i (p.desc.count.toNat + 1 - count)) ++ (portWords p count).flatMap (fun w => u32 w.toNat)

theorem sampleBytes_eq (i : Channel) (p : Delivery) (count : Nat) : sampleBytes i p count =
    u64 (sampleLife p.desc i (p.desc.count.toNat + 1 - count)) ++ (List.range count).reverse.flatMap (fun k =>
      u32 (p.ring.getD ((p.desc.count - 1 - BitVec.ofNat 32 k).toNat % 256) 0).toNat) := by
  rw [sampleBytes, portWords, List.flatMap_map]
  rfl

theorem exec_samplesRead_of_beyond (h : serves .samplesRead mb b s) (hch : 47 < rd b 0 1) :
    exec (.samplesRead mb) s = .next (complete mb .argRange [] (takeUp mb s)) := by
  change execSamplesRead mb s = _
  rw [execSamplesRead, runCommand_served _ rfl h]
  simp only [decide_eq_false (Nat.not_lt.mpr hch), decide_eq_true hch, Bool.false_and, guards_cons_false, guards_cons_true]
  rfl

section
variable (h : serves .samplesRead mb b s) {i : Channel} (hch : rd b 0 1 = i.val)
include h hch

/-- The checks of a SAMPLES_READ that names a channel, in order. -/
theorem exec_samplesRead_of_channel : exec (.samplesRead mb) s = .next (Reply.apply mb
    (guards [(!appVisible s i, .notPermitted), (rd b 2 2 == 0 || decide (124 < rd b 2 2), .argRange),
        (isOut s.ch[i], .channelOos)] (takeUp mb s)
      (ok (sampleBytes i s.ch[i].appPort (rd b 2 2)) (takeUp mb s)))) := by
  change execSamplesRead mb s = _
  rw [execSamplesRead, runCommand_served _ rfl h]
  simp only [hch, Fin.ofNat_val_eq_self, i.isLt, decide_true, Bool.true_and,
    decide_eq_false (Nat.not_lt.mpr (Nat.le_of_lt_succ i.isLt))]
  have htaken : appVisible (takeUp mb s) i = appVisible s i := rfl
  rw [htaken]
  cases appVisible s i <;> rfl

theorem exec_samplesRead_of_invisible (hvisible : appVisible s i = false) :
    exec (.samplesRead mb) s = .next (complete mb .notPermitted [] (takeUp mb s)) := by
  rw [exec_samplesRead_of_channel h hch, hvisible, Bool.not_false, guards_cons_true]
  rfl

theorem exec_samplesRead_of_count (hvisible : appVisible s i = true) (hcount : rd b 2 2 = 0 ∨ 124 < rd b 2 2) :
    exec (.samplesRead mb) s = .next (complete mb .argRange [] (takeUp mb s)) := by
  have hcheck : (rd b 2 2 == 0 || decide (124 < rd b 2 2)) = true := by simpa using hcount
  rw [exec_samplesRead_of_channel h hch, hvisible, hcheck, Bool.not_true, guards_cons_false, guards_cons_true]
  rfl

/-- A visible channel and a count in range leave the channel's service to decide. -/
theorem exec_samplesRead_of_inRange (hvisible : appVisible s i = true) (hlo : 1 ≤ rd b 2 2) (hhi : rd b 2 2 ≤ 124) :
    exec (.samplesRead mb) s = .next (Reply.apply mb (guards [(isOut s.ch[i], .channelOos)] (takeUp mb s)
      (ok (sampleBytes i s.ch[i].appPort (rd b 2 2)) (takeUp mb s)))) := by
  have hcheck : (rd b 2 2 == 0 || decide (124 < rd b 2 2)) = false := by
    rw [decide_eq_false (Nat.not_lt.mpr hhi), beq_false_of_ne (Nat.one_le_iff_ne_zero.mp hlo), Bool.or_false]
  rw [exec_samplesRead_of_channel h hch, hvisible, hcheck, Bool.not_true, guards_cons_false, guards_cons_false]

theorem exec_samplesRead_of_isOut (hvisible : appVisible s i = true) (hlo : 1 ≤ rd b 2 2) (hhi : rd b 2 2 ≤ 124)
    (hservice : isOut s.ch[i] = true) : exec (.samplesRead mb) s = .next (complete mb .channelOos [] (takeUp mb s)) := by
  rw [exec_samplesRead_of_inRange h hch hvisible hlo hhi, hservice, guards_cons_true]
  rfl

theorem exec_samplesRead_of_notOut (hvisible : appVisible s i = true) (hlo : 1 ≤ rd b 2 2) (hhi : rd b 2 2 ≤ 124)
    (hservice : isOut s.ch[i] = false) :
    exec (.samplesRead mb) s = .next (complete mb .ok (sampleBytes i s.ch[i].appPort (rd b 2 2)) (takeUp mb s)) := by
  rw [exec_samplesRead_of_inRange h hch hvisible hlo hhi, hservice, guards_cons_false, guards_nil]
  rfl

end

end

/-! ### The statement -/

/-- Settles O25: each clause is the lemma of its command. -/
theorem keyAndChannelReads : Obligations.KeyAndChannelReads := by
  unfold Obligations.KeyAndChannelReads
  refine ⟨fun mb b s => ⟨exec_keySlotStatusGet_served, ?lifecycle, fun h => ?certificate, exec_measurementLogGet_served⟩,
    fun mb b s => ⟨exec_channelStatusGet_served, exec_channelSatClear_served, fun h i hch => ?samples,
      exec_samplesRead_of_beyond, exec_calibrationStatusGet_served⟩⟩
  case lifecycle =>
    intro h
    rw [← lifecycle_eq]
    exact exec_lifecycleGet_served h
  case certificate =>
    exact ⟨exec_deviceCertGet_of_noCertificate h,
      fun hnum => ⟨exec_deviceCertGet_of_beyond h hnum, exec_deviceCertGet_of_within h hnum⟩⟩
  case samples =>
    rw [← sampleBytes_eq]
    exact ⟨exec_samplesRead_of_invisible h hch, exec_samplesRead_of_count h hch, exec_samplesRead_of_isOut h hch,
      exec_samplesRead_of_notOut h hch⟩

end Sys2Proof.Machine
end

section
/-! SUPPORT. The islands' frames, links, comparators and modulators (01 R57; 08 R277, R296, R297, R305 to R308, Table 8.10): the
state that each row leaves, and the proof of IslandFramesAndLinks from them. -/

namespace Sys2Proof.Machine

section
variable {s : State} {k : Island}

/-! ### The frames of a linked island (R277, R305) -/

section
variable (hpowered : s.isl[k].powered = true) (hup : s.isl[k].linkUp = true)
include hpowered hup

theorem powered_and_linkUp : (s.isl[k].powered && s.isl[k].linkUp) = true := by
  rw [hpowered, hup, Bool.and_true]

theorem exec_islandFrame_of_bad {f : BitVec 40} (loads : BitVec 9) (hbad : frameGood s.isl[k].lastStatus f = false) :
    exec (.islandFrame k f loads) s = .next (missFrame k f s) := by
  change execIslandFrame k f loads s = _
  rw [execIslandFrame, hbad]
  exact next_ifDo_of_true (powered_and_linkUp hpowered hup) _ _

theorem exec_islandFrame_of_good {f : BitVec 40} (loads : BitVec 9) (hgood : frameGood s.isl[k].lastStatus f = true) :
    exec (.islandFrame k f loads) s = .next (takeFrame k f loads s) := by
  change execIslandFrame k f loads s = _
  rw [execIslandFrame, hgood]
  exact next_ifDo_of_true (powered_and_linkUp hpowered hup) _ _

/-! ### The rows of a linked island (01 R57; R296, R307) -/

theorem exec_islandLinkLoss_of_up : exec (.islandLinkLoss k) s = .next (loseLink k s) :=
  next_ifDo_of_true (powered_and_linkUp hpowered hup) _ _

theorem exec_comparatorTrip_of_up {i : Channel} (high : Bool) (hi : islandOf i = k) :
    exec (.comparatorTrip i high) s = .next (comparatorTrip i high (modIsl k (fun x => { x with
      cmpBits := x.cmpBits ||| BitVec.ofNat 16 (2 ^ (2 * (i.val % 8) + b1 (!high))) }) s)) := by
  subst hi
  exact next_ifDo_of_true (powered_and_linkUp hpowered hup) _ _

theorem exec_modulatorFailed_of_working {m : Fin 9} (hworks : s.isl[k].failed.contains m = false) :
    exec (.modulatorFailed k m) s = .next (modulatorFails k m s) :=
  next_ifDo_of_true (by rw [powered_and_linkUp hpowered hup, hworks]; rfl) _ _

end

/-- The fifth failed frame in a row loses the link (R305, 01 R57). -/
theorem missFrame_eq (f : BitVec 40) : missFrame k f s =
    let t := forEach (channelsOf k) markStale (feedIsland k (fun _ => 0) (modIsl k (fun x => { x with
      failRun := x.failRun + 1, lastStatus := statusAfter x.lastStatus f }) s))
    if s.isl[k].failRun < 4 then t else loseLink k t := by
  rw [missFrame]
  by_cases hrun : s.isl[k].failRun < 4
  · rw [decide_eq_false (Nat.not_le_of_lt hrun), if_pos hrun, ifDo_false]
  · rw [decide_eq_true (Nat.le_of_not_lt hrun), if_neg hrun, ifDo_true]

/-! ### A failed modulator (R307) -/

theorem modulatorFails_of_m8 : modulatorFails k 8 s =
    forEach s.isl[k].covered (fun n => takeOut (channelOf k n.val) 1) (modIsl k (fun x => { x with spare := .faulty })
      (abandonDarning k (modIsl k (fun x => { x with failed := x.failed ++ [8] }) s))) :=
  rfl

/-- An idle M8 covers the channel. -/
theorem modulatorFails_of_idleSpare {m : Fin 9} (hm : m ≠ 8) (hspare : s.isl[k].spare = .idle) (hdarning : s.isl[k].darning = none)
    (htest : s.isl[k].selfTest = none) : modulatorFails k m s =
      markStale (channelOf k m.val) (modIsl k (fun x => { x with
        spare := .covering (Fin.ofNat 8 m.val), covered := x.covered ++ [Fin.ofNat 8 m.val], darning := none })
        (modIsl k (fun x => { x with failed := x.failed ++ [m] }) s)) := by
  rw [modulatorFails, if_neg hm, if_pos (.inl ⟨hspare, by rw [hdarning]; rfl, by rw [htest]; rfl⟩)]

theorem modulatorFails_of_faultySpare {m : Fin 9} (hm : m ≠ 8) (hspare : s.isl[k].spare = .faulty) : modulatorFails k m s =
    takeOut (channelOf k m.val) 1 (modIsl k (fun x => { x with failed := x.failed ++ [m] }) s) := by
  have hcover : ¬ (s.isl[k].spare = .idle ∧ s.isl[k].darning.isNone ∧ s.isl[k].selfTest.isNone ∨
      s.isl[k].spare = .covering (Fin.ofNat 8 m.val)) := by
    rw [hspare]
    simp
  rw [modulatorFails, if_neg hm, if_neg hcover]

/-! ### A link that is down (01 R57) -/

theorem exec_islandRestartRetry_of_down (hpowered : s.isl[k].powered = true) (hdown : s.isl[k].linkUp = false) :
    exec (.islandRestartRetry k) s =
      .next (modIsl k (fun x => { x with restarting := true, failRun := 0, lastStatus := none }) s) :=
  next_ifDo_of_true (by rw [hpowered, hdown]; rfl) _ _

theorem exec_islandLinkResync_of_down (hpowered : s.isl[k].powered = true) (hdown : s.isl[k].linkUp = false) :
    exec (.islandLinkResync k) s = .next (returnAll (channelsOf k) 1
      (modIsl k (fun x => { x with linkUp := true, restarting := false, failRun := 0, lastStatus := none }) s)) :=
  next_ifDo_of_true (by rw [hpowered, hdown]; rfl) _ _

/-! ### The open-input test (R308) -/

theorem exec_openInputTest_of_divider {i : Channel} (bad : Bool) (h : s.ch[i].cfg.range = .divider) :
    exec (.openInputTest i bad) s = .next s :=
  congrArg Host.Outcome.next (if_pos h)

theorem exec_openInputTest_of_lowVoltage {i : Channel} (bad : Bool) (h : s.ch[i].cfg.range ≠ .divider) :
    exec (.openInputTest i bad) s = .next (if bad then takeOut i 2 s else returnAll [i] 2 s) :=
  congrArg Host.Outcome.next (if_neg h)

end

/-! ### The statement -/

/-- Settles O28: each clause is the lemma of its row; a lost link and a good frame leave what `loseLink` and `takeFrame` spell. -/
theorem islandFramesAndLinks : Obligations.IslandFramesAndLinks := by
  unfold Obligations.IslandFramesAndLinks
  refine fun s k => ⟨fun hpowered hup => ⟨?badFrame, ?goodFrame, exec_islandLinkLoss_of_up hpowered hup, ?comparator, ?modulator⟩,
    fun hpowered hdown => ⟨exec_islandRestartRetry_of_down hpowered hdown, exec_islandLinkResync_of_down hpowered hdown⟩,
    fun i => exec_openInputTest_of_divider, ?lowVoltage, fun i => ⟨rfl, rfl⟩⟩
  case badFrame =>
    intro f loads hbad
    rw [exec_islandFrame_of_bad hpowered hup loads hbad, missFrame_eq]
    rfl
  case goodFrame => exact fun f loads => exec_islandFrame_of_good hpowered hup loads
  case comparator => exact fun i high => exec_comparatorTrip_of_up hpowered hup high
  case modulator =>
    intro m hworks
    have hfails := exec_modulatorFailed_of_working hpowered hup hworks
    refine ⟨?m8, fun hm hspare hdarning htest => ?idle, fun hm hspare => ?faulty⟩
    case m8 =>
      rintro rfl
      exact hfails.trans (congrArg _ modulatorFails_of_m8)
    case idle => exact hfails.trans (congrArg _ (modulatorFails_of_idleSpare hm hspare hdarning htest))
    case faulty => exact hfails.trans (congrArg _ (modulatorFails_of_faultySpare hm hspare))
  case lowVoltage =>
    exact fun i hrange => ⟨exec_openInputTest_of_lowVoltage true hrange, exec_openInputTest_of_lowVoltage false hrange⟩

end Sys2Proof.Machine
end

section
/-! SUPPORT. Darning, M8's own calibration and the comparators' self-test (05 R191, R199; 08 R293, R294, R298, Table 8.8; 09 R326;
12 R462): the state that each row leaves, and the proof of Darning from them. -/

namespace Sys2Proof.Machine

/-! ### An island changed twice -/

theorem vmod_vmod {α : Type} {n : Nat} (v : Vector α n) (i : Fin n) (f g : α → α) :
    vmod (vmod v i f) i g = vmod v i (fun x => g (f x)) := by
  simp [vmod]

theorem modIsl_modIsl (k : Island) (f g : Isl → Isl) (s : State) : modIsl k g (modIsl k f s) = modIsl k (fun x => g (f x)) s := by
  rw [modIsl, modIsl_isl, vmod_vmod]
  rfl

theorem modIsl_congr {k : Island} {f g : Isl → Isl} {s : State} (h : f s.isl[k] = g s.isl[k]) : modIsl k f s = modIsl k g s := by
  rw [modIsl, vmod_congr h]
  rfl

section
variable {s : State} {k : Island}

/-! ### A calibration that is due (05 R191, R199) -/

/-- The rotation past a modulator whose calibration fell due at a LIFE, started or deferred (05 R191). -/
def nextTurn (m : Fin 8) (now : Life) (x : Isl) : Isl :=
  { x with calNext := m + 1, calAt := vmod x.calAt m (fun _ => some now), spareDone := x.spareDone && m != 7 }

section
variable {m : Fin 8} (hdue : calDue s k m = true)
include hdue

theorem exec_calibrationDue_of_deferred {r : Nat} (hdefer : deferReason s k m = some r) :
    exec (.calibrationDue k m) s = .next (raise .calDeferred (u8 k.val ++ u8 r) (modIsl k (fun x =>
      { nextTurn m s.time.life x with deferrals := satAdd 8 x.deferrals 1 }) s)) := by
  refine (next_ifDo_of_true hdue _ _).trans ?_
  dsimp only
  rw [hdefer]
  exact congrArg (fun t => Host.Outcome.next (raise _ _ t)) (modIsl_modIsl ..)

theorem exec_calibrationDue_of_free (hfree : deferReason s k m = none) :
    exec (.calibrationDue k m) s = .next (modSlotChain (spareSlot k) flushSlot (modIsl k (fun x =>
      { nextTurn m s.time.life x with darning := some ⟨m, .compare, [], 0⟩, spare := .covering m }) s)) := by
  refine (next_ifDo_of_true hdue _ _).trans ?_
  dsimp only
  rw [hfree]
  exact congrArg (fun t => Host.Outcome.next (modSlotChain _ flushSlot t)) (modIsl_modIsl ..)

end

/-! ### Whether two streams agree (R294) -/

/-- At step 3 the channel delivers Mn's stream. -/
theorem streamsAgree_own_iff {l : List (Rat × Rat)} : streamsAgree false l = true ↔ ∀ p ∈ l, |p.1 - p.2| ≤ (1 + |p.1|) / 2000 := by
  simp only [streamsAgree, List.all_eq_true, decide_eq_true_eq, Bool.false_eq_true, if_false]

/-- At step 7 the channel delivers M8's stream. -/
theorem streamsAgree_spare_iff {l : List (Rat × Rat)} : streamsAgree true l = true ↔ ∀ p ∈ l, |p.1 - p.2| ≤ (1 + |p.2|) / 2000 := by
  simp only [streamsAgree, List.all_eq_true, decide_eq_true_eq, if_true]

/-! ### The steps of a handover (R293, R294, Table 8.8) -/

section
variable {d : Sys2Proof.Darning} (hd : s.isl[k].darning = some d)
include hd

theorem exec_darningCompare_of_few (hfew : d.pairs.length < 256) : exec (.darningCompare k) s = .next s := by
  change execDarningCompare k s = _
  simp only [execDarningCompare, hd, if_pos hfew]

/-- The comparison of step 3 judged. -/
theorem exec_darningCompare_of_compare (hall : 256 ≤ d.pairs.length) (hstep : d.step = .compare) :
    exec (.darningCompare k) s = .next (if streamsAgree false d.pairs
      then modIsl k (fun x => { x with darning := some { d with step := .blend, pairs := [] }, suspect := none }) s
      else modIsl k (fun x => { x with darning := none, suspect := some d.m, spare := spareAfterFail x.suspect d.m }) s) := by
  change execDarningCompare k s = _
  have hback : (DarnStep.compare == .compareBack) = false := rfl
  simp only [execDarningCompare, hd, if_neg (Nat.not_lt_of_le hall), hstep, hback]
  cases streamsAgree false d.pairs <;> rfl

/-- The comparison of step 7 judged. -/
theorem exec_darningCompare_of_compareBack (hall : 256 ≤ d.pairs.length) (hstep : d.step = .compareBack) :
    exec (.darningCompare k) s = .next (if streamsAgree true d.pairs
      then modIsl k (fun x => { x with darning := some { d with step := .blendBack, pairs := [] } }) s
      else modIsl k (fun x => { x with
        darning := none, covered := x.covered ++ [d.m], failed := x.failed ++ [Fin.ofNat 9 d.m.val] }) s) := by
  change execDarningCompare k s = _
  have hback : (DarnStep.compareBack == .compareBack) = true := rfl
  simp only [execDarningCompare, hd, if_neg (Nat.not_lt_of_le hall), hstep, hback]
  cases streamsAgree true d.pairs <;> rfl

theorem exec_darningReferenceDone_of_reference (hstep : d.step = .reference) (o g : Int) :
    exec (.darningReferenceDone k o g) s = .next (modSlotChain (slotOf (channelOf k d.m.val)) flushSlot (modIsl k (fun x => { x with
      darning := some { d with step := .compareBack, pairs := [] }
      coef := vmod x.coef (Fin.ofNat 9 d.m.val) (fun _ => ⟨o, g⟩) }) s)) := by
  change execDarningReferenceDone k o g s = _
  rw [execDarningReferenceDone, hd]
  exact next_ifDo_of_true (by rw [hstep]; rfl) _ _

theorem exec_darningRelease_of_blended (hstep : d.step = .blendBack) (hweight : d.weight = 0) :
    exec (.darningRelease k) s =
      .next (calibrated k (Fin.ofNat 9 d.m.val) (modIsl k (fun x => { x with darning := none, spare := .idle }) s)) := by
  change execDarningRelease k s = _
  rw [execDarningRelease, hd]
  exact next_ifDo_of_true (by rw [hstep, hweight]; rfl) _ _

end

/-! ### A calibration complete (09 R326) -/

section
variable (k) (n : Fin 9) (s : State)

theorem calibrated_isl : (calibrated k n s).isl[k] = { s.isl[k] with
    calLife := vmod s.isl[k].calLife n (fun _ => s.time.life)
    calibrated := if s.isl[k].calibrated.contains n then s.isl[k].calibrated else s.isl[k].calibrated ++ [n]
    lastCal := s.time.life, calibrations := s.isl[k].calibrations + 1 } :=
  vmod_get_self _ _ _

theorem calibrated_calLife : ((calibrated k n s).isl[k]).calLife[n] = s.time.life := by
  rw [calibrated_isl]
  exact vmod_get_self _ _ _

theorem calibrated_coef : ((calibrated k n s).met.coef[k])[n] = (s.isl[k]).coef[n] := by
  have hcoef : (calibrated k n s).met.coef[k] = vmod s.met.coef[k] n (fun _ => (calibrated k n s).isl[k].coef[n]) := vmod_get_self _ _ _
  rw [hcoef, calibrated_isl]
  exact vmod_get_self _ _ _

theorem calibrated_calibrations : ((calibrated k n s).isl[k]).calibrations = (s.isl[k]).calibrations + 1 := by
  rw [calibrated_isl]

end

/-! ### M8's own calibration (R294, R295) -/

theorem exec_m8SelfCalibration_of_idle (hspare : s.isl[k].spare = .idle) (hdarning : s.isl[k].darning = none)
    (htest : s.isl[k].selfTest = none) (hup : s.isl[k].linkUp = true) (hdone : s.isl[k].spareDone = false) (o g : Int) (pass : Bool) :
    exec (.m8SelfCalibration k o g pass) s = .next (if pass
      then calibrated k 8 (modIsl k (fun x => { x with coef := vmod x.coef 8 (fun _ => ⟨o, g⟩), spareDone := true }) s)
      else modIsl k (fun x => { x with spare := .faulty }) s) :=
  next_ifDo_of_true (by rw [hspare, hdarning, htest, hup, hdone]; rfl) _ _

/-! ### The comparators' self-test (R298, 12 R462) -/

theorem selfTestNext_of_none {x : Isl} (hpowered : x.powered = true) (hup : x.linkUp = true) (hdarning : x.darning = none)
    (htest : x.selfTest = none) : selfTestNext x = some 0 := by
  rw [selfTestNext, hpowered, hup, hdarning, htest]
  rfl

/-- The self-test waits for a handover. -/
theorem selfTestNext_of_darning {x : Isl} (hdarning : x.darning ≠ none) : selfTestNext x = none := by
  rw [selfTestNext, Option.isSome_iff_ne_none.mpr hdarning, Bool.or_true]
  rfl

theorem exec_comparatorSelftest_of_notNext {n : Fin 8} (h : selfTestNext s.isl[k] ≠ some n.val) :
    exec (.comparatorSelftest k (.takeUp n)) s = .next s :=
  congrArg Host.Outcome.next (if_pos h)

section
variable (hnext : selfTestNext s.isl[k] = some 0)
include hnext

theorem exec_comparatorSelftest_of_faultySpare (hspare : s.isl[k].spare = .faulty) : exec (.comparatorSelftest k (.takeUp 0)) s =
    .next (modIsl k (fun x => { x with selfTestMissed := true, selfTest := none }) s) :=
  congrArg Host.Outcome.next ((if_neg (not_not_intro hnext)).trans (if_pos hspare))

theorem exec_comparatorSelftest_of_begin (hspare : s.isl[k].spare ≠ .faulty) (htest : s.isl[k].selfTest = none) :
    exec (.comparatorSelftest k (.takeUp 0)) s = .next (modIsl k (fun x => { x with selfTest := some ⟨0, true, false⟩ }) s) := by
  refine congrArg Host.Outcome.next (((if_neg (not_not_intro hnext)).trans (if_neg hspare)).trans (modIsl_congr ?_))
  rw [htest]
  rfl

end

theorem exec_comparatorSelftest_outcomes {t : PairTest} (htest : s.isl[k].selfTest = some t) (hunder : t.under = true) (a b c : Bool) :
    exec (.comparatorSelftest k (.outcomes a b c)) s = .next (pairTestOutcome k t (a && b && c) s) := by
  change execComparatorSelftest k (.outcomes a b c) s = _
  simp only [execComparatorSelftest, htest]
  exact next_ifDo_of_true hunder _ _

theorem pairTestOutcome_of_wrong (t : PairTest) : pairTestOutcome k t false s =
    safTrip (allDrivers.filter (chMapped s .cmpDrivers (channelOf k t.m.val))) causeSelfTest (modIsl k (fun x => { x with
      selfTest := if t.m.val < 7 then some ⟨t.m, false, true⟩ else none, selfTestFailed := true }) s) := by
  have hwrong : (t.wrong || !false) = true := Bool.or_true _
  have hlast : (t.m == 7 && !true) = false := Bool.and_false _
  rw [pairTestOutcome, hwrong, hlast, ifDo_false, Bool.not_false, ifDo_true]
  exact congrArg (safTrip _ _) (modIsl_modIsl ..)

theorem pairTestOutcome_of_right {t : PairTest} (hm : t.m.val < 7) : pairTestOutcome k t true s =
    modIsl k (fun x => { x with selfTest := some { t with under := false } }) s := by
  have hmore : (t.m == 7) = false := beq_false_of_ne (fun h => by rw [h] at hm; exact absurd hm (by decide))
  have hwrong : (t.wrong || !true) = t.wrong := Bool.or_false _
  rw [pairTestOutcome, hwrong, hmore, if_pos hm]
  rfl

/-- The last channel's pair was right, and none before it wrong. -/
theorem pairTestOutcome_of_passed {t : PairTest} (hm : t.m = 7) (hnone : t.wrong = false) : pairTestOutcome k t true s =
    modIsl k (fun x => { x with
      selfTest := none, selfTestLife := some s.time.life, selfTestFailed := false, selfTestMissed := false }) s := by
  rw [pairTestOutcome, hnone, hm]
  exact modIsl_modIsl ..

end

/-! ### The statement -/

/-- Settles O30: each clause is the lemma of its row, or of the judgement that its row makes. -/
theorem darning : Obligations.Darning := by
  unfold Obligations.Darning
  refine fun s k m => ⟨fun hdue => ⟨fun r => exec_calibrationDue_of_deferred hdue, exec_calibrationDue_of_free hdue⟩, ?handover,
    fun n => ⟨calibrated_calLife k n s, calibrated_coef k n s, calibrated_calibrations k n s⟩, ?ownCalibration, ?takeUp,
    fun hdarning n => exec_comparatorSelftest_of_notNext (by rw [selfTestNext_of_darning hdarning]; simp), ?outcomes⟩
  case handover =>
    rintro d hd rfl
    refine ⟨exec_darningCompare_of_few hd, fun hall hstep => ?compare, fun hall hstep => ?compareBack,
      exec_darningReferenceDone_of_reference hd, exec_darningRelease_of_blended hd⟩
    case compare =>
      have hjudged := exec_darningCompare_of_compare hd hall hstep
      refine ⟨fun hagree => ?agree, fun ⟨p, hp, hdiffer⟩ => ?differ⟩
      case agree => rw [hjudged, if_pos (streamsAgree_own_iff.mpr hagree)]
      case differ =>
        rw [hjudged, if_neg (fun h => hdiffer (streamsAgree_own_iff.mp h p hp))]
        refine congrArg Host.Outcome.next (modIsl_congr ?_)
        cases s.isl[k].suspect <;> rfl
    case compareBack =>
      have hjudged := exec_darningCompare_of_compareBack hd hall hstep
      refine ⟨fun hagree => ?agree, fun ⟨p, hp, hdiffer⟩ => ?differ⟩
      case agree => rw [hjudged, if_pos (streamsAgree_spare_iff.mpr hagree)]
      case differ =>
        rw [hjudged, if_neg (fun h => hdiffer (streamsAgree_spare_iff.mp h p hp))]
  case ownCalibration =>
    intro hspare hdarning htest hup hdone o g
    have hcalibrates := exec_m8SelfCalibration_of_idle hspare hdarning htest hup hdone o g
    exact ⟨hcalibrates true, hcalibrates false⟩
  case takeUp =>
    intro hpowered hup hdarning htest
    have hnext := selfTestNext_of_none hpowered hup hdarning htest
    exact ⟨exec_comparatorSelftest_of_faultySpare hnext, fun hspare => exec_comparatorSelftest_of_begin hnext hspare htest⟩
  case outcomes =>
    intro t htest hunder
    have houtcome := exec_comparatorSelftest_outcomes htest hunder
    refine ⟨fun a b c hwrong => ?wrong, fun hm => ?right, fun hm hnone => ?passed⟩
    case wrong => rw [houtcome, hwrong, pairTestOutcome_of_wrong]
    case right => exact (houtcome true true true).trans (congrArg _ (pairTestOutcome_of_right hm))
    case passed => exact (houtcome true true true).trans (congrArg _ (pairTestOutcome_of_passed hm hnone))

end Sys2Proof.Machine
end

section
/-! SUPPORT. The rows of metrology (09 R318, R320, R323, R327, R330, R331, R335, R338, R341, R342, R344): the state that each row
leaves where its conditions hold, and the proof of MeteringRows from them. -/

namespace Sys2Proof.Machine

@[simp] theorem outletOfSel_selOfOutlet (o : Outlet) : outletOfSel (selOfOutlet o) = some o := by cases o <;> rfl

/-- The newest words of a selector's channels. -/
abbrev newestWords (s : State) (sel : Selector) : List Word32 := (selChannels (selProfile s sel)).map (newest s)

section
variable {s : State}

/-! ### Samples and periods (R318, R320, R327, R331) -/

theorem exec_metSampleAccumulate_of_good {sel : Selector} (hruns : s.met.running = true) (hperiod : s.met.waitPeriod = false)
    (hwired : isWired (selProfile s sel) = true) (hgood : (newestWords s sel).any wordBad = false)
    (hservice : (selChannels (selProfile s sel)).any (fun i => s.ch[i].service != .inService) = false)
    (hheld : (s.met.acc.get sel).held = false) :
    exec (.metSampleAccumulate sel) s =
      .next (endOverload sel (accumulate sel (newRow s (selProfile s sel)) ((newestWords s sel).any wordSat) s)) := by
  refine (next_ifDo_of_true (by rw [hruns, hperiod, hwired]; rfl) _ _).trans (congrArg Host.Outcome.next (if_neg ?_))
  rw [hgood, hservice, hheld]
  decide

/-- What the end of a period that MET accumulated leaves (R320, R327). -/
def closedPeriod (s : State) : State :=
  let t := publishWindow (testPeriod (splitPeriod (forEach allSelectors judgeAbsent s)))
  let v := forEach Outlet.all endReading (forEach allSelectors judgeTampers
    (addSpectrum (allSelectors.any (fun x => (s.met.acc.get x).synced || (s.met.acc.get x).bridged)) t))
  modMet (fun m => { m with acc := ⟨nextAcc v .supply m.acc.supply, nextAcc v .a m.acc.a, nextAcc v .b m.acc.b⟩ }) v

theorem exec_integrationPeriodEnd_of_running (hruns : s.met.running = true) : exec .integrationPeriodEnd s =
    .next (if s.met.waitPeriod then { s with met := { s.met with waitPeriod := false } } else closedPeriod s) :=
  congrArg Host.Outcome.next (if_neg (by rw [hruns]; decide))

theorem exec_testPulseEnd : exec .testPulseEnd s = .next { s with met := { s.met with testHigh := false } } := rfl

/-! ### Harmonic windows (R323, R324) -/

theorem ten_le_windowLength : 10 ≤ windowLength s := by
  rw [windowLength]
  split <;> decide

/-- A harmonic window published, and the next one begun under the order limit that waited. -/
def publishHarmonics (hs : List (Channel × List (Nat × Int) × Nat)) (s : State) : State :=
  { s with met := { s.met with
      win := { s.met.win with
        seq := s.met.win.seq + 2, windows := s.met.win.windows + 1, harmonics := hs, h := s.met.h, harmonicsOff := s.met.h == 0 }
      spectrum := [], windowCycles := 0, h := s.met.hNext } }

theorem exec_harmonicWindowEnd_of_full (hruns : s.met.running = true) (hfull : windowLength s ≤ s.met.windowCycles) :
    ∃ hs, hs.map Prod.fst = s.met.spectrum.map Prod.fst ∧ exec .harmonicWindowEnd s = .next (publishHarmonics hs s) := by
  refine ⟨_, ?channels, next_ifDo_of_true (by rw [hruns, decide_eq_true hfull]; rfl) _ _⟩
  case channels => simp only [List.map_map, Function.comp_def]

theorem exec_harmonicWindowEnd_of_short (hshort : s.met.windowCycles < 10) : exec .harmonicWindowEnd s = .next s := by
  have hopen : ¬ windowLength s ≤ s.met.windowCycles := Nat.not_le_of_lt (Nat.lt_of_lt_of_le hshort ten_le_windowLength)
  exact next_ifDo_of_false (by rw [decide_eq_false hopen, Bool.and_false]) _ _

/-! ### Bridges (R335) -/

/-- The sample that ends a selector's span after a synchronisation can be bridged to: MET accumulates, only SETTLING outputs
stand in the span, and a billed session makes MET bridge it. -/
structure Bridgeable (s : State) (sel : Selector) : Prop where
  runs : s.met.running = true
  period : s.met.waitPeriod = false
  wired : isWired (selProfile s sel) = true
  synced : (s.met.acc.get sel).synced = true
  skipped : (s.met.acc.get sel).skipped ≠ 0
  unbroken : (s.met.acc.get sel).broken = false
  taken : (s.met.acc.get sel).held = false
  good : (newestWords s sel).any wordBad = false
  billed : bridges s sel = true

/-- What the bridge of an outlet's span from its last row `l` leaves. -/
def bridged (o : Outlet) (l : Row) (s : State) : State :=
  let sel := selOfOutlet o
  let p := selProfile s sel
  let a := s.met.acc.get sel
  let tail := max 0 (Config.bridgeTail s.nd)
  let mid := (List.range a.skipped).map (fun k => between l (newRow s p) ((tail + (k + 1 : Nat)) / (tail + (a.skipped + 1 : Nat))))
  let span := (tail + (a.skipped + 1 : Nat)) * outputPeriod s p
  let t := accumulate sel (newRow s p) ((newestWords s sel).any wordSat) (modAcc sel (fun a => { a with
    gapSince := none, skipped := 0, synced := false, bridged := true }) (bookRows sel span mid { s with nd := s.nd + 1 }))
  raise .syncBridged (u32 (t.veh.out.get o).id.toNat ++ u16 a.skipped ++ u8 o.num) t

theorem exec_syncBridge_of_bridgeable {o : Outlet} {l : Row} (h : Bridgeable s (selOfOutlet o))
    (hlast : (s.met.acc.get (selOfOutlet o)).last = some l) :
    exec (.syncBridge (selOfOutlet o)) s = .next (bridged o l s) := by
  obtain ⟨hruns, hperiod, hwired, hsynced, hskipped, hunbroken, htaken, hgood, hbilled⟩ := h
  change execSyncBridge (selOfOutlet o) s = _
  simp only [execSyncBridge, hlast, hruns, hperiod, hwired, hsynced, beq_false_of_ne hskipped, hunbroken, htaken, hgood, hbilled,
    outletOfSel_selOfOutlet, Bool.not_true, Bool.or_false, Bool.false_eq_true, if_false]
  rfl

/-! ### Gaps (R338) -/

/-- The gap that ends now, logged with its length and its estimate. -/
def gapLogged (sel : Selector) (ms : Nat) (s : State) : State :=
  modAcc sel (fun a => { a with gap := true, gapSince := none, skipped := 0, broken := false, synced := false })
    (logAt 0x0030 (selNum sel) (u32 ms ++ i32 (Config.publish ((s.met.acc.get sel).lastPower * (ms : Rat) / 3600)))
      (s.time.life - BitVec.ofNat 64 (ms * 32768 / 1000)) s.legal.epoch false s)

theorem exec_measurementGap_of_gap {o : Outlet} (hruns : s.met.running = true)
    (hwired : isWired (selProfile s (selOfOutlet o)) = true)
    (hgap : (s.met.acc.get (selOfOutlet o)).gap = true ∨ (s.met.acc.get (selOfOutlet o)).gapSince.isSome = true) (ms : Nat) :
    exec (.measurementGap (selOfOutlet o) ms) s =
      .next (modRecord o (fun r => { r with gap := true }) (gapLogged (selOfOutlet o) ms s)) := by
  refine (next_ifDo_of_true (by rw [hruns, hwired, Bool.or_eq_true_iff.mpr hgap]; rfl) _ _).trans ?_
  rw [outletOfSel_selOfOutlet]
  rfl

theorem exec_measurementGap_of_noGap {sel : Selector} (hgap : (s.met.acc.get sel).gap = false)
    (hsince : (s.met.acc.get sel).gapSince = none) (ms : Nat) : exec (.measurementGap sel ms) s = .next s :=
  next_ifDo_of_false (by rw [hgap, hsince, Option.isSome_none, Bool.or_false, Bool.and_false]) _ _

/-- A billed session ends once nothing was accumulated for more than 1 s, 32,768 cycles of AO32. -/
theorem exec_gapSessionEnd_of_gapSince {o : Outlet} {l : Life} (hopen : sessionOpen s o = true)
    (hbilled : (s.veh.out.get o).billed = true) (hsince : (s.met.acc.get (selOfOutlet o)).gapSince = some l) :
    exec (.gapSessionEnd o) s = .next (ifDo (decide (32768 < (s.time.life - l).toNat))
      (fun s => stopSession o .measurementFault .fault (modRecord o (fun r => { r with gap := true }) s)) s) := by
  change execGapSessionEnd o s = _
  simp only [execGapSessionEnd, hopen, hbilled, hsince, Bool.true_and]
  rfl

/-! ### MET's core reset, calibration age and rotation (R341, R342, R344) -/

theorem exec_metCoreReset_of_baseRuns (hbase : baseRuns s = true) : exec .metCoreReset s = .next (metReset s) :=
  next_ifDo_of_true hbase _ _

theorem exec_calibrationAgeExceeded_of_old {k : Island} {m : Fin 9} (hruns : s.met.running = true)
    (hnew : s.met.aged.contains (k, m) = false) (hmetered : allSelectors.any (fun x => usesModulator s (selProfile s x) k m) = true)
    (hold : 240 * cfgNat s.cfg s.fab (.gen .calInterval) * 32768 < (s.time.life - (s.isl[k]).calLife[m]).toNat) :
    exec (.calibrationAgeExceeded k m) s =
      .next (log 0x0034 k.val (u8 m.val) { s with met := { s.met with aged := s.met.aged ++ [(k, m)] } }) :=
  next_ifDo_of_true (by rw [hruns, hnew, hmetered, secs, decide_eq_true hold]; rfl) _ _

theorem exec_startupRotationComplete (k : Island) :
    exec (.startupRotationComplete k) s = .next (modIsl k (fun x => { x with rotated := true }) s) := rfl

/-! ### The request port (R330) -/

/-- A request put behind those that wait in the port's queue. -/
def queueRequest (r : MetRequest) (s : State) : State := { s with met := { s.met with requests := s.met.requests ++ [r] } }

theorem takeRequests_queueRequest (hempty : s.met.requests = []) (r : MetRequest) :
    takeRequests (queueRequest r s) = metRequest r s := by
  have hemptied : modMet (fun m => { m with requests := [] }) (queueRequest r s) = s := by
    rw [← hempty]
    rfl
  have hqueue : (queueRequest r s).met.requests = [r] := congrArg (· ++ [r]) hempty
  rw [takeRequests, hemptied, hqueue, List.foldl_cons, List.foldl_nil]

/-- An application core's request joins a queue that has room, which a running MET then empties. -/
theorem exec_metRequestWrite_of_app {m : Master} (happ : m = .app0 ∨ m = .app1) (r : MetRequest) :
    exec (.metRequestWrite m r) s =
      let t := if s.met.requests.length < 16 then queueRequest r s else s
      .next (ifDo t.met.running takeRequests t) := by
  refine (next_ifDo_of_true (by rcases happ with rfl | rfl <;> rfl) _ _).trans ?_
  by_cases hroom : s.met.requests.length < 16
  · simp only [decide_eq_true hroom, if_pos hroom]
    rfl
  · simp only [decide_eq_false hroom, if_neg hroom]
    rfl

theorem exec_metRequestWrite_of_running {m : Master} (happ : m = .app0 ∨ m = .app1) (hruns : s.met.running = true)
    (hempty : s.met.requests = []) (r : MetRequest) : exec (.metRequestWrite m r) s = .next (metRequest r s) := by
  have hroom : s.met.requests.length < 16 := by rw [hempty]; decide
  rw [exec_metRequestWrite_of_app happ, if_pos hroom]
  exact (next_ifDo_of_true hruns _ _).trans (congrArg _ (takeRequests_queueRequest hempty r))

theorem exec_metRequestWrite_of_stopped {m : Master} (happ : m = .app0 ∨ m = .app1) (hstopped : s.met.running = false)
    (r : MetRequest) :
    exec (.metRequestWrite m r) s = .next (if s.met.requests.length < 16 then queueRequest r s else s) := by
  rw [exec_metRequestWrite_of_app happ]
  exact next_ifDo_of_false (by split <;> exact hstopped) _ _

theorem exec_metRequestWrite_of_noPath {m : Master} (h0 : m ≠ .app0) (h1 : m ≠ .app1) (r : MetRequest) :
    exec (.metRequestWrite m r) s = .next s :=
  next_ifDo_of_false (by rw [beq_false_of_ne h0, beq_false_of_ne h1]; rfl) _ _

theorem metRequest_orderLimit_of_le {h : Nat} (hle : h ≤ 63) :
    metRequest (.orderLimit h) s = { s with met := { s.met with hNext := h } } := by
  rw [metRequest, decide_eq_true hle]
  rfl

theorem metRequest_orderLimit_of_gt {h : Nat} (hgt : 63 < h) : metRequest (.orderLimit h) s = s := by
  rw [metRequest, decide_eq_false (Nat.not_le_of_lt hgt)]
  rfl

end

/-! ### The statement -/

/-- Settles O32: each clause is the lemma of its row. -/
theorem meteringRows : Obligations.MeteringRows := by
  unfold Obligations.MeteringRows
  refine fun s sel => ⟨exec_metSampleAccumulate_of_good, ?firstPeriod, ?period, exec_harmonicWindowEnd_of_full,
    exec_harmonicWindowEnd_of_short, exec_testPulseEnd, ?bridge, ?gap, exec_measurementGap_of_noGap, ?session,
    exec_metCoreReset_of_baseRuns, fun k m => exec_calibrationAgeExceeded_of_old, exec_startupRotationComplete,
    fun m r => ⟨fun happ hruns hempty => exec_metRequestWrite_of_running happ hruns hempty r,
      fun happ hstopped => exec_metRequestWrite_of_stopped happ hstopped r,
      fun h0 h1 => exec_metRequestWrite_of_noPath h0 h1 r⟩,
    fun h => ⟨metRequest_orderLimit_of_le, metRequest_orderLimit_of_gt⟩⟩
  case firstPeriod => exact fun hruns hwait => (exec_integrationPeriodEnd_of_running hruns).trans (congrArg _ (if_pos hwait))
  case period =>
    intro hruns hperiod
    exact (exec_integrationPeriodEnd_of_running hruns).trans (congrArg _ (if_neg (Bool.eq_false_iff.mp hperiod)))
  case bridge =>
    rintro o l rfl hruns hperiod hwired hlast hsynced hskipped hunbroken htaken hgood hbilled
    exact exec_syncBridge_of_bridgeable ⟨hruns, hperiod, hwired, hsynced, hskipped, hunbroken, htaken, hgood, hbilled⟩ hlast
  case gap =>
    rintro o ms rfl hruns hwired hgap
    exact exec_measurementGap_of_gap hruns hwired hgap ms
  case session =>
    intro o l hopen hbilled hsince
    have hends := exec_gapSessionEnd_of_gapSince hopen hbilled hsince
    exact ⟨fun hle => hends.trans (next_ifDo_of_false (decide_eq_false (Nat.not_lt.mpr hle)) _ _),
      fun hlong => hends.trans (next_ifDo_of_true (decide_eq_true hlong) _ _)⟩

end Sys2Proof.Machine
end

section
/-! SUPPORT. The reads of the publication window, of the legal log and of the session records (07 Tables 7.10 and 7.11, R261, R267,
R268; 09 R324, R327; 10 R348, R358, R368, R376, R384): what each served command answers, and the proof of
MeterAndBillingReads from them. -/

namespace Sys2Proof.Machine

/-- Two checks in a row that answer one status are one check. -/
theorem guards_same (c d : Bool) (st : Status) (l : List (Bool × Status)) (s : State) (k : Reply) :
    guards ((c, st) :: (d, st) :: l) s k = guards ((c || d, st) :: l) s k := by
  cases c <;> rfl

section
variable {s : State} {mb : Mailbox} {b : Bytes}

/-! ### METER_READ (07 Table 7.10) -/

/-- What METER_READ answers of a selector as the window holds it. -/
def meterBytes (w : Window) (sel : Selector) : Bytes :=
  let r := w.sel.get sel
  u32 w.seq.toNat ++ u32 (b1 r.valid + 2 * b1 r.harmonicsOff) ++ meterPhase r 0 ++ meterPhase r 1 ++ meterPhase r 2 ++
    i32 (r.totals.getD 0 0) ++ i32 (r.totals.getD 2 0) ++ i32 (r.totals.getD 4 0) ++ u32 r.milliHz ++ i32 r.dcMv ++ i32 r.dcMa ++
    i32 r.dcP

theorem exec_meterRead_of_noSelector (h : serves .meterRead mb b s) (hnum : 2 < rd b 0 2) :
    exec (.meterRead mb) s = .next (complete mb .argRange [] (takeUp mb s)) := by
  change execMeterRead mb s = _
  rw [execMeterRead, runCommand_served _ rfl h]
  simp only [decide_eq_true hnum, guards_cons_true]
  rfl

theorem exec_meterRead_of_selector (h : serves .meterRead mb b s) {sel : Selector} (hsel : rd b 0 2 = selNum sel) :
    exec (.meterRead mb) s = .next (complete mb .ok (meterBytes s.met.win sel) (takeUp mb s)) := by
  change execMeterRead mb s = _
  rw [execMeterRead, runCommand_served _ rfl h]
  simp only [hsel]
  cases sel <;> rfl

/-! ### HARMONICS_READ (07 Table 7.10, R324) -/

/-- What the window holds of a channel's harmonics: the entries of its orders, and THD. -/
def harmonicsOf (s : State) (i : Channel) : Option (List (Nat × Int) × Nat) :=
  (s.met.win.harmonics.find? (fun h => h.1 == i)).map (·.2)

/-- The magnitude of an order of a channel, and its phase where the command asks for phases. -/
def harmonicEntry (s : State) (i : Channel) (ph h : Nat) : Bytes :=
  let e := (((harmonicsOf s i).map (·.1)).getD []).getD h (0, 0)
  let mag := ((e.1 % 4096 : Nat) : Rat) * (2 : Rat) ^ (e.1 / 4096) / 67108864 * channelScale s i * 1000000
  u32 (Config.publish mag).toNat ++ (if ph = 1 then i32 (Config.publish ((e.2 : Rat) * 360000 / 65536)) else [])

/-- What HARMONICS_READ answers of a channel. -/
def harmonicBytes (s : State) (i : Channel) (first count ph : Nat) : Bytes :=
  u32 s.met.win.seq.toNat ++ u16 (((harmonicsOf s i).map (·.2)).getD 0) ++ u16 count ++
    ((List.range count).map (· + first)).flatMap (harmonicEntry s i ph)

/-- The first order, the count and the phase flag of a HARMONICS_READ lie within its ranges. -/
structure OrdersInRange (b : Bytes) : Prop where
  first : rd b 1 1 ≤ 63
  count : 1 ≤ rd b 2 1
  fits : rd b 2 1 ≤ 63 ∨ rd b 3 1 = 0
  last : rd b 1 1 + rd b 2 1 ≤ 64
  phase : rd b 3 1 ≤ 1

/-- The checks of the first order, the count and the phase flag, as one. -/
def ordersBad (b : Bytes) : Bool :=
  decide (63 < rd b 1 1) ||
    (rd b 2 1 == 0 || decide ((if rd b 3 1 = 1 then 63 else 64) < rd b 2 1) || decide (64 < rd b 1 1 + rd b 2 1)) ||
    decide (1 < rd b 3 1)

theorem ordersBad_iff : ordersBad b = true ↔
    63 < rd b 1 1 ∨ rd b 2 1 = 0 ∨ 64 < rd b 1 1 + rd b 2 1 ∨ (63 < rd b 2 1 ∧ rd b 3 1 = 1) ∨ 1 < rd b 3 1 := by
  simp only [ordersBad, Bool.or_eq_true, decide_eq_true_eq, beq_iff_eq]
  split <;> omega

theorem ordersBad_of_inRange (h : OrdersInRange b) : ordersBad b = false := by
  obtain ⟨hfirst, hcount, hfits, hlast, hphase⟩ := h
  refine Bool.eq_false_iff.mpr (fun hbad => ?_)
  have := ordersBad_iff.mp hbad
  omega

theorem exec_harmonicsRead_of_beyond (h : serves .harmonicsRead mb b s) (hch : 47 < rd b 0 1) :
    exec (.harmonicsRead mb) s = .next (complete mb .argRange [] (takeUp mb s)) := by
  change execHarmonicsRead mb s = _
  rw [execHarmonicsRead, runCommand_served _ rfl h]
  simp only [decide_eq_true hch, decide_eq_false (Nat.not_lt.mpr hch), Bool.false_and, guards_cons_false, guards_cons_true]
  rfl

section
variable (h : serves .harmonicsRead mb b s) {i : Channel} (hch : rd b 0 1 = i.val)
include h hch

/-- The checks of a HARMONICS_READ that names a channel, in order. -/
theorem exec_harmonicsRead_of_channel : exec (.harmonicsRead mb) s = .next (Reply.apply mb
    (guards [(s.ch[i].cfg.mode != .mains, .state), (ordersBad b, .argRange), (s.met.h == 0, .harmonicsOff)] (takeUp mb s)
      (ok (harmonicBytes s i (rd b 1 1) (rd b 2 1) (rd b 3 1)) (takeUp mb s)))) := by
  have hmode : (takeUp mb s).ch[i].cfg.mode = s.ch[i].cfg.mode := rfl
  change execHarmonicsRead mb s = _
  rw [execHarmonicsRead, runCommand_served _ rfl h]
  simp only [hch, Fin.ofNat_val_eq_self, i.isLt, decide_true, Bool.true_and,
    decide_eq_false (Nat.not_lt.mpr (Nat.le_of_lt_succ i.isLt)), hmode]
  cases s.ch[i].cfg.mode != .mains
  · rw [guards_cons_false, guards_cons_false, guards_cons_false, guards_same, guards_same]
    rfl
  · rfl

theorem exec_harmonicsRead_of_otherMode (hmode : s.ch[i].cfg.mode ≠ .mains) :
    exec (.harmonicsRead mb) s = .next (complete mb .state [] (takeUp mb s)) := by
  rw [exec_harmonicsRead_of_channel h hch, bne_iff_ne.mpr hmode, guards_cons_true]
  rfl

section
variable (hmode : s.ch[i].cfg.mode = .mains)
include hmode

theorem exec_harmonicsRead_of_ordersBad (hbad : ordersBad b = true) :
    exec (.harmonicsRead mb) s = .next (complete mb .argRange [] (takeUp mb s)) := by
  rw [exec_harmonicsRead_of_channel h hch, hmode, bne_self_eq_false, hbad, guards_cons_false, guards_cons_true]
  rfl

theorem exec_harmonicsRead_of_inRange (hrange : OrdersInRange b) : exec (.harmonicsRead mb) s = .next (Reply.apply mb
    (guards [(s.met.h == 0, .harmonicsOff)] (takeUp mb s)
      (ok (harmonicBytes s i (rd b 1 1) (rd b 2 1) (rd b 3 1)) (takeUp mb s)))) := by
  rw [exec_harmonicsRead_of_channel h hch, hmode, bne_self_eq_false, ordersBad_of_inRange hrange, guards_cons_false,
    guards_cons_false]

theorem exec_harmonicsRead_of_off (hrange : OrdersInRange b) (hoff : s.met.h = 0) :
    exec (.harmonicsRead mb) s = .next (complete mb .harmonicsOff [] (takeUp mb s)) := by
  rw [exec_harmonicsRead_of_inRange h hch hmode hrange, beq_iff_eq.mpr hoff, guards_cons_true]
  rfl

theorem exec_harmonicsRead_of_on (hrange : OrdersInRange b) (hon : s.met.h ≠ 0) : exec (.harmonicsRead mb) s =
    .next (complete mb .ok (harmonicBytes s i (rd b 1 1) (rd b 2 1) (rd b 3 1)) (takeUp mb s)) := by
  rw [exec_harmonicsRead_of_inRange h hch hmode hrange, beq_false_of_ne hon, guards_cons_false, guards_nil]
  rfl

end

end

/-! ### BILLING_REGISTERS_READ (07 Table 7.11, R268; 10 R348) -/

theorem exec_billingRegistersRead_served (h : serves .billingRegistersRead mb b s) :
    exec (.billingRegistersRead mb) s = .next (Reply.apply mb (guards [(decide (7 < rd b 0 2), .argRange)] (takeUp mb s)
      (ok (u32 s.met.win.seq.toNat ++ u8 s.met.win.post.tariff ++ padTo 3 [] ++ postEnergies s (rd b 0 2) false ++
        postEnergies s (rd b 0 2) true) (takeUp mb s)))) :=
  congrArg Host.Outcome.next (runCommand_served _ rfl h)

theorem exec_billingRegistersRead_of_noTariff (h : serves .billingRegistersRead mb b s) (hnum : 7 < rd b 0 2) :
    exec (.billingRegistersRead mb) s = .next (complete mb .argRange [] (takeUp mb s)) := by
  rw [exec_billingRegistersRead_served h, decide_eq_true hnum, guards_cons_true]
  rfl

/-- The six energies of one direction of a tariff in thousandths, of both outlets together (R348, R350). -/
def tariffEnergies (p : PostWindow) (n : Fin 8) (f : TariffRegs → Energies) : Bytes :=
  let x := f p.a[n]
  let y := f p.b[n]
  u64 ((x.active + y.active) / 1000) ++ u64 ((x.fund + y.fund) / 1000) ++ u64 ((x.lag + y.lag) / 1000) ++
    u64 ((x.lead + y.lead) / 1000) ++ u64 ((x.apparent + y.apparent) / 1000) ++ u64 ((x.dc + y.dc) / 1000)

theorem postEnergies_import (n : Fin 8) : postEnergies s n.val false = tariffEnergies s.met.win.post n TariffRegs.imp := by
  simp only [postEnergies, Fin.ofNat_val_eq_self, Bool.false_eq_true, if_false]
  rfl

theorem postEnergies_export (n : Fin 8) : postEnergies s n.val true = tariffEnergies s.met.win.post n TariffRegs.exp := by
  simp only [postEnergies, Fin.ofNat_val_eq_self, if_true]
  rfl

theorem exec_billingRegistersRead_of_tariff (h : serves .billingRegistersRead mb b s) {n : Fin 8} (hnum : rd b 0 2 = n.val) :
    exec (.billingRegistersRead mb) s = .next (complete mb .ok (u32 s.met.win.seq.toNat ++ u8 s.met.win.post.tariff ++ padTo 3 [] ++
      tariffEnergies s.met.win.post n TariffRegs.imp ++ tariffEnergies s.met.win.post n TariffRegs.exp) (takeUp mb s)) := by
  rw [exec_billingRegistersRead_served h, hnum, decide_eq_false (Nat.not_lt.mpr (Nat.le_of_lt_succ n.isLt)), guards_cons_false,
    guards_nil, postEnergies_import, postEnergies_export]
  rfl

/-! ### DEMAND_READ (07 Table 7.11, R268; 10 R358) -/

/-- What DEMAND_READ answers of a period. -/
def demandBytes (seq : BitVec 32) (p : DemandPeriod) : Bytes :=
  u32 seq.toNat ++ u16 p.intervalMin ++ u16 p.subs ++ u32 p.impMax ++ u32 0 ++ u64 p.impSecond ++ u32 p.expMax ++ u32 0 ++
    u64 p.expSecond ++ u64 p.start ++ u64 p.stop

/-- The period that a DEMAND_READ names, as the window holds it. -/
def periodNamed (b : Bytes) (p : PostWindow) : DemandPeriod :=
  ((if rd b 0 2 = 0 then p.fixedPeriods else p.slidingPeriods)[rd b 2 2]?).getD { intervalMin := 0, subs := 0 }

theorem exec_demandRead_served (h : serves .demandRead mb b s) : exec (.demandRead mb) s = .next (Reply.apply mb
    (guards [(decide (1 < rd b 0 2) || decide (11 < rd b 2 2), .argRange)] (takeUp mb s)
      (ok (demandBytes s.met.win.seq (periodNamed b s.met.win.post)) (takeUp mb s)))) := by
  rw [← guards_same]
  exact congrArg Host.Outcome.next (runCommand_served _ rfl h)

theorem exec_demandRead_of_noPeriod (h : serves .demandRead mb b s) (hout : 1 < rd b 0 2 ∨ 11 < rd b 2 2) :
    exec (.demandRead mb) s = .next (complete mb .argRange [] (takeUp mb s)) := by
  rw [exec_demandRead_served h, ← Bool.decide_or, decide_eq_true hout, guards_cons_true]
  rfl

theorem exec_demandRead_of_period (h : serves .demandRead mb b s) (hkind : rd b 0 2 ≤ 1) (hperiod : rd b 2 2 ≤ 11) :
    exec (.demandRead mb) s =
      .next (complete mb .ok (demandBytes s.met.win.seq (periodNamed b s.met.win.post)) (takeUp mb s)) := by
  rw [exec_demandRead_served h, decide_eq_false (Nat.not_lt.mpr hkind), decide_eq_false (Nat.not_lt.mpr hperiod), Bool.or_false,
    guards_cons_false, guards_nil]
  rfl

/-! ### LEGAL_LOG_READ (07 Table 7.11; 10 R368, R384) -/

/-- The entry of a number, where the log still holds it undamaged. -/
def readableEntry (l : Legal) (n : Nat) : Option LogEntry :=
  if damaged l.badEntries n then none else l.log.find? (fun e => e.number == n)

/-- The entries that a LEGAL_LOG_READ names. -/
def entriesNamed (l : Legal) (first count : Nat) : List (Option LogEntry) :=
  ((List.range count).map (· + first)).map (readableEntry l)

theorem readableEntry_eq_none_iff {l : Legal} {n : Nat} :
    readableEntry l n = none ↔ damaged l.badEntries n = true ∨ ∀ e ∈ l.log, e.number ≠ n := by
  rw [readableEntry]
  cases damaged l.badEntries n <;> simp [List.find?_eq_none]

theorem entriesNamed_any_isNone_iff {l : Legal} {first count : Nat} : (entriesNamed l first count).any Option.isNone = true ↔
    ∃ k < count, damaged l.badEntries (first + k) = true ∨ ∀ e ∈ l.log, e.number ≠ first + k := by
  simp only [entriesNamed, List.any_map, List.any_eq_true, List.mem_range, Function.comp_apply, Option.isNone_iff_eq_none,
    readableEntry_eq_none_iff, Nat.add_comm _ first]

theorem entriesNamed_eq {l : Legal} {first count : Nat} {es : List LogEntry} (hcount : es.length = count)
    (hes : ∀ (k : Nat) (hk : k < es.length), damaged l.badEntries (first + k) = false ∧
      l.log.find? (fun e => e.number == first + k) = some es[k]) : entriesNamed l first count = es.map some := by
  refine List.ext_getElem (by simp [entriesNamed, hcount]) (fun k _ hk => ?_)
  obtain ⟨hgood, hfound⟩ := hes k (by simpa using hk)
  simp only [entriesNamed, List.getElem_map, List.getElem_range, Nat.add_comm k first, readableEntry, hgood, hfound,
    Bool.false_eq_true, if_false]

theorem exec_legalLogRead_served (h : serves .legalLogRead mb b s) : exec (.legalLogRead mb) s = .next (Reply.apply mb
    (guards [(rd b 4 2 == 0 || decide (15 < rd b 4 2), .argRange),
        ((entriesNamed s.legal (rd b 0 4) (rd b 4 2)).any Option.isNone, .logRange)] (takeUp mb s)
      (ok (u32 (rd b 0 4) ++ u32 (s.legal.nextEntry - 1) ++
        (entriesNamed s.legal (rd b 0 4) (rd b 4 2)).flatMap (fun e => (e.map entryBytes).getD [])) (takeUp mb s)))) :=
  congrArg Host.Outcome.next (runCommand_served _ rfl h)

theorem exec_legalLogRead_of_badCount (h : serves .legalLogRead mb b s) (hcount : rd b 4 2 = 0 ∨ 15 < rd b 4 2) :
    exec (.legalLogRead mb) s = .next (complete mb .argRange [] (takeUp mb s)) := by
  have hcheck : (rd b 4 2 == 0 || decide (15 < rd b 4 2)) = true := by simpa using hcount
  rw [exec_legalLogRead_served h, hcheck, guards_cons_true]
  rfl

section
variable (h : serves .legalLogRead mb b s) (hlo : 1 ≤ rd b 4 2) (hhi : rd b 4 2 ≤ 15)
include h hlo hhi

/-- A count in range leaves the entries to decide. -/
theorem exec_legalLogRead_of_count : exec (.legalLogRead mb) s = .next (Reply.apply mb
    (guards [((entriesNamed s.legal (rd b 0 4) (rd b 4 2)).any Option.isNone, .logRange)] (takeUp mb s)
      (ok (u32 (rd b 0 4) ++ u32 (s.legal.nextEntry - 1) ++
        (entriesNamed s.legal (rd b 0 4) (rd b 4 2)).flatMap (fun e => (e.map entryBytes).getD [])) (takeUp mb s)))) := by
  rw [exec_legalLogRead_served h, beq_false_of_ne (Nat.one_le_iff_ne_zero.mp hlo), decide_eq_false (Nat.not_lt.mpr hhi),
    Bool.or_false, guards_cons_false]

theorem exec_legalLogRead_of_missing (hmissing : ∃ k < rd b 4 2,
      damaged s.legal.badEntries (rd b 0 4 + k) = true ∨ ∀ e ∈ s.legal.log, e.number ≠ rd b 0 4 + k) :
    exec (.legalLogRead mb) s = .next (complete mb .logRange [] (takeUp mb s)) := by
  rw [exec_legalLogRead_of_count h hlo hhi, entriesNamed_any_isNone_iff.mpr hmissing, guards_cons_true]
  rfl

theorem exec_legalLogRead_of_readable {es : List LogEntry} (hcount : es.length = rd b 4 2)
    (hes : ∀ (k : Nat) (hk : k < es.length), damaged s.legal.badEntries (rd b 0 4 + k) = false ∧
      s.legal.log.find? (fun e => e.number == rd b 0 4 + k) = some es[k]) :
    exec (.legalLogRead mb) s = .next (complete mb .ok (u32 (rd b 0 4) ++ u32 (s.legal.nextEntry - 1) ++ es.flatMap entryBytes)
      (takeUp mb s)) := by
  have hall : (es.map some).any Option.isNone = false := by simp
  rw [exec_legalLogRead_of_count h hlo hhi, entriesNamed_eq hcount hes, hall, guards_cons_false, guards_nil, List.flatMap_map]
  rfl

end

/-! ### SESSION_RECORD_READ (07 Table 7.11, R267; 10 R376, R384) -/

/-- The record of a number that has its text. -/
abbrev recordNamed (l : Legal) (n : Nat) : Option Record := l.records.find? (fun r => r.number == n && !r.text.isEmpty)

theorem exec_sessionRecordRead_of_none (h : serves .sessionRecordRead mb b s) (hnone : recordNamed s.legal (rd b 0 4) = none) :
    exec (.sessionRecordRead mb) s = .next (complete mb .recordAbsent [] (takeUp mb s)) := by
  have htaken : recordNamed (takeUp mb s).legal (rd b 0 4) = none := hnone
  change execSessionRecordRead mb s = _
  rw [execSessionRecordRead, runCommand_served _ rfl h]
  simp only [htaken]
  rfl

section
variable (h : serves .sessionRecordRead mb b s) {r : Record} (hr : recordNamed s.legal (rd b 0 4) = some r)
include h hr

/-- The checks of a SESSION_RECORD_READ that names a record, in order. -/
theorem exec_sessionRecordRead_of_record : exec (.sessionRecordRead mb) s = .next (Reply.apply mb
    (guards [(damaged s.legal.badRecords (rd b 0 4), .recordAbsent), (decide (r.text.length < rd b 4 4), .argRange)] (takeUp mb s)
      (ok (u32 r.text.length ++ u32 (rd b 4 4) ++ (r.text.drop (rd b 4 4)).take 504) (takeUp mb s)))) := by
  have htaken : recordNamed (takeUp mb s).legal (rd b 0 4) = some r := hr
  change execSessionRecordRead mb s = _
  rw [execSessionRecordRead, runCommand_served _ rfl h]
  simp only [htaken]
  rfl

theorem exec_sessionRecordRead_of_damaged (hbad : damaged s.legal.badRecords (rd b 0 4) = true) :
    exec (.sessionRecordRead mb) s = .next (complete mb .recordAbsent [] (takeUp mb s)) := by
  rw [exec_sessionRecordRead_of_record h hr, hbad, guards_cons_true]
  rfl

theorem exec_sessionRecordRead_of_beyond (hgood : damaged s.legal.badRecords (rd b 0 4) = false)
    (hoffset : r.text.length < rd b 4 4) :
    exec (.sessionRecordRead mb) s = .next (complete mb .argRange [] (takeUp mb s)) := by
  rw [exec_sessionRecordRead_of_record h hr, hgood, decide_eq_true hoffset, guards_cons_false, guards_cons_true]
  rfl

theorem exec_sessionRecordRead_of_within (hgood : damaged s.legal.badRecords (rd b 0 4) = false)
    (hoffset : rd b 4 4 ≤ r.text.length) : exec (.sessionRecordRead mb) s =
      .next (complete mb .ok (u32 r.text.length ++ u32 (rd b 4 4) ++ (r.text.drop (rd b 4 4)).take 504) (takeUp mb s)) := by
  rw [exec_sessionRecordRead_of_record h hr, hgood, decide_eq_false (Nat.not_lt.mpr hoffset), guards_cons_false, guards_cons_false,
    guards_nil]
  rfl

end

end

/-! ### The statement -/

/-- Settles O33: each clause is the lemma of its command. -/
theorem meterAndBillingReads : Obligations.MeterAndBillingReads := by
  unfold Obligations.MeterAndBillingReads
  refine ⟨fun mb b s => ⟨fun h => ⟨exec_meterRead_of_noSelector h, fun sel => exec_meterRead_of_selector h⟩,
      fun h => ⟨fun i hch => ?harmonics, exec_harmonicsRead_of_beyond h⟩⟩,
    fun mb b s => ⟨fun h => ⟨exec_billingRegistersRead_of_noTariff h, fun n => exec_billingRegistersRead_of_tariff h⟩,
      fun h => ⟨exec_demandRead_of_noPeriod h, exec_demandRead_of_period h⟩,
      fun h => ⟨exec_legalLogRead_of_badCount h, fun hlo hhi => ⟨exec_legalLogRead_of_missing h hlo hhi,
        fun es => exec_legalLogRead_of_readable h hlo hhi⟩⟩,
      fun h => ⟨exec_sessionRecordRead_of_none h, fun r hr => ⟨exec_sessionRecordRead_of_damaged h hr,
        exec_sessionRecordRead_of_beyond h hr, exec_sessionRecordRead_of_within h hr⟩⟩⟩⟩
  case harmonics =>
    refine ⟨exec_harmonicsRead_of_otherMode h hch,
      fun hmode hbad => exec_harmonicsRead_of_ordersBad h hch hmode (ordersBad_iff.mpr hbad), ?inRange⟩
    case inRange =>
      intro hmode hfirst hcount hfits hlast hphase
      have hrange : OrdersInRange b := ⟨hfirst, hcount, hfits, hlast, hphase⟩
      exact ⟨exec_harmonicsRead_of_off h hch hmode hrange, exec_harmonicsRead_of_on h hch hmode hrange⟩

end Sys2Proof.Machine
end

section
/-! SUPPORT. Tariffs, demand and session records (10 R351 to R358, R363, R364, R368, R370, R371, R375, R381, R385; 01 R56; 05 R167;
07 Table 7.11): the state that each row and each served command leaves where its conditions hold, and the proofs of
TariffAndDemand and TariffCommandsAndRecords from them. -/

namespace Sys2Proof.Machine

section
variable {s : State}

/-! ### Checkpoints and waiting log entries (R363, R368) -/

theorem exec_checkpoint_of_running (hruns : s.met.running = true) : exec .checkpoint s = .next (checkpoint s) :=
  next_ifDo_of_true hruns _ _

/-- A waiting entry moved into the ring under the next number, the entries behind it left waiting. -/
def entryWritten (e : LogEntry) (rest : List LogEntry) (s : State) : State :=
  { s with
    bill := { s.bill with logWait := rest }
    legal := { s.legal with
      log := ({ e with number := s.legal.nextEntry } :: s.legal.log).take 16128, nextEntry := s.legal.nextEntry + 1 } }

theorem writeOldest_of_cons {e : LogEntry} {rest : List LogEntry} (hwait : s.bill.logWait = e :: rest) :
    writeOldest s = entryWritten e rest s := by
  simp only [writeOldest, hwait]
  rfl

theorem exec_logEntryWrite_of_cons (hruns : s.met.running = true) {e : LogEntry} {rest : List LogEntry}
    (hwait : s.bill.logWait = e :: rest) : exec .logEntryWrite s = .next (entryWritten e rest s) :=
  (next_ifDo_of_true hruns _ _).trans (congrArg _ (writeOldest_of_cons hwait))

/-! ### The tariff in force (R351, R355, Table 10.4) -/

theorem setTariff_same (cause : Nat) : setTariff s.bill.tariff cause s = s := if_pos rfl

theorem setTariff_of_ne {new : Nat} (hne : new ≠ s.bill.tariff) (cause : Nat) : setTariff new cause s =
    checkpoint (tariffReadings (modBill (fun b => { b with tariff := new })
      (log 0x0020 noSubject (u8 s.bill.tariff ++ u8 new ++ u8 cause ++ u32 s.bill.table.version.toNat) (splitPeriod s)))) :=
  if_neg hne

section
variable (hruns : s.met.running = true)
include hruns

theorem exec_remoteSwitchEffect_of_due (hdue : remoteDue s = true) : exec .remoteSwitchEffect s = .next (remoteEffect s) :=
  next_ifDo_of_true (by rw [hruns, hdue]; rfl) _ _

section
variable (hvalid : s.time.valid = true)
include hvalid

/-! ### Table entries (R351, R353, R355, Table 10.8) -/

section
variable {n : Nat} {e : TableEntry} (he : s.bill.table.entries[n]? = some e)
include he

/-- A due remote switch takes the entry's place; else the entry acts where it starts and no remote switch took effect this second. -/
theorem exec_tariffEntryStart_of_entry : exec (.tariffEntryStart n) s = .next (
    if remoteDue s then remoteEffect s
    else if !entryStarts s e ∨ s.bill.held.map (·.second) = some s.time.rtcSec.toNat then s
    else setTariff e.tariff 0 (modBill (fun b => { b with held := none }) s)) := by
  refine (next_ifDo_of_true (by rw [hruns, hvalid]; rfl) _ _).trans ?_
  simp only [he]

theorem exec_tariffEntryStart_of_remoteDue (hdue : remoteDue s = true) :
    exec (.tariffEntryStart n) s = .next (remoteEffect s) := by
  rw [exec_tariffEntryStart_of_entry hruns hvalid he, if_pos hdue]

section
variable (hdue : remoteDue s = false)
include hdue

theorem exec_tariffEntryStart_of_notStarting (hstarts : entryStarts s e = false) : exec (.tariffEntryStart n) s = .next s := by
  rw [exec_tariffEntryStart_of_entry hruns hvalid he, if_neg (Bool.eq_false_iff.mp hdue), if_pos (.inl (by rw [hstarts]; rfl))]

theorem exec_tariffEntryStart_of_starting (hstarts : entryStarts s e = true)
    (hheld : s.bill.held.map (·.second) ≠ some s.time.rtcSec.toNat) :
    exec (.tariffEntryStart n) s = .next (setTariff e.tariff 0 (modBill (fun b => { b with held := none }) s)) := by
  have hacts : ¬ (!entryStarts s e ∨ s.bill.held.map (·.second) = some s.time.rtcSec.toNat) := by simp [hstarts, hheld]
  rw [exec_tariffEntryStart_of_entry hruns hvalid he, if_neg (Bool.eq_false_iff.mp hdue), if_neg hacts]

end

end

/-! ### Demand intervals (R356, R357, Table 10.8) -/

/-- What the end of a fixed interval leaves: a due remote switch takes effect before a table that waits. -/
def intervalEnded (s : State) : State :=
  let t := closeFixed false s.time.life s.time.rtcSec.toNat (splitPeriod s)
  checkpoint (takeTable (if remoteDue t then remoteEffect t else t))

theorem exec_demandIntervalEnd_of_multiple (hend : s.time.rtcSec.toNat % (60 * s.bill.demand.keys.intervalMin) = 0) :
    exec .demandIntervalEnd s = .next (intervalEnded s) :=
  next_ifDo_of_true (by rw [hruns, hvalid, intervalSec, hend]; rfl) _ _

theorem exec_slidingSubEnd_of_multiple (hend : s.time.rtcSec.toNat % (60 * s.bill.demand.keys.subMin) = 0) :
    exec .slidingSubEnd s = .next (closeSub false s.time.life s.time.rtcSec.toNat (splitPeriod s)) :=
  next_ifDo_of_true (by rw [hruns, hvalid, hend]; rfl) _ _

end

end

theorem exec_demandIntervalEnd_of_notMultiple (hwithin : s.time.rtcSec.toNat % (60 * s.bill.demand.keys.intervalMin) ≠ 0) :
    exec .demandIntervalEnd s = .next s :=
  next_ifDo_of_false (by rw [intervalSec, beq_false_of_ne hwithin, Bool.and_false]) _ _

theorem exec_slidingSubEnd_of_notMultiple (hwithin : s.time.rtcSec.toNat % (60 * s.bill.demand.keys.subMin) ≠ 0) :
    exec .slidingSubEnd s = .next s :=
  next_ifDo_of_false (by rw [beq_false_of_ne hwithin, Bool.and_false]) _ _

/-! ### Demand periods (R358) -/

/-- The latest reset instant of the present reset day. -/
abbrev presentReset (s : State) : Nat := lastReset s.bill.demand.keys.resetDay s.time.rtcSec.toNat

/-- The start of the running demand period. -/
abbrev periodStart (s : State) : Nat := (s.bill.demand.fixedPeriods.headD {}).start

/-- The maxima of the running demand period in the legal log. -/
def logMaxima (s : State) : State :=
  log 0x0022 noSubject (u32 ((s.bill.demand.fixedPeriods.head?.map (·.impMax)).getD 0) ++
    u32 ((s.bill.demand.fixedPeriods.head?.map (·.expMax)).getD 0)) s

/-- Both lists of demand periods turned at a reset instant, under the keys that waited. -/
def turnPeriods (reset : Nat) : State → State :=
  modDemand (fun d => { d with
    keys := d.next, subs := []
    fixedPeriods := turnPeriod reset d.next.resetDay d.next.intervalMin 1 d.fixedPeriods
    slidingPeriods := turnPeriod reset d.next.resetDay d.next.subMin d.next.subCount d.slidingPeriods })

/-- What the close of a demand period leaves. -/
def periodClosed (s : State) : State :=
  let t := closeFixed false s.time.life s.time.rtcSec.toNat (splitPeriod s)
  checkpoint (turnPeriods (presentReset s) (logMaxima (closeSub false s.time.life s.time.rtcSec.toNat t)))

theorem exec_demandPeriodClose_of_over (hruns : s.met.running = true) (hvalid : s.time.valid = true)
    (hover : periodStart s < presentReset s) : exec .demandPeriodClose s = .next (periodClosed s) :=
  next_ifDo_of_true (by rw [hruns, hvalid, periodOver, decide_eq_true hover]; rfl) _ _

theorem exec_demandPeriodClose_of_begun (hbegun : presentReset s ≤ periodStart s) : exec .demandPeriodClose s = .next s :=
  next_ifDo_of_false (by rw [periodOver, decide_eq_false (Nat.not_lt.mpr hbegun), Bool.and_false]) _ _

end

/-! ### The statement on tariffs and demand -/

/-- Settles O34: each clause is the lemma of its row, or of the tariff's change. -/
theorem tariffAndDemand : Obligations.TariffAndDemand := by
  unfold Obligations.TariffAndDemand
  refine fun s hruns => ⟨exec_checkpoint_of_running hruns, fun e rest => exec_logEntryWrite_of_cons hruns, fun hvalid => ?valid,
    setTariff_same, fun n c hne => setTariff_of_ne hne c, fun t => rfl⟩
  case valid =>
    exact ⟨fun n e he => ⟨exec_tariffEntryStart_of_starting hruns hvalid he, exec_tariffEntryStart_of_notStarting hruns hvalid he,
        exec_tariffEntryStart_of_remoteDue hruns hvalid he⟩,
      exec_remoteSwitchEffect_of_due hruns,
      exec_demandIntervalEnd_of_multiple hruns hvalid, exec_demandIntervalEnd_of_notMultiple,
      exec_slidingSubEnd_of_multiple hruns hvalid, exec_slidingSubEnd_of_notMultiple,
      exec_demandPeriodClose_of_begun, exec_demandPeriodClose_of_over hruns hvalid⟩

section
variable {s : State} {mb : Mailbox} {b : Bytes}

/-! ### TARIFF_TABLE_LOAD (07 Table 7.11; R352, R353) -/

/-- A day set or a minute that no entry of a table may have. -/
def entryOutOfRange (days : BitVec 8) (minute : Nat) : Bool := days == 0 || days.getLsbD 7 || decide (1439 < minute)

theorem tableFails_singleton (tariff : Nat) (days : BitVec 8) (minute : Nat) : tableFails [(tariff, days, minute)] =
    if entryOutOfRange days minute then some .argRange else if 7 < tariff then some .tariffRange else none := by
  simp [tableFails, tableFails.dup, entryOutOfRange]

/-- Two entries that start together on a day they share are refused. -/
theorem tableFails_pair_of_sharedDay (tariff₁ tariff₂ minute : Nat) {days₁ days₂ : BitVec 8} (hshared : days₁ &&& days₂ ≠ 0#8) :
    tableFails [(tariff₁, days₁, minute), (tariff₂, days₂, minute)] = some .argRange := by
  simp [tableFails, tableFails.dup, hshared]

theorem exec_tariffTableLoad_of_fails (h : serves .tariffTableLoad mb b s) {st : Status} (hfails : tableFails (tableArgs b) = some st) :
    exec (.tariffTableLoad mb) s = .next (complete mb st [] (takeUp mb s)) := by
  change execTariffTableLoad mb s = _
  rw [execTariffTableLoad, runCommand_served _ rfl h]
  simp only [hfails]
  rfl

theorem exec_tariffTableLoad_of_acceptable (h : serves .tariffTableLoad mb b s) (hpass : tableFails (tableArgs b) = none) :
    exec (.tariffTableLoad mb) s =
      let v := acceptTable (tableArgs b) (passLocalTime (takeUp mb s))
      .next (complete mb .ok (u32 (tableVersion v).toNat) v) := by
  change execTariffTableLoad mb s = _
  rw [execTariffTableLoad, runCommand_served _ rfl h]
  simp only [hpass]
  rfl

/-- The table that waits and the checkpoint stay as they are. -/
structure SameTables (s t : State) : Prop where
  waiting : t.bill.nextTable = s.bill.nextTable
  checkpoint : t.legal.cp = s.legal.cp

theorem sameTables_writeOldest (s : State) : SameTables s (writeOldest s) := by
  unfold writeOldest
  split <;> exact ⟨rfl, rfl⟩

theorem sameTables_log (kind subject : Nat) (data : Bytes) (s : State) : SameTables s (log kind subject data s) := by
  unfold log logAt putEntry
  split_ifs
  · exact ⟨rfl, rfl⟩
  · obtain ⟨hwaiting, hcheckpoint⟩ := sameTables_writeOldest s
    exact ⟨hwaiting, hcheckpoint⟩

theorem tableVersion_acceptTable (es : List (Nat × BitVec 8 × Nat)) (s : State) :
    tableVersion (acceptTable es s) = tableVersion s + 1 := by
  rw [acceptTable, tableVersion, (sameTables_log _ _ _ _).waiting]
  rfl

theorem acceptTable_copied (es : List (Nat × BitVec 8 × Nat)) (s : State) :
    (acceptTable es s).legal.cp.nextTable = (acceptTable es s).bill.nextTable := by
  rw [acceptTable, (sameTables_log _ _ _ _).waiting, (sameTables_log _ _ _ _).checkpoint]
  rfl

/-! ### TARIFF_SWITCH (07 Table 7.11; R354, R381) -/

theorem exec_tariffSwitch_of_fails (h : serves .tariffSwitch mb b s) {st : Status}
    (hfails : switchFails s (rd b 0 1) (rd b 1 1) (rd b 4 8) = some st) :
    exec (.tariffSwitch mb) s = .next (complete mb st [] (takeUp mb s)) := by
  have htaken : switchFails (takeUp mb s) (rd b 0 1) (rd b 1 1) (rd b 4 8) = some st := hfails
  change execTariffSwitch mb s = _
  rw [execTariffSwitch, runCommand_served _ rfl h]
  simp only [htaken]
  rfl

theorem exec_tariffSwitch_of_acceptable (h : serves .tariffSwitch mb b s)
    (hpass : switchFails s (rd b 0 1) (rd b 1 1) (rd b 4 8) = none) : exec (.tariffSwitch mb) s =
      .next (complete mb .ok (u64 (switchSecond s (rd b 1 1) (rd b 4 8)))
        (acceptSwitch (rd b 0 1) (rd b 1 1) (rd b 4 8) (takeUp mb s))) := by
  have htaken : switchFails (takeUp mb s) (rd b 0 1) (rd b 1 1) (rd b 4 8) = none := hpass
  change execTariffSwitch mb s = _
  rw [execTariffSwitch, runCommand_served _ rfl h]
  simp only [htaken]
  rfl

section
variable (hvalid : s.time.valid = true) {tariff : Nat} (htariff : tariff ≤ 7)
include hvalid htariff

/-- With the RTC valid and a tariff in range only the second is left to decide. -/
theorem switchFails_atSecond (second : Nat) : switchFails s tariff 1 second =
    if s.time.rtcSec.toNat + 34560000 < second then some .argRange
    else if second ≤ s.time.rtcSec.toNat then some .boundaryPast else none := by
  simp [switchFails, switchHorizon, hvalid, Nat.not_lt.mpr htariff]

theorem switchFails_atBoundary (second : Nat) : switchFails s tariff 0 second = none := by
  simp [switchFails, hvalid, Nat.not_lt.mpr htariff]

theorem switchFails_of_past {second : Nat} (hpast : second ≤ s.time.rtcSec.toNat) :
    switchFails s tariff 1 second = some .boundaryPast := by
  rw [switchFails_atSecond hvalid htariff, if_neg (by omega), if_pos hpast]

theorem switchFails_of_ahead {second : Nat} (hahead : s.time.rtcSec.toNat < second)
    (hwithin : second ≤ s.time.rtcSec.toNat + 34560000) : switchFails s tariff 1 second = none := by
  rw [switchFails_atSecond hvalid htariff, if_neg (by omega), if_neg (by omega)]

theorem switchFails_of_tooFar {second : Nat} (hfar : s.time.rtcSec.toNat + 34560000 < second) :
    switchFails s tariff 1 second = some .argRange := by
  rw [switchFails_atSecond hvalid htariff, if_pos hfar]

end

/-! ### The watch ring (05 R167; R364, R370) -/

theorem exec_metCarryRing_of_running (hruns : s.met.running = true) : exec .metCarryRing s = .next (carryRing s) :=
  next_ifDo_of_true hruns _ _

end

/-! ### The signing of records (R371, R375, R385; 01 R56) -/

section
variable {s : State}

theorem declareFault_of_none (hsound : s.legal.fault = none) (cause : Nat) : declareFault cause s =
    changeState (fun h => { h with legalFault := true })
      (log 0x0051 noSubject (u8 cause) { s with legal := { s.legal with fault := some cause } }) :=
  if_neg (by rw [hsound]; decide)

theorem declareFault_of_fault (hfault : s.legal.fault ≠ none) (cause : Nat) : declareFault cause s = s :=
  if_pos (Option.isSome_iff_ne_none.mpr hfault)

/-- A record with its text and an empty signature object, under a legal partition fault. -/
def storedUnsigned (r : Record) (s : State) : State :=
  endMessages r [] (modClosed r.number (fun r => { r with text := recordText s.fab r none }) s)

/-- A record with its text and its signature, logged with its energy, announced and sent. -/
def storedSigned (o : Outlet) (r : Record) (sig : Bytes) (s : State) : State :=
  let text := recordText s.fab r (some sig)
  endMessages r text (raise .sessionRecordReady (u32 r.number ++ u32 text.length)
    (log 0x0060 o.num (u32 r.number ++ u32 (recordWh r)) (modClosed r.number (fun r => { r with signed := true, text }) s)))

/-- A signature that failed: the first time it is counted, the second time the record is stored without one under a fault. -/
def signingFailed (r : Record) (s : State) : State :=
  if r.failures = 0 then modClosed r.number (fun r => { r with failures := 1 }) s
  else endMessages r [] (declareFault 3 (modClosed r.number (fun r => { r with failures := 2, text := recordText s.fab r none }) s))

theorem exec_sessionRecordSigned_of_none {o : Outlet} (hnone : unsignedRecord s o = none) (ok : Bool) :
    exec (.sessionRecordSigned o ok) s = .next s := by
  change execSessionRecordSigned o ok s = _
  simp only [execSessionRecordSigned, hnone]

section
variable {o : Outlet} {r : Record} (hruns : s.met.running = true) (hr : unsignedRecord s o = some r)
include hruns hr

theorem exec_sessionRecordSigned_of_fault (hfault : s.legal.fault ≠ none) (ok : Bool) :
    exec (.sessionRecordSigned o ok) s = .next (storedUnsigned r s) := by
  change execSessionRecordSigned o ok s = _
  simp only [execSessionRecordSigned, hr, hruns, Option.isSome_iff_ne_none.mpr hfault]
  rfl

section
variable (hsound : s.legal.fault = none)
include hsound

theorem exec_sessionRecordSigned_of_signature {sig : Bytes} (hsig : legalSignature s (payloadText s.fab r) = some sig) :
    exec (.sessionRecordSigned o true) s = .next (storedSigned o r sig s) := by
  change execSessionRecordSigned o true s = _
  simp only [execSessionRecordSigned, hr, hruns, hsound, hsig]
  rfl

theorem exec_sessionRecordSigned_of_noSignature (hsig : legalSignature s (payloadText s.fab r) = none) :
    exec (.sessionRecordSigned o true) s = .next (signingFailed r s) := by
  change execSessionRecordSigned o true s = _
  simp only [execSessionRecordSigned, hr, hruns, hsound, hsig]
  rfl

theorem exec_sessionRecordSigned_of_notSigned : exec (.sessionRecordSigned o false) s = .next (signingFailed r s) := by
  change execSessionRecordSigned o false s = _
  simp only [execSessionRecordSigned, hr, hruns, hsound]
  rfl

end

end

end

/-! ### The statement on commands and records -/

/-- Settles O35: each clause is the lemma of its command, of its row, or of the check that it makes. -/
theorem tariffCommandsAndRecords : Obligations.TariffCommandsAndRecords := by
  unfold Obligations.TariffCommandsAndRecords
  refine ⟨fun s => ⟨fun mb b h => ⟨fun st => exec_tariffTableLoad_of_fails h, exec_tariffTableLoad_of_acceptable h⟩,
      fun es _ => ⟨tableVersion_acceptTable es s, acceptTable_copied es s⟩, ?tables,
      fun mb b h => ⟨fun st => exec_tariffSwitch_of_fails h, exec_tariffSwitch_of_acceptable h⟩,
      fun hvalid tariff second htariff => ⟨switchFails_of_past hvalid htariff, switchFails_of_ahead hvalid htariff,
        switchFails_of_tooFar hvalid htariff, switchFails_atBoundary hvalid htariff second⟩,
      exec_metCarryRing_of_running⟩,
    fun s o r ok hruns => ⟨fun hnone => exec_sessionRecordSigned_of_none hnone ok, fun hr =>
        ⟨fun hfault => exec_sessionRecordSigned_of_fault hruns hr hfault ok, fun hsound => ?sound⟩,
      fun hsound => declareFault_of_none hsound 3, fun hfault => declareFault_of_fault hfault 3⟩⟩
  case tables =>
    refine ⟨rfl, fun tariff minute hminute => ?accepted, fun tariff minute => ⟨?noDay, ?reservedDay⟩,
      fun tariff minute hlate => ?late, fun t u minute => tableFails_pair_of_sharedDay t u minute (by decide)⟩
    case accepted => simp [tableFails_singleton, entryOutOfRange, Nat.not_lt.mpr hminute]
    case noDay => simp [tableFails_singleton, entryOutOfRange]
    case reservedDay => simp [tableFails_singleton, entryOutOfRange]
    case late => simp [tableFails_singleton, entryOutOfRange, hlate]
  case sound =>
    refine ⟨?signing, exec_sessionRecordSigned_of_notSigned hruns hr hsound⟩
    cases hsig : legalSignature s (payloadText s.fab r) with
    | none => exact exec_sessionRecordSigned_of_noSignature hruns hr hsound hsig
    | some sig => exact exec_sessionRecordSigned_of_signature hruns hr hsound hsig

end Sys2Proof.Machine
end

section
/-! SUPPORT. The pilot and the cable of an outlet (11 Tables 11.2 and 11.3, R391 to R397, R419): the bands, and what each row does
with a reading, and the proof of PilotAndCable from them. -/

namespace Sys2Proof.Machine

/-! ### The states that a session is in, and the time since an instant -/

section
variable {s : State} {o : Outlet}

theorem stateIn_of_eq {st : SessState} (hstate : (s.veh.out.get o).state = st) (l : List SessState) : stateIn s o l = l.contains st := by
  rw [stateIn, hstate]

theorem stateIn_of_mem {l : List SessState} (hmem : (s.veh.out.get o).state ∈ l) : stateIn s o l = true :=
  List.contains_iff_mem.mpr hmem

theorem stateIn_of_notMem {l : List SessState} (hmem : (s.veh.out.get o).state ∉ l) : stateIn s o l = false :=
  Bool.eq_false_iff.mpr (mt List.contains_iff_mem.mp hmem)

theorem passedSince_some (l : Life) (n : Nat) : passedSince s (some l) n = decide (n ≤ (s.time.life - l).toNat) := rfl

end

theorem ifDo_decide (p : Prop) [Decidable p] (f : State → State) (s : State) : ifDo (decide p) f s = if p then f s else s := by
  by_cases h : p
  · rw [decide_eq_true h, ifDo_true, if_pos h]
  · rw [decide_eq_false h, ifDo_false, if_neg h]

/-! ### The bands of the pilot (Table 11.2, R391) -/

/-- A level that lies more than 0.3 V from every edge. -/
def ClearOfEdges (mv : Int) : Prop := ∀ e ∈ cpEdges, ¬ (mv - e).natAbs ≤ 300

theorem clearOfEdges_iff {mv : Int} : ClearOfEdges mv ↔ 10800 < mv ∨ (7800 < mv ∧ mv < 10200) ∨ (4800 < mv ∧ mv < 7200) ∨
    (1800 < mv ∧ mv < 4200) ∨ (-1200 < mv ∧ mv < 1200) ∨ mv < -1800 := by
  simp only [ClearOfEdges, cpEdges, List.forall_mem_cons, List.not_mem_nil, false_imp_iff, implies_true, and_true]
  omega

theorem cpNext_of_clear {mv : Int} (old : CpState) (hclear : ClearOfEdges mv) : cpNext old mv = cpBand mv :=
  if_neg (by simpa [ClearOfEdges] using hclear)

theorem cpNext_of_near {mv : Int} (old : CpState) (hnear : ¬ ClearOfEdges mv) : cpNext old mv = old :=
  if_pos (by simpa [ClearOfEdges] using hnear)

/-- The state read depends on the level and, near an edge only, on the state before. -/
theorem cpNext_spec (old : CpState) (mv : Int) : (10800 < mv → cpNext old mv = .a) ∧ (7800 < mv → mv < 10200 → cpNext old mv = .b) ∧
    (4800 < mv → mv < 7200 → cpNext old mv = .c) ∧ (1800 < mv → mv < 4200 → cpNext old mv = .d) ∧
    (-1200 < mv → mv < 1200 → cpNext old mv = .e) ∧ (mv < -1800 → cpNext old mv = .invalid) ∧
    ((mv - 10500).natAbs ≤ 300 ∨ (mv - 7500).natAbs ≤ 300 ∨ (mv - 4500).natAbs ≤ 300 ∨ (mv - 1500).natAbs ≤ 300 ∨
      (mv + 1500).natAbs ≤ 300 → cpNext old mv = old) := by
  have hband := fun h => (cpNext_of_clear old (clearOfEdges_iff.mpr h)).trans (cpBand.eq_1 mv)
  refine ⟨fun hlo => ?a, fun hlo hhi => ?b, fun hlo hhi => ?c, fun hlo hhi => ?d, fun hlo hhi => ?e, fun hhi => ?invalid,
    fun hnear => cpNext_of_near old (clearOfEdges_iff.not.mpr (by omega))⟩
  case a => rw [hband (by omega), if_pos (by omega)]
  case b => rw [hband (by omega), if_neg (by omega), if_pos (by omega)]
  case c => rw [hband (by omega), if_neg (by omega), if_neg (by omega), if_pos (by omega)]
  case d => rw [hband (by omega), if_neg (by omega), if_neg (by omega), if_neg (by omega), if_pos (by omega)]
  case e => rw [hband (by omega), if_neg (by omega), if_neg (by omega), if_neg (by omega), if_neg (by omega), if_pos (by omega)]
  case invalid => rw [hband (by omega), if_neg (by omega), if_neg (by omega), if_neg (by omega), if_neg (by omega), if_neg (by omega)]

section
variable {s : State} {o : Outlet}

/-! ### A reading of the pilot (R391, R393) -/

/-- The outlet with a changed pilot state and the times of A. -/
def withPilot (o : Outlet) (new : CpState) (s : State) : State :=
  modOut o (fun y => { y with
    cp := new, cpASince := if new = .a then some s.time.life else none
    lastA := if (s.veh.out.get o).cp = .a then some s.time.life else y.lastA }) s

theorem exec_cpStateChange_of_same {mv : Int} (hsame : cpNext (s.veh.out.get o).cp mv = (s.veh.out.get o).cp) :
    exec (.cpStateChange o mv) s = .next s :=
  next_ifDo_of_false (by rw [hsame, bne_self_eq_false, Bool.and_false]) _ _

theorem exec_cpStateChange_of_changed {mv : Int} (hread : pilotRead s o = true)
    (hnew : cpNext (s.veh.out.get o).cp mv ≠ (s.veh.out.get o).cp) :
    exec (.cpStateChange o mv) s =
      let old := (s.veh.out.get o).cp
      let new := cpNext old mv
      let t := withPilot o new s
      .next (pilotReact o old new (if old = .a ∨ new = .a then plugEvent o t else t)) := by
  refine (next_ifDo_of_true (by rw [hread, Bool.true_and, bne_iff_ne]; exact hnew) _ _).trans ?_
  rw [Bool.beq_eq_decide_eq, Bool.beq_eq_decide_eq, ← Bool.decide_or, ifDo_decide]
  rfl

/-! ### A reading of the cable (R394, R395, Table 11.11) -/

theorem exec_ppChange_of_unread (ohm : Nat) (h : outNat s o .ppMode ≠ 0 ∨ s.pwr.state ≠ .run) : exec (.ppChange o ohm) s = .next s := by
  refine next_ifDo_of_false ?_ _ _
  rcases h with hmode | hstate
  · rw [beq_false_of_ne hmode, Bool.and_false, Bool.false_and]
  · rw [beq_false_of_ne hstate, Bool.and_false, Bool.false_and, Bool.false_and]

/-- The outlet with a cable state taken and reported. -/
def withCable (o : Outlet) (new : PpState) (s : State) : State := plugEvent o (modOut o (fun y => { y with pp := new }) s)

/-- From step 8 in RUN the outlet reads its cable, and the reading changes its state. -/
structure CableChanges (s : State) (o : Outlet) (ohm : Nat) : Prop where
  new : ppOf ohm ≠ (s.veh.out.get o).pp
  step : 8 ≤ s.hif.startStep.toNat
  run : s.pwr.state = .run
  mode : outNat s o .ppMode = 0

section
variable {ohm : Nat} (h : CableChanges s o ohm)
include h

theorem CableChanges.read : (ppOf ohm != (s.veh.out.get o).pp && s.pwr.state == .run && outNat s o .ppMode == 0 &&
    decide (8 ≤ s.hif.startStep.toNat)) = true := by
  obtain ⟨hnew, hstep, hrun, hmode⟩ := h
  rw [bne_iff_ne.mpr hnew, hrun, hmode, decide_eq_true hstep]
  rfl

theorem exec_ppChange_of_dc (hdc : isDc s o = true) : exec (.ppChange o ohm) s = .next (withCable o (ppOf ohm) s) :=
  (next_ifDo_of_true h.read _ _).trans (congrArg Host.Outcome.next (if_pos hdc))

theorem exec_ppChange_of_idle (hac : isDc s o = false) (hstate : (s.veh.out.get o).state = .idle) :
    exec (.ppChange o ohm) s = .next (pluggedIn o (plugIn o (withCable o (ppOf ohm) s))) := by
  refine (next_ifDo_of_true h.read _ _).trans ?_
  simp only [hac, stateIn_of_eq hstate]
  rfl

theorem exec_ppChange_of_lost (hac : isDc s o = false) (hstate : (s.veh.out.get o).state = .transfer)
    (hlost : ppOf ohm = .fault ∨ ppOf ohm = .noCable) :
    exec (.ppChange o ohm) s = .next (pilotFault o causeCable .cable (withCable o (ppOf ohm) s)) := by
  refine (next_ifDo_of_true h.read _ _).trans ?_
  rcases hlost with hpp | hpp <;> simp only [hac, stateIn_of_eq hstate, hpp] <;> rfl

end

/-! ### The pilot's drive (R392, R397) -/

theorem exec_diodeFault_of_high {d : Nat} {mv : Int} (hpwm : (s.veh.out.get o).drive = .pwm d)
    (hforce : (s.veh.out.get o).force = none) (hcp : (s.veh.out.get o).cp = .b ∨ (s.veh.out.get o).cp = .c ∨ (s.veh.out.get o).cp = .d)
    (hstate : (s.veh.out.get o).state ∉ [.idle, .ended, .fault]) (hhigh : -10800 < mv) :
    exec (.diodeFault o mv) s = .next (pilotFault o causePilotFault .pilotFault s) := by
  refine next_ifDo_of_true ?_ _ _
  rw [hpwm, hforce, stateIn_of_notMem hstate, decide_eq_true hhigh]
  rcases hcp with hcp | hcp | hcp <;> rw [hcp] <;> rfl

theorem exec_diodeFault_of_low {mv : Int} (hlow : mv ≤ -10800) : exec (.diodeFault o mv) s = .next s :=
  next_ifDo_of_false (by rw [decide_eq_false (not_lt.mpr hlow), Bool.and_false, Bool.false_and]) _ _

/-! ### The end of a lockout (R419) -/

theorem exec_outletReenable_of_locked {l : Life} (hlocked : (s.veh.out.get o).lockout = true) (hcp : (s.veh.out.get o).cp = .a)
    (hsince : (s.veh.out.get o).cpASince = some l) : exec (.outletReenable o) s =
      .next (if 65536 ≤ (s.time.life - l).toNat then modOut o (fun y => { y with lockout := false }) s else s) := by
  change execOutletReenable o s = _
  rw [execOutletReenable, hlocked, hcp, hsince, beq_self_eq_true, Bool.true_and, Bool.true_and, passedSince_some, ifDo_decide]
  rfl

end

/-! ### The statement -/

/-- Settles O36: the bands are `cpNext_spec`, the resistances are `ppOf` itself, and each other clause is the lemma of its row. -/
theorem pilotAndCable : Obligations.PilotAndCable := by
  unfold Obligations.PilotAndCable
  refine fun s o => ⟨cpNext_spec, fun _ => rfl, fun mv hread => ⟨exec_cpStateChange_of_same, exec_cpStateChange_of_changed hread⟩,
    exec_ppChange_of_unread, fun ohm hnew hstep hrun hmode => ?cable, rfl,
    fun d mv hpwm hforce hcp hidle hended hfault => ⟨exec_diodeFault_of_high hpwm hforce hcp (by simp [hidle, hended, hfault]),
      exec_diodeFault_of_low⟩, fun l => exec_outletReenable_of_locked⟩
  case cable =>
    have h : CableChanges s o ohm := ⟨hnew, hstep, hrun, hmode⟩
    exact ⟨exec_ppChange_of_dc h, exec_ppChange_of_idle h, exec_ppChange_of_lost h⟩

end Sys2Proof.Machine
end

section
/-! SUPPORT. The handshake of an outlet with its vehicle (11 R389, R398 to R402, R415, R416, Tables 11.10 and 11.11): SLAC, SDP, the
protocol list, the vehicle's messages and the timers, and the proof of Handshake from them. -/

namespace Sys2Proof.Machine

section
variable {s : State} {o : Outlet}

/-! ### SLAC (R389, R398, Table 11.10) -/

/-- The attenuation is above the limit, or the other outlet heard the vehicle better. -/
abbrev MatchRefused (s : State) (o : Outlet) : Prop :=
  cfgNat (outCfg s o) s.fab (.gen .slacAtten) < (s.veh.out.get o).attenDb ∨ betterElsewhere s o = true

section
variable (hlink : linkUsable s o = true)
include hlink

theorem exec_cmSlacParam_of_usable (runId : BitVec 64) : exec (.cmSlacParam o runId) s =
    .next (modOut o (fun y => { y with slac := .param, runId := runId, attenDb := 0 }) s) :=
  next_ifDo_of_true hlink _ _

theorem exec_cmMnbcSound_of_param (hslac : (s.veh.out.get o).slac = .param) (attenDb : Nat) : exec (.cmMnbcSound o attenDb) s =
    .next (modOut o (fun y => { y with slac := .sounded, attenDb := attenDb }) s) :=
  next_ifDo_of_true (by rw [hlink, hslac]; rfl) _ _

section
variable (hslac : (s.veh.out.get o).slac = .sounded) (hrng : s.key.rngOk = true)
include hslac hrng

theorem exec_cmSlacMatch_of_sounded : exec (.cmSlacMatch o) s =
    .next (if MatchRefused s o then modOut o (fun y => { y with slac := .idle }) s
      else modOut o (fun y => { y with slac := .matched, nmk := padTo 16 (Config.random s.nd 16) }) (draw s)) :=
  next_ifDo_of_true (by rw [hlink, hslac, hrng]; rfl) _ _

theorem exec_cmSlacMatch_of_refused (href : MatchRefused s o) : exec (.cmSlacMatch o) s =
    .next (modOut o (fun y => { y with slac := .idle }) s) := by
  rw [exec_cmSlacMatch_of_sounded hlink hslac hrng, if_pos href]

theorem exec_cmSlacMatch_of_best (hatten : (s.veh.out.get o).attenDb ≤ cfgNat (outCfg s o) s.fab (.gen .slacAtten))
    (hbest : betterElsewhere s o = false) : exec (.cmSlacMatch o) s =
      .next (modOut o (fun y => { y with slac := .matched, nmk := padTo 16 (Config.random s.nd 16) }) { s with nd := s.nd + 1 }) := by
  rw [exec_cmSlacMatch_of_sounded hlink hslac hrng, if_neg (not_or.mpr ⟨not_lt.mpr hatten, Bool.eq_false_iff.mp hbest⟩)]
  rfl

end

/-! ### SDP (R399) -/

theorem exec_sdpRequest_of_tls (hslac : (s.veh.out.get o).slac = .matched) (hstate : (s.veh.out.get o).state = .plugged) :
    exec (.sdpRequest o true) s = .next (enter o .negotiating .none (modOut o (fun y => { y with sdp := .tls }) s)) := by
  refine (next_ifDo_of_true (by rw [hlink, hslac]; rfl) _ _).trans (next_ifDo_of_true ?_ _ _)
  rw [stateIn_of_eq hstate]
  rfl

omit hlink in
theorem exec_sdpRequest_of_tcpBarred (htls : outBool s o .tlsRequired = true) : exec (.sdpRequest o false) s = .next s :=
  next_ifDo_of_false (by rw [htls]; exact Bool.and_false _) _ _

/-! ### The protocol list (R400) -/

/-- The first configured protocol that the vehicle offers and that the outlet can run. -/
def firstProtocol (s : State) (o : Outlet) (offered : List Protocol) : Option Protocol :=
  ((cfgItems (outCfg s o) s.fab (.out o .protocols)).map protocolOf).find? (fun p => offered.contains p && protocolFits s o p)

section
variable (hsdp : (s.veh.out.get o).sdp ≠ .none) (hstate : (s.veh.out.get o).state = .negotiating) {offered : List Protocol}
include hsdp hstate

theorem supportedAppProtocol_heard :
    (linkUsable s o && (s.veh.out.get o).sdp != .none && stateIn s o [.plugged, .authorising, .negotiating]) = true := by
  rw [hlink, bne_iff_ne.mpr hsdp, stateIn_of_eq hstate]
  rfl

theorem exec_supportedAppProtocol_of_some {p : Protocol} (hfirst : firstProtocol s o offered = some p) :
    exec (.supportedAppProtocol o offered) s = .next (modOut o (fun y => { y with protocol := some p }) s) := by
  refine (next_ifDo_of_true (supportedAppProtocol_heard hlink hsdp hstate) _ _).trans ?_
  rw [firstProtocol] at hfirst
  simp only [hfirst]

/-- With no protocol in common the outlet falls back to PWM where it may, and stops where it may not. -/
theorem exec_supportedAppProtocol_of_none (hfirst : firstProtocol s o offered = none) :
    exec (.supportedAppProtocol o offered) s = .next (if !isDc s o && outBool s o .pwmFallback then basic o s
      else stopSession o .noProtocol .normal s) := by
  refine (next_ifDo_of_true (supportedAppProtocol_heard hlink hsdp hstate) _ _).trans ?_
  rw [firstProtocol] at hfirst
  simp only [hfirst]

theorem exec_supportedAppProtocol_of_barred (hfirst : firstProtocol s o offered = none)
    (hbarred : isDc s o = true ∨ outBool s o .pwmFallback = false) :
    exec (.supportedAppProtocol o offered) s = .next (stopSession o .noProtocol .normal s) := by
  have hno : (!isDc s o && outBool s o .pwmFallback) = false :=
    Bool.and_eq_false_iff.mpr (hbarred.imp_left fun hdc => by rw [hdc, Bool.not_true])
  rw [exec_supportedAppProtocol_of_none hlink hsdp hstate hfirst, hno]
  rfl

theorem exec_supportedAppProtocol_of_fallback (hfirst : firstProtocol s o offered = none) (hac : isDc s o = false)
    (hmay : outBool s o .pwmFallback = true) : exec (.supportedAppProtocol o offered) s = .next (basic o s) := by
  rw [exec_supportedAppProtocol_of_none hlink hsdp hstate hfirst, hac, hmay]
  rfl

end

end

/-! ### The vehicle's messages (R402, Tables 11.5 and 11.6) -/

section
variable (hhlc : isHlc (s.veh.out.get o) = true) (hstate : (s.veh.out.get o).state ∉ [.idle, .stopping, .ended, .fault])
include hhlc hstate

theorem protocolMessage_heard : ¬ (!isHlc (s.veh.out.get o) || stateIn s o [.idle, .stopping, .ended, .fault]) = true := by
  rw [hhlc, stateIn_of_notMem hstate]
  exact Bool.false_ne_true

theorem exec_protocolMessage_of_parameters (v : VehLimits) (b : Bool) : exec (.protocolMessage o (.parameters v b)) s =
    .next (retarget o false (modOut o (fun y => { y with veh := some v, bidir := b && y.protocol == some .iso20 }) s)) :=
  congrArg Host.Outcome.next (if_neg (protocolMessage_heard hhlc hstate))

theorem exec_protocolMessage_of_pause : exec (.protocolMessage o .pause) s =
    .next (pauseOrResume o (modOut o (fun y => { y with vehPaused := true }) s)) :=
  congrArg Host.Outcome.next (if_neg (protocolMessage_heard hhlc hstate))

theorem exec_protocolMessage_of_resume : exec (.protocolMessage o .resume) s =
    .next (pauseOrResume o (modOut o (fun y => { y with vehPaused := false }) s)) :=
  congrArg Host.Outcome.next (if_neg (protocolMessage_heard hhlc hstate))

theorem exec_protocolMessage_of_stop : exec (.protocolMessage o .stop) s = .next (stopSession o .vehicleStop .normal s) :=
  congrArg Host.Outcome.next (if_neg (protocolMessage_heard hhlc hstate))

theorem exec_protocolMessage_of_authorisation (hauth : (s.veh.out.get o).authorised = true)
    (hwaits : (s.veh.out.get o).state = .authorising) :
    exec (.protocolMessage o .authorisation) s = .next (enter o .negotiating .none s) :=
  (congrArg Host.Outcome.next (if_neg (protocolMessage_heard hhlc hstate))).trans
    (next_ifDo_of_true (by rw [hauth, stateIn_of_eq hwaits]; rfl) _ _)

end

/-! ### The timers (R415, R416, Table 11.11) -/

section
variable {l : Life}

theorem exec_pauseTimeout_of_paused (hstate : (s.veh.out.get o).state = .paused) (hsince : (s.veh.out.get o).pauseSince = some l) :
    exec (.pauseTimeout o) s =
      .next (if 86400 * 32768 ≤ (s.time.life - l).toNat then stopSession o .pauseTimeout .normal s else s) := by
  change execPauseTimeout o s = _
  rw [execPauseTimeout, stateIn_of_mem (by simp [hstate]), Bool.true_and, hsince, passedSince_some, ifDo_decide, secs]

theorem exec_stopTimeout_of_stopping (hstate : (s.veh.out.get o).state = .stopping) (hsince : (s.veh.out.get o).stopSince = some l) :
    exec (.stopTimeout o) s = .next (if cfgNat (outCfg s o) s.fab (.gen .stopTimeout) * 32768 ≤ (s.time.life - l).toNat
      then openForStop o s else s) := by
  change execStopTimeout o s = _
  rw [execStopTimeout, stateIn_of_mem (by simp [hstate]), Bool.true_and, hsince, passedSince_some, ifDo_decide, secs]

end

section
variable (hstate : (s.veh.out.get o).state ∈ [.authorising, .negotiating, .insulation, .preCharge])
include hstate

theorem handshakeOver_of_handshaking : handshakeOver s o = decide (60 * 32768 ≤ (s.time.life - (s.veh.out.get o).since).toNat) := by
  rw [handshakeOver, stateIn_of_mem hstate, Bool.true_and, passedSince_some, secs]

theorem exec_handshakeTimeout_of_handshaking : exec (.handshakeTimeout o) s =
    .next (if 60 * 32768 ≤ (s.time.life - (s.veh.out.get o).since).toNat then stopSession o .handshakeTimeout .normal s else s) := by
  change execHandshakeTimeout o s = _
  rw [execHandshakeTimeout, handshakeOver_of_handshaking hstate, ifDo_decide]

end

/-- The protocol's own handshake timer does what the row of the 60 s does. -/
theorem exec_protocolTimeout_handshake : exec (.protocolTimeout o .handshake) s = exec (.handshakeTimeout o) s := rfl

theorem exec_protocolTimeout_of_insulation (hstate : (s.veh.out.get o).state = .insulation) :
    exec (.protocolTimeout o .cableCheck) s = .next (enterFault o .insulation s) :=
  next_ifDo_of_true (stateIn_of_mem (by simp [hstate])) _ _

theorem exec_protocolTimeout_of_notReady (hstate : (s.veh.out.get o).state = .preCharge) (hready : (s.veh.out.get o).preReady = false) :
    exec (.protocolTimeout o .preCharge) s = .next (enterFault o .preCharge s) :=
  next_ifDo_of_true (by rw [hready, stateIn_of_mem (by simp [hstate])]; rfl) _ _

section
variable (hstate : (s.veh.out.get o).state = .transfer) (hslac : (s.veh.out.get o).slac = .matched)
include hstate hslac

theorem matched_and_live : ((s.veh.out.get o).slac == .matched && !stateIn s o [.idle, .stopping, .ended, .fault]) = true := by
  rw [hslac, stateIn_of_notMem (by simp [hstate])]
  rfl

theorem exec_protocolTimeout_message_of_matched : exec (.protocolTimeout o .message) s = .next (communicationEnd o s) :=
  next_ifDo_of_true (matched_and_live hstate hslac) _ _

theorem exec_protocolTimeout_session_of_matched : exec (.protocolTimeout o .session) s = .next (communicationEnd o s) :=
  next_ifDo_of_true (matched_and_live hstate hslac) _ _

end

end

/-! ### The statement -/

/-- Settles O37: each clause is the lemma of its row. -/
theorem handshake : Obligations.Handshake := by
  unfold Obligations.Handshake
  refine fun s o => ⟨fun hlink => ⟨exec_cmSlacParam_of_usable hlink, exec_cmMnbcSound_of_param hlink,
      fun hslac hrng => ⟨exec_cmSlacMatch_of_best hlink hslac hrng, exec_cmSlacMatch_of_refused hlink hslac hrng⟩,
      exec_sdpRequest_of_tls hlink, fun _ => exec_sdpRequest_of_tcpBarred,
      fun hsdp hstate l => ⟨fun p => exec_supportedAppProtocol_of_some hlink hsdp hstate,
        exec_supportedAppProtocol_of_barred hlink hsdp hstate, exec_supportedAppProtocol_of_fallback hlink hsdp hstate⟩⟩,
    fun hhlc hidle hstopping hended hfault => ?messages,
    fun l => exec_pauseTimeout_of_paused, fun l => exec_stopTimeout_of_stopping, fun hstate => ?late,
    exec_protocolTimeout_of_insulation, exec_protocolTimeout_of_notReady,
    fun hstate hslac => ⟨exec_protocolTimeout_message_of_matched hstate hslac, exec_protocolTimeout_session_of_matched hstate hslac⟩⟩
  case messages =>
    have hstate : (s.veh.out.get o).state ∉ [.idle, .stopping, .ended, .fault] := by simp [hidle, hstopping, hended, hfault]
    exact ⟨exec_protocolMessage_of_parameters hhlc hstate, exec_protocolMessage_of_pause hhlc hstate,
      exec_protocolMessage_of_resume hhlc hstate, exec_protocolMessage_of_stop hhlc hstate,
      exec_protocolMessage_of_authorisation hhlc hstate⟩
  case late =>
    have hlate := exec_handshakeTimeout_of_handshaking (by simpa using hstate)
    exact ⟨hlate, exec_protocolTimeout_handshake.trans hlate⟩

end Sys2Proof.Machine
end

section
/-! SUPPORT. The back office's requests (11 R407; 15 R541 to R553, R559, Table 15.5; 18 R636): what each row answers while the
application runs and is connected, and the proof of OperatorRequests from them. -/

namespace Sys2Proof.Machine

/-! ### A request that reaches the application (R537, R559) -/

theorem withinMessage_of_le {bytes : Nat} (hfits : bytes ≤ 65536) (f : State → State) (s : State) : withinMessage bytes f s = f s :=
  if_neg (Nat.not_lt.mpr hfits)

theorem withinMessage_of_gt {bytes : Nat} (hlong : 65536 < bytes) (f : State → State) (s : State) : withinMessage bytes f s =
    answerText (if ocppVersion s = some 0 then "FormationViolation" else "FormatViolation") s :=
  if_pos hlong

section
variable {s : State} (hruns : appRuns s = true)
include hruns

theorem exec_chargingProfilePeriod_of_runs (o : Outlet) : exec (.chargingProfilePeriod o) s = .next (reschedule o s) :=
  next_ifDo_of_true hruns _ _

theorem exec_reservationExpire_of_runs (n : Nat) :
    let waits := fun (r : Reservation) => s.svc.waiting.any (fun w => reservationFits s r w.id)
    exec (.reservationExpire n) s = .next (reportStatus s { s with svc := { s.svc with reservations := s.svc.reservations.filterMap (fun r =>
      if r.number ≠ n ∨ s.time.rtcSec.toNat < r.expiry then some r else if waits r then some { r with ended := true } else none) } }) :=
  next_ifDo_of_true hruns _ _

variable (hconn : s.svc.connected = true)
include hconn

theorem fromOperator_of_connected (f : State → State) : fromOperator f s = f s := by
  rw [fromOperator, hconn, hruns, Bool.and_self, ifDo_true]

/-- What a request of the back office does, once it reaches the application. -/
theorem next_fromOperator (f : State → State) : (.next (fromOperator f s) : Out) = .next (f s) :=
  congrArg Host.Outcome.next (fromOperator_of_connected hruns hconn f)

/-! ### The local list and the cache (R548, R559) -/

/-- The entries that stay in the list of a differential or a full update. -/
def keptEntries (full : Bool) (l : List ListEntry) (s : State) : List ListEntry :=
  if full then [] else s.app.list.filter (fun e => !(l.map ListEntry.id).contains e.id)

/-- The list that a SendLocalList gives. -/
def newList (full : Bool) (l : List ListEntry) (s : State) : List ListEntry :=
  keptEntries full l s ++ l.filter (fun e => e.status.isSome)

/-- The bytes of text that the entries of a SendLocalList carry. -/
def listBytes (l : List ListEntry) : Nat := (l.map (fun e => e.id.length + e.parent.length)).sum

section
variable (v : Nat) {full : Bool} {l : List ListEntry}

theorem exec_sendLocalList_of_long (hlong : 65536 < listBytes l) : exec (.sendLocalList v full l) s =
    .next (answerText (if ocppVersion s = some 0 then "FormationViolation" else "FormatViolation") s) :=
  (next_fromOperator hruns hconn _).trans (congrArg Host.Outcome.next (withinMessage_of_gt hlong _ _))

variable (hfits : listBytes l ≤ 65536)
include hfits

theorem exec_sendLocalList_of_fits : exec (.sendLocalList v full l) s =
    .next (if 500 < l.length ∨ 10000 < (newList full l s).length then answerText "Failed" s
      else answer true { s with app := { s.app with list := newList full l s, listVersion := v } }) :=
  (next_fromOperator hruns hconn _).trans (congrArg Host.Outcome.next (withinMessage_of_le hfits _ _))

theorem exec_sendLocalList_of_many (hmany : 500 < l.length ∨ 10000 < (newList full l s).length) :
    exec (.sendLocalList v full l) s = .next (answerText "Failed" s) := by
  rw [exec_sendLocalList_of_fits hruns hconn v hfits, if_pos hmany]

theorem exec_sendLocalList_of_few (hsent : l.length ≤ 500) (hkept : (newList full l s).length ≤ 10000) :
    exec (.sendLocalList v full l) s =
      .next (answer true { s with app := { s.app with list := newList full l s, listVersion := v } }) := by
  rw [exec_sendLocalList_of_fits hruns hconn v hfits, if_neg (not_or.mpr ⟨not_lt.mpr hsent, not_lt.mpr hkept⟩)]

end

theorem exec_clearCache_of_connected : exec .clearCache s = .next (answer true { s with app := { s.app with cache := [] } }) :=
  next_fromOperator hruns hconn _

/-! ### Remote starts and stops (R552, Table 15.5) -/

section
variable {o : Outlet} (k : Nat) {id : Bytes}

/-- The outlet waits for an identity, or is idle with none held for it. -/
def takesIdentity (s : State) (o : Outlet) : Bool :=
  waitsForId s o || (stateIn s o [.idle] && !s.svc.heldIds.any (fun h => h.outlet == some o))

theorem exec_remoteStart_of_connected : exec (.remoteStart o k id) s =
    .next (if mayStart s o id && takesIdentity s o then answer true (bindId (some o) k id 2 s) else answer false s) :=
  next_fromOperator hruns hconn _

theorem exec_remoteStart_of_barred (hbarred : mayStart s o id = false) : exec (.remoteStart o k id) s = .next (answer false s) := by
  rw [exec_remoteStart_of_connected hruns hconn, hbarred]
  rfl

section
variable (hmay : mayStart s o id = true)
include hmay

theorem exec_remoteStart_of_waiting (hwaits : waitsForId s o = true) :
    exec (.remoteStart o k id) s = .next (answer true (bindId (some o) k id 2 s)) := by
  rw [exec_remoteStart_of_connected hruns hconn, hmay, takesIdentity, hwaits]
  rfl

theorem exec_remoteStart_of_idle (hidle : stateIn s o [.idle] = true)
    (hnone : s.svc.heldIds.any (fun h => h.outlet == some o) = false) :
    exec (.remoteStart o k id) s = .next (answer true (bindId (some o) k id 2 s)) := by
  rw [exec_remoteStart_of_connected hruns hconn, hmay, takesIdentity, hidle, hnone, Bool.not_false, Bool.and_self, Bool.or_true]
  rfl

end

end

section
variable {n : Nat}

theorem exec_operatorStop_of_some {o : Outlet} (hsession : sessionOf s n = some o) :
    exec (.operatorStop n) s = .next (answer true (stopSession o .operatorStop .requested s)) := by
  refine (next_fromOperator hruns hconn _).trans ?_
  simp only [hsession]

theorem exec_operatorStop_of_none (hsession : sessionOf s n = none) : exec (.operatorStop n) s = .next (answer false s) := by
  refine (next_fromOperator hruns hconn _).trans ?_
  simp only [hsession]

/-! ### Reservations (R541, R553) -/

section
variable (hversion : ocppVersion s ≠ some 0)
include hversion

theorem exec_reserveNow_of_unserved (o : Option Outlet) (n : Nat) (id p : Bytes) (x : Nat) :
    exec (.reserveNow o n id p x) s = .next (answerText "NotSupported" s) :=
  (next_fromOperator hruns hconn _).trans (congrArg Host.Outcome.next (if_pos hversion))

theorem exec_cancelReservation_of_unserved (n : Nat) : exec (.cancelReservation n) s = .next (answerText "NotSupported" s) :=
  (next_fromOperator hruns hconn _).trans (congrArg Host.Outcome.next (if_pos hversion))

end

section
variable (hversion : ocppVersion s = some 0)
include hversion

/-- A reservation stored in the place of the one of its number. -/
def withReservation (r : Reservation) (s : State) : State :=
  { s with svc := { s.svc with reservations := s.svc.reservations.filter (fun y => y.number != r.number) ++ [r] } }

section
variable {o : Option Outlet} {x : Nat} (id p : Bytes)

/-- Under 1.6J a reservation that may be made replaces the one of its number, and any other is Rejected. -/
theorem exec_reserveNow_of_served : exec (.reserveNow o n id p x) s =
    .next (if mayReserve s o n x then
        reportStatus s (answer true (withReservation { number := n, outlet := o, id := id, parent := p, expiry := x } s))
      else answer false s) :=
  (next_fromOperator hruns hconn _).trans (congrArg Host.Outcome.next (if_neg (not_not.mpr hversion)))

theorem exec_reserveNow_of_possible (hmay : mayReserve s o n x = true) : exec (.reserveNow o n id p x) s =
    .next (reportStatus s (answer true (withReservation { number := n, outlet := o, id := id, parent := p, expiry := x } s))) := by
  rw [exec_reserveNow_of_served hruns hconn hversion, if_pos hmay]

theorem exec_reserveNow_of_barred (hmay : mayReserve s o n x = false) :
    exec (.reserveNow o n id p x) s = .next (answer false s) := by
  rw [exec_reserveNow_of_served hruns hconn hversion, if_neg (Bool.eq_false_iff.mp hmay)]

end

theorem exec_cancelReservation_of_served : exec (.cancelReservation n) s =
    .next (if s.svc.reservations.any (fun r => r.number == n) then reportStatus s (answer true (dropReservation n s))
      else answer false s) :=
  (next_fromOperator hruns hconn _).trans (congrArg Host.Outcome.next (if_neg (not_not.mpr hversion)))

theorem exec_cancelReservation_of_known (hany : s.svc.reservations.any (fun r => r.number == n) = true) :
    exec (.cancelReservation n) s = .next (reportStatus s (answer true (dropReservation n s))) := by
  rw [exec_cancelReservation_of_served hruns hconn hversion, if_pos hany]

theorem exec_cancelReservation_of_unknown (hany : s.svc.reservations.any (fun r => r.number == n) = false) :
    exec (.cancelReservation n) s = .next (answer false s) := by
  rw [exec_cancelReservation_of_served hruns hconn hversion, if_neg (Bool.eq_false_iff.mp hany)]

end

end

/-! ### Configuration (R546) -/

section
variable {name v : Bytes} (hfits : name.length + v.length ≤ 65536)
include hfits

theorem exec_changeConfiguration_of_foreign (hkey : operatorKey name = none) : exec (.changeConfiguration name v) s =
    .next (answerText (if ocppVersion s = some 0 then "NotSupported" else "UnknownVariable") s) := by
  refine ((next_fromOperator hruns hconn _).trans (congrArg Host.Outcome.next (withinMessage_of_le hfits _ _))).trans ?_
  simp only [hkey]

theorem exec_changeConfiguration_of_key {k : Key} (hkey : operatorKey name = some k) : exec (.changeConfiguration name v) s =
    .next (if onTrial s then answer false s else changeKey k v s) := by
  refine ((next_fromOperator hruns hconn _).trans (congrArg Host.Outcome.next (withinMessage_of_le hfits _ _))).trans ?_
  simp only [hkey]

theorem exec_changeConfiguration_of_trial {k : Key} (hkey : operatorKey name = some k) (htrial : onTrial s = true) :
    exec (.changeConfiguration name v) s = .next (answer false s) := by
  rw [exec_changeConfiguration_of_key hruns hconn hfits hkey, if_pos htrial]

theorem exec_changeConfiguration_of_settled {k : Key} (hkey : operatorKey name = some k) (htrial : onTrial s = false) :
    exec (.changeConfiguration name v) s = .next (changeKey k v s) := by
  rw [exec_changeConfiguration_of_key hruns hconn hfits hkey, if_neg (Bool.eq_false_iff.mp htrial)]

end

/-! ### Tariffs (R545) -/

section
variable {t b x : Nat}

theorem exec_tariffSwitchDatatransfer_of_connected : exec (.tariffSwitchDatatransfer t b x) s =
    .next (tariffAnswer (switchFails s t b x) (.tariffSwitch t b x) s) :=
  next_fromOperator hruns hconn _

theorem exec_tariffSwitchDatatransfer_of_taken (hpass : switchFails s t b x = none) :
    exec (.tariffSwitchDatatransfer t b x) s = .next (answer true (metRequest (.tariffSwitch t b x) s)) := by
  rw [exec_tariffSwitchDatatransfer_of_connected hruns hconn, hpass]
  rfl

theorem exec_tariffSwitchDatatransfer_of_refused {st : Status} (hfails : switchFails s t b x = some st) :
    exec (.tariffSwitchDatatransfer t b x) s = .next (answerText ("Rejected " ++ tariffStatusName st) s) := by
  rw [exec_tariffSwitchDatatransfer_of_connected hruns hconn, hfails]
  rfl

end

/-- The entries as MET takes them. -/
def metEntries (l : List TariffEntry) : List (Nat × BitVec 8 × Nat) := l.map (fun e => (e.tariff, BitVec.ofNat 8 e.days, e.minute))

/-- The request that a DataTransfer with a tariff table makes to MET, with the local time of the configuration. -/
def tableRequest (l : List TariffEntry) (s : State) : MetRequest :=
  .tariffTable (metEntries l) (cfgInt s.cfg s.fab (.gen .utcOffset)) (cfgText s.cfg s.fab (.gen .dstRule))

section
variable {l : List TariffEntry} (hdays : l.any (fun e => decide (255 < e.days)) = false)
include hdays

theorem exec_tariffTableDatatransfer_of_days : exec (.tariffTableDatatransfer l) s =
    .next (tariffAnswer (tableFails (metEntries l)) (tableRequest l s) s) := by
  refine (next_fromOperator hruns hconn _).trans ?_
  simp only [hdays]
  rfl

theorem exec_tariffTableDatatransfer_of_taken (hpass : tableFails (metEntries l) = none) :
    exec (.tariffTableDatatransfer l) s = .next (answer true (metRequest (tableRequest l s) s)) := by
  rw [exec_tariffTableDatatransfer_of_days hruns hconn hdays, hpass]
  rfl

theorem exec_tariffTableDatatransfer_of_refused {st : Status} (hfails : tableFails (metEntries l) = some st) :
    exec (.tariffTableDatatransfer l) s = .next (answerText ("Rejected " ++ tariffStatusName st) s) := by
  rw [exec_tariffTableDatatransfer_of_days hruns hconn hdays, hfails]
  rfl

end

/-! ### Charging profiles (R541, R559) -/

section
variable {o : Outlet} {p : ChargingProfile}

theorem exec_setChargingProfile_of_refused (href : 24 < p.periods.length ∨ 8 < (storeProfile p (s.svc.profiles.get o)).length ∨
    (p.purpose = 2 ∧ sessionOpen s o = false)) : exec (.setChargingProfile o p) s = .next (answer false s) := by
  refine (next_fromOperator hruns hconn _).trans (congrArg Host.Outcome.next (if_pos ?_))
  rcases href with hperiods | hstored | ⟨htx, hclosed⟩
  · exact .inl hperiods
  · exact .inr (.inl hstored)
  · exact .inr (.inr (.inr ⟨htx, by rw [hclosed]; rfl⟩))

theorem exec_setChargingProfile_of_stored (hperiods : p.periods.length ≤ 24)
    (hstored : (storeProfile p (s.svc.profiles.get o)).length ≤ 8) (hpurpose : p.purpose < 2) :
    exec (.setChargingProfile o p) s = .next (answer true (reschedule o { s with svc := { s.svc with
      profiles := s.svc.profiles.modify o (fun _ => storeProfile p (s.svc.profiles.get o)) } })) := by
  refine (next_fromOperator hruns hconn _).trans (congrArg Host.Outcome.next (if_neg ?_))
  rintro (hmany | hfull | hreserved | ⟨htx, -⟩)
  · exact absurd hmany (not_lt.mpr hperiods)
  · exact absurd hfull (not_lt.mpr hstored)
  · exact absurd hreserved (lt_asymm hpurpose)
  · exact absurd htx (ne_of_lt hpurpose)

end

/-! ### Certificates (18 R636) -/

theorem exec_installCertificate_of_fits {k : Nat} {der : Bytes} (hfits : der.length ≤ 65536) :
    exec (.installCertificate (.install k der)) s =
      .next (answer true { s with app := { s.app with certs := s.app.certs.filter (fun c => c != (k, der)) ++ [(k, der)] } }) :=
  (next_fromOperator hruns hconn _).trans (congrArg Host.Outcome.next (withinMessage_of_le hfits _ _))

theorem exec_installCertificate_of_unknown {h : Bytes} (hnone : s.app.certs.any (fun c => Config.certHash c.2 == h) = false) :
    exec (.installCertificate (.delete h)) s = .next (answerText "NotFound" s) :=
  (next_fromOperator hruns hconn _).trans (congrArg Host.Outcome.next (if_neg (Bool.eq_false_iff.mp hnone)))

end

/-! ### The statement -/

/-- Settles O51: each clause is the lemma of its row. -/
theorem operatorRequests : Obligations.OperatorRequests := by
  unfold Obligations.OperatorRequests
  intro s hruns
  refine ⟨exec_chargingProfilePeriod_of_runs hruns, exec_reservationExpire_of_runs hruns, fun hconn => ?connected⟩
  exact ⟨fun v full l => ⟨exec_sendLocalList_of_long hruns hconn v, exec_sendLocalList_of_many hruns hconn v,
      exec_sendLocalList_of_few hruns hconn v⟩,
    exec_clearCache_of_connected hruns hconn,
    fun o k id => ⟨exec_remoteStart_of_waiting hruns hconn k, exec_remoteStart_of_idle hruns hconn k,
      exec_remoteStart_of_barred hruns hconn k⟩,
    fun n => ⟨fun o => exec_operatorStop_of_some hruns hconn, exec_operatorStop_of_none hruns hconn⟩,
    fun hversion => ⟨exec_reserveNow_of_unserved hruns hconn hversion, exec_cancelReservation_of_unserved hruns hconn hversion⟩,
    fun hversion => ⟨fun o n id p x => ⟨exec_reserveNow_of_possible hruns hconn hversion id p,
        exec_reserveNow_of_barred hruns hconn hversion id p⟩,
      fun n => ⟨exec_cancelReservation_of_known hruns hconn hversion, exec_cancelReservation_of_unknown hruns hconn hversion⟩⟩,
    fun name v hfits => ⟨exec_changeConfiguration_of_foreign hruns hconn hfits,
      fun k => exec_changeConfiguration_of_trial hruns hconn hfits, fun k => exec_changeConfiguration_of_settled hruns hconn hfits⟩,
    fun t b x => ⟨exec_tariffSwitchDatatransfer_of_taken hruns hconn, fun st => exec_tariffSwitchDatatransfer_of_refused hruns hconn⟩,
    fun l hdays => ⟨exec_tariffTableDatatransfer_of_taken hruns hconn hdays,
      fun st => exec_tariffTableDatatransfer_of_refused hruns hconn hdays⟩,
    fun o p => ⟨exec_setChargingProfile_of_refused hruns hconn, exec_setChargingProfile_of_stored hruns hconn⟩,
    fun k der => exec_installCertificate_of_fits hruns hconn, fun h => exec_installCertificate_of_unknown hruns hconn⟩

end Sys2Proof.Machine
end

section
/-! SUPPORT. The residual current and its sensor, the insulation monitor's check of itself, PE and PEN (12 R429 to R435, Tables 12.2,
12.3 and 12.5): the tiers of a cycle, what each row does while the safety core runs, and the proof of ResidualEarthAndInsulation
from them. -/

namespace Sys2Proof.Machine

/-! ### A row of the running safety core -/

section
variable {s : State} {c : Bool}

theorem next_ifDo_supervised (hruns : s.saf.running = true) (hc : c = true) (f : State → State) :
    (.next (ifDo (c && s.saf.running) f s) : Out) = .next (f s) :=
  next_ifDo_of_true (by rw [hc, hruns]; rfl) f s

theorem next_ifDo_unserved (hc : c = false) (f : State → State) : (.next (ifDo (c && s.saf.running) f s) : Out) = .next s :=
  next_ifDo_of_false (by rw [hc]; rfl) f s

end

/-! ### The tiers of residual direct current (R429, R430, Table 12.3) -/

/-- A tier's count stepped by a condition. -/
theorem tierNext_spec {m n : Nat} {p : Prop} [Decidable p] (h : m = tierNext n (decide p)) : (p → m = n + 1) ∧ (¬ p → m = 0) :=
  ⟨fun hp => h.trans (if_pos (decide_eq_true hp)), fun hp => h.trans (if_neg (decide_eq_true_iff.not.mpr hp))⟩

section
variable {ws : List Word32}

/-- The words of a cycle lie beyond a tier: their mean does at the sensor's sensitivity, or one of them is SAT (R429). -/
abbrev RcdBeyond (mvPerMa : Nat) (ws : List Word32) (ua : Nat) : Prop :=
  ws.any wordSat = true ∨ ua * (ws.length * (8388608 * mvPerMa)) ≤ 2500000 * ((ws.map wordValue).foldl (· + ·) 0).natAbs

/-- A cycle with a word steps each tier by whether its words lie beyond it. -/
theorem rcdNext_tiers (hws : ws ≠ []) (mvPerMa : Nat) (r : Rcd) :
    (rcdNext mvPerMa ws r).tier1 = tierNext r.tier1 (decide (RcdBeyond mvPerMa ws 4500)) ∧
    (rcdNext mvPerMa ws r).tier2 = tierNext r.tier2 (decide (RcdBeyond mvPerMa ws 45000)) ∧
    (rcdNext mvPerMa ws r).tier3 = tierNext r.tier3 (decide (RcdBeyond mvPerMa ws 150000)) := by
  simp only [Bool.decide_or, Bool.decide_eq_true]
  rw [rcdNext, if_neg (List.length_eq_zero_iff.not.mpr hws)]
  exact ⟨rfl, rfl, rfl⟩

theorem rcdNext_nil (mvPerMa : Nat) (r : Rcd) : rcdNext mvPerMa [] r = r := rfl

theorem rcdTrips_iff {r : Rcd} : rcdTrips r = true ↔ 400 ≤ r.tier1 ∨ 10 ≤ r.tier2 ∨ 2 ≤ r.tier3 := by
  simp only [rcdTrips, Bool.or_eq_true, decide_eq_true_eq, or_assoc]

end

/-! ### The verdicts of the sensor test and of the insulation monitor's check (R431, R433) -/

theorem rcdTestPasses_iff {rise : Int} {ohm : Nat} :
    rcdTestPasses rise ohm = true ↔ 7000 ≤ rise ∧ rise ≤ 13000 ∧ 1 ≤ ohm ∧ ohm ≤ 200 := by
  simp only [rcdTestPasses, Bool.and_eq_true, decide_eq_true_eq, and_assoc]

/-- The change of the PE potential lies within a tenth of the amount computed. -/
theorem imdCheck_iff {mv want : Nat} : 10 * ((mv : Int) - want).natAbs ≤ want ↔ 9 * want ≤ 10 * mv ∧ 10 * mv ≤ 11 * want := by
  omega

section
variable {s : State} {o : Outlet}

/-! ### SF01 and SF02 on an outlet that they do not serve (Table 12.5) -/

section
variable (hrcd : hasRcd s o = false)
include hrcd

theorem exec_residualDcCycle_of_unserved : exec (.residualDcCycle o) s = .next s := next_ifDo_unserved hrcd _

theorem exec_rcdRefOut_of_unserved (k : Nat) : exec (.rcdRefOut o k) s = .next s := next_ifDo_unserved hrcd _

theorem exec_rcdSensorTest_of_unserved (rise : Int) (ohm : Nat) : exec (.rcdSensorTest o rise ohm) s = .next s :=
  next_ifDo_unserved hrcd _

end

section
variable (hruns : s.saf.running = true)
include hruns

/-! ### SF01 and SF02 on an outlet that they serve (R429 to R431) -/

section
variable (hrcd : hasRcd s o = true)
include hrcd

/-- The outlet's residual current after a cycle: the newest 256 words of the sensor's channel at the safety core's port. -/
def rcdAfterCycle (o : Outlet) (s : State) : Rcd :=
  rcdNext (outNat s o .rcdMvPerMa) ((portWords s.ch[(Fin.ofNat 48 (outNat s o .rcdChannel) : Channel)].safPort 256).filter safUsable)
    (s.saf.out.get o).rcd

theorem exec_residualDcCycle_of_served : exec (.residualDcCycle o) s = .next (ifDo (rcdTrips (rcdAfterCycle o s))
    (safTrip (driversOf o) causeResidual) (modSaf o (fun x => { x with rcd := rcdAfterCycle o s }) s)) :=
  next_ifDo_supervised hruns hrcd _

/-- The reference of an outlet's sensor judged. -/
def withRefOut (o : Outlet) (out : Bool) : State → State := modSaf o (fun x => { x with rcd := { x.rcd with refOut := out } })

theorem exec_rcdRefOut_of_within {k : Nat} (hlo : 400 ≤ k) (hhi : k ≤ 600) :
    exec (.rcdRefOut o k) s = .next (withRefOut o false s) := by
  refine (next_ifDo_supervised hruns hrcd _).trans ?_
  rw [decide_eq_false (Nat.not_lt.mpr hlo), decide_eq_false (Nat.not_lt.mpr hhi)]
  rfl

theorem exec_rcdRefOut_of_outside {k : Nat} (hout : k < 400 ∨ 600 < k) :
    exec (.rcdRefOut o k) s = .next (safTrip (driversOf o) causeRcdSensor (withRefOut o true s)) := by
  refine (next_ifDo_supervised hruns hrcd _).trans ?_
  rw [← Bool.decide_or, decide_eq_true hout]
  rfl

theorem exec_rcdSensorTest_of_passed {rise : Int} {ohm : Nat} (hpass : rcdTestPasses rise ohm = true) :
    exec (.rcdSensorTest o rise ohm) s =
      .next (advance o (modSaf o (fun x => { x with rcd := { x.rcd with passed := some s.time.life, failed := false } }) s)) := by
  refine (next_ifDo_supervised hruns hrcd _).trans ?_
  rw [hpass]
  rfl

theorem exec_rcdSensorTest_of_failed {rise : Int} {ohm : Nat} (hfail : rcdTestPasses rise ohm = false) :
    exec (.rcdSensorTest o rise ohm) s =
      .next (safTrip (driversOf o) causeRcdSensor (modSaf o (fun x => { x with rcd := { x.rcd with failed := true } }) s)) := by
  refine (next_ifDo_supervised hruns hrcd _).trans ?_
  rw [hfail]
  rfl

end

/-! ### The insulation monitor's check of itself (R433) -/

section
variable {mv want : Nat} (hdc : isDc s o = true)
include hdc

theorem exec_imdSelfCheck_of_within (hlo : 9 * want ≤ 10 * mv) (hhi : 10 * mv ≤ 11 * want) : exec (.imdSelfCheck o mv want) s =
    .next (modSaf o (fun x => { x with imd := { x.imd with checked := some s.time.life, checkFailed := false } }) s) := by
  refine (next_ifDo_supervised hruns hdc _).trans ?_
  rw [decide_eq_true (imdCheck_iff.mpr ⟨hlo, hhi⟩)]
  rfl

theorem exec_imdSelfCheck_of_beyond (hout : 10 * mv < 9 * want ∨ 11 * want < 10 * mv) : exec (.imdSelfCheck o mv want) s =
    .next (safTrip (driversOf o) causeInsulation (modSaf o (fun x => { x with imd := { x.imd with checkFailed := true } }) s)) := by
  refine (next_ifDo_supervised hruns hdc _).trans ?_
  rw [decide_eq_false (imdCheck_iff.not.mpr (by omega))]
  rfl

end

/-! ### PE and PEN (R434, R435) -/

section
variable {limit mOhm : Nat} (hlimit : peLimit s o = some limit)
include hlimit

theorem exec_peLoopFault_of_limit : exec (.peLoopFault o mOhm) s = .next (ifDo (decide (limit < mOhm)) (safTrip (driversOf o) causePe)
    (modSaf o (fun x => { x with
      loopMilliohm := mOhm, peFault := decide (limit < mOhm)
      peGood := if decide (limit < mOhm) then none else x.peGood.orElse (fun _ => some s.time.life) }) s)) := by
  change execPeLoopFault o mOhm s = _
  rw [execPeLoopFault, hlimit, hruns]
  rfl

theorem exec_peLoopFault_of_within (hle : mOhm ≤ limit) : exec (.peLoopFault o mOhm) s = .next (modSaf o (fun x => { x with
    loopMilliohm := mOhm, peFault := false, peGood := x.peGood.orElse (fun _ => some s.time.life) }) s) := by
  rw [exec_peLoopFault_of_limit hruns hlimit, decide_eq_false (Nat.not_lt.mpr hle)]
  rfl

theorem exec_peLoopFault_of_above (hlt : limit < mOhm) : exec (.peLoopFault o mOhm) s = .next (safTrip (driversOf o) causePe
    (modSaf o (fun x => { x with loopMilliohm := mOhm, peFault := true, peGood := none }) s)) := by
  rw [exec_peLoopFault_of_limit hruns hlimit, decide_eq_true hlt]
  rfl

end

section
variable {n ph : Nat} (hpen : penRuns s = true)
include hpen

theorem exec_penFault_of_within (hn : n ≤ 1000 * cfgNat (safCfg s) s.fab (.gen .penV))
    (hph : 100 * ph ≤ 115 * s.fab.profile.sel.supply.unMv) : exec (.penFault n ph) s =
      .next { s with saf := { s.saf with penFault := false, penGood := s.saf.penGood.orElse (fun _ => some s.time.life) } } := by
  refine (next_ifDo_supervised hruns hpen _).trans ?_
  rw [decide_eq_false (Nat.not_lt.mpr hn), decide_eq_false (Nat.not_lt.mpr hph)]
  rfl

theorem exec_penFault_of_above
    (hout : 1000 * cfgNat (safCfg s) s.fab (.gen .penV) < n ∨ 115 * s.fab.profile.sel.supply.unMv < 100 * ph) :
    exec (.penFault n ph) s = .next (safTrip allDrivers causePen { s with saf := { s.saf with penFault := true, penGood := none } }) := by
  refine (next_ifDo_supervised hruns hpen _).trans ?_
  rw [← Bool.decide_or, decide_eq_true hout]
  rfl

end

end

end

/-! ### The statement -/

/-- Settles O40: the tiers are `rcdNext_tiers`, and each other clause is the lemma of its row. -/
theorem residualEarthAndInsulation : Obligations.ResidualEarthAndInsulation := by
  unfold Obligations.ResidualEarthAndInsulation
  refine fun s o hruns => ⟨fun mvPerMa ws r hws => ?tiers, rcdNext_nil, fun hrcd => ?cycle,
    fun hrcd k => ⟨exec_rcdRefOut_of_within hruns hrcd, exec_rcdRefOut_of_outside hruns hrcd⟩, fun hrcd rise ohm => ?sensorTest,
    fun hrcd rise k ohm => ⟨exec_residualDcCycle_of_unserved hrcd, exec_rcdRefOut_of_unserved hrcd k,
      exec_rcdSensorTest_of_unserved hrcd rise ohm⟩,
    fun hdc mv want => ⟨exec_imdSelfCheck_of_within hruns hdc, exec_imdSelfCheck_of_beyond hruns hdc⟩,
    fun limit mOhm hlimit => ⟨exec_peLoopFault_of_within hruns hlimit, exec_peLoopFault_of_above hruns hlimit⟩,
    fun hpen n ph => ⟨exec_penFault_of_within hruns hpen, exec_penFault_of_above hruns hpen⟩⟩
  case tiers =>
    obtain ⟨htier1, htier2, htier3⟩ := rcdNext_tiers hws mvPerMa r
    obtain ⟨hit1, miss1⟩ := tierNext_spec htier1
    obtain ⟨hit2, miss2⟩ := tierNext_spec htier2
    obtain ⟨hit3, miss3⟩ := tierNext_spec htier3
    exact ⟨hit1, miss1, hit2, miss2, hit3, miss3, rcdTrips_iff⟩
  case cycle =>
    have hexec := exec_residualDcCycle_of_served hruns hrcd
    exact ⟨fun hno => hexec.trans (next_ifDo_of_false hno _ _), fun htrips => hexec.trans (next_ifDo_of_true htrips _ _)⟩
  case sensorTest =>
    refine ⟨fun hlo hhi hlow hhigh => exec_rcdSensorTest_of_passed hruns hrcd (rcdTestPasses_iff.mpr ⟨hlo, hhi, hlow, hhigh⟩),
      fun hout => exec_rcdSensorTest_of_failed hruns hrcd (Bool.eq_false_iff.mpr (rcdTestPasses_iff.not.mpr ?_))⟩
    omega

end Sys2Proof.Machine
end

section
/-! SUPPORT. SF06 to SF12, the comparators' self-test and the dies (12 R427, R436 to R445, R462; 13 R487; 20 R701): what each row does
with a reading of the running safety core, and the proof of OutletSupervision from them. -/

namespace Sys2Proof.Machine

/-! ### An outlet changed by what it holds -/

theorem two_modify_congr {α : Type} {v : Two α} {o : Outlet} {f g : α → α} (h : f (v.get o) = g (v.get o)) :
    v.modify o f = v.modify o g := by
  cases o with
  | a => exact congrArg (fun y => { v with a := y }) h
  | b => exact congrArg (fun y => { v with b := y }) h

theorem modOut_congr {s : State} {o : Outlet} {f g : OutS → OutS} (h : f (s.veh.out.get o) = g (s.veh.out.get o)) :
    modOut o f s = modOut o g s :=
  congrArg (fun v => { s with veh := { s.veh with out := v } }) (two_modify_congr h)

section
variable {s : State} {o : Outlet} {d : Driver}

/-! ### The forced state F (R427) -/

/-- The forced state F ends in +12 V once 3 s, of 32,768 cycles each, have passed. -/
theorem exec_cpForceFEnd_of_stateF (hforce : (s.veh.out.get o).force = some .stateF) : exec (.cpForceFEnd o) s =
    .next (if 3 * 32768 ≤ (s.time.life - (s.veh.out.get o).forceSince).toNat then modOut o (fun x => { x with force := some .plus12 }) s
      else s) := by
  change execCpForceFEnd o s = _
  rw [execCpForceFEnd, passedSince_some, ifDo_decide, modOut_congr (g := fun x => { x with force := some .plus12 })]
  · rfl
  · rw [if_pos hforce]

/-! ### The comparators' self-test (R462) -/

theorem exec_comparatorSelftestAge_of_old {k : Island} {l : Life} (hlife : s.isl[k].selfTestLife = some l)
    (hold : 86400 * 32768 < (s.time.life - l).toNat) : exec (.comparatorSelftestAge k) s =
      .next { s with isl := vmod s.isl k (fun i => { i with selfTestMissed := true }) } := by
  change execComparatorSelftestAge k s = _
  rw [execComparatorSelftestAge, hlife]
  exact next_ifDo_of_true (decide_eq_true hold) _ _

/-! ### The coil lands of an idle driver (R445, 13 R487) -/

/-- An idle driver's coil land near a rail, or a coil current above a twentieth of the hold current. -/
def coilShorted (s : State) (d : Driver) (h l ma : Nat) : Bool :=
  decide (s.pwr.vauxMv ≤ h + 3000) || decide (s.pwr.vauxMv ≤ l + 3000) || decide (h < 3000) || decide (l < 3000) ||
    decide (s.pd.drv[d].holdMa < 20 * ma)

theorem coilShorted_iff {h l ma : Nat} : coilShorted s d h l ma = true ↔
    s.pwr.vauxMv ≤ h + 3000 ∨ s.pwr.vauxMv ≤ l + 3000 ∨ h < 3000 ∨ l < 3000 ∨ s.pd.drv[d].holdMa < 20 * ma := by
  simp only [coilShorted, Bool.or_eq_true, decide_eq_true_eq, or_assoc]

section
variable {h l ma : Nat} (hbase : baseRuns s = true) (hoff : s.pd.drv[d].phase = .off)
include hbase hoff

theorem exec_coilReadback_of_off : exec (.coilReadback d h l ma) s = .next (ifDo (coilShorted s d h l ma)
    (fun s => safTrip [d] causeCoilDriver (modDrv d (fun r => { r with heldOff := true }) s))
    (modDrv d (fun r => { r with coilMa := ma }) s)) := by
  refine (next_ifDo_of_true hbase _ _).trans ?_
  rw [hoff]
  rfl

theorem exec_coilReadback_of_good (hgood : coilShorted s d h l ma = false) :
    exec (.coilReadback d h l ma) s = .next (modDrv d (fun r => { r with coilMa := ma }) s) :=
  (exec_coilReadback_of_off hbase hoff).trans (next_ifDo_of_false hgood _ _)

theorem exec_coilReadback_of_shorted (hshort : coilShorted s d h l ma = true) : exec (.coilReadback d h l ma) s =
    .next (safTrip [d] causeCoilDriver (modDrv d (fun r => { r with heldOff := true }) (modDrv d (fun r => { r with coilMa := ma }) s))) :=
  (exec_coilReadback_of_off hbase hoff).trans (next_ifDo_of_true hshort _ _)

end

/-! ### The voltage of a DC outlet within its limit (R437) -/

theorem exec_dcOvervoltage_of_within {v : VehLimits} {mv : Nat} (hveh : (s.veh.out.get o).veh = some v)
    (hmv : mv ≤ overvoltageLimit v) : exec (.dcOvervoltage o mv) s = .next s := by
  change execDcOvervoltage o mv s = _
  rw [execDcOvervoltage, hveh]
  exact next_ifDo_of_false (by rw [decide_eq_false (Nat.not_lt.mpr hmv), Bool.and_false]) _ _

/-! ### What the checks of inputs, dividers and contactors judge (R440, R441, R444) -/

/-- The outlets of which a safety function uses a channel. -/
def channelUsers (s : State) (i : Channel) : List Outlet := Outlet.all.filter (fun o => usesChannel s o i)

theorem mem_channelUsers {i : Channel} (huses : usesChannel s o i = true) : o ∈ channelUsers s i :=
  List.mem_filter.mpr ⟨by cases o <;> decide, huses⟩

theorem dividerBad_of_closed (hclosed : contactorsClosed s o = true) (c : Bool) (mv second : Nat) :
    dividerBad o c mv second s = if isDc s o then decide (second + 250000 < 50 * ((mv : Int) - second).natAbs)
      else decide ((outProfile s o).unMv < 20 * ((mv : Int) - second).natAbs) := if_pos hclosed

theorem dividerBad_of_open (hopen : contactorsClosed s o = false) (c : Bool) (mv second : Nat) :
    dividerBad o c mv second s = if c then isDc s o && decide (second + 200000 < 20 * ((mv : Int) - second).natAbs)
      else (s.veh.out.get o).cp == .a && decide (60000 ≤ mv) := if_neg (Bool.eq_false_iff.mp hopen)

/-- The driver's outlet shows no welded contact: the mirror reported open, in time where the check was due, and on AC every
phase is below 50 V. -/
def weldHolds (s : State) (d : Driver) (at_ : Option Nat) (vs : List Nat) : Bool :=
  at_.elim false (fun m => !s.pd.drv[d].weldDue || decide (m ≤ cfgNat (outCfg s (outletOf d)) s.fab (.cd d .mirrorMs))) &&
    (isDc s (outletOf d) || vs.all (fun v => decide (v < 50000)))

theorem weldHolds_iff {at_ : Option Nat} {vs : List Nat} : weldHolds s d at_ vs = true ↔
    (∃ m, at_ = some m ∧ (s.pd.drv[d].weldDue = true → m ≤ cfgNat (outCfg s (outletOf d)) s.fab (.cd d .mirrorMs))) ∧
      (isDc s (outletOf d) = false → ∀ v ∈ vs, v < 50000) := by
  cases at_ <;> simp [weldHolds, imp_iff_not_or]

section
variable (hruns : s.saf.running = true)
include hruns

/-! ### Temperature (R436) -/

/-- A sensor's record after a reading on an outlet. -/
def sensorAfter (o : Outlet) (n : Nat) (c : Int) (s : State) : TempSensor :=
  tempNext (outNat s o .tempTripC) c (((s.saf.out.get o).temps.find? (fun t => t.sensor == n)).getD ⟨n, 0, 0, 0⟩)

/-- The records of the outlet's sensors after a reading, the newest first. -/
def sensorsAfter (o : Outlet) (n : Nat) (c : Int) (s : State) : List TempSensor :=
  sensorAfter o n c s :: (s.saf.out.get o).temps.filter (fun t => t.sensor != n)

/-- The outlet with a reading taken: its limit follows its hottest sensor. -/
def derated (o : Outlet) (n : Nat) (c : Int) (s : State) : State :=
  retarget o true (modSaf o (fun x => { x with
    temps := sensorsAfter o n c s
    derate := ((sensorsAfter o n c s).map
      (fun t => derateOf (outNat s o .tempDerateC) (outNat s o .tempTripC) t.deciC)).foldl min 1000 }) s)

theorem exec_temperatureReading_of_named {n : Nat}
    (hnamed : (cfgItems (outCfg s o) s.fab (.out o .tempChannels)).contains n = true) (c : Int) :
    exec (.temperatureReading o n c) s =
      .next (if 5 ≤ (sensorAfter o n c s).overRun ∨ 5 ≤ (sensorAfter o n c s).faultRun then
        safTrip (driversOf o) causeOvertemp (derated o n c s) else derated o n c s) := by
  rw [← ifDo_decide, Bool.decide_or]
  exact next_ifDo_supervised hruns hnamed _

/-! ### The voltage of a DC outlet beyond its limit, and after an opening (R437, R438) -/

section
variable {mv : Nat} (hdc : isDc s o = true)
include hdc

theorem exec_dcOvervoltage_of_above {v : VehLimits} (hveh : (s.veh.out.get o).veh = some v) (hmv : overvoltageLimit v < mv) :
    exec (.dcOvervoltage o mv) s =
      .next (safTrip (driversOf o) causeOvervoltage (modSaf o (fun x => { x with outletMv := mv }) s)) := by
  change execDcOvervoltage o mv s = _
  rw [execDcOvervoltage, hveh]
  exact next_ifDo_of_true (by rw [hdc, hruns, decide_eq_true hmv]; rfl) _ _

theorem exec_dischargeCheck_of_due (hdue : (s.saf.out.get o).dischargeDue = true) : exec (.dischargeCheck o mv) s =
    .next (settle o (modOut o (fun x => { x with outletMv := mv }) (modSaf o (fun x => { x with outletMv := mv, dischargeDue := false })
      (if 60000 ≤ mv then safTrip (driversOf o) causeDischarge s else s)))) := by
  refine (next_ifDo_supervised hruns hdc _).trans ?_
  rw [hdue, Bool.true_and, ifDo_decide]

end

/-! ### The safety inputs (R440, R441) -/

section
variable {i : Channel} {l : Life} (huses : usesChannel s o i = true) (hlost : s.ch[i].lostSince = some l)
include huses hlost

theorem inputUnavailable_condition : (!(channelUsers s i).isEmpty && s.saf.running && passedSince s s.ch[i].lostSince (msecs 100)) =
    decide (msecs 100 ≤ (s.time.life - l).toNat) := by
  rw [List.isEmpty_eq_false_iff_exists_mem.mpr ⟨o, mem_channelUsers huses⟩, hruns, hlost, passedSince_some]
  rfl

theorem exec_inputUnavailable_of_early (hearly : (s.time.life - l).toNat < msecs 100) : exec (.inputUnavailable i) s = .next s :=
  next_ifDo_of_false ((inputUnavailable_condition hruns huses hlost).trans (decide_eq_false (Nat.not_le.mpr hearly))) _ _

theorem exec_inputUnavailable_of_late (hknown : s.saf.lost.contains i = false) (hlate : msecs 100 ≤ (s.time.life - l).toNat) :
    exec (.inputUnavailable i) s = .next (safTrip ((channelUsers s i).flatMap driversOf) causeInput
      { s with saf := { s.saf with lost := s.saf.lost ++ [i], lostGood := s.saf.lostGood.filter (fun p => p.1 != i) } }) := by
  refine (next_ifDo_of_true ((inputUnavailable_condition hruns huses hlost).trans (decide_eq_true hlate)) _ _).trans ?_
  rw [modSafCore, hknown]
  rfl

end

/-- An outlet whose divider disagrees with its second source. -/
def dividerFailed (o : Outlet) (s : State) : State :=
  safTrip (driversOf o) causeInput { s with saf := { s.saf with
    divider := s.saf.divider.modify o (fun _ => true), dividerGood := s.saf.dividerGood.modify o (fun _ => none) } }

theorem exec_dividerPlausibility_of_bad {c : Bool} {mv second : Nat} {p : Prop} [Decidable p]
    (hbad : dividerBad o c mv second s = decide p) : exec (.dividerPlausibility o c mv second) s = if p then .next (dividerFailed o s) else .next s := by
  change execDividerPlausibility o c mv second s = _
  rw [execDividerPlausibility, hruns, hbad, Bool.true_and, ifDo_decide, apply_ite Host.Outcome.next]
  rfl

/-! ### The weld check (R444) -/

section
variable (hoff : s.pd.drv[d].phase = .off)
include hoff

/-- The driver's record after a weld check. -/
def weldChecked (d : Driver) (ma : Nat) (good : Bool) (s : State) : State := modDrv d (fun r => { r with
  coilMa := ma, weldDue := false, weldFailed := !good
  weldGoodSince := if good then r.weldGoodSince.orElse (fun _ => some s.time.life) else none }) s

theorem exec_weldCheck_of_off (ma : Nat) (at_ : Option Nat) (vs : List Nat) : exec (.weldCheck d ma at_ vs) s =
    .next (settle (outletOf d) (ifDo (s.pd.drv[d].weldDue && !weldHolds s d at_ vs)
      (fun s => weldTrip (outletOf d) (modWear (fun w => { w with weldFails := bump w.weldFails d }) s))
      (weldChecked d ma (weldHolds s d at_ vs) s))) := by
  refine (next_ifDo_supervised hruns (beq_iff_eq.mpr hoff) _).trans ?_
  cases at_ <;> rfl

theorem exec_weldCheck_of_good (ma : Nat) {at_ : Option Nat} {vs : List Nat} (hgood : weldHolds s d at_ vs = true) :
    exec (.weldCheck d ma at_ vs) s = .next (settle (outletOf d) (weldChecked d ma true s)) := by
  rw [exec_weldCheck_of_off hruns hoff, hgood, Bool.not_true, Bool.and_false, ifDo_false]

theorem exec_weldCheck_of_failed (ma : Nat) {at_ : Option Nat} {vs : List Nat} (hdue : s.pd.drv[d].weldDue = true)
    (hbad : weldHolds s d at_ vs = false) : exec (.weldCheck d ma at_ vs) s = .next (settle (outletOf d) (weldTrip (outletOf d)
      (modWear (fun w => { w with weldFails := bump w.weldFails d }) (weldChecked d ma false s)))) := by
  rw [exec_weldCheck_of_off hruns hoff, hdue, hbad, Bool.not_false, Bool.and_true, ifDo_true]

end

/-! ### The dies (20 R701) -/

theorem exec_dieOvertemp_of_above {p : Bool} {c : Nat} (hlimit : (if p then 160 else 130) < c) (hcold : (dieOf p s.saf).hot = false) :
    exec (.dieOvertemp p c) s =
      .next (moduleSafe causeInternal (countInternal causeInternal (faultLog causeInternal c (setDie p ⟨true, none⟩ s)))) := by
  refine (next_ifDo_of_true hruns _ _).trans ?_
  rw [if_pos hlimit, hcold]
  rfl

theorem exec_dieOvertemp_of_cool {p : Bool} {c : Nat} (hcool : c + 10 ≤ if p then 160 else 130) (hhot : (dieOf p s.saf).hot = true) :
    exec (.dieOvertemp p c) s = .next (setDie p ⟨true, (dieOf p s.saf).cool.orElse (fun _ => some s.time.life)⟩ s) := by
  refine (next_ifDo_of_true hruns _ _).trans ?_
  rw [if_neg (Nat.not_lt.mpr ((Nat.le_add_right c 10).trans hcool)), hhot, decide_eq_true hcool]
  rfl

end

end

/-! ### The statement -/

/-- Settles O41: each clause is the lemma of its row. -/
theorem outletSupervision : Obligations.OutletSupervision := by
  unfold Obligations.OutletSupervision
  refine fun s o hruns => ⟨fun n c hnamed => exec_temperatureReading_of_named hruns hnamed c,
    fun v mv hveh hdc => ⟨exec_dcOvervoltage_of_above hruns hdc hveh, exec_dcOvervoltage_of_within hveh⟩,
    fun hdc mv => exec_dischargeCheck_of_due hruns hdc,
    fun i l huses hknown hlost => ⟨exec_inputUnavailable_of_early hruns huses hlost,
      exec_inputUnavailable_of_late hruns huses hlost hknown⟩,
    ⟨fun hclosed c mv second => ⟨fun hdc => ?closedDc, fun hac => ?closedAc⟩,
      fun hopen mv second => ⟨fun hdc => ?openDc, fun hcp => ?openA⟩⟩,
    fun d ma hoff => ⟨fun m vs hmirror hphases => ?weldGood, fun hdue at_ vs hfails => ?weldFailed⟩,
    fun hbase d h l ma hoff => ⟨fun hh hl hh' hl' hma => ?coilGood, fun hrail => ?coilShorted⟩,
    exec_cpForceFEnd_of_stateF, fun k l => exec_comparatorSelftestAge_of_old,
    fun p c => ⟨exec_dieOvertemp_of_above hruns, exec_dieOvertemp_of_cool hruns⟩⟩
  case closedDc => exact exec_dividerPlausibility_of_bad hruns (by rw [dividerBad_of_closed hclosed, if_pos hdc])
  case closedAc =>
    exact exec_dividerPlausibility_of_bad hruns (by rw [dividerBad_of_closed hclosed, if_neg (Bool.eq_false_iff.mp hac)]; rfl)
  case openDc => exact exec_dividerPlausibility_of_bad hruns (by rw [dividerBad_of_open hopen, if_pos rfl, hdc, Bool.true_and])
  case openA => exact exec_dividerPlausibility_of_bad hruns (by
    rw [dividerBad_of_open hopen, if_neg Bool.false_ne_true, hcp, beq_self_eq_true, Bool.true_and])
  case weldGood => exact exec_weldCheck_of_good hruns hoff ma (weldHolds_iff.mpr ⟨⟨m, rfl, hmirror⟩, hphases⟩)
  case weldFailed =>
    refine exec_weldCheck_of_failed hruns hoff ma hdue (Bool.eq_false_iff.mpr fun hholds => ?_)
    obtain ⟨⟨m, hat, hle⟩, hphases⟩ := weldHolds_iff.mp hholds
    rcases hfails m hat with hlate | ⟨hac, v, hv, hwelded⟩
    · exact Nat.not_lt.mpr (hle hdue) hlate
    · exact Nat.not_lt.mpr hwelded (hphases hac v hv)
  case coilGood =>
    refine exec_coilReadback_of_good hbase hoff (Bool.eq_false_iff.mpr (coilShorted_iff.not.mpr ?_))
    omega
  case coilShorted =>
    refine exec_coilReadback_of_shorted hbase hoff (coilShorted_iff.mpr ?_)
    omega

end Sys2Proof.Machine
end

section
/-! SUPPORT. The safety core's cycle, the emergency stop and the seam check (12 R426, R439, R442, R446 to R449, R460, R461, Table 12.4):
what each row does, the bytes of a seam frame, and the proof of SafetyCycleAndSeam from them. -/

namespace Sys2Proof.Machine

/-! ### The bytes of a seam frame (Table 12.4) -/

/-- A seam frame before its CRC-32C. -/
def seamBody (kind src dst seq : Nat) (life : Life) (word fault : Nat) : Bytes :=
  u8 1 ++ u8 kind ++ u16 src ++ u16 dst ++ u16 0 ++ u32 seq ++ u64 life.toNat ++ u32 word ++ u32 fault

section
variable (kind src dst seq : Nat) (life : Life) (word fault : Nat)

theorem seamFrame_eq : seamFrame kind src dst seq life word fault =
    seamBody kind src dst seq life word fault ++ u32 (crc32c (seamBody kind src dst seq life word fault)).toNat := rfl

theorem seamBody_length : (seamBody kind src dst seq life word fault).length = 28 := by
  simp only [seamBody, List.length_append, u8, u16, u32, u64, leBytes_length]

theorem seamFrame_length : (seamFrame kind src dst seq life word fault).length = 32 := by
  rw [seamFrame_eq, List.length_append, seamBody_length, u32, leBytes_length]

theorem take_seamFrame : (seamFrame kind src dst seq life word fault).take 28 = seamBody kind src dst seq life word fault :=
  List.take_left' (seamBody_length kind src dst seq life word fault)

/-- The last four bytes are the CRC-32C of those before them. -/
theorem drop_seamFrame : (seamFrame kind src dst seq life word fault).drop 28 =
    u32 (crc32c ((seamFrame kind src dst seq life word fault).take 28)).toNat := by
  rw [take_seamFrame]
  exact List.drop_left' (seamBody_length kind src dst seq life word fault)

end

/-! ### What the emergency-stop inputs say (R439) -/

/-- An input read open twice, or a disagreement of more than 100 ms. -/
def estopTripped (a b : Bool × Bool) (ms : Nat) : Bool := (a.1 && a.2) || (b.1 && b.2) || decide (100 < ms)

theorem estopTripped_iff {a b : Bool × Bool} {ms : Nat} :
    estopTripped a b ms = true ↔ (a = (true, true) ∨ b = (true, true)) ∨ 100 < ms := by
  simp only [estopTripped, Bool.or_eq_true, Bool.and_eq_true, decide_eq_true_eq, Prod.ext_iff]

/-- The emergency stop's record. -/
def estopTaken (a b tripped : Bool) (s : State) : State :=
  { s with saf := { s.saf with estopA := a, estopB := b, estop := tripped } }

section
variable {s : State}

/-! ### Degraded running (R460) -/

theorem exec_seamDegradedTimeout_of_over {l : Life} (hsince : s.saf.seam.degradedSince = some l)
    (hover : 60 * 32768 ≤ (s.time.life - l).toNat) (hdegraded : seamDegraded s = true) : exec .seamDegradedTimeout s =
      .next (forEach (seamOutlets s) (fun o => stopSession o .seamDegraded .normal) s) :=
  next_ifDo_of_true (by rw [hsince, passedSince_some, hdegraded, Bool.and_true]; exact decide_eq_true hover) _ _

section
variable (hruns : s.saf.running = true)
include hruns

/-! ### A cycle of the safety core (R442, R461, R464) -/

theorem not_stopped : ¬ (!s.saf.running) = true := by
  rw [hruns]
  exact Bool.false_ne_true

section
variable {i : SafInputs}

theorem exec_safCycle_of_failed (hbad : i.katOk = false ∨ i.signatureOk = false) : exec (.safCycle i) s = .next (internalFault s) := by
  have hfails : (!i.katOk || !i.signatureOk) = true := by
    rwa [Bool.or_eq_true, Bool.not_eq_true', Bool.not_eq_true']
  exact congrArg Host.Outcome.next ((if_neg (not_stopped hruns)).trans (if_pos hfails))

theorem exec_safCycle_of_good (hkat : i.katOk = true) (hsig : i.signatureOk = true) : exec (.safCycle i) s =
    .next (holdupHeld (forEach allDrivers clearLatched (inputsBack
      (forEach allDrivers (gateCompare i.gates) (heartbeatRead { s with saf := { s.saf with diagPassed := true } }))))) := by
  have hpasses : ¬ (!i.katOk || !i.signatureOk) = true := by
    rw [hkat, hsig]
    exact Bool.false_ne_true
  exact congrArg Host.Outcome.next ((if_neg (not_stopped hruns)).trans (if_neg hpasses))

end

/-! ### The emergency stop (R439) -/

section
variable {a b : Bool × Bool} {ms : Nat} (hestop : hasEstop s = true)
include hestop

theorem exec_estopOpen_of_configured : exec (.estopOpen a b ms) s = .next (ifDo (estopTripped a b ms) (moduleSafe causeEstop)
    (estopTaken (a.2 || decide (100 < ms)) (b.2 || decide (100 < ms)) (estopTripped a b ms) s)) :=
  next_ifDo_supervised hruns hestop _

theorem exec_estopOpen_of_differing (hms : 100 < ms) :
    exec (.estopOpen a b ms) s = .next (moduleSafe causeEstop (estopTaken true true true s)) := by
  rw [exec_estopOpen_of_configured hruns hestop, estopTripped_iff.mpr (.inr hms), decide_eq_true hms, Bool.or_true, Bool.or_true,
    ifDo_true]

theorem exec_estopOpen_of_agreeing (hms : ms ≤ 100) : exec (.estopOpen a b ms) s = .next (ifDo (estopTripped a b ms)
    (moduleSafe causeEstop) (estopTaken a.2 b.2 (estopTripped a b ms) s)) := by
  rw [exec_estopOpen_of_configured hruns hestop, decide_eq_false (Nat.not_lt.mpr hms), Bool.or_false, Bool.or_false]

theorem exec_estopOpen_of_openTwice (hopen : a = (true, true) ∨ b = (true, true)) (hms : ms ≤ 100) :
    exec (.estopOpen a b ms) s = .next (moduleSafe causeEstop (estopTaken a.2 b.2 true s)) := by
  rw [exec_estopOpen_of_agreeing hruns hestop hms, estopTripped_iff.mpr (.inl hopen), ifDo_true]

theorem exec_estopOpen_of_closed (ha : a ≠ (true, true)) (hb : b ≠ (true, true)) (hms : ms ≤ 100) :
    exec (.estopOpen a b ms) s = .next (estopTaken a.2 b.2 false s) := by
  have hclosed : estopTripped a b ms = false :=
    Bool.eq_false_iff.mpr (estopTripped_iff.not.mpr (not_or.mpr ⟨not_or.mpr ⟨ha, hb⟩, Nat.not_lt.mpr hms⟩))
  rw [exec_estopOpen_of_agreeing hruns hestop hms, hclosed, ifDo_false]

end

/-! ### The seam check's frames and paths (R446 to R449) -/

section
variable (hseam : seamExists s = true)
include hseam

/-- A frame put on the port of a path, where the nodes of the port are known (R447; 14 R518). -/
def sendOnPort (s : State) (change : Bool) (p : Fin 8) (t : State) : State :=
  match seamNodes s p with
  | none => t
  | some n =>
    let f := seamFrame (if change then 2 else 1) n.1 n.2 s.saf.seam.ownSeq.toNat s.time.life (seamWord s) (seamFault s)
    enqueue p .safety (if 4 ≤ p.val then u16 63 ++ f else f) { t with saf := { t.saf with seam := { t.saf.seam with sent := f } } }

theorem exec_seamFrameSend_of_exists (change : Bool) : exec (.seamFrameSend change) s =
    .next (forEach ([SeamPath.a, .b].filterMap (seamPort s)) (sendOnPort s change)
      { s with saf := { s.saf with seam := { s.saf.seam with ownSeq := s.saf.seam.ownSeq + 1 } } }) :=
  next_ifDo_supervised hruns hseam _

section
variable {path : SeamPath} {n : Nat × Nat} {f : Bytes} (hnodes : (seamPort s path).bind (seamNodes s) = some n)
include hnodes

theorem exec_seamFrameReceive_of_unparsed (hparse : seamParse n.1 f = none) : exec (.seamFrameReceive path f) s = .next s := by
  change execSeamFrameReceive path f s = _
  rw [execSeamFrameReceive, hseam, hruns, hnodes]
  simp only [hparse]
  rfl

/-- On CAN, where the T48 is node 0, a frame's source names its companion. -/
theorem exec_seamFrameReceive_of_peer {x : SeamFields} {p : SeamPeer} (hcan : n.1 = 0) (hparse : seamParse 0 f = some x)
    (hsrc : x.src ≠ 0) (hpeer : (seamPeers s).find? (fun q => q.node == x.src) = some p) : exec (.seamFrameReceive path f) s =
      .next (if seamFresh s.time.life p path x f then seamAccept p path x f s else s) := by
  change execSeamFrameReceive path f s = _
  rw [execSeamFrameReceive, hseam, hruns, hnodes]
  simp only [hcan, hparse, if_true, bne_iff_ne.mpr hsrc, Bool.and_true, hpeer]
  rfl

end

/-- The companions after a path's time-out is judged for each (R449). -/
def peersAfterTimeout (path : SeamPath) (s : State) : List SeamPeer :=
  (seamPeers s).map (fun p => match path with
    | .a => { p with a := sideTimeout s.time.life p.a }
    | .b => { p with b := sideTimeout s.time.life p.b })

/-- A companion had a path in service before the time-out, and has none after it. -/
def companionLost (path : SeamPath) (s : State) : Bool :=
  ((seamPeers s).zip (peersAfterTimeout path s)).any (fun q =>
    (q.1.a.state == 2 || q.1.b.state == 2) && !(q.2.a.state == 2 || q.2.b.state == 2))

theorem exec_seamPathTimeout_of_exists (path : SeamPath) : exec (.seamPathTimeout path) s =
    let t := { s with saf := { s.saf with seam := { s.saf.seam with peers := peersAfterTimeout path s } } }
    .next (seamEvents s (markDegraded (if companionLost path s then seamTrip causeSeamLost t else t))) :=
  next_ifDo_supervised hruns hseam _

end

end

end

/-! ### The statement -/

/-- Settles O42: each clause is the lemma of its row, or of the bytes of a frame. -/
theorem safetyCycleAndSeam : Obligations.SafetyCycleAndSeam := by
  unfold Obligations.SafetyCycleAndSeam
  exact fun s hruns => ⟨fun i => ⟨exec_safCycle_of_failed hruns, exec_safCycle_of_good hruns⟩,
    fun hestop a b ms => ⟨exec_estopOpen_of_openTwice hruns hestop, exec_estopOpen_of_differing hruns hestop,
      exec_estopOpen_of_closed hruns hestop⟩,
    fun kind src dst seq word fault l => ⟨seamFrame_length kind src dst seq l word fault,
      drop_seamFrame kind src dst seq l word fault⟩,
    fun hseam => exec_seamFrameSend_of_exists hruns hseam,
    fun hseam path n f hnodes => ⟨exec_seamFrameReceive_of_unparsed hruns hseam hnodes,
      fun x p => exec_seamFrameReceive_of_peer hruns hseam hnodes⟩,
    fun hseam => exec_seamPathTimeout_of_exists hruns hseam,
    fun l => exec_seamDegradedTimeout_of_over⟩

end Sys2Proof.Machine
end

section
/-! SUPPORT. The commands on trips and safety, the accesses of the interconnect's masters and the egress queues (01 R29 to R31, R55,
Table 1.3; 05 R186, R193, R194; 07 Table 7.13; 12 R428): what each row does, and the proof of SafetyReadsAndEgress from them. -/

namespace Sys2Proof.Machine

/-! ### TRIP_CAUSE_READ and SAFETY_STATUS_GET (07 Table 7.13) -/

section
variable {s : State} {mb : Mailbox} {b : Bytes}

/-- What TRIP_CAUSE_READ answers of a driver's trip cause word. -/
def tripCauseBytes (d : Driver) (s : State) : Bytes :=
  let w := s.safStore.trips[d]
  let code := fun (i : Nat) => u16 (w.codes.getD i 0).toNat
  u8 d.val ++ u8 w.firstPermits.toNat ++ code 0 ++ u64 w.life.toNat ++ u8 w.followPermits.toNat ++ u8 0 ++ u16 0 ++
    u64 w.followLife.toNat ++ u32 w.count.toNat ++ u32 0 ++ code 0 ++ code 1 ++ code 2 ++ code 3

theorem exec_tripCauseRead_served (h : serves .tripCauseRead mb b s) :
    exec (.tripCauseRead mb) s = .next (Reply.apply mb (guards [(decide (3 < rd b 0 2), .argRange)] (takeUp mb s)
      (ok (tripCauseBytes (Fin.ofNat 4 (rd b 0 2)) s) (takeUp mb s)))) :=
  congrArg Host.Outcome.next (runCommand_served _ rfl h)

theorem exec_tripCauseRead_of_noDriver (h : serves .tripCauseRead mb b s) (hnum : 3 < rd b 0 2) :
    exec (.tripCauseRead mb) s = .next (complete mb .argRange [] (takeUp mb s)) := by
  rw [exec_tripCauseRead_served h, decide_eq_true hnum, guards_cons_true]
  rfl

theorem exec_tripCauseRead_of_driver (h : serves .tripCauseRead mb b s) {d : Driver} (hnum : rd b 0 2 = d.val) :
    exec (.tripCauseRead mb) s = .next (complete mb .ok (tripCauseBytes d s) (takeUp mb s)) := by
  rw [exec_tripCauseRead_served h, hnum, Fin.ofNat_val_eq_self, decide_eq_false (Nat.not_lt.mpr (Nat.le_of_lt_succ d.isLt)),
    guards_cons_false, guards_nil]
  rfl

/-- What SAFETY_STATUS_GET answers. -/
def safetyStatusBytes (s : State) : Bytes :=
  let kohm := fun (o : Outlet) => min (s.saf.out.get o).imd.plusOhm (s.saf.out.get o).imd.minusOhm / 1000
  u32 (permitWord s) ++ u8 (latchBits s) ++ u8 (seamPathState s .a + 4 * seamPathState s .b) ++ u16 0 ++
    u32 (s.saf.out.get .a).rcd.rmsUa ++ u32 (s.saf.out.get .b).rcd.rmsUa ++ u32 (kohm .a) ++ u32 (kohm .b) ++
    u8 (b1 (!(s.saf.out.get .a).peFault) + 2 * b1 (!(s.saf.out.get .b).peFault)) ++ flag (!s.saf.penFault) ++ u16 0 ++
    u32 s.pwr.uF ++ u64 s.time.life.toNat

theorem exec_safetyStatusGet_served (h : serves .safetyStatusGet mb b s) :
    exec (.safetyStatusGet mb) s = .next (complete mb .ok (safetyStatusBytes s) (takeUp mb s)) :=
  congrArg Host.Outcome.next (runCommand_served _ rfl h)

/-! ### SAFETY_REARM_REQUEST (07 Table 7.13; R428) -/

/-- A re-arm of the driver noted as requested. -/
def rearmAsked (d : Driver) (s : State) : State := modDrv d (fun r => { r with requested := true }) s

/-- A requested re-arm may go on to its gate test: the causes are met, the trip is recorded, the gate is good, and the four permits
are granted or PERMIT_SAF may be. -/
def rearmPossible (d : Driver) (u : State) : Bool :=
  causesMet u false d && rearmPermits { u.pd.drv[d].permits with saf := u.pd.drv[d].permits.saf || safMayGrant u false d } &&
    u.pd.drv[d].recorded && !u.pd.drv[d].gateFailed

/-- The driver with a mailbox waiting for its gate test, PERMIT_SAF granted where it may be. -/
def rearmWaiting (mb : Mailbox) (d : Driver) (u : State) : State :=
  modDrv d (fun r => { r with askers := r.askers ++ [mb] }) (if safMayGrant u false d then grantSaf d u else u)

section
variable (h : serves .safetyRearmRequest mb b s) {d : Driver} (hnum : rd b 0 2 = d.val)
include h hnum

theorem exec_safetyRearmRequest_of_driver : exec (.safetyRearmRequest mb) s = .next (Reply.apply mb
    (if !s.pd.drv[d].latch then ok [] (takeUp mb s)
    else if rearmPossible d (rearmAsked d (takeUp mb s)) then .defer (rearmWaiting mb d (rearmAsked d (takeUp mb s)))
    else refuse .rearmRefused (takeUp mb s))) := by
  change execSafetyRearmRequest mb s = _
  rw [execSafetyRearmRequest, runCommand_served _ rfl h]
  simp only [hnum, Fin.ofNat_val_eq_self, decide_eq_false (Nat.not_lt.mpr (Nat.le_of_lt_succ d.isLt)), guards_cons_false, guards_nil]
  rfl

theorem exec_safetyRearmRequest_of_unlatched (hlatch : s.pd.drv[d].latch = false) :
    exec (.safetyRearmRequest mb) s = .next (complete mb .ok [] (takeUp mb s)) := by
  rw [exec_safetyRearmRequest_of_driver h hnum, hlatch]
  rfl

section
variable (hlatch : s.pd.drv[d].latch = true)
include hlatch

theorem exec_safetyRearmRequest_of_possible (hmay : rearmPossible d (rearmAsked d (takeUp mb s)) = true) :
    exec (.safetyRearmRequest mb) s = .next (rearmWaiting mb d (rearmAsked d (takeUp mb s))) := by
  rw [exec_safetyRearmRequest_of_driver h hnum, hlatch, if_pos hmay]
  rfl

theorem exec_safetyRearmRequest_of_impossible (hmay : rearmPossible d (rearmAsked d (takeUp mb s)) = false) :
    exec (.safetyRearmRequest mb) s = .next (complete mb .rearmRefused [] (takeUp mb s)) := by
  rw [exec_safetyRearmRequest_of_driver h hnum, hlatch, if_neg (Bool.eq_false_iff.mp hmay)]
  rfl

end

end

end

/-! ### Accesses of the masters (01 R29, R55, Table 1.3) -/

section
variable {s : State} {a : BusAccess}

theorem isApp_iff {m : Master} : isApp m = true ↔ m = .app0 ∨ m = .app1 ∨ m = .dma := by
  simp only [isApp, Bool.or_eq_true, beq_iff_eq, or_assoc]

/-- The application cores and DMA do not reach legal MRAM and metrology SRAM, and do not write the publication window. -/
theorem regionAccess_of_app {m : Master} (happ : isApp m = true) (write : Bool) : regionAccess m .legalMram write = false ∧
    regionAccess m .metrologySram write = false ∧ regionAccess m .publication true = false := by
  rcases isApp_iff.mp happ with rfl | rfl | rfl <;> exact ⟨rfl, rfl, rfl⟩

theorem masterAccess_of_app (happ : isApp a.master = true) : masterAccess a = regionAccess a.master a.region a.write :=
  if_neg fun hcry => Bool.false_ne_true (by rwa [hcry] at happ)

theorem notFormed_of_app (happ : isApp a.master = true) : notFormed a = false := by
  rcases isApp_iff.mp happ with hm | hm | hm <;> rw [notFormed, hm] <;> rfl

theorem blocks_of_noAccess (haccess : masterAccess a = false) (hformed : notFormed a = false) (hdebug : a.master ≠ .debug) :
    blocks s a = true := by
  rw [blocks, haccess, hformed, beq_false_of_ne hdebug]
  rfl

/-- Only an access that can be formed is blocked. -/
theorem notFormed_of_blocks (hblocks : blocks s a = true) : notFormed a = false := by
  simp only [blocks, Bool.and_eq_true, Bool.not_eq_true'] at hblocks
  obtain ⟨⟨-, hformed⟩, -⟩ := hblocks
  exact hformed

theorem blocks_of_app (happ : isApp a.master = true)
    (hregion : a.region = .legalMram ∨ a.region = .metrologySram ∨ (a.region = .publication ∧ a.write = true)) :
    blocks s a = true := by
  obtain ⟨hmram, hsram, hpublication⟩ := regionAccess_of_app happ a.write
  refine blocks_of_noAccess ?_ (notFormed_of_app happ) fun hdebug => Bool.false_ne_true (by rwa [hdebug] at happ)
  rw [masterAccess_of_app happ]
  rcases hregion with hr | hr | ⟨hr, hwrite⟩
  · rwa [hr]
  · rwa [hr]
  · rwa [hr, hwrite]

theorem exec_firewallBlock_of_notFormed (hformed : notFormed a = true) : exec (.firewallBlock a) s = .next s :=
  next_ifDo_of_false (by rw [hformed]; exact Bool.and_false _) _ _

section
variable (hpower : basePowered s = true)
include hpower

theorem exec_firewallBlock_of_formed (hformed : notFormed a = false) : exec (.firewallBlock a) s =
    .next (if blocks s a then blockAccess a s else if a.write then busWrite a s else busRead a s) :=
  next_ifDo_of_true (by rw [hpower, hformed]; rfl) _ _

theorem exec_firewallBlock_of_blocked (hblocks : blocks s a = true) : exec (.firewallBlock a) s = .next (blockAccess a s) :=
  (exec_firewallBlock_of_formed hpower (notFormed_of_blocks hblocks)).trans (congrArg Host.Outcome.next (if_pos hblocks))

theorem exec_firewallBlock_timeRead (hallowed : blocks s a = false) (hformed : notFormed a = false) (hregion : a.region = .timeBlock)
    (hread : a.write = false) : exec (.firewallBlock a) s =
      .next { s with bus := some ⟨a.master, false, BitVec.ofNat 32 (timeReg s (a.addr.toNat % 0x1000))⟩ } := by
  rw [exec_firewallBlock_of_formed hpower hformed, hallowed, hread, busRead, hregion]
  rfl

end

end

/-! ### A port's next frame (R186, R193) -/

section
variable {life : Life} {q : Port}

theorem nextFrame_of_safety {f : Bytes} {l : List Bytes} (hsafety : q.safety = f :: l) (hmay : safetyMay life q f = true) :
    nextFrame life q = sendSafety life f q := by
  rw [nextFrame, hsafety, List.head?_cons, Option.filter_some_pos hmay]

section
variable (hsafety : ∀ f, q.safety.head? = some f → safetyMay life q f = false)
include hsafety

theorem noSafetyFrame : q.safety.head?.filter (safetyMay life q) = none :=
  Option.filter_eq_none_iff.mpr fun f hf => Bool.eq_false_iff.mp (hsafety f hf)

theorem nextFrame_of_session {f : Bytes} {l : List Bytes} (hsession : q.session = f :: l) (hdue : telemetryDue life q = false) :
    nextFrame life q = sendSession f q := by
  rw [nextFrame, noSafetyFrame hsafety, hsession, hdue]
  cases q.telemetry <;> rfl

theorem nextFrame_of_telemetry {f : Bytes} {l : List Bytes} (htelemetry : q.telemetry = f :: l)
    (hfirst : q.session = [] ∨ telemetryDue life q = true) : nextFrame life q = sendTelemetry life f q := by
  rw [nextFrame, noSafetyFrame hsafety, htelemetry]
  rcases hfirst with hnone | hdue
  · rw [hnone]
    rfl
  · rw [hdue]
    cases q.session <;> rfl

theorem nextFrame_of_empty (hsession : q.session = []) (htelemetry : q.telemetry = []) :
    nextFrame life q = { q with sending := none } := by
  rw [nextFrame, noSafetyFrame hsafety, hsession, htelemetry]
  rfl

end

end

/-! ### The egress queues (R193, R194) -/

section
variable {s : State} {p : Fin 8} {f : Bytes}

theorem makeRoom_of_fits {n : Nat} (hfits : telemetryBytes s + n ≤ telemetryMax) (fuel : Nat) : makeRoom n fuel s = s := by
  cases fuel with
  | zero => rfl
  | succ fuel => exact if_pos hfits

theorem enqueue_telemetry_of_busy (hbusy : s.net.port[p].sending ≠ none) : enqueue p .telemetry f s =
    { s with net := { s.net with port := vmod s.net.port p (portPut s.time.life .telemetry f), telOrder := s.net.telOrder ++ [p] } } := by
  rw [enqueue, Option.isNone_eq_false_iff.mpr (Option.isSome_iff_ne_none.mpr hbusy)]
  rfl

theorem exec_telemetryEnqueue_of_runs (hbase : baseRuns s = true) (hlength : f.length ≤ 65536) : exec (.telemetryEnqueue p f) s =
    .next (enqueue p .telemetry f (makeRoom f.length (telemetryCount s) s)) :=
  next_ifDo_of_true (Bool.and_eq_true_iff.mpr ⟨hbase, decide_eq_true hlength⟩) _ _

theorem exec_telemetryEnqueue_of_busy (hbase : baseRuns s = true) (hlength : f.length ≤ 65536)
    (hfits : telemetryBytes s + f.length ≤ 65536) (hbusy : s.net.port[p].sending ≠ none) : exec (.telemetryEnqueue p f) s =
      .next { s with net := { s.net with
        port := vmod s.net.port p (portPut s.time.life .telemetry f), telOrder := s.net.telOrder ++ [p] } } := by
  rw [exec_telemetryEnqueue_of_runs hbase hlength, makeRoom_of_fits hfits, enqueue_telemetry_of_busy hbusy]

end

/-! ### The statement -/

/-- Settles O23: each clause is the lemma of its command or row, or of a port's next frame. -/
theorem safetyReadsAndEgress : Obligations.SafetyReadsAndEgress := by
  unfold Obligations.SafetyReadsAndEgress
  exact ⟨fun mb b s => ⟨fun h => ⟨exec_tripCauseRead_of_noDriver h, fun d => exec_tripCauseRead_of_driver h⟩,
      exec_safetyStatusGet_served, fun h d hnum => ⟨exec_safetyRearmRequest_of_unlatched h hnum, fun hlatch =>
        ⟨exec_safetyRearmRequest_of_possible h hnum hlatch, exec_safetyRearmRequest_of_impossible h hnum hlatch⟩⟩⟩,
    fun s a hpower => ⟨exec_firewallBlock_of_blocked hpower, exec_firewallBlock_of_notFormed, exec_firewallBlock_timeRead hpower,
      blocks_of_app⟩,
    fun s p f => ⟨rfl, fun hbase hlength => ⟨exec_telemetryEnqueue_of_busy hbase hlength,
      exec_telemetryEnqueue_of_runs hbase hlength⟩⟩,
    fun life q => ⟨fun f l => nextFrame_of_safety, fun hsafety => ⟨fun f l => nextFrame_of_session hsafety,
      fun f l => nextFrame_of_telemetry hsafety, nextFrame_of_empty hsafety⟩⟩⟩

end Sys2Proof.Machine
end

section
/-! SUPPORT. The load switches' outputs and commands (13 R473 to R475, R478, R490, R497, R498, Tables 13.5 and 13.6; 07 Table 7.14):
what applying the outputs changes and leaves, what each target says, and the proof of SwitchCommands from them. -/

namespace Sys2Proof.Machine

/-! ### One channel's output (R474, R481, R490) -/

/-- The trips and commanded states of the channels, the drivers and the mailbox unit are the same in both states. -/
structure SameSwitches (s t : State) : Prop where
  trip : ∀ n : Fin 32, t.pd.ls[n].trip = s.pd.ls[n].trip
  commanded : ∀ n : Fin 32, t.pd.ls[n].commanded = s.pd.ls[n].commanded
  mbx : t.mbx = s.mbx
  drv : t.pd.drv = s.pd.drv

namespace SameSwitches

variable {s t u : State}

theorem refl (s : State) : SameSwitches s s := ⟨fun _ => rfl, fun _ => rfl, rfl, rfl⟩

theorem trans (h : SameSwitches s t) (k : SameSwitches t u) : SameSwitches s u :=
  ⟨fun n => (k.trip n).trans (h.trip n), fun n => (k.commanded n).trans (h.commanded n), k.mbx.trans h.mbx, k.drv.trans h.drv⟩

theorem forEach {α : Type} {f : α → State → State} (hf : ∀ a x, SameSwitches x (f a x)) (l : List α) (s : State) :
    SameSwitches s (forEach l f s) := by
  induction l generalizing s with
  | nil => exact refl s
  | cons a l ih => exact (hf a s).trans (ih (f a s))

end SameSwitches

theorem modLs_get (n m : Fin 32) (f : LoadSwitch → LoadSwitch) (s : State) :
    (modLs n f s).pd.ls[m] = if n = m then f s.pd.ls[n] else s.pd.ls[m] :=
  vmod_get s.pd.ls n m f

/-- A field that a channel's change keeps is the same in every channel. -/
theorem modLs_field {α : Type} (p : LoadSwitch → α) {f : LoadSwitch → LoadSwitch} (hf : ∀ c, p (f c) = p c) (n m : Fin 32) (s : State) :
    p (modLs n f s).pd.ls[m] = p s.pd.ls[m] := by
  rw [modLs_get]
  split_ifs with h
  · rw [hf, h]
  · rfl

theorem sameSwitches_modLs {f : LoadSwitch → LoadSwitch} (htrip : ∀ c, (f c).trip = c.trip) (hcommanded : ∀ c, (f c).commanded = c.commanded)
    (n : Fin 32) (s : State) : SameSwitches s (modLs n f s) :=
  ⟨fun m => modLs_field (·.trip) htrip n m s, fun m => modLs_field (·.commanded) hcommanded n m s, rfl, rfl⟩

theorem sameSwitches_modWear (f : Wear → Wear) (s : State) : SameSwitches s (modWear f s) := ⟨fun _ => rfl, fun _ => rfl, rfl, rfl⟩

/-- A clamp event above 1 mJ of a channel, counted and dated. -/
def clampCounted (n : Fin 32) (s : State) : State :=
  modLs n (fun c => { c with lastClamp := some s.time.life }) (modWear (fun w => { w with clamps := bump w.clamps n }) s)

/-- A channel switched off; a free value is drawn where the load current leaves the clamp event open. -/
def lsOff (n : Fin 32) (clamp : Option Bool) (s : State) : State :=
  if clamp.isNone ∧ s.pd.ls[n].mA ≠ 0 then draw (modLs n (fun c => { c with out := false }) s) else modLs n (fun c => { c with out := false }) s

section
variable {s : State} {n : Fin 32} {clamp : Option Bool}

theorem lsSetOut_of_same {on : Bool} (hout : s.pd.ls[n].out = on) : lsSetOut n on clamp s = s := if_pos hout

theorem lsSetOut_true_of_off (hout : s.pd.ls[n].out = false) : lsSetOut n true clamp s =
    modWear (fun w => { w with switchOns := bump w.switchOns n }) (modLs n (fun c => { c with out := true }) s) :=
  if_neg (by rw [hout]; exact Bool.false_ne_true)

theorem lsSetOut_false_of_on (hout : s.pd.ls[n].out = true) : lsSetOut n false clamp s =
    ifDo (clamp.getD (s.pd.ls[n].mA != 0 && Config.clampEvent s.nd)) (clampCounted n) (lsOff n clamp s) :=
  if_neg (by rw [hout]; exact Bool.true_eq_false.mp)

end

theorem lsOff_pd (n : Fin 32) (clamp : Option Bool) (s : State) :
    (lsOff n clamp s).pd = (modLs n (fun c => { c with out := false }) s).pd := by
  unfold lsOff
  split_ifs <;> rfl

theorem sameSwitches_lsOff (n : Fin 32) (clamp : Option Bool) (s : State) : SameSwitches s (lsOff n clamp s) := by
  have h := sameSwitches_modLs (f := fun c => { c with out := false }) (fun _ => rfl) (fun _ => rfl) n s
  unfold lsOff
  split_ifs
  · exact h.trans ⟨fun _ => rfl, fun _ => rfl, rfl, rfl⟩
  · exact h

theorem sameSwitches_clampCounted (n : Fin 32) (s : State) : SameSwitches s (clampCounted n s) := by
  refine (sameSwitches_modWear _ s).trans (sameSwitches_modLs ?_ ?_ n _) <;> exact fun _ => rfl

/-- A clamp event leaves the outputs. -/
theorem clampCounted_out (n m : Fin 32) (s : State) : (clampCounted n s).pd.ls[m].out = s.pd.ls[m].out := by
  refine (modLs_field (·.out) ?_ n m _).trans rfl
  exact fun _ => rfl

theorem sameSwitches_lsSetOut (n : Fin 32) (on : Bool) (clamp : Option Bool) (s : State) : SameSwitches s (lsSetOut n on clamp s) := by
  by_cases hout : s.pd.ls[n].out = on
  · rw [lsSetOut_of_same hout]
    exact .refl s
  · cases on with
    | true =>
      rw [lsSetOut_true_of_off (Bool.eq_false_iff.mpr hout)]
      refine (sameSwitches_modLs ?_ ?_ n s).trans (sameSwitches_modWear _ _) <;> exact fun _ => rfl
    | false =>
      rw [lsSetOut_false_of_on (Bool.not_eq_false _ ▸ hout), ifDo]
      split_ifs
      · exact (sameSwitches_lsOff n clamp s).trans (sameSwitches_clampCounted n _)
      · exact sameSwitches_lsOff n clamp s

/-- The channel's own output takes the state; the others' stay. -/
theorem lsSetOut_out (n m : Fin 32) (on : Bool) (clamp : Option Bool) (s : State) :
    (lsSetOut n on clamp s).pd.ls[m].out = if n = m then on else s.pd.ls[m].out := by
  by_cases hout : s.pd.ls[n].out = on
  · rw [lsSetOut_of_same hout]
    split_ifs with hm
    · rw [← hm, hout]
    · rfl
  · cases on with
    | true =>
      rw [lsSetOut_true_of_off (Bool.eq_false_iff.mpr hout)]
      exact (congrArg LoadSwitch.out (modLs_get n m _ s)).trans (apply_ite LoadSwitch.out _ _ _)
    | false =>
      have hoff : (lsOff n clamp s).pd.ls[m].out = if n = m then false else s.pd.ls[m].out := by
        rw [lsOff_pd, modLs_get, apply_ite LoadSwitch.out]
      rw [lsSetOut_false_of_on (Bool.not_eq_false _ ▸ hout), ifDo]
      split_ifs at hoff ⊢ <;> simp only [clampCounted_out, hoff]

/-! ### Every output (R475) -/

theorem forEach_lsSetOut_out (target : Fin 32 → Bool) (clamp : Fin 32 → Option Bool) (l : List (Fin 32)) (m : Fin 32) (s : State) :
    (forEach l (fun n t => lsSetOut n (target n) (clamp n) t) s).pd.ls[m].out = if m ∈ l then target m else s.pd.ls[m].out := by
  induction l generalizing s with
  | nil => rfl
  | cons n l ih =>
    rw [forEach_cons, ih, lsSetOut_out]
    by_cases hm : m ∈ l
    · rw [if_pos hm, if_pos (List.mem_cons_of_mem n hm)]
    · by_cases hn : n = m
      · rw [if_neg hm, if_pos hn, if_pos (hn ▸ List.mem_cons_self), hn]
      · rw [if_neg hm, if_neg hn, if_neg (List.not_mem_cons_of_ne_of_not_mem (Ne.symm hn) hm)]

theorem applyLsWith_out (clamp : Fin 32 → Option Bool) (s : State) (n : Fin 32) :
    (applyLsWith clamp s).pd.ls[n].out = lsTarget s (lsGov s n) := by
  rw [applyLsWith, forEach_lsSetOut_out fun n => lsTarget s (lsGov s n), if_pos (List.mem_finRange n)]

theorem sameSwitches_applyLsWith (clamp : Fin 32 → Option Bool) (s : State) : SameSwitches s (applyLsWith clamp s) := by
  unfold applyLsWith
  exact .forEach (fun n t => sameSwitches_lsSetOut n _ (clamp n) t) _ s

/-! ### The target of a channel (R474, R475, R497, R498, Table 13.6) -/

section
variable {s : State} {n : Fin 32}

theorem lsTarget_of_unpowered (hoff : s.pd.started = false ∨ s.pwr.state = .save ∨ s.pwr.state = .watch ∨ s.pwr.state = .off) :
    lsTarget s n = false := by
  refine if_pos ?_
  rcases hoff with h | h | h | h <;> simp [h]

theorem lsTarget_of_tripped (htrip : s.pd.ls[n].trip ≠ .none ∨ s.pwr.ovCut = true) : lsTarget s n = false := by
  have htripped : (s.pd.ls[n].trip != .none || s.pwr.ovCut) = true := by
    rcases htrip with h | h
    · rw [bne_iff_ne.mpr h, Bool.true_or]
    · rw [h, Bool.or_true]
  rw [lsTarget, htripped]
  exact ite_self _

/-- The channel that supplies outlet A's residual-current sensor is owned, and on (R475). -/
theorem lsOwner_of_rcdSupply (hsupply : outOpt s .a .rcdSupplyLs = some n.val) : lsOwner s n = some true := by
  rw [lsOwner, Outlet.all, List.findSome?_cons, if_pos hsupply]

/-- In RUN, with the start done, the link up and nothing tripped, the owner decides, or the fail state, or the command. -/
theorem lsTarget_of_run (hstarted : s.pd.started = true) (hrun : s.pwr.state = .run) (htrip : s.pd.ls[n].trip = .none)
    (hcut : s.pwr.ovCut = false) (hup : s.pd.linkUp = true) (hhold : s.pd.linkHold = false) : lsTarget s n =
      (lsOwner s n).getD (if s.pd.lsFail then lsFailState s n else s.pd.ls[n].commanded) := by
  rw [lsTarget, hstarted, hrun, htrip, hcut, hup, hhold]
  cases lsOwner s n <;> rfl

end

/-! ### The commands (07 Table 7.14) -/

/-- A channel that a trip holds until a restart by command. -/
def lsHeld (u : State) (n : Fin 32) : Bool := u.pd.ls[n].trip == .i2t || u.pd.ls[n].trip == .latched

/-- The named channels that no trip holds take their commanded bits, and the outputs follow. -/
def switchesSet (b : Bytes) (u : State) : State :=
  applyLs (forEach ((lsNamed u (rd b 0 4)).filter (fun n => !lsHeld u n))
    (fun n => modLs n (fun c => { c with commanded := (rd b 4 4).testBit n.val })) u)

section
variable {s : State} {mb : Mailbox} {b : Bytes}

section
variable (h : serves .loadSwitchSet mb b s)
include h

theorem exec_loadSwitchSet_served : exec (.loadSwitchSet mb) s = .next (Reply.apply mb
    (guards [((lsNamed (takeUp mb s) (rd b 0 4)).any (fun n => (lsOwner (takeUp mb s) n).isSome), .switchOwned)] (takeUp mb s)
      (.done (if (lsNamed (takeUp mb s) (rd b 0 4)).any (lsHeld (takeUp mb s)) then .switchLatched else .ok)
        (u32 (lsWord (switchesSet b (takeUp mb s)))) (switchesSet b (takeUp mb s))))) :=
  congrArg Host.Outcome.next (runCommand_served _ rfl h)

theorem exec_loadSwitchSet_of_owned
    (howned : (lsNamed (takeUp mb s) (rd b 0 4)).any (fun n => (lsOwner (takeUp mb s) n).isSome) = true) :
    exec (.loadSwitchSet mb) s = .next (complete mb .switchOwned [] (takeUp mb s)) := by
  rw [exec_loadSwitchSet_served h, howned, guards_cons_true]
  rfl

section
variable (hfree : (lsNamed (takeUp mb s) (rd b 0 4)).any (fun n => (lsOwner (takeUp mb s) n).isSome) = false)
include hfree

theorem exec_loadSwitchSet_of_held (hheld : (lsNamed (takeUp mb s) (rd b 0 4)).any (lsHeld (takeUp mb s)) = true) :
    exec (.loadSwitchSet mb) s = .next (complete mb .switchLatched (u32 (lsWord (switchesSet b (takeUp mb s)))) (switchesSet b (takeUp mb s))) := by
  rw [exec_loadSwitchSet_served h, hfree, guards_cons_false, guards_nil, if_pos hheld]
  rfl

theorem exec_loadSwitchSet_of_unheld (hunheld : (lsNamed (takeUp mb s) (rd b 0 4)).any (lsHeld (takeUp mb s)) = false) :
    exec (.loadSwitchSet mb) s = .next (complete mb .ok (u32 (lsWord (switchesSet b (takeUp mb s)))) (switchesSet b (takeUp mb s))) := by
  rw [exec_loadSwitchSet_served h, hfree, guards_cons_false, guards_nil, if_neg (Bool.eq_false_iff.mp hunheld)]
  rfl

end

end

/-- The channels that LOAD_SWITCH_RESTART restarts: cool enough after an I²t trip, or latched with a die at 150 °C or less
(R478, R479). -/
def restartable (mask : Nat) (u : State) : List (Fin 32) :=
  (lsNamed u mask).filter (fun n =>
    (u.pd.ls[n].trip == .i2t && decide (u.pd.ls[n].theta ≤ 605000000)) || (u.pd.ls[n].trip == .latched && decide (u.pd.ls[n].celsius ≤ 150)))

/-- The channels restarted: their trips cleared, each with the channels that it governs. -/
def restarted (l : List (Fin 32)) (u : State) : State :=
  applyLs (forEach l (fun n s => forEach (lsMembers s n) (fun m => modLs m (fun c => { c with trip := .none })) s) u)

theorem exec_loadSwitchRestart_served (h : serves .loadSwitchRestart mb b s) : exec (.loadSwitchRestart mb) s =
    .next (complete mb .ok (u32 ((restartable (rd b 0 4) (takeUp mb s)).foldl (fun w n => w + 2 ^ n.val) 0))
      (restarted (restartable (rd b 0 4) (takeUp mb s)) (takeUp mb s))) := by
  change execLoadSwitchRestart mb s = _
  rw [execLoadSwitchRestart, runCommand_served _ rfl h]
  unfold heatRestart
  rfl

/-- What LOAD_SWITCH_STATUS_GET answers of a channel: an odd channel of a pair has no current of its own. -/
def switchStatusBytes (u : State) (n : Fin 32) : Bytes :=
  u16 (if lsGov u n = n then u.pd.ls[lsGov u n].mA else 0) ++ u8 (lsStateCode u.pd.ls[lsGov u n])
    ++ u8 (u.pd.ls[lsGov u n].celsius + 40) ++ u32 (u.safStore.wear.switchOns[n]).toNat

theorem exec_loadSwitchStatusGet_served (h : serves .loadSwitchStatusGet mb b s) : exec (.loadSwitchStatusGet mb) s =
    .next (complete mb .ok ((List.finRange 32).flatMap (switchStatusBytes (takeUp mb s))) (takeUp mb s)) :=
  congrArg Host.Outcome.next (runCommand_served _ rfl h)

/-- What WEAR_COUNTERS_READ answers. -/
def wearBytes (w : Wear) : Bytes :=
  (List.finRange 4).flatMap (fun d => u32 (w.closings[d]).toNat ++ u32 (w.openings[d]).toNat ++ u32 (w.weldFails[d]).toNat ++ u32 0)
    ++ w.clamps.toList.flatMap (fun c => u32 c.toNat)

theorem exec_wearCountersRead_served (h : serves .wearCountersRead mb b s) : exec (.wearCountersRead mb) s =
    .next (complete mb .ok (wearBytes s.safStore.wear) (takeUp mb s)) :=
  congrArg Host.Outcome.next (runCommand_served _ rfl h)

end

/-! ### The statement -/

/-- Settles O43: each command's clause is its lemma, and the outputs follow their targets. -/
theorem switchCommands : Obligations.SwitchCommands := by
  unfold Obligations.SwitchCommands
  refine ⟨fun s mb b h => ⟨exec_loadSwitchSet_of_owned h, exec_loadSwitchSet_of_held h, exec_loadSwitchSet_of_unheld h⟩,
    fun s mb b => exec_loadSwitchRestart_served, fun s mb b => exec_loadSwitchStatusGet_served,
    fun s mb b => exec_wearCountersRead_served, fun s n => ?outputs, fun s n => ⟨lsTarget_of_unpowered, lsTarget_of_tripped, ?target⟩⟩
  case outputs =>
    unfold applyLs
    obtain ⟨htrip, hcommanded, hmbx, hdrv⟩ := sameSwitches_applyLsWith (fun _ => none) s
    exact ⟨applyLsWith_out _ s n, htrip n, hcommanded n, hmbx, hdrv⟩
  case target =>
    intro o hstarted hrun htrip hcut hup hhold
    rw [lsTarget_of_run hstarted hrun htrip hcut hup hhold]
    refine ⟨fun hnone hfail => ?_, fun hsupply => ?_, fun howner => ?_⟩
    · rw [hnone, hfail]
      rfl
    · rw [lsOwner_of_rcdSupply hsupply]
      rfl
    · rw [howner]
      rfl

end Sys2Proof.Machine
end

section
/-! SUPPORT. The load switches' samples, trips and pairs (13 R473, R476, R477, R479, Table 13.5): the heat's bounds and the state that
each row leaves. -/

namespace Sys2Proof.Machine

/-! ### The heat of a wire (R476) -/

theorem wireMa_pos (w : Nat) : 0 < wireMa w := by
  unfold wireMa
  split <;> decide

theorem wireTau_pos (w : Nat) : 0 < wireTau w := by
  unfold wireTau
  split <;> decide

/-- The heat that a current drives the wire towards, in 10^-9. -/
def heatLevel (w mA : Nat) : Nat := mA * mA * 1000000000 / (wireMa w * wireMa w)

theorem heatStep_of_le {w mA theta : Nat} (h : theta ≤ heatLevel w mA) :
    heatStep w mA theta = theta + (heatLevel w mA - theta) / (20000 * wireTau w) := if_pos h

theorem heatStep_of_gt {w mA theta : Nat} (h : heatLevel w mA < theta) : heatStep w mA theta =
    theta - (theta - heatLevel w mA + 20000 * wireTau w - 1) / (20000 * wireTau w) := if_neg (Nat.not_le.mpr h)

/-- Heat that rises does not pass the level that the current drives it towards. -/
theorem heatStep_le_max (w mA theta : Nat) : heatStep w mA theta ≤ max theta (heatLevel w mA) := by
  rcases le_or_gt theta (heatLevel w mA) with h | h
  · calc heatStep w mA theta = theta + (heatLevel w mA - theta) / (20000 * wireTau w) := heatStep_of_le h
      _ ≤ theta + (heatLevel w mA - theta) := Nat.add_le_add_left (Nat.div_le_self _ _) theta
      _ = heatLevel w mA := Nat.add_sub_cancel' h
      _ ≤ max theta (heatLevel w mA) := le_max_right _ _
  · rw [heatStep_of_gt h]
    exact (Nat.sub_le _ _).trans (le_max_left _ _)

/-- A current of at most 1.1 times the rated one drives the heat at most to the trip level. -/
theorem heatLevel_le_of_rated {w mA : Nat} (h : 10 * mA ≤ 11 * wireMa w) : heatLevel w mA ≤ 1210000000 := by
  have hsquare : 10 * mA * (10 * mA) ≤ 11 * wireMa w * (11 * wireMa w) := Nat.mul_le_mul h h
  refine Nat.div_le_of_le_mul ?_
  nlinarith only [hsquare]

theorem heatLevel_of_noCurrent (w : Nat) : heatLevel w 0 = 0 := by
  rw [heatLevel, Nat.mul_zero, Nat.zero_mul, Nat.zero_div]

/-- Without current a warm wire cools. -/
theorem heatStep_noCurrent_lt (w : Nat) {theta : Nat} (h : 0 < theta) : heatStep w 0 theta < theta := by
  have hd : 0 < 20000 * wireTau w := Nat.mul_pos (by decide) (wireTau_pos w)
  have hfall : 0 < (theta - 0 + 20000 * wireTau w - 1) / (20000 * wireTau w) := Nat.div_pos (by omega) hd
  rw [heatStep_of_gt (by rwa [heatLevel_of_noCurrent]), heatLevel_of_noCurrent]
  exact Nat.sub_lt h hfall

section
variable {s : State} {n : Fin 32}

/-! ### Samples and overload trips of a governing channel (R473, R476, R477) -/

section
variable (hgov : lsGov s n = n)
include hgov

theorem exec_lsCurrentSample_of_started (hstarted : s.pd.started = true) (mA celsius : Nat) : exec (.lsCurrentSample n mA celsius) s =
    .next (modLs n (fun c => { c with
      mA := mA, celsius := celsius
      theta := heatStep (lsKey s n .wire) mA c.theta
      limitRun := if (if s.pd.ls[n].paired ∧ n.val % 2 = 0 then 32000 else 16000) ≤ mA then c.limitRun + 1 else 0 }) s) :=
  next_ifDo_of_true (by rw [hgov, hstarted, beq_self_eq_true, Bool.true_and]) _ _

section
variable (hout : s.pd.ls[n].out = true) (htrip : s.pd.ls[n].trip = .none)
include hout htrip

theorem governs_on_untripped : (lsGov s n == n && s.pd.ls[n].out && s.pd.ls[n].trip == .none) = true := by
  rw [hgov, hout, htrip, beq_self_eq_true]
  rfl

theorem exec_i2tTrip_of_on (uj : Nat) : exec (.i2tTrip n uj) s =
    .next (if heatTrip ≤ s.pd.ls[n].theta then lsTrip n .i2t 1 (some (decide (1000 < uj))) s else s) := by
  change execI2tTrip n uj s = _
  simp only [execI2tTrip]
  rw [governs_on_untripped hgov hout htrip, Bool.true_and, ifDo_decide]

theorem exec_currentLimitTrip_of_on : exec (.currentLimitTrip n) s =
    .next (if 40 ≤ s.pd.ls[n].limitRun then lsTrip n .i2t 1 none s else s) := by
  change execCurrentLimitTrip n s = _
  simp only [execCurrentLimitTrip]
  rw [governs_on_untripped hgov hout htrip, Bool.true_and, ifDo_decide]

end

end

/-! ### Thermal shutdown and restart (R479) -/

/-- The shutdowns of a channel's last 60 s with one at this instant, newest first. -/
def recentShutdowns (s : State) (g : Fin 32) : List Life :=
  s.time.life :: (s.pd.ls[g].shutdowns.filter (fun l => (s.time.life - l).toNat ≤ 60 * 32768))

/-- The channels that `g` governs with a shutdown's temperature and date. -/
def shutdownNoted (g : Fin 32) (c : Nat) (s : State) : State :=
  forEach (lsMembers s g) (fun m => modLs m (fun x => { x with celsius := c, shutdowns := recentShutdowns s g })) s

/-- The shutdown latches by the channel's key, or as the ninth within 60 s. -/
def shutdownLatches (s : State) (g : Fin 32) : Bool := lsKey s g .thermal == 1 || decide (9 ≤ (recentShutdowns s g).length)

section
variable {c : Nat} (hstarted : s.pd.started = true) (hhot : 170 ≤ c) (htrip : s.pd.ls[lsGov s n].trip = .none)
include hstarted hhot htrip

theorem exec_thermalShutdown_of_hot : exec (.thermalShutdown n c) s = .next
    ((if shutdownLatches s (lsGov s n) then lsTrip (lsGov s n) .latched 3 none else lsTrip (lsGov s n) .restart 2 none)
      (shutdownNoted (lsGov s n) c s)) :=
  next_ifDo_of_true (by rw [decide_eq_true hhot, htrip, hstarted]; rfl) _ _

theorem exec_thermalShutdown_of_latching (hlatch : lsKey s (lsGov s n) .thermal = 1 ∨ 9 ≤ (recentShutdowns s (lsGov s n)).length) :
    exec (.thermalShutdown n c) s = .next (lsTrip (lsGov s n) .latched 3 none (shutdownNoted (lsGov s n) c s)) := by
  have hlatches : shutdownLatches s (lsGov s n) = true :=
    Bool.or_eq_true_iff.mpr (hlatch.imp beq_iff_eq.mpr decide_eq_true)
  rw [exec_thermalShutdown_of_hot hstarted hhot htrip, if_pos hlatches]

theorem exec_thermalShutdown_of_restarting (hkey : lsKey s (lsGov s n) .thermal ≠ 1)
    (hfew : (recentShutdowns s (lsGov s n)).length < 9) :
    exec (.thermalShutdown n c) s = .next (lsTrip (lsGov s n) .restart 2 none (shutdownNoted (lsGov s n) c s)) := by
  have hlatches : shutdownLatches s (lsGov s n) = false :=
    Bool.or_eq_false_iff.mpr ⟨beq_false_of_ne hkey, decide_eq_false (Nat.not_le.mpr hfew)⟩
  rw [exec_thermalShutdown_of_hot hstarted hhot htrip, if_neg (Bool.eq_false_iff.mp hlatches)]

end

theorem exec_thermalShutdown_of_none {c : Nat} (hnone : c < 170 ∨ s.pd.ls[lsGov s n].trip ≠ .none ∨ s.pd.started = false) :
    exec (.thermalShutdown n c) s = .next s := by
  refine next_ifDo_of_false ?_ _ _
  rcases hnone with hcool | htrip | hstopped
  · rw [decide_eq_false (Nat.not_le.mpr hcool), Bool.false_and, Bool.false_and]
  · rw [beq_false_of_ne htrip, Bool.and_false, Bool.false_and]
  · rw [hstopped, Bool.and_false]

theorem exec_thermalRestart_of_cool {c : Nat} (hcool : c ≤ 150) : exec (.thermalRestart n c) s =
    .next (applyLs (forEach (lsMembers s (lsGov s n)) (fun m => modLs m (fun x => { x with
      celsius := c, trip := if x.trip = .restart then .none else x.trip })) s)) :=
  next_ifDo_of_true (decide_eq_true hcool) _ _

/-! ### A changed pair (R473, Table 13.5) -/

theorem exec_lsPairApply_of_bothOff (heven : n.val % 2 = 0) (hoff : s.pd.ls[n].out = false)
    (hoddOff : s.pd.ls[Fin.ofNat 32 (n.val + 1)].out = false) :
    exec (.lsPairApply n) s = .next (modLs n (fun c => { c with paired := lsKey s n .pair == 1 }) s) :=
  next_ifDo_of_true (by rw [heven, hoff, hoddOff]; rfl) _ _

theorem exec_lsPairApply_of_on (hon : s.pd.ls[n].out = true ∨ s.pd.ls[Fin.ofNat 32 (n.val + 1)].out = true) :
    exec (.lsPairApply n) s = .next s := by
  refine next_ifDo_of_false ?_ _ _
  rcases hon with h | h
  · rw [h, Bool.not_true, Bool.and_false, Bool.false_and]
  · rw [h, Bool.not_true, Bool.and_false]

end

end Sys2Proof.Machine
end

section
/-! SUPPORT. The contactor drivers' pull-in, mirrors, coil limit and shunt-trip pulse (11 R388; 13 R475, R485, R487 to R489, R496): the
state that each row leaves, and the proof of SwitchAndDriverEvents from them and the load switches' rows. -/

namespace Sys2Proof.Machine

section
variable {s : State} {d : Driver}

/-! ### The end of pull-in (R485, R487, R496) -/

/-- The driver taken to hold, with the pull-in's peak as its coil current. -/
def pulledIn (d : Driver) (peak : Nat) (s : State) : State := modDrv d (fun r => { r with phase := .hold, coilMa := peak }) s

section
variable (hphase : s.pd.drv[d].phase = .pullIn)
  (hpassed : msecs s.pd.drv[d].pullMs ≤ (s.time.life - s.pd.drv[d].driveStart).toNat)
include hphase hpassed

theorem exec_pullInEnd_of_passed (peak : Nat) : exec (.pullInEnd d peak) s =
    .next (ifDo (decide (peak < s.pd.drv[d].pullMinMa)) (closingFailure d) (pulledIn d peak s)) :=
  next_ifDo_of_true (by rw [hphase, passedSince_some, decide_eq_true hpassed]; rfl) _ _

theorem exec_pullInEnd_of_enough {peak : Nat} (hpeak : s.pd.drv[d].pullMinMa ≤ peak) :
    exec (.pullInEnd d peak) s = .next (pulledIn d peak s) := by
  rw [exec_pullInEnd_of_passed hphase hpassed, decide_eq_false (Nat.not_lt.mpr hpeak), ifDo_false]

theorem exec_pullInEnd_of_weak {peak : Nat} (hpeak : peak < s.pd.drv[d].pullMinMa) : exec (.pullInEnd d peak) s =
    .next (enterFault (outletOf d) .contactor (withdrawApp (outletOf d) (pulledIn d peak s))) := by
  rw [exec_pullInEnd_of_passed hphase hpassed, decide_eq_true hpeak, ifDo_true]
  rfl

end

theorem exec_pullInEnd_of_early (peak : Nat)
    (hearly : (s.time.life - s.pd.drv[d].driveStart).toNat < msecs s.pd.drv[d].pullMs) : exec (.pullInEnd d peak) s = .next s :=
  next_ifDo_of_false (by rw [passedSince_some, decide_eq_false (Nat.not_le.mpr hearly), Bool.and_false]) _ _

theorem exec_pullInEnd_of_off (peak : Nat) (hoff : s.pd.drv[d].phase = .off) : exec (.pullInEnd d peak) s = .next s :=
  next_ifDo_of_false (by rw [hoff]; rfl) _ _

/-! ### A mirror that does not follow (R488, R496) -/

/-- The time that the configuration gives the driver's mirror, in AO32 cycles. -/
def mirrorTime (s : State) (d : Driver) : Nat := msecs (cfgNat (outCfg s (outletOf d)) s.fab (.cd d .mirrorMs))

theorem exec_mirrorTimeout_of_late (hdriven : s.pd.drv[d].phase ≠ .off) (hdue : s.pd.drv[d].mirrorDue = true)
    (hopen : mainOpen s d = true) (hlate : mirrorTime s d ≤ (s.time.life - s.pd.drv[d].driveStart).toNat) :
    exec (.mirrorTimeout d) s = .next (enterFault (outletOf d) .contactor (withdrawApp (outletOf d) s)) :=
  next_ifDo_of_true (by
    rw [bne_iff_ne.mpr hdriven, hdue, hopen, passedSince_some]
    exact decide_eq_true hlate) _ _

theorem exec_mirrorTimeout_of_none (hnone : s.pd.drv[d].phase = .off ∨ s.pd.drv[d].mirrorDue = false ∨ mainOpen s d = false ∨
    (s.time.life - s.pd.drv[d].driveStart).toNat < mirrorTime s d) : exec (.mirrorTimeout d) s = .next s := by
  refine next_ifDo_of_false ?_ _ _
  rcases hnone with hoff | hdone | hclosed | hearly
  · rw [hoff, bne_self_eq_false, Bool.false_and, Bool.false_and, Bool.false_and]
  · rw [hdone, Bool.and_false, Bool.false_and, Bool.false_and]
  · rw [hclosed, Bool.and_false, Bool.false_and]
  · have hwaits : passedSince s (some s.pd.drv[d].driveStart) (mirrorTime s d) = false := decide_eq_false (Nat.not_le.mpr hearly)
    exact (congrArg _ hwaits).trans (Bool.and_false _)

/-! ### The coil's current limit (R496) and the shunt-trip pulse (R475) -/

theorem exec_coilCurrentLimit_of_driven (hdriven : s.pd.drv[d].phase ≠ .off) :
    exec (.coilCurrentLimit d) s = .next (safTrip [d] causeCoilDriver s) :=
  next_ifDo_of_true (bne_iff_ne.mpr hdriven) _ _

theorem exec_coilCurrentLimit_of_off (hoff : s.pd.drv[d].phase = .off) : exec (.coilCurrentLimit d) s = .next s :=
  next_ifDo_of_false (by rw [hoff, bne_self_eq_false]) _ _

theorem exec_shuntTripPulseEnd_of_pulse {o : Outlet} {l : Life} (hpulse : s.pd.shunt.get o = some l) : exec (.shuntTripPulseEnd o) s =
    .next (if msecs 500 ≤ (s.time.life - l).toNat then
      applyLs { s with pd := { s.pd with shunt := s.pd.shunt.modify o (fun _ => none) } } else s) := by
  change execShuntTripPulseEnd o s = _
  rw [execShuntTripPulseEnd, hpulse, passedSince_some, ifDo_decide]
  rfl

/-! ### A mirror's reading (R488, R489) -/

theorem exec_mirrorSense_of_unsensed (hrun : s.pwr.state ≠ .run) (hidle : s.pwr.state ≠ .idle) (ohm : Nat) :
    exec (.mirrorSense d ohm) s = .next s :=
  next_ifDo_of_false (by rw [beq_false_of_ne hrun, beq_false_of_ne hidle, Bool.or_false]) _ _

/-- A mirror's reading: closed below 500 ohm, open above 5 kilohm, between them the state taken (log 88). -/
def mirrorReading (s : State) (d : Driver) (ohm : Nat) : Bool :=
  if ohm < 500 then true else if 5000 < ohm then false else s.pd.drv[d].mirrorClosed

/-- The equal readings in a row, with this one. -/
def mirrorRun (s : State) (d : Driver) (ohm : Nat) : Nat :=
  if s.pd.drv[d].mirrorFilter.cand = mirrorReading s d ohm then s.pd.drv[d].mirrorFilter.run + 1 else 1

/-- The filter with a reading taken; the third equal one is the new state. -/
def mirrorFiltered (d : Driver) (ohm : Nat) (s : State) : State :=
  modDrv d (fun r => { r with
    mirrorFilter := ⟨mirrorReading s d ohm, mirrorRun s d ohm⟩
    mirrorClosed := if 3 ≤ mirrorRun s d ohm then mirrorReading s d ohm else r.mirrorClosed }) s

/-- A mirror that has followed its coil is no longer due, and closed contacts end a good weld check. -/
def mirrorFollowed (d : Driver) (t : State) : State :=
  modDrv d (fun r => { r with
    mirrorDue := r.mirrorDue && !(if r.phase = .off then mainOpen t d else !mainOpen t d)
    weldGoodSince := if mainOpen t d then r.weldGoodSince else none }) t

/-- The state in force is the one that the driver had before the reading. -/
theorem mirrorFiltered_eq (ohm : Nat) : mirrorFiltered d ohm s = modDrv d (fun r => { r with
    mirrorFilter := ⟨mirrorReading s d ohm, mirrorRun s d ohm⟩
    mirrorClosed := if 3 ≤ mirrorRun s d ohm then mirrorReading s d ohm else s.pd.drv[d].mirrorClosed }) s :=
  congrArg (fun v => { s with pd := { s.pd with drv := v } }) (vmod_congr rfl)

theorem exec_mirrorSense_of_sensed (hsensed : s.pwr.state = .run ∨ s.pwr.state = .idle) (ohm : Nat) : exec (.mirrorSense d ohm) s =
    .next (settle (outletOf d) (closeSecond d (mirrorFollowed d (mirrorFiltered d ohm s)))) := by
  rw [mirrorFiltered_eq]
  exact next_ifDo_of_true (Bool.or_eq_true_iff.mpr (hsensed.imp beq_iff_eq.mpr beq_iff_eq.mpr)) _ _

/-- DC+ follows DC-: the second driver's mirror reports closed while the session prepares or transfers (R489, 11 R388). -/
theorem closeSecond_of_closed {o : Outlet} (hdc : isDc s o = true) (hdriven : s.pd.drv[secondDriver o].phase ≠ .off)
    (hclosed : mainOpen s (secondDriver o) = false) (hsession : stateIn s o [.insulation, .preCharge, .transfer] = true)
    (hpermit : s.pd.drv[firstDriver o].permits.app = false) (houtlet : outletOf (secondDriver o) = o) :
    closeSecond (secondDriver o) s = grant (firstDriver o) .app s := by
  have hok : closedOk s (secondDriver o) = true := by
    rw [closedOk, bne_iff_ne.mpr hdriven, hclosed]
    rfl
  simp only [closeSecond, houtlet, hdc, beq_self_eq_true, hok, hsession, hpermit, Bool.not_false, Bool.and_self, ifDo_true]

end

/-! ### The statement -/

/-- Settles O44: each clause is the lemma of its row, or a bound of the heat. -/
theorem switchAndDriverEvents : Obligations.SwitchAndDriverEvents := by
  unfold Obligations.SwitchAndDriverEvents
  refine ⟨⟨fun s n hgov => ⟨exec_lsCurrentSample_of_started hgov, ?overload⟩, fun s n c => ⟨exec_thermalShutdown_of_latching,
      exec_thermalShutdown_of_restarting, exec_thermalShutdown_of_none, exec_thermalRestart_of_cool⟩,
      fun s n heven => ⟨fun ⟨hoff, hoddOff⟩ => exec_lsPairApply_of_bothOff heven hoff hoddOff,
        exec_lsPairApply_of_on⟩, ?heatBound, fun w theta => heatStep_noCurrent_lt w⟩,
    fun s d => ⟨fun peak hphase hpassed => ⟨exec_pullInEnd_of_enough hphase hpassed, exec_pullInEnd_of_weak hphase hpassed⟩,
      exec_pullInEnd_of_early, exec_mirrorTimeout_of_late, exec_mirrorTimeout_of_none, exec_coilCurrentLimit_of_driven,
      fun hoff peak => ⟨exec_coilCurrentLimit_of_off hoff, exec_pullInEnd_of_off peak hoff⟩,
      fun o l => exec_shuntTripPulseEnd_of_pulse, exec_mirrorSense_of_unsensed, exec_mirrorSense_of_sensed,
      fun o => closeSecond_of_closed⟩⟩
  case overload =>
    intro hout htrip
    exact ⟨fun uj hhot => (exec_i2tTrip_of_on hgov hout htrip uj).trans (congrArg Host.Outcome.next (if_pos hhot)),
      fun uj hcool => (exec_i2tTrip_of_on hgov hout htrip uj).trans (congrArg Host.Outcome.next (if_neg (Nat.not_le.mpr hcool))),
      fun hlong => (exec_currentLimitTrip_of_on hgov hout htrip).trans (congrArg Host.Outcome.next (if_pos hlong)),
      fun hshort => (exec_currentLimitTrip_of_on hgov hout htrip).trans (congrArg Host.Outcome.next (if_neg (Nat.not_le.mpr hshort)))⟩
  case heatBound =>
    exact fun w mA theta hrated htheta => (heatStep_le_max w mA theta).trans (max_le htheta (heatLevel_le_of_rated hrated))

end Sys2Proof.Machine
end

section
/-! SUPPORT. What a step does with the queue of commands, the sealed data and the lifecycle fuses (06, log 4; 18 R631, Table 18.5),
and the proofs of StepOfTheQueue, StepTakesOneCommand and FusesAndSealedDataStay. -/

namespace Sys2Proof.Machine

/-- Settles O1: an empty queue idles, and a command in front runs on the rest. -/
theorem stepOfTheQueue : Obligations.StepOfTheQueue := by
  unfold Obligations.StepOfTheQueue
  exact ⟨fun c rest s => step_of_pending, fun s => step_of_idle⟩

/-- A step keeps what `Keeps` says of the state without its front command. -/
theorem keeps_of_step {s t : State} (h : step s = .next t) : Keeps { s with pending := s.pending.tail } t := by
  cases hpending : s.pending with
  | nil =>
    rw [step_of_idle hpending] at h
    cases h
    exact ⟨rfl, hpending, id, id, id, id⟩
  | cons c rest =>
    rw [step_of_pending hpending] at h
    exact keeps_of_exec h

/-- Fuses that stay blown never let the lifecycle's code fall (18 R631). -/
theorem lifecycle_le_of_keeps {s t : State} (h : Keeps s t) : lifecycle s ≤ lifecycle t := by
  obtain ⟨-, -, -, hprovisioned, hfield, hretired⟩ := h
  rw [lifecycle_eq, lifecycle_eq]
  by_cases hr : s.keys.retired ≠ 0
  · rw [if_pos hr, if_pos (hretired hr)]
  · rw [if_neg hr]
    by_cases hf : s.keys.field ≠ 0
    · rw [if_pos hf, if_pos (hfield hf)]
      split_ifs <;> decide
    · rw [if_neg hf]
      by_cases hp : s.keys.provisioned ≠ 0
      · rw [if_pos hp, if_pos (hprovisioned hp)]
        split_ifs <;> decide
      · rw [if_neg hp]
        exact Nat.zero_le _

/-! ### The statements -/

/-- Settles O6: what a step keeps names the queue without its front command. -/
theorem stepTakesOneCommand : Obligations.StepTakesOneCommand := by
  unfold Obligations.StepTakesOneCommand
  exact fun s t h => (keeps_of_step h).pending

/-- Settles O5: every command keeps the sealed data and the fuses that read blown, and the lifecycle's code follows them. -/
theorem fusesAndSealedDataStay : Obligations.FusesAndSealedDataStay := by
  unfold Obligations.FusesAndSealedDataStay
  intro s t h
  have hkeeps := keeps_of_step h
  have hlife := lifecycle_le_of_keeps hkeeps
  exact ⟨hkeeps.fab, hlife, hkeeps.provisioned, hkeeps.field, hkeeps.retired⟩

end Sys2Proof.Machine
end

section
/-! SUPPORT. The lifecycle requests (06 R233, Table 6.5; 18 R631 to R633): when each is allowed, what it changes, and the proof of
LifecycleRequests. -/

namespace Sys2Proof.Machine

/-! ### HIF_LC_TRIGGER (06 R233, Table 6.5) -/

/-- The three requests' rows write their word on an open port. -/
theorem exec_lcTrigger_of_open {s : State} {w : Word32} {i : Instr} (hopen : portOpen s)
    (hi : i = .lcRequestProvisioned w ∨ i = .lcRequestField w ∨ i = .lcRequestRetired w) :
    exec i s = .next (lcTrigger w
      { s with hif := { s.hif with buffered := min 128 (s.hif.buffered + 1), rdy := false, sent := phases 0x08 s } }) := by
  have htake : transaction 0x08 (fun s => s |> buffer 1 |> lcTrigger w) s =
      lcTrigger w (buffer 1 (drive (phases 0x08 s) s)) :=
    transaction_of_open hopen 0x08 (fun s => s |> buffer 1 |> lcTrigger w)
  obtain rfl | rfl | rfl := hi <;> exact congrArg Host.Outcome.next htake

section
variable {s : State} {w : Word32}

theorem lcTrigger_of_code {n : Nat} (hn : n = 1 ∨ n = 2 ∨ n = 3) (hword : w.toNat = 0x3C5A * 65536 + n) :
    lcTrigger w s = lcRequest n w s := by
  rw [lcTrigger, keyWord_of_code hword (by omega) (by omega) (by omega)]

theorem lcTrigger_of_other (h : w.toNat / 65536 ≠ 0x3C5A ∨ w.toNat % 65536 = 0 ∨ 3 < w.toNat % 65536) :
    lcTrigger w s = setStatus stKeyRefused s := by
  rw [lcTrigger, keyWord_of_other h]

/-! ### A request refused and a request granted (R632, R633) -/

theorem lcRequest_of_refused {n : Nat} (h : lcAllowed s n = false) : lcRequest n w s = triggerDone w .lcRefused s :=
  if_neg (Bool.eq_false_iff.mp h)

/-- The authorisation is consumed and the debug session ends (R632). -/
def debugEnded (s : State) : State := { s with key := { s.key with auth := none, debugOpen := false, challenge := none } }

/-- Both reports of a state reached (R632). -/
def lcReported (n : Nat) (w : Word32) (s : State) : State := triggerDone w .ok (raise .lifecycleChanged (u8 n) s)

theorem lcRequest_of_allowed {n : Nat} (h : lcAllowed s n = true) :
    lcRequest n w s = lcReported n w (debugEnded (ifDo (n == 3) retire { s with keys := blow n s.keys })) :=
  if_pos h

theorem lcRequest_of_served {n : Nat} (h : lcAllowed s n = true) (hn : n ≠ 3) :
    lcRequest n w s = lcReported n w (debugEnded { s with keys := blow n s.keys }) := by
  rw [lcRequest_of_allowed h, beq_false_of_ne hn, ifDo_false]

theorem lcRequest_of_retiring (h : lcAllowed s 3 = true) :
    lcRequest 3 w s = lcReported 3 w (debugEnded (retire { s with keys := { s.keys with retired := 3 } })) := by
  rw [lcRequest_of_allowed h]
  rfl

/-! ### The conditions of a request (R632) -/

theorem lcAllowed_provisioned : lcAllowed s 1 =
    (lifecycle s == 0 && [0, 1, 2, 3, 4].all (slotValid s.keys) && s.legal.fault != some 0) := rfl

theorem lcAllowed_field : lcAllowed s 2 = (lifecycle s == 1 && lcAuthorised s 2 && !anySession s && s.time.valid) := rfl

theorem lcAllowed_retired : lcAllowed s 3 =
    (lifecycle s == 0 || ((lifecycle s == 1 || lifecycle s == 2) && lcAuthorised s 3 && !anySession s)) := rfl

/-- The slots that Iskeco fills, all valid. -/
theorem deliveredSlots_valid_iff {k : KeyStore} :
    ([0, 1, 2, 3, 4] : List (Fin 64)).all (slotValid k) = true ↔ ∀ i : Fin 64, i.val ≤ 4 → slotValid k i = true := by
  have hmem : ∀ i : Fin 64, i ∈ ([0, 1, 2, 3, 4] : List (Fin 64)) ↔ i.val ≤ 4 := by decide
  simp only [List.all_eq_true, hmem]

theorem lcAllowed_provisioned_iff : lcAllowed s 1 = true ↔
    lifecycle s = 0 ∧ (∀ i : Fin 64, i.val ≤ 4 → slotValid s.keys i = true) ∧ s.legal.fault ≠ some 0 := by
  rw [lcAllowed_provisioned, Bool.and_eq_true, Bool.and_eq_true, beq_iff_eq, bne_iff_ne, deliveredSlots_valid_iff, and_assoc]

theorem lcAllowed_field_iff : lcAllowed s 2 = true ↔
    lifecycle s = 1 ∧ lcAuthorised s 2 = true ∧ anySession s = false ∧ s.time.valid = true := by
  simp only [lcAllowed_field, Bool.and_eq_true, beq_iff_eq, Bool.not_eq_true', and_assoc]

theorem lcAllowed_retired_iff : lcAllowed s 3 = true ↔
    lifecycle s = 0 ∨ ((lifecycle s = 1 ∨ lifecycle s = 2) ∧ lcAuthorised s 3 = true ∧ anySession s = false) := by
  simp only [lcAllowed_retired, Bool.or_eq_true, Bool.and_eq_true, beq_iff_eq, Bool.not_eq_true', and_assoc]

/-- Nothing follows RETIRED. -/
theorem lcAllowed_of_retired (h : lifecycle s = 3) (n : Nat) : lcAllowed s n = false := by
  unfold lcAllowed
  rw [h]
  dsimp only
  split <;> rfl

/-! ### An authorisation's age (R632) -/

section
variable {n : Nat} {l : Life} (hauth : s.key.auth = some (n, l))
include hauth

theorem exec_lcAuthorisationExpire_of_some : exec .lcAuthorisationExpire s = .next { s with key := { s.key with
    auth := if 60 * 32768 < (s.time.life - l).toNat then none else some (n, l) } } := by
  change execLcAuthorisationExpire s = _
  simp only [execLcAuthorisationExpire, modKey, hauth]

theorem exec_lcAuthorisationExpire_of_old (hold : 60 * 32768 < (s.time.life - l).toNat) :
    exec .lcAuthorisationExpire s = .next { s with key := { s.key with auth := none } } := by
  rw [exec_lcAuthorisationExpire_of_some hauth, if_pos hold]

theorem exec_lcAuthorisationExpire_of_young (hyoung : (s.time.life - l).toNat ≤ 60 * 32768) :
    exec .lcAuthorisationExpire s = .next s := by
  rw [exec_lcAuthorisationExpire_of_some hauth, if_neg (Nat.not_lt.mpr hyoung), ← hauth]

end

end

/-! ### The statement -/

/-- Settles O24: the trigger's word names the request, whose conditions, success and refusal are its lemmas. -/
theorem lifecycleRequests : Obligations.LifecycleRequests := by
  unfold Obligations.LifecycleRequests
  refine fun s w => ⟨fun hopen i hi => ⟨fun n hn hword => ?code, fun hother => ?other⟩, fun n => lcRequest_of_refused,
    fun n => lcRequest_of_served, lcRequest_of_retiring, fun hretired n => lcAllowed_of_retired hretired n,
    lcAllowed_provisioned_iff, lcAllowed_field_iff, lcAllowed_retired_iff,
    fun n l hauth => ⟨exec_lcAuthorisationExpire_of_old hauth, exec_lcAuthorisationExpire_of_young hauth⟩⟩
  case code => rw [exec_lcTrigger_of_open hopen hi, lcTrigger_of_code hn hword]
  case other => rw [exec_lcTrigger_of_open hopen hi, lcTrigger_of_other hother]

end Sys2Proof.Machine
end

section
/-! SUPPORT. What a slot's usage byte allows, the crypto engine's requests and their ends, the debug port and the random source (01 R32,
R49; 18 R623, R634, R641, Table 18.8), and the proof of CryptoRequests. -/

namespace Sys2Proof.Machine

/-! ### What a usage byte allows (R623) -/

/-- The operation lacks its usage bit, or the slot's kind does not have it. -/
def Unallowed (op : CryptoOp) (r : KeySlot) : Prop :=
  (op = .sign ∧ (r.usage.getLsbD 0 = false ∨ (r.kind ≠ 3 ∧ r.kind ≠ 4))) ∨
    (op = .tlsAuth ∧ (r.usage.getLsbD 1 = false ∨ (r.kind ≠ 3 ∧ r.kind ≠ 4))) ∨
    ((op = .encrypt ∨ op = .decrypt) ∧ (r.usage.getLsbD 2 = false ∨ r.kind ≠ 1)) ∨
    (op = .verify ∧ (r.usage.getLsbD 4 = false ∨ (r.kind ≠ 5 ∧ r.kind ≠ 6))) ∨
    (op = .tlsRelease ∧ (r.usage.getLsbD 6 = false ∨ r.kind ≠ 7))

theorem opAllowed_of_unallowed {op : CryptoOp} {r : KeySlot} (h : Unallowed op r) : opAllowed op r = false := by
  obtain ⟨rfl, h⟩ | ⟨rfl, h⟩ | ⟨rfl | rfl, h⟩ | ⟨rfl, h⟩ | ⟨rfl, h⟩ := h <;>
    rcases h with hbit | hkind <;> simp_all [opAllowed]

theorem Unallowed.ne_random {op : CryptoOp} {r : KeySlot} (h : Unallowed op r) : op ≠ .random := by
  rintro rfl
  simp [Unallowed] at h

theorem requestAllowed_of_unallowed {s : State} {r : CryptoReq} (h : Unallowed r.op s.keys.slots[r.slot]) :
    requestAllowed s r = false := by
  rw [requestAllowed, if_neg (by simpa using h.ne_random), opAllowed_of_unallowed h, Bool.and_false]

/-- The usage bits that a kind has (18 R623), with the reserved bit 7. -/
def usageMask : Nat → BitVec 8
  | 1 => 0x84
  | 2 => 0x88
  | 3 | 4 => 0x83
  | 5 => 0x90
  | 6 => 0xB0
  | 7 => 0xC0
  | _ => 0x80

theorem usageOk_eq (kind : Nat) (u : BitVec 8) : usageOk kind u = (u &&& ~~~usageMask kind == 0) := rfl

theorem usageMask_of_usageOk {kind : Nat} {u : BitVec 8} (h : usageOk kind u = true) {i : Nat} (hi : u.getLsbD i = true) :
    (usageMask kind).getLsbD i = true := by
  have hbit : (u &&& ~~~usageMask kind).getLsbD i = false := by
    rw [beq_iff_eq.mp ((usageOk_eq kind u).symm.trans h)]
    exact BitVec.getLsbD_zero
  simpa [hi, BitVec.lt_of_getLsbD hi] using hbit

/-- The kinds that have each usage bit. -/
theorem kind_of_usageMask (kind : Nat) :
    ((usageMask kind).getLsbD 0 = true → kind = 3 ∨ kind = 4) ∧ ((usageMask kind).getLsbD 1 = true → kind = 3 ∨ kind = 4) ∧
    ((usageMask kind).getLsbD 2 = true → kind = 1) ∧ ((usageMask kind).getLsbD 3 = true → kind = 2) ∧
    ((usageMask kind).getLsbD 4 = true → kind = 5 ∨ kind = 6) ∧ ((usageMask kind).getLsbD 5 = true → kind = 6) ∧
    ((usageMask kind).getLsbD 6 = true → kind = 7) := by
  unfold usageMask
  split <;> simp

theorem usageOk_kinds {kind : Nat} {u : BitVec 8} (h : usageOk kind u = true) :
    (u.getLsbD 0 = true ∨ u.getLsbD 1 = true → kind = 3 ∨ kind = 4) ∧ (u.getLsbD 2 = true → kind = 1) ∧
    (u.getLsbD 3 = true → kind = 2) ∧ (u.getLsbD 4 = true → kind = 5 ∨ kind = 6) ∧ (u.getLsbD 5 = true → kind = 6) ∧
    (u.getLsbD 6 = true → kind = 7) := by
  obtain ⟨h0, h1, h2, h3, h4, h5, h6⟩ := kind_of_usageMask kind
  have hmask : ∀ {i}, u.getLsbD i = true → (usageMask kind).getLsbD i = true := usageMask_of_usageOk h
  exact ⟨Or.rec (h0 ∘ hmask) (h1 ∘ hmask), h2 ∘ hmask, h3 ∘ hmask, h4 ∘ hmask, h5 ∘ hmask, h6 ∘ hmask⟩

/-- A derivation needs a parent of kind 2 with usage bit 3 (R623, R628). -/
theorem applyOp_derive_of_noParent {man : Bool} {l : Life} {o : EnvOp} {e : EnvState} (hop : o.op = 2) (hparent : o.parent < 64)
    (hno : e.keys.slots[Fin.ofNat 64 o.parent].kind ≠ 2 ∨ e.keys.slots[Fin.ofNat 64 o.parent].usage.getLsbD 3 = false) :
    ∃ st, applyOp man l o e = .error st := by
  have hroot : (!decide (o.parent = 0xFF)) = true := by simp; omega
  have hbad : (!decide (o.parent = 0xFF) && (!slotValid e.keys (Fin.ofNat 64 o.parent) || e.keys.slots[Fin.ofNat 64 o.parent].kind != 2 ||
      !e.keys.slots[Fin.ofNat 64 o.parent].usage.getLsbD 3 || Fin.ofNat 64 o.parent == Fin.ofNat 64 o.slot ||
      descends e.keys (Fin.ofNat 64 o.slot) 64 (Fin.ofNat 64 o.parent) || decide (8 < keyDepth e.keys 64 (Fin.ofNat 64 o.parent) + 1))) = true := by
    rw [hroot]
    rcases hno with hkind | husage
    · rw [bne_iff_ne.mpr hkind]
      simp
    · rw [husage]
      simp
  unfold applyOp
  simp only [hop]
  split_ifs <;> first | exact ⟨_, rfl⟩ | contradiction

/-! ### The engine's requests (01 R32, R49) -/

section
variable {s : State}

theorem exec_cryptoRows_of_unpowered (h : engineRuns s = false) :
    (∀ r, exec (.cryptoRequest r) s = .next s) ∧ ∀ c, exec (.cryptoRequestDone c) s = .next s :=
  ⟨fun _ => next_ifDo_of_false h _ _, fun _ => next_ifDo_of_false h _ _⟩

theorem engineRuns_eq_false (h : basePowered s = false ∨ s.pwr.appIsland = false) : engineRuns s = false := by
  rcases h with h | h <;> simp [engineRuns, h]

section
variable (hruns : engineRuns s = true)
include hruns

theorem exec_cryptoRequest_of_powered (r : CryptoReq) : exec (.cryptoRequest r) s =
    .next (if requestAllowed s r then { s with key := { s.key with jobs := s.key.jobs ++ [⟨r, s.keys.slots[r.slot], slotKey s r.slot⟩] } }
      else { s with key := { s.key with results := s.key.results ++ [⟨r.channel, false, []⟩] } }) :=
  next_ifDo_of_true hruns _ _

theorem exec_cryptoRequest_of_allowed {r : CryptoReq} (h : requestAllowed s r = true) : exec (.cryptoRequest r) s =
    .next { s with key := { s.key with jobs := s.key.jobs ++ [⟨r, s.keys.slots[r.slot], slotKey s r.slot⟩] } } := by
  rw [exec_cryptoRequest_of_powered hruns, if_pos h]

theorem exec_cryptoRequest_of_refused {r : CryptoReq} (h : requestAllowed s r = false) : exec (.cryptoRequest r) s =
    .next { s with key := { s.key with results := s.key.results ++ [⟨r.channel, false, []⟩] } } := by
  rw [exec_cryptoRequest_of_powered hruns, if_neg (Bool.eq_false_iff.mp h)]

/-- The operation that began first, of the channel that ends, leaves the list with its result. -/
theorem exec_cryptoRequestDone_of_first {c : Nat} {j : CryptoJob} {js : List CryptoJob} (hjobs : s.key.jobs = j :: js)
    (hchannel : j.req.channel = c) : exec (.cryptoRequestDone c) s = .next { s with nd := s.nd + 1, key := { s.key with
      jobs := js, results := s.key.results ++ [⟨c, (cryptoResult s.nd j).1, (cryptoResult s.nd j).2⟩] } } := by
  have hfind : s.key.jobs.find? (fun j => j.req.channel == c) = some j := by
    rw [hjobs]
    exact List.find?_cons_of_pos (beq_iff_eq.mpr hchannel)
  have hdrop : dropJob c s.key.jobs = js := by
    rw [hjobs]
    exact if_pos hchannel
  refine (next_ifDo_of_true hruns _ _).trans ?_
  simp only [hfind, modKey, draw, hdrop]

end

/-! ### The debug port (R634, R641) -/

section
variable (hbase : baseRuns s = true) (hlife : lifecycle s = 1 ∨ lifecycle s = 2)
include hbase hlife

theorem exec_debugChallenge_of_served : exec .debugChallenge s = .next (if 3 ≤ s.key.debugFails then securityMsg "DebugRefused" s
    else ifDo s.key.rngOk (fun s => { s with nd := s.nd + 1, key := { s.key with challenge := some (Config.random s.nd 32) } }) s) :=
  next_ifDo_of_true (by rw [hbase]; rcases hlife with h | h <;> rw [h] <;> rfl) _ _

theorem exec_debugChallenge_of_good (hfails : s.key.debugFails < 3) (hrng : s.key.rngOk = true) : exec .debugChallenge s =
    .next { s with nd := s.nd + 1, key := { s.key with challenge := some (Config.random s.nd 32) } } := by
  rw [exec_debugChallenge_of_served hbase hlife, if_neg (Nat.not_le.mpr hfails), hrng, ifDo_true]

theorem exec_debugChallenge_of_fails (hfails : 3 ≤ s.key.debugFails) :
    exec .debugChallenge s = .next (securityMsg "DebugRefused" s) := by
  rw [exec_debugChallenge_of_served hbase hlife, if_pos hfails]

end

/-- The message that the debugger signs (R634). -/
abbrev debugMessage (s : State) (c : Bytes) : Bytes := c ++ beBytes 8 s.fab.deviceId.toNat ++ u8 (lifecycle s)

section
variable {c : Bytes} (hchallenge : s.key.challenge = some c) (hfails : s.key.debugFails < 3)
include hchallenge hfails

theorem exec_debugSignature_of_challenge (i : Fin 64) (sig : Bytes) : exec (.debugSignature i sig) s =
    .next (if debugSlot s i && slotVerifies s i (debugMessage s c) sig then
        securityMsg "DebugOpened" { s with key := { s.key with debugOpen := true, challenge := none } }
      else securityMsg "DebugRefused" { s with key := { s.key with debugFails := s.key.debugFails + 1, challenge := none } }) := by
  change execDebugSignature i sig s = _
  rw [execDebugSignature, hchallenge]
  exact congrArg Host.Outcome.next (if_neg (Nat.not_le.mpr hfails))

theorem exec_debugSignature_of_good {i : Fin 64} {sig : Bytes} (hslot : debugSlot s i = true)
    (hok : slotVerifies s i (debugMessage s c) sig = true) : exec (.debugSignature i sig) s =
      .next (securityMsg "DebugOpened" { s with key := { s.key with debugOpen := true, challenge := none } }) := by
  rw [exec_debugSignature_of_challenge hchallenge hfails, hslot, hok, Bool.and_self, if_pos rfl]

theorem exec_debugSignature_of_bad {i : Fin 64} {sig : Bytes}
    (h : debugSlot s i = false ∨ slotVerifies s i (debugMessage s c) sig = false) : exec (.debugSignature i sig) s =
      .next (securityMsg "DebugRefused" { s with key := { s.key with debugFails := s.key.debugFails + 1, challenge := none } }) := by
  rw [exec_debugSignature_of_challenge hchallenge hfails, Bool.and_eq_false_iff.mpr h, if_neg Bool.false_ne_true]

end

end

/-! ### The statement -/

/-- Settles O27: each clause is the lemma of its row, or of a slot's usage byte. -/
theorem cryptoRequests : Obligations.CryptoRequests := by
  unfold Obligations.CryptoRequests
  refine ⟨⟨fun s r hbase happ => ?unallowed, fun e o l man => applyOp_derive_of_noParent, fun kind u => usageOk_kinds⟩,
    fun s => ⟨fun hbase happ => ?powered, fun hoff => exec_cryptoRows_of_unpowered (engineRuns_eq_false hoff),
      fun hbase hlife => ⟨exec_debugChallenge_of_good hbase hlife, exec_debugChallenge_of_fails hbase hlife⟩,
      fun c hchallenge hfails i sig => ⟨exec_debugSignature_of_good hchallenge hfails, exec_debugSignature_of_bad hchallenge hfails⟩,
      rfl, fun p => rfl⟩⟩
  case unallowed =>
    have hruns : engineRuns s = true := by rw [engineRuns, hbase, happ, Bool.and_self]
    exact fun h => exec_cryptoRequest_of_refused hruns (requestAllowed_of_unallowed h)
  case powered =>
    have hruns : engineRuns s = true := by rw [engineRuns, hbase, happ, Bool.and_self]
    exact ⟨fun r => ⟨exec_cryptoRequest_of_allowed hruns, exec_cryptoRequest_of_refused hruns⟩,
      fun c j js => exec_cryptoRequestDone_of_first hruns⟩

end Sys2Proof.Machine
end

section
/-! SUPPORT. Links and the string link (14 R507 to R512, R532, Tables 14.2, 14.3; 07 Table 7.15): the state that each row leaves, and the
proof of PortsAndStrings. -/

namespace Sys2Proof.Machine

/-! ### A string or a port changed -/

section
variable {s : State}

theorem modStr_congr {j : Fin 4} {f g : Str → Str} (h : f s.net.str[j] = g s.net.str[j]) : modStr j f s = modStr j g s :=
  congrArg (fun v => { s with net := { s.net with str := v } }) (vmod_congr h)

theorem modPort_port_self (p : Fin 8) (f : Port → Port) : (modPort p f s).net.port[p] = f s.net.port[p] := vmod_get_self _ p f

/-! ### Links (R507, R532; 07 Table 7.15) -/

theorem setLink_of_same {p : Fin 8} {up : Bool} {kbps : Nat} (h : s.net.port[p].up = up ∧ s.net.port[p].kbps = kbps) :
    setLink p up kbps s = s := if_pos h

theorem setLink_of_change {p : Fin 8} {up : Bool} {kbps : Nat} (h : s.net.port[p].up ≠ up ∨ s.net.port[p].kbps ≠ kbps) :
    setLink p up kbps s =
      raise .link (u8 p.val ++ flag up ++ u16 0 ++ u32 kbps) (modPort p (fun x => { x with up := up, kbps := kbps }) s) := by
  refine (if_neg (not_and_or.mpr h)).trans ?_
  show linkEvent p (modPort p _ s) = _
  rw [linkEvent, modPort_port_self]

/-- What every link that changes, up or down, leaves of its port: off its bus or not, its errors and its amplitude (R506, R507). -/
def linkCounted (p : Fin 8) (up high : Bool) (errors : Nat) (s : State) : State := modPort p (fun x => { x with
  busOff := !up && decide (4 ≤ p.val), errors := BitVec.ofNat 16 (min 65535 (x.errors.toNat + errors)), high := up && linkHigh s p high }) s

theorem linkCounted_link (p : Fin 8) (up high : Bool) (errors : Nat) : (linkCounted p up high errors s).net.port[p].up = s.net.port[p].up ∧
    (linkCounted p up high errors s).net.port[p].kbps = s.net.port[p].kbps := by
  rw [linkCounted, modPort_port_self]
  exact ⟨rfl, rfl⟩

section
variable (hbase : baseRuns s = true) (hstep : 8 ≤ s.hif.startStep.toNat) {p : Fin 8} {up : Bool} {k : Nat}
include hbase hstep

theorem exec_linkChange_of_started (errors : Nat) (high : Bool) : exec (.linkChange p up k errors high) s = .next (ifDo (!up || portServes s p k)
    (fun s => setLink p up (if up then k else 0) (linkCounted p up high errors s)) s) := by
  change execLinkChange p up k errors high s = _
  rw [execLinkChange, hbase, decide_eq_true hstep, Bool.and_self, Bool.true_and]
  rfl

theorem exec_linkChange_of_unserved (errors : Nat) (high : Bool) (hup : up = true) (hno : portServes s p k = false) :
    exec (.linkChange p up k errors high) s = .next s := by
  rw [exec_linkChange_of_started hbase hstep, hup, hno]
  rfl

theorem exec_linkChange_of_served (errors : Nat) (high : Bool) (h : up = false ∨ portServes s p k = true) :
    exec (.linkChange p up k errors high) s = .next (setLink p up (if up then k else 0) (linkCounted p up high errors s)) := by
  have hserved : (!up || portServes s p k) = true := by rcases h with rfl | h <;> simp [*]
  rw [exec_linkChange_of_started hbase hstep, hserved, ifDo_true]

end

/-! ### Polls of the string link (R509 to R511) -/

section
variable {j : Fin 4} {o : Optimiser}

/-- The attempts of a poll and its period judge whether it goes out (R510, R511). -/
def pollDue (s : State) (j : Fin 4) (a : BitVec 32) : Bool :=
  s.net.str[j].attempt.isSome || (s.net.str[j].known.find? (fun o => o.addr == a)).any (fun o =>
    o.polledAt.isNone || passedSince s o.polledAt (secs (cfgNat s.cfg s.fab (.str j .pollS))))

theorem exec_stringPoll_of_waiting (a : BitVec 32) (h : s.net.str[j].rounds ≠ 0 ∨ s.time.life.toNat < s.net.str[j].freeAt.toNat) :
    exec (.stringPoll j a) s = .next s := by
  refine next_ifDo_of_false ?_ _ _
  rcases h with hrounds | hfree
  · rw [beq_false_of_ne hrounds]
    simp only [Bool.and_false, Bool.false_and]
  · rw [decide_eq_false (Nat.not_le.mpr hfree), Bool.and_false]

/-- A first POLL of an optimiser: the next sequence, one attempt, and its period begun. -/
def polled (s : State) (a : BitVec 32) (x : Str) : Str :=
  { x with
    seq := x.seq + 1, sent := stringFrame 1 a (x.seq + 1) [], line := stringLine (stringFrame 1 a (x.seq + 1) [])
    attempt := some ⟨a, x.seq + 1, 1, true, s.time.life⟩
    known := x.known.map (fun y => if y.addr == a then { y with polledAt := some s.time.life } else y) }

section
variable (hattempt : s.net.str[j].attempt = none)
include hattempt

theorem pollDue_of_known (hfind : s.net.str[j].known.find? (fun x => x.addr == o.addr) = some o) : pollDue s j o.addr =
    (o.polledAt.isNone || passedSince s o.polledAt (secs (cfgNat s.cfg s.fab (.str j .pollS)))) := by
  rw [pollDue, hattempt, hfind]
  rfl

theorem exec_stringPoll_of_early (hfind : s.net.str[j].known.find? (fun x => x.addr == o.addr) = some o) {l : Life}
    (hpolled : o.polledAt = some l) (hearly : (s.time.life - l).toNat < secs (cfgNat s.cfg s.fab (.str j .pollS))) :
    exec (.stringPoll j o.addr) s = .next s := by
  have hdue : pollDue s j o.addr = false := by
    rw [pollDue_of_known hattempt hfind, hpolled, passedSince_some, decide_eq_false (Nat.not_le.mpr hearly)]
    rfl
  refine next_ifDo_of_false (Bool.eq_false_iff.mpr fun hall => ?_) _ _
  simp only [Bool.and_eq_true] at hall
  obtain ⟨⟨-, hdue'⟩, -⟩ := hall
  exact Bool.false_ne_true (hdue.symm.trans hdue')

theorem exec_stringPoll_of_due (hruns : stringRuns s j = true) (hrounds : s.net.str[j].rounds = 0)
    (hfind : s.net.str[j].known.find? (fun x => x.addr == o.addr) = some o) (hfree : s.net.str[j].freeAt.toNat ≤ s.time.life.toNat)
    (hdue : o.polledAt = none ∨ (∃ l, o.polledAt = some l ∧ secs (cfgNat s.cfg s.fab (.str j .pollS)) ≤ (s.time.life - l).toNat)) :
    exec (.stringPoll j o.addr) s = .next (modStr j (polled s o.addr) s) := by
  have hknown : s.net.str[j].known.any (fun x => x.addr == o.addr) = true := by
    rw [List.any_eq_true]
    exact ⟨o, List.mem_of_find?_eq_some hfind, beq_self_eq_true _⟩
  have hnow : pollDue s j o.addr = true := by
    rw [pollDue_of_known hattempt hfind]
    obtain hnone | ⟨l, hsome, hpassed⟩ := hdue
    · rw [hnone]
      rfl
    · rw [hsome, passedSince_some, decide_eq_true hpassed, Bool.or_true]
  unfold pollDue at hnow
  change execStringPoll j o.addr s = _
  unfold execStringPoll
  dsimp only
  rw [hnow, hruns, hrounds, hknown, hattempt, decide_eq_true hfree]
  refine congrArg Host.Outcome.next (modStr_congr ?_)
  rw [hattempt]
  rfl

end

/-! ### Replies, failed attempts and removals (R509 to R511) -/

/-- What an attempt that failed leaves: the string free again, and a repeat to come or a missed poll. -/
def attemptFailed (s : State) (a : Attempt) (x : Str) : Str :=
  if a.tries < 3 then { x with freeAt := s.time.life + BitVec.ofNat 64 (msecs 5), attempt := some { a with waits := false } }
  else { x with freeAt := s.time.life + BitVec.ofNat 64 (msecs 5), attempt := none, known := modOpt a.addr missPoll x.known }

section
variable {a : Attempt} (hattempt : s.net.str[j].attempt = some a) (hwaits : a.waits = true)
include hattempt hwaits

theorem exec_stringReply_of_status {f b : Bytes} {src : BitVec 32} {q : BitVec 8} (hruns : stringRuns s j = true)
    (hparse : parseString f = some (2, src, q, b)) (hsrc : src = a.addr) (hseq : q = a.seq) (hlength : b.length = 16) :
    exec (.stringReply j f) s = .next (modStr j (fun x => { x with
      attempt := none, freeAt := s.time.life + BitVec.ofNat 64 (msecs 5), known := modOpt a.addr (takeStatus s.time.life b) x.known }) s) := by
  change execStringReply j f s = _
  rw [execStringReply, hattempt, hparse]
  exact next_ifDo_of_true (by simp [hruns, hwaits, hsrc, hseq, hlength]) _ _

theorem exec_stringAttemptTimeout_of_waiting : exec (.stringAttemptTimeout j) s =
    .next (if (s.time.life - a.at_).toNat < stringCycles s.net.str[j].sent + msecs 20 then s else modStr j (attemptFailed s a) s) := by
  change execStringAttemptTimeout j s = _
  unfold execStringAttemptTimeout
  dsimp only
  rw [hattempt]
  dsimp only
  rw [passedSince_some, hwaits]
  refine congrArg Host.Outcome.next (if_congr ?_ rfl rfl)
  simp

theorem exec_stringAttemptTimeout_of_early (hearly : (s.time.life - a.at_).toNat < stringCycles s.net.str[j].sent + msecs 20) :
    exec (.stringAttemptTimeout j) s = .next s := by
  rw [exec_stringAttemptTimeout_of_waiting hattempt hwaits, if_pos hearly]

section
variable (hlate : stringCycles s.net.str[j].sent + msecs 20 ≤ (s.time.life - a.at_).toNat)
include hlate

theorem exec_stringAttemptTimeout_of_late : exec (.stringAttemptTimeout j) s = .next (modStr j (attemptFailed s a) s) := by
  rw [exec_stringAttemptTimeout_of_waiting hattempt hwaits, if_neg (Nat.not_lt.mpr hlate)]

theorem exec_stringAttemptTimeout_of_repeat (htries : a.tries < 3) : exec (.stringAttemptTimeout j) s = .next (modStr j (fun x => { x with
    freeAt := s.time.life + BitVec.ofNat 64 (msecs 5), attempt := some { a with waits := false } }) s) :=
  (exec_stringAttemptTimeout_of_late hattempt hwaits hlate).trans (congrArg Host.Outcome.next (modStr_congr (if_pos htries)))

theorem exec_stringAttemptTimeout_of_missed (htries : 3 ≤ a.tries) : exec (.stringAttemptTimeout j) s = .next (modStr j (fun x => { x with
    freeAt := s.time.life + BitVec.ofNat 64 (msecs 5), attempt := none, known := modOpt a.addr missPoll x.known }) s) :=
  (exec_stringAttemptTimeout_of_late hattempt hwaits hlate).trans
    (congrArg Host.Outcome.next (modStr_congr (if_neg (Nat.not_lt.mpr htries))))

end

end

theorem exec_optimiserRemoved (a : BitVec 32) : exec (.optimiserRemoved j a) s = .next (modStr j (fun x => { x with
    known := x.known.filter (fun o => o.named || o.addr != a || decide ((s.time.life - o.lastAnswer).toNat < 3600 * 32768)) }) s) := by
  refine congrArg Host.Outcome.next (congrArg (fun f => modStr j f s) (funext fun x => ?_))
  simp only [passedSince_some, ← decide_not, Nat.not_le, secs]

/-! ### Discovery (R512) -/

/-- A discovery round sent, and whether another follows. -/
def roundSent (s : State) (garbled : Bool) (x : Str) : Str :=
  { sendString 3 0xFFFFFFFF (u8 16 ++ u8 40 ++ u16 (x.round + 1).toNat) x with
    round := x.round + 1, rounds := if garbled && decide (x.rounds + 1 < 8) then x.rounds + 1 else 0
    discoverAt := if x.rounds = 0 then some s.time.life else x.discoverAt }

section
variable (hruns : stringRuns s j = true) (hkey : cfgBool s.cfg s.fab (.str j .discover) = true)

include hruns hkey in
theorem exec_discoveryRound_of_due (hattempt : s.net.str[j].attempt = none)
    (hdue : s.net.str[j].rounds ≠ 0 ∨ s.net.str[j].discoverAt = none) (heard : List (BitVec 32 × Bool)) (g : Bool) :
    exec (.discoveryRound j heard g) s =
      .next (forEach (heard.take 16) (fun a => modStr j (enrol s.time.life a)) (modStr j (roundSent s g) s)) := by
  refine next_ifDo_of_true ?_ _ _
  rw [hruns, hkey, hattempt]
  rcases hdue with hrounds | hnone
  · rw [bne_iff_ne.mpr hrounds]
    rfl
  · rw [hnone, Option.isNone_none, Bool.or_true]
    rfl

theorem exec_discoveryRound_of_early {l : Life} (hrounds : s.net.str[j].rounds = 0) (hbegun : s.net.str[j].discoverAt = some l)
    (hearly : (s.time.life - l).toNat < secs (cfgNat s.cfg s.fab (.gen .pvDiscover))) (heard : List (BitVec 32 × Bool)) (g : Bool) :
    exec (.discoveryRound j heard g) s = .next s := by
  refine next_ifDo_of_false ?_ _ _
  rw [hrounds, hbegun, passedSince_some, decide_eq_false (Nat.not_le.mpr hearly)]
  exact Bool.and_false _

end

end

/-! ### PORT_STATUS_GET (07 Table 7.15) -/

theorem exec_portStatusGet_served {mb : Mailbox} {b : Bytes} (h : serves .portStatusGet mb b s) : exec (.portStatusGet mb) s =
    .next (complete mb .ok ((List.finRange 8).flatMap (fun p => let x := (takeUp mb s).net.port[p]
      u8 p.val ++ flag x.up ++ u16 x.errors.toNat ++ u32 x.kbps)) (takeUp mb s)) :=
  congrArg Host.Outcome.next (runCommand_served _ rfl h)

end

theorem stringFrame_length (kind : Nat) (dst : BitVec 32) (seq : BitVec 8) (b : Bytes) :
    (stringFrame kind dst seq b).length = 14 + b.length := by
  simp only [stringFrame, List.length_append, u8, u16, u32, leBytes_length]
  omega

/-! ### The known list's bound (R512) -/

theorem insertOpt_length (o : Optimiser) (l : List Optimiser) : (insertOpt o l).length = l.length + 1 := by
  induction l with
  | nil => rfl
  | cons x l ih =>
    rw [insertOpt]
    split_ifs
    · rfl
    · rw [List.length_cons, ih, List.length_cons]

theorem modOpt_length (a : BitVec 32) (f : Optimiser → Optimiser) (l : List Optimiser) : (modOpt a f l).length = l.length :=
  List.length_map _

theorem enrol_known_length (l : Life) (a : BitVec 32 × Bool) {x : Str} (h : x.known.length ≤ 31) : (enrol l a x).known.length ≤ 31 := by
  unfold enrol
  dsimp only
  split_ifs
  · exact h
  · exact (modOpt_length _ _ _).trans_le h
  · exact h
  · exact (insertOpt_length _ _).trans_le ‹_›
  · exact h
  · exact h

/-! ### The statement -/

/-- Settles O45: each clause is the lemma of its row, or of what a frame or the known list holds. -/
theorem portsAndStrings : Obligations.PortsAndStrings := by
  unfold Obligations.PortsAndStrings
  refine ⟨fun s p u high k errors hbase hstep => ⟨exec_linkChange_of_unserved hbase hstep errors high, fun hserved => ?link⟩,
    fun s n => ⟨fun hoff => next_ifDo_of_true hoff _ _, fun hon => next_ifDo_of_false hon _ _⟩,
    fun s j o hruns hrounds hattempt hfind hfree => ⟨exec_stringPoll_of_due hattempt hruns hrounds hfind hfree,
      fun l => exec_stringPoll_of_early hattempt hfind⟩,
    fun s j a => exec_stringPoll_of_waiting a, fun kind dst seq b _ _ => stringFrame_length kind dst seq b,
    fun s j f a src q b hruns hattempt hwaits => exec_stringReply_of_status hattempt hwaits hruns,
    fun s j a hattempt hwaits => ⟨exec_stringAttemptTimeout_of_early hattempt hwaits,
      fun hlate => ⟨exec_stringAttemptTimeout_of_repeat hattempt hwaits hlate, exec_stringAttemptTimeout_of_missed hattempt hwaits hlate⟩⟩,
    fun s j a => exec_optimiserRemoved a,
    fun s j heard g hruns hkey hattempt => ⟨fun hdue => exec_discoveryRound_of_due hruns hkey hattempt hdue heard g,
      fun l hrounds hbegun hearly => exec_discoveryRound_of_early hrounds hbegun hearly heard g⟩,
    fun l a x => enrol_known_length l a, fun s mb b => exec_portStatusGet_served⟩
  case link =>
    obtain ⟨hup, hkbps⟩ := linkCounted_link (s := s) p u high errors
    rw [exec_linkChange_of_served hbase hstep errors high hserved]
    exact ⟨fun ⟨hsameUp, hsameRate⟩ => congrArg Host.Outcome.next (setLink_of_same ⟨hup.trans hsameUp, hkbps.trans hsameRate⟩),
      fun hchange => congrArg Host.Outcome.next (setLink_of_change (hchange.imp hup.trans_ne hkbps.trans_ne))⟩

end Sys2Proof.Machine
end

section
/-! SUPPORT. The keep-alive, the SunSpec devices and the records of a string (14 R513 to R517, Table 14.9; 07 Table 7.15): the state that
each row leaves, and the proof of KeepAliveAndSunSpec. -/

namespace Sys2Proof.Machine

section
variable {s : State} {mb : Mailbox} {b : Bytes}

/-! ### RSD_KEEPALIVE_SET (07 Table 7.15; R515) -/

/-- The request of every string named in the mask, as the command gives it. -/
def requestSet (b : Bytes) (s : State) : State := modNet (fun n => { n with str := Vector.ofFn (fun j : Fin 4 =>
  if (rd b 0 1).testBit j.val then { n.str[j] with request := rd b 1 1 == 1 } else n.str[j]) }) s

theorem requestSet_str (j : Fin 4) : (requestSet b s).net.str[j] =
    { s.net.str[j] with request := if (rd b 0 1).testBit j.val then rd b 1 1 == 1 else s.net.str[j].request } := by
  refine (Vector.getElem_ofFn _).trans ?_
  split_ifs <;> rfl

section
variable (h : serves .rsdKeepaliveSet mb b s)
include h

theorem exec_rsdKeepaliveSet_served : exec (.rsdKeepaliveSet mb) s = .next (Reply.apply mb
    (guards [(decide (15 < rd b 0 1), .argRange), (decide (1 < rd b 1 1), .argRange)] (takeUp mb s)
      (ok [] (requestSet b (takeUp mb s))))) :=
  congrArg Host.Outcome.next (runCommand_served _ rfl h)

theorem exec_rsdKeepaliveSet_of_outOfRange (hout : 15 < rd b 0 1 ∨ 1 < rd b 1 1) :
    exec (.rsdKeepaliveSet mb) s = .next (complete mb .argRange [] (takeUp mb s)) := by
  rw [exec_rsdKeepaliveSet_served h]
  rcases hout with hmask | haction
  · rw [decide_eq_true hmask, guards_cons_true]
    rfl
  · rw [guards_same, decide_eq_true haction, Bool.or_true, guards_cons_true]
    rfl

theorem exec_rsdKeepaliveSet_of_inRange (hmask : rd b 0 1 ≤ 15) (haction : rd b 1 1 ≤ 1) :
    exec (.rsdKeepaliveSet mb) s = .next (complete mb .ok [] (requestSet b (takeUp mb s))) := by
  rw [exec_rsdKeepaliveSet_served h, decide_eq_false (Nat.not_lt.mpr hmask), decide_eq_false (Nat.not_lt.mpr haction), guards_cons_false,
    guards_cons_false]
  rfl

end

/-! ### The keep-alive's stops and its resumption (R515, Table 14.9) -/

section
variable {j : Fin 4} {coupler : Bool}

/-- The application's request and the string's key call for the keep-alive. -/
def keepAliveAsked (s : State) (j : Fin 4) : Bool := s.net.str[j].request && keepAliveKey s j

/-- The causes that silence a keep-alive: 0 the request or key, 1 the safety core or the coupler. -/
def stopCauses (s : State) (j : Fin 4) (coupler : Bool) : List Nat :=
  (if keepAliveAsked s j then [] else [0]) ++ (if s.net.str[j].enable && !coupler then [] else [1])

theorem exec_keepaliveStop_eq : exec (.keepaliveStop j coupler) s =
    .next (ifDo (!(stopCauses s j coupler).isEmpty) (silence j (stopCauses s j coupler)) s) := by
  change execKeepaliveStop j coupler s = _
  unfold execKeepaliveStop stopCauses keepAliveAsked
  dsimp only
  cases s.net.str[j].request <;> cases keepAliveKey s j <;> rfl

theorem exec_keepaliveStop_of_silent (hsilent : s.net.str[j].sending = false) : exec (.keepaliveStop j coupler) s = .next s := by
  have hnothing : silence j (stopCauses s j coupler) s = s := if_pos (by rw [hsilent]; rfl)
  rw [exec_keepaliveStop_eq, ifDo, hnothing, ite_self]

/-- The keep-alive silent from now on. -/
def silenced (j : Fin 4) (s : State) : State := modStr j (fun x => { x with sending := false, silentSince := some s.time.life }) s

theorem exec_keepaliveStop_of_causes (hsending : s.net.str[j].sending = true) {l : List Nat} (hcauses : stopCauses s j coupler = l)
    (hsome : l ≠ []) : exec (.keepaliveStop j coupler) s =
      .next (forEach l (fun c => raise .rsdStopped (u8 (2 ^ j.val) ++ u8 c)) (silenced j s)) := by
  rw [exec_keepaliveStop_eq, hcauses, List.isEmpty_eq_false_iff.mpr hsome]
  have hsilences : silence j l s = forEach l (fun c => raise .rsdStopped (u8 (2 ^ j.val) ++ u8 c)) (silenced j s) :=
    if_neg (by rw [hsending]; exact Bool.false_ne_true)
  exact congrArg Host.Outcome.next hsilences

theorem exec_keepaliveStop_of_none (hcauses : stopCauses s j coupler = []) : exec (.keepaliveStop j coupler) s = .next s := by
  rw [exec_keepaliveStop_eq, hcauses]
  rfl

theorem stopCauses_eq {asked : Bool} (h : keepAliveAsked s j = asked) :
    stopCauses s j coupler = (if asked then [] else [0]) ++ (if s.net.str[j].enable && !coupler then [] else [1]) := by
  rw [stopCauses, h]

theorem enable_and_not_coupler_eq_false (h : s.net.str[j].enable = false ∨ coupler = true) :
    (s.net.str[j].enable && !coupler) = false := by
  rcases h with h | h <;> rw [h]
  · rfl
  · exact Bool.and_false _

section
variable {l : Life} (hsince : s.net.str[j].silentSince = some l)
include hsince

theorem exec_keepaliveResume_of_rested (hsending : s.net.str[j].sending = false) (hrequest : s.net.str[j].request = true)
    (henable : s.net.str[j].enable = true) (hkey : keepAliveKey s j = true) (hdomain : domainOut s .per = false)
    (hbase : baseRuns s = true) (hrested : 10 * 32768 ≤ (s.time.life - l).toNat) :
    exec (.keepaliveResume j) s = .next (modStr j (fun x => { x with sending := true, silentSince := none }) s) := by
  refine next_ifDo_of_true ?_ _ _
  rw [hsince, hsending, hrequest, henable, hkey, hdomain, hbase]
  dsimp only
  rw [passedSince_some, secs, decide_eq_true hrested]
  rfl

theorem exec_keepaliveResume_of_barred (h : s.net.str[j].request = false ∨ s.net.str[j].enable = false ∨ keepAliveKey s j = false ∨
    (s.time.life - l).toNat < 10 * 32768) : exec (.keepaliveResume j) s = .next s := by
  refine next_ifDo_of_false ?_ _ _
  rw [hsince]
  dsimp only
  rw [passedSince_some, secs]
  rcases h with h | h | h | h
  · rw [h]
    simp only [Bool.and_false, Bool.false_and]
  · rw [h]
    simp only [Bool.and_false, Bool.false_and]
  · rw [h]
    simp only [Bool.and_false, Bool.false_and]
  · rw [decide_eq_false (Nat.not_le.mpr h), Bool.and_false, Bool.false_and]

end

end

/-! ### SunSpec devices (R516, R517) -/

theorem modSun_congr {k : Fin 8} {f g : SunDev → SunDev} (h : f s.net.sun[k] = g s.net.sun[k]) : modSun k f s = modSun k g s :=
  congrArg (fun v => { s with net := { s.net with sun := v } }) (vmod_congr h)

section
variable {k : Fin 8}

/-- A request repeated, or a period that begins. -/
def sunAsks (s : State) (k : Fin 8) : Bool := s.net.sun[k].repeats != 0 || sunDue s k

theorem sunAsks_eq_false {l : Life} (hrepeats : s.net.sun[k].repeats = 0) (hread : s.net.sun[k].readAt = some l)
    (hearly : (s.time.life - l).toNat < secs (cfgNat s.cfg s.fab (.gen .sunS))) : sunAsks s k = false := by
  rw [sunAsks, sunDue, hrepeats, hread, passedSince_some, decide_eq_false (Nat.not_le.mpr hearly)]
  rfl

theorem sunAsks_eq_true (h : s.net.sun[k].repeats ≠ 0 ∨ s.net.sun[k].readAt = none ∨
    (∃ l, s.net.sun[k].readAt = some l ∧ secs (cfgNat s.cfg s.fab (.gen .sunS)) ≤ (s.time.life - l).toNat)) : sunAsks s k = true := by
  rw [sunAsks, sunDue]
  obtain hrepeats | hnone | ⟨l, hread, hpassed⟩ := h
  · rw [bne_iff_ne.mpr hrepeats, Bool.true_or]
  · rw [hnone, Option.isNone_none, Bool.true_or, Bool.or_true]
  · rw [hread, passedSince_some, decide_eq_true hpassed, Bool.or_true, Bool.or_true]

theorem exec_sunspecRows_of_early (hasks : sunAsks s k = false) :
    (∀ r, exec (.sunspecRead k r) s = .next s) ∧ exec (.sunspecTimeout k) s = .next s := by
  have hnot : (sunRuns s k && sunAsks s k) = false := by rw [hasks, Bool.and_false]
  exact ⟨fun r => next_ifDo_of_false hnot _ _, next_ifDo_of_false hnot _ _⟩

/-- The LIFE at which the period of the request under way began. -/
abbrev sunBegun (s : State) (k : Fin 8) : Option Life := if s.net.sun[k].repeats = 0 then some s.time.life else s.net.sun[k].readAt

section
variable (hruns : sunRuns s k = true) (hasks : sunAsks s k = true)
include hruns hasks

theorem sunRuns_and_asks : (sunRuns s k && sunAsks s k) = true := by rw [hruns, hasks, Bool.and_self]

theorem exec_sunspecRead_of_asks (r : SunPoints) : exec (.sunspecRead k r) s =
    .next (modSun k (fun _ => { record := some (sunScaled r), readAt := sunBegun s k }) s) :=
  (next_ifDo_of_true (sunRuns_and_asks hruns hasks) _ _).trans (congrArg Host.Outcome.next (modSun_congr rfl))

theorem exec_sunspecTimeout_of_asks : exec (.sunspecTimeout k) s = .next (modSun k (fun d =>
    if d.repeats < 2 then { d with repeats := d.repeats + 1, readAt := sunBegun s k }
    else { d with repeats := 0, failed := d.failed + 1, readAt := sunBegun s k }) s) :=
  (next_ifDo_of_true (sunRuns_and_asks hruns hasks) _ _).trans (congrArg Host.Outcome.next (modSun_congr rfl))

theorem exec_sunspecTimeout_of_repeat (hrepeats : s.net.sun[k].repeats < 2) : exec (.sunspecTimeout k) s =
    .next (modSun k (fun d => { d with repeats := d.repeats + 1, readAt := sunBegun s k }) s) :=
  (exec_sunspecTimeout_of_asks hruns hasks).trans (congrArg Host.Outcome.next (modSun_congr (if_pos hrepeats)))

theorem exec_sunspecTimeout_of_failed (hrepeats : 2 ≤ s.net.sun[k].repeats) : exec (.sunspecTimeout k) s =
    .next (modSun k (fun d => { d with repeats := 0, failed := d.failed + 1, readAt := sunBegun s k }) s) :=
  (exec_sunspecTimeout_of_asks hruns hasks).trans (congrArg Host.Outcome.next (modSun_congr (if_neg (Nat.not_lt.mpr hrepeats))))

end

end

/-! ### STRING_STATUS_GET (07 Table 7.15; R513, R517) -/

/-- What STRING_STATUS_GET answers: the string's own fields, and up to 31 records from the one named. -/
def stringStatusBytes (b : Bytes) (u : State) : Bytes :=
  let j : Fin 4 := Fin.ofNat 4 (rd b 0 2)
  let part := ((stringRecords u j).drop (rd b 2 2)).take 31
  u8 (rd b 0 2) ++ flag u.net.str[j].sending ++ u8 part.length ++ u8 (stringRecords u j).length ++ i32 (stringMv u j) ++
    i32 (stringMa u j) ++ part.flatten

section
variable (h : serves .stringStatusGet mb b s)
include h

theorem exec_stringStatusGet_served : exec (.stringStatusGet mb) s = .next (Reply.apply mb
    (guards [(decide (3 < rd b 0 2), .argRange), (decide (0 < rd b 2 2) &&
        decide ((stringRecords (takeUp mb s) (Fin.ofNat 4 (rd b 0 2))).length ≤ rd b 2 2), .argRange)] (takeUp mb s)
      (ok (stringStatusBytes b (takeUp mb s)) (takeUp mb s)))) :=
  congrArg Host.Outcome.next (runCommand_served _ rfl h)

theorem exec_stringStatusGet_of_outOfRange (hout : 3 < rd b 0 2 ∨
    (0 < rd b 2 2 ∧ (stringRecords (takeUp mb s) (Fin.ofNat 4 (rd b 0 2))).length ≤ rd b 2 2)) :
    exec (.stringStatusGet mb) s = .next (complete mb .argRange [] (takeUp mb s)) := by
  rw [exec_stringStatusGet_served h, guards_same]
  rcases hout with hstring | ⟨hsome, hbeyond⟩
  · rw [decide_eq_true hstring, Bool.true_or, guards_cons_true]
    rfl
  · rw [decide_eq_true hsome, decide_eq_true hbeyond, Bool.and_self, Bool.or_true, guards_cons_true]
    rfl

theorem exec_stringStatusGet_of_inRange (hstring : rd b 0 2 ≤ 3)
    (hrecord : rd b 2 2 = 0 ∨ rd b 2 2 < (stringRecords (takeUp mb s) (Fin.ofNat 4 (rd b 0 2))).length) :
    exec (.stringStatusGet mb) s = .next (complete mb .ok (stringStatusBytes b (takeUp mb s)) (takeUp mb s)) := by
  have hwithin : (decide (0 < rd b 2 2) && decide ((stringRecords (takeUp mb s) (Fin.ofNat 4 (rd b 0 2))).length ≤ rd b 2 2)) = false := by
    rcases hrecord with hzero | hbelow
    · rw [decide_eq_false (by omega), Bool.false_and]
    · rw [decide_eq_false (Nat.not_le.mpr hbelow), Bool.and_false]
  rw [exec_stringStatusGet_served h, decide_eq_false (Nat.not_lt.mpr hstring), hwithin, guards_cons_false, guards_cons_false]
  rfl

end

/-- The flags stand in the last two bytes of a record (07 Table 7.15). -/
theorem rd_stringRecord_flags (addr mv ma : Int) (deciK flags : Nat) : rd (stringRecord addr mv ma deciK flags) 14 2 = leNat (u16 flags) := by
  have hlength : (u32 addr.toNat ++ i32 mv ++ i32 ma ++ u16 deciK).length = 14 := by
    simp only [List.length_append, u32, u16, i32, leBytes_length]
  rw [rd, stringRecord, List.drop_left' hlength]
  rfl

/-- A SunSpec device that failed three periods in a row has a record with bit 15 (R517). -/
theorem stringRecords_of_failedDevice {j : Fin 4} {k : Fin 8} (hdevice : sunString s k = some j.val) (hfailed : 3 ≤ s.net.sun[k].failed) :
    ∃ r ∈ stringRecords s j, (rd r 14 2).testBit 15 = true := by
  refine ⟨_, List.mem_append_right _ (List.mem_map.mpr ⟨k, ?_, rfl⟩), ?_⟩
  · exact List.mem_filter.mpr ⟨List.mem_finRange k, beq_iff_eq.mpr hdevice⟩
  · rw [rd_stringRecord_flags, decide_eq_true hfailed]
    decide

end

/-! ### The statement -/

/-- Settles O46: each clause is the lemma of its command or row. -/
theorem keepAliveAndSunSpec : Obligations.KeepAliveAndSunSpec := by
  unfold Obligations.KeepAliveAndSunSpec
  refine ⟨fun s mb b h => ⟨exec_rsdKeepaliveSet_of_outOfRange h, fun hmask haction =>
      ⟨_, exec_rsdKeepaliveSet_of_inRange h hmask haction, fun j => requestSet_str j, rfl⟩⟩,
    fun s j hsending coupler => ?stops, fun s j c => exec_keepaliveStop_of_silent,
    fun s j l hsince => ⟨exec_keepaliveResume_of_rested hsince, exec_keepaliveResume_of_barred hsince⟩,
    fun s k hruns => ⟨fun l hrepeats hread hearly => exec_sunspecRows_of_early (sunAsks_eq_false hrepeats hread hearly), fun hdue => ?asks⟩,
    fun v sf => ⟨fun hpos => if_pos hpos, fun hneg => if_neg (Int.not_le.mpr hneg)⟩,
    fun s mb b h => ⟨exec_stringStatusGet_of_outOfRange h, exec_stringStatusGet_of_inRange h,
      fun k => stringRecords_of_failedDevice⟩⟩
  case stops =>
    refine ⟨fun hasked henable hcoupler => ?_, fun hasked hbarred => ?_, fun hasked hbarred => ?_, fun hasked henable hcoupler => ?_⟩
    · exact exec_keepaliveStop_of_causes hsending (l := [0]) (by rw [stopCauses_eq hasked, henable, hcoupler]; rfl) (List.cons_ne_nil _ _)
    · exact exec_keepaliveStop_of_causes hsending (l := [1])
        (by rw [stopCauses_eq hasked, enable_and_not_coupler_eq_false hbarred]; rfl) (List.cons_ne_nil _ _)
    · exact exec_keepaliveStop_of_causes hsending (l := [0, 1])
        (by rw [stopCauses_eq hasked, enable_and_not_coupler_eq_false hbarred]; rfl) (List.cons_ne_nil _ _)
    · exact exec_keepaliveStop_of_none (by rw [stopCauses_eq hasked, henable, hcoupler]; rfl)
  case asks =>
    have hasks := sunAsks_eq_true hdue
    exact ⟨exec_sunspecRead_of_asks hruns hasks, exec_sunspecTimeout_of_repeat hruns hasks, exec_sunspecTimeout_of_failed hruns hasks⟩

end Sys2Proof.Machine
end

section
/-! SUPPORT. What an outlet's session does leaves the networks and the display as they are (11 R402 to R418; 12 R428): one lemma for each
operation that a module's loss or the display's loss of verification can reach. -/

namespace Sys2Proof.Machine

/-- The networks, the display and its counters. -/
def beside (s : State) : Net × Disp × DispStore := (s.net, s.disp, s.dispStore)

section
variable {s t : State} (h : beside t = beside s)
include h

theorem net_of_beside : t.net = s.net := congrArg Prod.fst h
theorem disp_of_beside : t.disp = s.disp := congrArg (fun x => x.2.1) h
theorem dispStore_of_beside : t.dispStore = s.dispStore := congrArg (fun x => x.2.2) h

end

variable (s : State)

/-! ### Changes of one unit -/

@[simp] theorem modDrv_beside (d : Driver) (f : Drv → Drv) : beside (modDrv d f s) = beside s := rfl
@[simp] theorem modTrip_beside (d : Driver) (f : TripWord → TripWord) : beside (modTrip d f s) = beside s := rfl
@[simp] theorem modOut_beside (o : Outlet) (f : OutS → OutS) : beside (modOut o f s) = beside s := rfl
@[simp] theorem modSvc_beside (f : Svc → Svc) : beside (modSvc f s) = beside s := rfl
@[simp] theorem checkpoint_beside : beside (checkpoint s) = beside s := rfl

/-! ### Repetition -/

theorem forEach_beside {α : Type} {f : α → State → State} (hf : ∀ a t, beside (f a t) = beside t) (l : List α) (s : State) :
    beside (forEach l f s) = beside s := by
  induction l generalizing s with
  | nil => rfl
  | cons a l ih => exact (ih (f a s)).trans (hf a s)

theorem ifDo_beside (c : Bool) {f : State → State} (hf : beside (f s) = beside s) : beside (ifDo c f s) = beside s := by
  cases c with
  | false => rfl
  | true => exact hf

/-! ### Events and messages -/

theorem placeEvent_frame (code : BitVec 16) (payload : Bytes) :
    placeEvent code payload s = { s with mbx := (placeEvent code payload s).mbx, hif := (placeEvent code payload s).hif } := by
  unfold placeEvent loseEvents
  dsimp only
  split
  · rfl
  · split_ifs <;> rfl

/-- An event changes the mailbox unit and the host port's registers alone. -/
theorem raise_frame (e : Ev) (fields : Bytes) :
    raise e fields s = { s with mbx := (raise e fields s).mbx, hif := (raise e fields s).hif } := by
  unfold raise raiseCode
  split_ifs
  · rfl
  · exact placeEvent_frame s _ _
  · rfl
  · rfl

@[simp] theorem raise_beside (e : Ev) (fields : Bytes) : beside (raise e fields s) = beside s := by
  rw [raise_frame]
  rfl

@[simp] theorem flush_beside : beside (flush s) = beside s :=
  forEach_beside (f := sendNow) (fun _ _ => rfl) _ _

@[simp] theorem putMsg_beside (m : OpMsg) : beside (putMsg m s) = beside s := by
  unfold putMsg
  split_ifs
  · rfl
  · exact flush_beside _

@[simp] theorem reportStatus_beside (before : State) : beside (reportStatus before s) = beside s :=
  forEach_beside (fun o t => by split_ifs <;> simp) _ _

/-! ### Trips and permits -/

@[simp] theorem coilOff_beside (d : Driver) : beside (coilOff d s) = beside s := by
  unfold coilOff
  split_ifs
  · rfl
  · exact (ifDo_beside _ _ rfl).trans ((modDrv_beside _ _ _).trans (ifDo_beside _ _ rfl))

@[simp] theorem coilOn_beside (d : Driver) : beside (coilOn d s) = beside s := by
  unfold coilOn
  dsimp only
  split_ifs <;> rfl

@[simp] theorem grant_beside (d : Driver) (st : Stage) : beside (grant d st s) = beside s := coilOn_beside _ d

@[simp] theorem forceCp_beside (d : Driver) (code : BitVec 16) (alone : Bool) : beside (forceCp d code alone s) = beside s := by
  unfold forceCp
  split_ifs <;> rfl

@[simp] theorem addCode_beside (d : Driver) (code : BitVec 16) : beside (addCode d code s) = beside s := by
  unfold addCode
  dsimp only
  split_ifs <;> rfl

@[simp] theorem trip_beside (d : Driver) (stages : List Stage) (code : BitVec 16) : beside (trip d stages code s) = beside s := by
  unfold trip
  dsimp only
  split_ifs <;> simp

@[simp] theorem withdrawApp_beside (o : Outlet) : beside (withdrawApp o s) = beside s := forEach_beside (fun d t => trip_beside t d _ _) _ _

/-! ### The states of a session -/

@[simp] theorem enter_beside (o : Outlet) (st : SessState) (r : Reason) : beside (enter o st r s) = beside s := by
  unfold enter
  dsimp only
  split_ifs <;> simp

@[simp] theorem endRecord_beside (o : Outlet) (kind : ReadingKind) : beside (endRecord o kind s) = beside s := rfl

@[simp] theorem endTransaction_beside (o : Outlet) : beside (endTransaction o s) = beside s := by
  unfold endTransaction
  dsimp only
  split_ifs <;> simp

@[simp] theorem enterEnded_beside (o : Outlet) (r : Reason) : beside (enterEnded o r s) = beside s := by
  unfold enterEnded
  dsimp only
  split_ifs <;> simp [setDrive, ifDo_beside]

@[simp] theorem settle_beside (o : Outlet) : beside (settle o s) = beside s := by
  unfold settle
  dsimp only
  split_ifs <;> simp

@[simp] theorem enterFault_beside (o : Outlet) (r : Reason) : beside (enterFault o r s) = beside s := by
  unfold enterFault
  split_ifs <;> simp

@[simp] theorem stopSession_beside (o : Outlet) (r : Reason) (kind : ReadingKind) : beside (stopSession o r kind s) = beside s := by
  unfold stopSession openForStop
  dsimp only
  split_ifs <;> simp [ifDo_beside, setDrive]

@[simp] theorem communicationEnd_beside (o : Outlet) : beside (communicationEnd o s) = beside s := by
  unfold communicationEnd
  split_ifs <;> simp

/-! ### Offers and targets -/

@[simp] theorem openRecord_beside (o : Outlet) : beside (openRecord o s) = beside s := by
  unfold openRecord
  dsimp only
  split_ifs <;> rfl

@[simp] theorem startTransaction_beside (before : State) (o : Outlet) : beside (startTransaction before o s) = beside s := by
  unfold startTransaction
  dsimp only
  split_ifs <;> simp

@[simp] theorem grantApp_beside (o : Outlet) : beside (grantApp o s) = beside s := by
  unfold grantApp
  dsimp only
  split_ifs <;> simp [ifDo_beside]

@[simp] theorem pauseOrResume_beside (o : Outlet) : beside (pauseOrResume o s) = beside s := by
  unfold pauseOrResume
  dsimp only
  split_ifs <;> simp

@[simp] theorem enterTransfer_beside (o : Outlet) : beside (enterTransfer o s) = beside s := by
  unfold enterTransfer
  split_ifs <;> simp

@[simp] theorem advance_beside (o : Outlet) : beside (advance o s) = beside s := by
  unfold advance
  dsimp only
  split_ifs <;> simp

@[simp] theorem drivePilot_beside (o : Outlet) : beside (drivePilot o s) = beside s := by
  unfold drivePilot
  dsimp only
  split_ifs <;> rfl

@[simp] theorem offerNow_beside (o : Outlet) : beside (offerNow o s) = beside s := by simp [offerNow, dwellAtZero]

@[simp] theorem retarget_beside (o : Outlet) (safety : Bool) : beside (retarget o safety s) = beside s := by
  unfold retarget
  dsimp only
  split_ifs <;> simp [dwellAtZero]

@[simp] theorem capabilityFell_beside (o : Option Outlet) : beside (capabilityFell o s) = beside s := by
  unfold capabilityFell
  split
  · rfl
  · split_ifs <;> simp

end Sys2Proof.Machine
end

section
/-! SUPPORT. Power modules (14 R518 to R520, Tables 14.4, 14.5, 14.10; 07 Table 7.15): SETPOINT cycles, IDENT, STATUS and loss, and the
proof of PowerModules. -/

namespace Sys2Proof.Machine

section
variable {s : State}

/-! ### A power bus that runs (R518) -/

/-- One node's part in a cycle: a cycle without STATUS counted, and its SETPOINT where the bus is not off (Table 14.10). -/
def nodeCycle (s : State) (b : Fin 4) (n : Fin 32) (t : State) : State :=
  let q := s.net.pm[b][n].seq + 1
  let u := modPm b n (fun m => { m with quiet := if m.state = 0 then 0 else m.quiet + 1 }) t
  if s.net.port[canPort b].busOff then u
  else enqueue (canPort b) .session (u16 (64 + n.val) ++ nodeSetpoint s b n q)
    (modPm b n (fun m => { m with seq := q, sent := nodeSetpoint s b n q, cycleBegun := m.firstGood }) u)

/-- The module's data as its IDENT gives them, with its status begun anew. -/
def identTaken (p : Bytes) (m : Module) : Module :=
  { m with
    identity := BitVec.ofNat 64 (beNat ((p.drop 4).take 8)), ratedW := rd p 12 4, maxMv := rdI32 p 16, maxMa := rdI32 p 20
    minMa := rdI32 p 24, firstGood := false, cycleBegun := false, quiet := 0 }

/-- A STATUS with state 3 or fault flags, or that echoes a sequence more than 3 behind (R520). -/
def StatusBad (s : State) (b : Fin 4) (n : Fin 32) (p : Bytes) : Prop :=
  rd p 0 1 = 3 ∨ rd p 2 2 ≠ 0 ∨ 3 < (s.net.pm[b][n].seq - BitVec.ofNat 8 (rd p 1 1)).toNat

/-- A STATUS with state 1 and the latest sequence. -/
def statusGood (s : State) (b : Fin 4) (n : Fin 32) (p : Bytes) : Bool :=
  rd p 0 1 == 1 && BitVec.ofNat 8 (rd p 1 1) == s.net.pm[b][n].seq

/-- The module with a STATUS taken, and how far its readmission has come. -/
def statusTaken (b : Fin 4) (n : Fin 32) (p : Bytes) (s : State) : State := modPm b n (fun x => { takeModule p x with
  firstGood := x.state == 1 && statusGood s b n p, cycleBegun := x.cycleBegun && statusGood s b n p }) s

section
variable {b : Fin 4} (hpower : isPower s b = true) (hruns : appRuns s = true) (hdomain : domainOut s .per = false)
include hpower hruns hdomain

theorem powerBus_runs : (isPower s b && appRuns s && !domainOut s .per) = true := by rw [hpower, hruns, hdomain]; rfl

/-! ### SETPOINT cycles (R518, R519, Table 14.5) -/

theorem exec_pmSetpointCycle_of_runs : exec (.pmSetpointCycle b) s = .next (ifDo
    ((s.net.pmAt[b]).isNone || passedSince s s.net.pmAt[b] (msecs (cfgNat s.cfg s.fab (.gen .pmCycle))))
    (fun s => forEach (busNodes s b) (nodeCycle s b) { s with net := { s.net with pmAt := vmod s.net.pmAt b (fun _ => some s.time.life) } }) s) := by
  change execPmSetpointCycle b s = _
  rw [execPmSetpointCycle, powerBus_runs hpower hruns hdomain, Bool.true_and]
  rfl

theorem exec_pmSetpointCycle_of_early {l : Life} (hbegun : s.net.pmAt[b] = some l)
    (hearly : (s.time.life - l).toNat < msecs (cfgNat s.cfg s.fab (.gen .pmCycle))) : exec (.pmSetpointCycle b) s = .next s := by
  rw [exec_pmSetpointCycle_of_runs hpower hruns hdomain, hbegun, passedSince_some, decide_eq_false (Nat.not_le.mpr hearly)]
  rfl

theorem exec_pmSetpointCycle_of_due (hdue : s.net.pmAt[b] = none ∨
    (∃ l, s.net.pmAt[b] = some l ∧ msecs (cfgNat s.cfg s.fab (.gen .pmCycle)) ≤ (s.time.life - l).toNat)) : exec (.pmSetpointCycle b) s =
      .next (forEach (busNodes s b) (nodeCycle s b) { s with net := { s.net with pmAt := vmod s.net.pmAt b (fun _ => some s.time.life) } }) := by
  have hnow : ((s.net.pmAt[b]).isNone || passedSince s s.net.pmAt[b] (msecs (cfgNat s.cfg s.fab (.gen .pmCycle)))) = true := by
    obtain hnone | ⟨l, hbegun, hpassed⟩ := hdue
    · rw [hnone, Option.isNone_none, Bool.true_or]
    · rw [hbegun, passedSince_some, decide_eq_true hpassed, Bool.or_true]
  rw [exec_pmSetpointCycle_of_runs hpower hruns hdomain, hnow, ifDo_true]

/-! ### IDENT and STATUS (R520, Table 14.5) -/

section
variable {n : Fin 32} {p : Bytes} (hlength : p.length = 32) (hnode : n.val ≠ 0)
include hlength hnode

theorem exec_pmIdentReceive_of_version (hversion : rd p 0 1 = 1) : exec (.pmIdentReceive b n p) s =
    .next (if s.net.pm[b][n].state = 2 then capabilityFell (nodeOutlet s b n) (moduleState b n 1 (modPm b n (identTaken p) s))
      else moduleState b n 1 (modPm b n (identTaken p) s)) := by
  have hall : (isPower s b && appRuns s && !domainOut s .per && p.length == 32 && rd p 0 1 == 1 && n.val != 0) = true := by
    rw [powerBus_runs hpower hruns hdomain, hlength, hversion, bne_iff_ne.mpr hnode]
    rfl
  exact (next_ifDo_of_true hall _ _).trans (congrArg Host.Outcome.next (if_congr beq_iff_eq rfl rfl))

section
variable (hpresent : s.net.pm[b][n].state ≠ 0)
include hpresent

theorem statusServed : (isPower s b && appRuns s && !domainOut s .per && p.length == 32 && n.val != 0 && s.net.pm[b][n].state != 0) = true := by
  rw [powerBus_runs hpower hruns hdomain, hlength, bne_iff_ne.mpr hnode, bne_iff_ne.mpr hpresent]
  rfl

theorem exec_pmStatusReceive_of_bad (hbad : StatusBad s b n p) :
    exec (.pmStatusReceive b n p) s = .next (loseModule b n (modPm b n (takeModule p) s)) :=
  (next_ifDo_of_true (statusServed hpower hruns hdomain hlength hnode hpresent) _ _).trans (congrArg Host.Outcome.next (if_pos hbad))

section
variable (hgood : ¬ StatusBad s b n p) (hstate : s.net.pm[b][n].state = 1)
include hgood hstate

theorem exec_pmStatusReceive_of_readmitting : exec (.pmStatusReceive b n p) s =
    .next (if statusGood s b n p && s.net.pm[b][n].firstGood && s.net.pm[b][n].cycleBegun then admitModule b n (statusTaken b n p s)
      else statusTaken b n p s) :=
  (next_ifDo_of_true (statusServed hpower hruns hdomain hlength hnode hpresent) _ _).trans
    (congrArg Host.Outcome.next ((if_neg hgood).trans (if_pos hstate)))

theorem exec_pmStatusReceive_of_admitted (hlatest : statusGood s b n p = true) (hfirst : s.net.pm[b][n].firstGood = true)
    (hcycle : s.net.pm[b][n].cycleBegun = true) : exec (.pmStatusReceive b n p) s = .next (admitModule b n (statusTaken b n p s)) := by
  rw [exec_pmStatusReceive_of_readmitting hpower hruns hdomain hlength hnode hpresent hgood hstate, hlatest, hfirst, hcycle]
  rfl

theorem exec_pmStatusReceive_of_waiting (hwait : statusGood s b n p = false ∨ s.net.pm[b][n].firstGood = false ∨
    s.net.pm[b][n].cycleBegun = false) : exec (.pmStatusReceive b n p) s = .next (statusTaken b n p s) := by
  rw [exec_pmStatusReceive_of_readmitting hpower hruns hdomain hlength hnode hpresent hgood hstate, if_neg]
  rcases hwait with h | h | h <;> rw [h] <;> simp only [Bool.and_false, Bool.false_and, Bool.false_eq_true, not_false_eq_true]

end

end

end

end

/-! ### What becomes of a module's state (R520) -/

theorem modPm_pm_self (b : Fin 4) (n : Fin 32) (f : Module → Module) (s : State) : (modPm b n f s).net.pm[b][n] = f s.net.pm[b][n] := by
  show (vmod s.net.pm b fun v => vmod v n f)[b][n] = _
  rw [vmod_get, if_pos rfl, vmod_get, if_pos rfl]

theorem moduleState_state (b : Fin 4) (n : Fin 32) (st : Nat) (s : State) : (moduleState b n st s).net.pm[b][n].state = st := by
  unfold moduleState
  split_ifs with hsame
  · exact hsame
  · show (raise _ _ _).net.pm[b][n].state = st
    rw [net_of_beside (raise_beside _ _ _), modPm_pm_self]

theorem loseModule_state (b : Fin 4) (n : Fin 32) (s : State) : (loseModule b n s).net.pm[b][n].state = 0 := by
  show (ifDo _ (capabilityFell _) (moduleState b n 0 _)).net.pm[b][n].state = 0
  rw [net_of_beside (ifDo_beside _ _ (capabilityFell_beside _ _)), moduleState_state]

/-! ### A lost module and one outside the budget (R519, R520) -/

theorem exec_pmLost (b : Fin 4) (n : Fin 32) : exec (.pmLost b n) s = .next (if 3 ≤ s.net.pm[b][n].quiet then loseModule b n s else s) :=
  congrArg Host.Outcome.next (ifDo_decide _ _ _)

theorem u8_toNat (x : Byte) : u8 x.toNat = [x] := by simp [u8, leBytes]

theorem setpointFrame_zero (q : BitVec 8) : setpointFrame 0 q 0 0 0 = [0, q] ++ List.replicate 14 0 := by
  rw [setpointFrame, u8_toNat]
  rfl

theorem nodeSetpoint_of_outside {b : Fin 4} {n : Fin 32} (q : BitVec 8) (h : s.net.pm[b][n].state ≠ 2 ∨ nodeOutlet s b n = none) :
    nodeSetpoint s b n q = [0, q] ++ List.replicate 14 0 := by
  rw [← setpointFrame_zero, nodeSetpoint]
  rcases h with hstate | hnone
  · rw [beq_false_of_ne hstate]
  · rw [hnone]
    cases s.net.pm[b][n].state == 2 <;> rfl

/-! ### POWER_MODULE_STATUS_GET (07 Table 7.15) -/

/-- The nodes of a bus as POWER_MODULE_STATUS_GET answers them. -/
def busStatusBytes (x : Bytes) (u : State) : Bytes :=
  let b : Fin 4 := Fin.ofNat 4 (rd x 0 2)
  u8 (rd x 0 2) ++ u8 (busNodes u b).length ++ u16 0 ++ (busNodes u b).flatMap (fun k =>
    let m := u.net.pm[b][k]
    u8 k.val ++ u8 m.state ++ u16 m.deciK.toNat ++ i32 m.mv ++ i32 m.ma ++ u32 (rd m.sent 12 4))

section
variable {mb : Mailbox} {x : Bytes} (h : serves .powerModuleStatusGet mb x s)
include h

theorem exec_powerModuleStatusGet_served : exec (.powerModuleStatusGet mb) s = .next (Reply.apply mb
    (guards [(decide (3 < rd x 0 2), .argRange)] (takeUp mb s) (ok (busStatusBytes x (takeUp mb s)) (takeUp mb s)))) :=
  congrArg Host.Outcome.next (runCommand_served _ rfl h)

theorem exec_powerModuleStatusGet_of_noBus (hbus : 3 < rd x 0 2) :
    exec (.powerModuleStatusGet mb) s = .next (complete mb .argRange [] (takeUp mb s)) := by
  rw [exec_powerModuleStatusGet_served h, decide_eq_true hbus, guards_cons_true]
  rfl

theorem exec_powerModuleStatusGet_of_bus (hbus : rd x 0 2 ≤ 3) :
    exec (.powerModuleStatusGet mb) s = .next (complete mb .ok (busStatusBytes x (takeUp mb s)) (takeUp mb s)) := by
  rw [exec_powerModuleStatusGet_served h, decide_eq_false (Nat.not_lt.mpr hbus), guards_cons_false]
  rfl

end

end

/-! ### The statement -/

/-- Settles O47: each clause is the lemma of its row or command, or of a lost module. -/
theorem powerModules : Obligations.PowerModules := by
  unfold Obligations.PowerModules
  refine ⟨fun s b hpower hruns hdomain => ⟨fun l => exec_pmSetpointCycle_of_early hpower hruns hdomain,
      exec_pmSetpointCycle_of_due hpower hruns hdomain, fun n p hlength hnode =>
        ⟨exec_pmIdentReceive_of_version hpower hruns hdomain hlength hnode, fun hpresent =>
          ⟨exec_pmStatusReceive_of_bad hpower hruns hdomain hlength hnode hpresent,
            exec_pmStatusReceive_of_admitted hpower hruns hdomain hlength hnode hpresent,
            exec_pmStatusReceive_of_waiting hpower hruns hdomain hlength hnode hpresent⟩⟩⟩,
    fun s b n => exec_pmLost b n, fun s b n => loseModule_state b n s, fun s b n q => nodeSetpoint_of_outside q,
    fun s mb x h => ⟨exec_powerModuleStatusGet_of_noBus h, exec_powerModuleStatusGet_of_bus h⟩⟩

end Sys2Proof.Machine
end

section
/-! SUPPORT. The session commands (07 Table 7.12, R256; 11 R408 to R415; 15 R552): the checks in their order, what each command answers, and
the proof of SessionCommands. -/

namespace Sys2Proof.Machine

/-! ### Checks in a row (07 R256) -/

/-- The first check that fails answers its status. -/
theorem guards_append_first {l r : List (Bool × Status)} (st : Status) (s : State) (k : Reply) (h : ∀ c ∈ l, c.1 = false) :
    guards (l ++ (true, st) :: r) s k = refuse st s := by
  unfold guards
  rw [List.find?_append, List.find?_eq_none.mpr (by simpa using h)]
  rfl

theorem outletOfNum_num (o : Outlet) : outletOfNum o.num = o := by cases o <;> rfl

theorem num_le_one (o : Outlet) : o.num ≤ 1 := by cases o <;> decide

section
variable {s : State} {mb : Mailbox} {b : Bytes}

/-! ### SESSION_START (07 Table 7.12; 15 R552) -/

/-- The identity that SESSION_START carries, and its entry in the list or the cache. -/
abbrev startId (b : Bytes) : Bytes := (b.drop 8).take (rd b 3 1)
abbrev startEntry (b : Bytes) (s : State) : Option (ListEntry × Nat) := if rd b 3 1 = 0 then none else findEntry s (startId b)

/-- The entry says that the identity is not accepted. -/
abbrev startRefused (b : Bytes) (s : State) : Bool :=
  (((startEntry b s).bind (fun e => entryResult s e.1)).map (fun r => r != 0)).getD false

/-- The session opened as SESSION_START asks, with the reservation that it names. -/
def startedSession (b : Bytes) (o : Outlet) (s : State) : State :=
  modOut o (fun x => { x with reservation := rd b 4 4 })
    (startSession o (decide (rd b 1 1 = 1)) (rd b 2 1) (startId b) (((startEntry b s).map Prod.snd).getD 3) s)

section
variable (h : serves .sessionStart mb b s) {o : Outlet} (houtlet : rd b 0 1 = o.num) (hbilled : rd b 1 1 ≤ 1) (hkind : rd b 2 1 ≤ 3)
include h houtlet hbilled hkind

theorem exec_sessionStart_of_formed : exec (.sessionStart mb) s = .next (Reply.apply mb
    (guards ((lifecycle s == 3 || (decide (rd b 1 1 = 1) && lifecycle s != 2), .notPermitted) ::
        (startBarred s o (decide (rd b 1 1 = 1)), .state) :: (false, .argRange) ::
        startChecks s o (decide (rd b 1 1 = 1)) (startId b) (startRefused b s)) (takeUp mb s)
      (ok (u32 ((startedSession b o (takeUp mb s)).veh.out.get o).id.toNat) (startedSession b o (takeUp mb s))))) := by
  have hnamed : decide (rd b 0 1 ≤ 1) = true := decide_eq_true (houtlet ▸ num_le_one o)
  have hrange : (decide (1 < rd b 0 1) || decide (1 < rd b 1 1) || decide (3 < rd b 2 1)) = false := by
    have hnum := num_le_one o
    simp only [Bool.or_eq_false_iff, decide_eq_false_iff_not]
    omega
  change execSessionStart mb s = _
  rw [execSessionStart, runCommand_served _ rfl h]
  dsimp only
  rw [hrange, hnamed, Bool.true_and, houtlet, outletOfNum_num]
  rfl

theorem exec_sessionStart_of_lifecycle (hlife : lifecycle s = 3 ∨ (decide (rd b 1 1 = 1) = true ∧ lifecycle s ≠ 2)) :
    exec (.sessionStart mb) s = .next (complete mb .notPermitted [] (takeUp mb s)) := by
  have hbad : (lifecycle s == 3 || (decide (rd b 1 1 = 1) && lifecycle s != 2)) = true := by
    rcases hlife with hretired | ⟨hbill, hfield⟩
    · rw [beq_iff_eq.mpr hretired, Bool.true_or]
    · rw [hbill, bne_iff_ne.mpr hfield, Bool.and_self, Bool.or_true]
  rw [exec_sessionStart_of_formed h houtlet hbilled hkind, hbad, guards_cons_true]
  rfl

omit h houtlet hbilled hkind in
theorem startLifecycle_passes (hlife : lifecycle s = 2) : (lifecycle s == 3 || (decide (rd b 1 1 = 1) && lifecycle s != 2)) = false := by
  rw [hlife]
  exact Bool.and_false _

section
variable (hlife : lifecycle s = 2)
include hlife

theorem exec_sessionStart_of_barred (hbarred : startBarred s o (decide (rd b 1 1 = 1)) = true) :
    exec (.sessionStart mb) s = .next (complete mb .state [] (takeUp mb s)) := by
  rw [exec_sessionStart_of_formed h houtlet hbilled hkind, startLifecycle_passes hlife, guards_cons_false, hbarred,
    guards_cons_true]
  rfl

section
variable (hfree : startBarred s o (decide (rd b 1 1 = 1)) = false)
include hfree

theorem exec_sessionStart_of_free : exec (.sessionStart mb) s = .next (Reply.apply mb
    (guards (startChecks s o (decide (rd b 1 1 = 1)) (startId b) (startRefused b s)) (takeUp mb s)
      (ok (u32 ((startedSession b o (takeUp mb s)).veh.out.get o).id.toNat) (startedSession b o (takeUp mb s))))) := by
  rw [exec_sessionStart_of_formed h houtlet hbilled hkind, startLifecycle_passes hlife, guards_cons_false, hfree,
    guards_cons_false, guards_cons_false]

theorem exec_sessionStart_of_checks (hpass : ∀ c ∈ startChecks s o (decide (rd b 1 1 = 1)) (startId b) (startRefused b s), c.1 = false) :
    exec (.sessionStart mb) s = .next (complete mb .ok (u32 ((startedSession b o (takeUp mb s)).veh.out.get o).id.toNat)
      (startedSession b o (takeUp mb s))) := by
  rw [exec_sessionStart_of_free h houtlet hbilled hkind hlife hfree, guards_pass hpass]
  rfl

theorem exec_sessionStart_of_firstCheck {st : Status} {l r : List (Bool × Status)}
    (hchecks : startChecks s o (decide (rd b 1 1 = 1)) (startId b) (startRefused b s) = l ++ (true, st) :: r) (hpass : ∀ c ∈ l, c.1 = false) :
    exec (.sessionStart mb) s = .next (complete mb st [] (takeUp mb s)) := by
  rw [exec_sessionStart_of_free h houtlet hbilled hkind hlife hfree, hchecks, guards_append_first _ _ _ hpass]
  rfl

end

end

end

/-! ### SESSION_STOP and SESSION_STATUS_GET (07 Table 7.12; 11 R415) -/

section
variable (h : serves .sessionStop mb b s)
include h

theorem exec_sessionStop_served : exec (.sessionStop mb) s = .next (Reply.apply mb (match sessionOf s (rd b 0 4) with
    | none => refuse .sessionUnknown (takeUp mb s)
    | some o => ok [] (stopSession o (.host (BitVec.ofNat 16 (rd b 4 2))) .requested (takeUp mb s)))) :=
  congrArg Host.Outcome.next (runCommand_served _ rfl h)

theorem exec_sessionStop_of_none (hsession : sessionOf s (rd b 0 4) = none) :
    exec (.sessionStop mb) s = .next (complete mb .sessionUnknown [] (takeUp mb s)) := by
  rw [exec_sessionStop_served h, hsession]
  rfl

theorem exec_sessionStop_of_some {o : Outlet} (hsession : sessionOf s (rd b 0 4) = some o) : exec (.sessionStop mb) s =
    .next (complete mb .ok [] (stopSession o (.host (BitVec.ofNat 16 (rd b 4 2))) .requested (takeUp mb s))) := by
  rw [exec_sessionStop_served h, hsession]
  rfl

end

/-- What SESSION_STATUS_GET answers of an outlet. -/
def sessionStatusBytes (s : State) (o : Outlet) : Bytes :=
  let x := s.veh.out.get o
  u32 x.id.toNat ++ u8 (stateNum x.state) ++ u8 (protocolCode x.protocol) ++ u8 (cpCode x) ++ u8 (Config.ppCode x.pp).toNat ++ i32 x.target ++
    i32 x.presentMa ++ i32 (limitMa s o x.exporting) ++ u32 (if x.id = 0 then 0 else sessionWh s o) ++ u64 x.startLife.toNat

section
variable (h : serves .sessionStatusGet mb b s)
include h

theorem exec_sessionStatusGet_served : exec (.sessionStatusGet mb) s = .next (Reply.apply mb
    (guards [(decide (1 < rd b 0 2), .argRange)] (takeUp mb s) (ok (sessionStatusBytes s (outletOfNum (rd b 0 2))) (takeUp mb s)))) :=
  congrArg Host.Outcome.next (runCommand_served _ rfl h)

theorem exec_sessionStatusGet_of_noOutlet (hnum : 1 < rd b 0 2) :
    exec (.sessionStatusGet mb) s = .next (complete mb .argRange [] (takeUp mb s)) := by
  rw [exec_sessionStatusGet_served h, decide_eq_true hnum, guards_cons_true]
  rfl

theorem exec_sessionStatusGet_of_outlet {o : Outlet} (hnum : rd b 0 2 = o.num) :
    exec (.sessionStatusGet mb) s = .next (complete mb .ok (sessionStatusBytes s o) (takeUp mb s)) := by
  rw [exec_sessionStatusGet_served h, hnum, outletOfNum_num, decide_eq_false (Nat.not_lt.mpr (num_le_one o)), guards_cons_false]
  rfl

end

/-! ### SETPOINT_SET (07 Table 7.12; 11 R408) -/

/-- A target within the limit is not clipped. -/
theorem clipMa_of_within {o : Outlet} {v : Int} (hpos : 0 < v) (hlimit : v.natAbs ≤ limitMa s o false) : clipMa s o v = v := by
  rw [clipMa, if_neg (not_lt.mpr hpos.le), min_eq_left hlimit]
  exact Int.natAbs_of_nonneg hpos.le

theorem sessionOpen_takeUp (o : Outlet) : sessionOpen (takeUp mb s) o = sessionOpen s o := rfl

section
variable (h : serves .setpointSet mb b s) {o : Outlet} (houtlet : rd b 0 1 = o.num)
include h houtlet

theorem exec_setpointSet_of_closed (hclosed : sessionOpen s o = false) :
    exec (.setpointSet mb) s = .next (complete mb .state [] (takeUp mb s)) := by
  have hnamed : decide (rd b 0 1 < 2) = true := decide_eq_true (by have := num_le_one o; omega)
  change execSetpointSet mb s = _
  rw [execSetpointSet, runCommand_served _ rfl h]
  dsimp only
  rw [hnamed, houtlet, outletOfNum_num, sessionOpen_takeUp, hclosed]
  rfl

section
variable (hopen : sessionOpen s o = true) (hstate : stateIn s o [.stopping, .ended, .fault] = false) (hcurrent : rd b 1 1 = 0)
  (hpos : 0 < rdI32 b 4) (hlimit : (rdI32 b 4).natAbs ≤ limitMa s o false) (himport : (s.veh.out.get o).exporting = false)
include hopen hstate hcurrent hpos hlimit himport

theorem exec_setpointSet_of_within : exec (.setpointSet mb) s = .next (complete mb .ok (i32 (rdI32 b 4) ++ u32 (rampMs s o (rdI32 b 4)))
    (setTarget o (rdI32 b 4) none (modSolar o (fun y => { y with mode := 0 }) (takeUp mb s)))) := by
  have hpasses : (decide (o.num < 2) && (!sessionOpen (takeUp mb s) o || stateIn (takeUp mb s) o [.stopping, .ended, .fault])) = false := by
    show (_ && (!sessionOpen s o || stateIn s o [.stopping, .ended, .fault])) = false
    rw [hopen, hstate]
    exact Bool.and_false _
  have hstraight : (rdI32 b 4 != 0 && decide False != ((takeUp mb s).veh.out.get o).exporting) = false := by
    show (_ && decide False != (s.veh.out.get o).exporting) = false
    rw [himport]
    exact Bool.and_false _
  have hclip : clipMa (takeUp mb s) o (rdI32 b 4) = rdI32 b 4 := clipMa_of_within hpos hlimit
  change execSetpointSet mb s = _
  rw [execSetpointSet, runCommand_served _ rfl h]
  dsimp only
  rw [houtlet, outletOfNum_num, hcurrent]
  simp only [Nat.zero_ne_one, if_false, not_lt.mpr hpos.le, false_and, hclip]
  rw [hpasses, hstraight, bne_self_eq_false, decide_eq_false (Nat.not_lt.mpr (num_le_one o)), guards_cons_false]
  rfl

end

end

end

/-! ### The statement -/

/-- Settles O39: each clause is the lemma of its command. -/
theorem sessionCommands : Obligations.SessionCommands := by
  unfold Obligations.SessionCommands
  refine fun mb b s => ⟨fun h o houtlet hbilled hkind => ⟨exec_sessionStart_of_lifecycle h houtlet hbilled hkind,
      exec_sessionStart_of_barred h houtlet hbilled hkind, exec_sessionStart_of_checks h houtlet hbilled hkind,
      fun hlife hfree st l r => exec_sessionStart_of_firstCheck h houtlet hbilled hkind hlife hfree⟩,
    fun h => ⟨exec_sessionStop_of_none h, fun o => exec_sessionStop_of_some h⟩,
    fun h => ⟨exec_sessionStatusGet_of_noOutlet h, fun o => exec_sessionStatusGet_of_outlet h⟩,
    fun h o houtlet => ⟨exec_setpointSet_of_closed h houtlet, exec_setpointSet_of_within h houtlet⟩⟩

end Sys2Proof.Machine
end

section
/-! SUPPORT. The connection to the back office (15 R539, R540, R558, R561 to R564): what each row does while the application runs, and the
proof of OperatorConnection. -/

namespace Sys2Proof.Machine

/-! ### Waits (R539) -/

theorem nextWait_le (s : State) : nextWait s ≤ 1250 * cfgNat s.cfg s.fab (.gen .retryMaxS) + 250 := by
  have hbase : min (2 ^ min s.svc.retries 12) (cfgNat s.cfg s.fab (.gen .retryMaxS)) ≤ cfgNat s.cfg s.fab (.gen .retryMaxS) :=
    min_le_right _ _
  have hjitter : (Config.jitter s.nd).val ≤ 250 := Nat.le_of_lt_succ (Config.jitter s.nd).isLt
  have hpart : min (2 ^ min s.svc.retries 12) (cfgNat s.cfg s.fab (.gen .retryMaxS)) * 1000 * (Config.jitter s.nd).val ≤
      cfgNat s.cfg s.fab (.gen .retryMaxS) * 1000 * 250 := Nat.mul_le_mul (Nat.mul_le_mul_right _ hbase) hjitter
  unfold nextWait
  dsimp only
  omega

section
variable {s : State}

theorem waitOver_of_over (h : s.svc.waitMs = 0 ∨ msecs s.svc.waitMs ≤ (s.time.life - s.svc.waitAt).toNat) : waitOver s = true := by
  rw [waitOver, passedSince_some]
  rcases h with hnone | hpassed
  · rw [beq_iff_eq.mpr hnone, Bool.true_or]
  · rw [decide_eq_true hpassed, Bool.or_true]

theorem waitOver_of_early (hpos : 0 < s.svc.waitMs) (hearly : (s.time.life - s.svc.waitAt).toNat < msecs s.svc.waitMs) : waitOver s = false := by
  rw [waitOver, passedSince_some, beq_false_of_ne hpos.ne', decide_eq_false (Nat.not_le.mpr hearly), Bool.or_self]

/-- The port of the connection has its link (R537). -/
abbrev operatorLink (s : State) : Bool := (s.net.port[(Fin.ofNat 8 (cfgNat s.cfg s.fab (.gen .ocppPort)) : Fin 8)]).up

/-- The connection made. -/
def connected (s : State) : State :=
  sendBoot (connectionEvent { s with svc := { s.svc with connected := true, retries := 0, waitMs := 0 } })

/-- The retry interval in s that an answer to BootNotification asks for, or 60 s. -/
abbrev retryInterval (iv : Nat) : Nat := if iv = 0 then 60 else iv

/-- The answer taken out, with its time. -/
abbrev bootTime (s : State) (sec : Nat) : State := operatorTime sec (dropSent (fun m => m.kind == .boot) s)

/-- The window dated, and no wait left. -/
abbrev windowOpened (s : State) : State := { s with svc := { s.svc with window := some s.time.life, waitMs := 0 } }

theorem exec_ocppReconnect_of_early (accepted : Bool) (hover : waitOver s = false) : exec (.ocppReconnect accepted) s = .next s :=
  congrArg Host.Outcome.next (if_pos (by rw [hover]; exact Bool.or_true _))

section
variable (hruns : appRuns s = true)
include hruns

theorem exec_ocppReconnect_of_over (accepted : Bool) (hversion : ocppVersion s ≠ none) (hlife : lifecycle s ≠ 3)
    (hconn : s.svc.connected = false) (hover : waitOver s = true) :
    exec (.ocppReconnect accepted) s = .next (if accepted && operatorLink s then connected s else startWait s) := by
  have hgoes : (!appRuns s || (ocppVersion s).isNone || decide (lifecycle s = 3) || !waitOver s) = false := by
    rw [hruns, Option.isNone_eq_false_iff.mpr (Option.isSome_iff_ne_none.mpr hversion), decide_eq_false hlife, hover]
    rfl
  change execOcppReconnect accepted s = _
  rw [execOcppReconnect, hgoes, hconn]
  rfl

/-! ### BootNotification, heartbeats and the time (R540, R561) -/

theorem exec_heartbeatSend_of_late (hconn : s.svc.connected = true) (hbooted : s.svc.booted = true)
    (hlate : cfgNat s.cfg s.fab (.gen .heartbeatS) * 32768 ≤ (s.time.life - s.svc.beatAt).toNat) :
    exec .heartbeatSend s = .next { s with svc := { s.svc with
      last := some { kind := .heartbeat }, sent := s.svc.sent ++ [{ kind := .heartbeat }], beatAt := s.time.life } } := by
  refine (next_fromOperator hruns hconn _).trans (next_ifDo_of_true ?_ _ _)
  rw [hbooted, passedSince_some, secs, decide_eq_true hlate, Bool.and_self]

theorem exec_heartbeatSend_of_early (hconn : s.svc.connected = true)
    (hearly : (s.time.life - s.svc.beatAt).toNat < cfgNat s.cfg s.fab (.gen .heartbeatS) * 32768) : exec .heartbeatSend s = .next s := by
  refine (next_fromOperator hruns hconn _).trans (next_ifDo_of_false ?_ _ _)
  rw [passedSince_some, secs, decide_eq_false (Nat.not_le.mpr hearly), Bool.and_false]

section
variable (hconn : s.svc.connected = true)
include hconn

section
variable (hawaits : awaits s .boot = true)
include hawaits

theorem exec_bootNotificationResponse_of_accepted (sec iv : Nat) : exec (.bootNotificationResponse .accepted sec iv) s =
    .next (flush { bootTime s sec with svc := { (bootTime s sec).svc with booted := true, held := false }
                                       run := { (bootTime s sec).run with booted := true } }) :=
  (next_fromOperator hruns hconn _).trans (next_ifDo_of_true hawaits _ _)

theorem exec_bootNotificationResponse_of_other {st : BootStatus} (hst : st ≠ .accepted) (sec iv : Nat) :
    exec (.bootNotificationResponse st sec iv) s = .next (flush { bootTime s sec with svc := { (bootTime s sec).svc with
      booted := false, held := true, retryS := retryInterval iv, waitMs := 1000 * retryInterval iv, waitAt := s.time.life } }) := by
  cases st with
  | accepted => exact absurd rfl hst
  | pending => exact (next_fromOperator hruns hconn _).trans (next_ifDo_of_true hawaits _ _)
  | rejected => exact (next_fromOperator hruns hconn _).trans (next_ifDo_of_true hawaits _ _)

end

section
variable (hawaits : awaits s .heartbeat = true) (sec : Nat)
include hawaits

theorem exec_heartbeatResponse_of_awaited : exec (.heartbeatResponse sec) s =
    .next (ifDo (s.svc.lastTime.isNone || passedSince s s.svc.lastTime (secs 3600)) (operatorTime sec)
      (dropSent (fun m => m.kind == .heartbeat) s)) :=
  (next_fromOperator hruns hconn _).trans (next_ifDo_of_true hawaits _ _)

theorem exec_heartbeatResponse_of_first (hnone : s.svc.lastTime = none) :
    exec (.heartbeatResponse sec) s = .next (operatorTime sec (dropSent (fun m => m.kind == .heartbeat) s)) := by
  rw [exec_heartbeatResponse_of_awaited hruns hconn hawaits, hnone]
  rfl

section
variable {l : Life} (hlast : s.svc.lastTime = some l)
include hlast

theorem exec_heartbeatResponse_of_hour (hhour : 3600 * 32768 ≤ (s.time.life - l).toNat) :
    exec (.heartbeatResponse sec) s = .next (operatorTime sec (dropSent (fun m => m.kind == .heartbeat) s)) := by
  rw [exec_heartbeatResponse_of_awaited hruns hconn hawaits, hlast, passedSince_some, secs, decide_eq_true hhour, Bool.or_true, ifDo_true]

theorem exec_heartbeatResponse_of_soon (hsoon : (s.time.life - l).toNat < 3600 * 32768) :
    exec (.heartbeatResponse sec) s = .next (dropSent (fun m => m.kind == .heartbeat) s) := by
  rw [exec_heartbeatResponse_of_awaited hruns hconn hawaits, hlast, passedSince_some, secs, decide_eq_false (Nat.not_le.mpr hsoon)]
  rfl

end

end

end

theorem exec_ntpReply_of_uses (hntp : usesNtp s = true) (sec ms : Nat) :
    operatorTime sec s = s ∧ exec (.ntpReply sec ms) s = .next (adjustMs ms (setSecond sec s).2).2 :=
  ⟨if_pos hntp, next_ifDo_of_true (by rw [hruns, hntp, Bool.and_self]) _ _⟩

omit hruns in
theorem exec_ntpReply_of_none (hntp : usesNtp s = false) (sec ms : Nat) : exec (.ntpReply sec ms) s = .next s :=
  next_ifDo_of_false (by rw [hntp, Bool.and_false]) _ _

/-! ### Loss, a failure of TLS, and a window of periodic IDLE (R558, R561, R562, R564) -/

theorem exec_ocppConnectionLost_of_runs : exec .ocppConnectionLost s = .next (loseConnection s) := next_ifDo_of_true hruns _ _

theorem exec_ocppConnectionLost_of_connected (hconn : s.svc.connected = true) : exec .ocppConnectionLost s =
    .next (connectionEvent (startWait { s with
      app := { s.app with queue := s.svc.sent.filter undroppable ++ s.app.queue }
      svc := { s.svc with sent := [], connected := false, booted := false, held := false, retries := 0 } })) :=
  (exec_ocppConnectionLost_of_runs hruns).trans (congrArg Host.Outcome.next (if_pos hconn))

theorem exec_ocppConnectionLost_of_none (hconn : s.svc.connected = false) : exec .ocppConnectionLost s = .next s :=
  (exec_ocppConnectionLost_of_runs hruns).trans (congrArg Host.Outcome.next (if_neg (Bool.eq_false_iff.mp hconn)))

section
variable (hversion : ocppVersion s ≠ none)
include hversion

theorem exec_tlsFailure_of_version : exec .tlsFailure s =
    .next (securityMsg "TlsFailure" (if s.svc.connected then loseConnection s else startWait s)) := by
  refine (next_ifDo_of_true (by rw [hruns, Option.isSome_iff_ne_none.mpr hversion, Bool.and_self]) _ _).trans ?_
  split_ifs <;> rfl

section
variable (hmode : cfgNat s.cfg s.fab (.gen .idleMode) = 1)
include hmode

theorem exec_idleOcppWindow_of_periodic : exec .idleOcppWindow s =
    .next (ifDo (s.svc.connected && s.svc.booted) (fun s => flush (sendNow { kind := .heartbeat } s)) (windowOpened s)) :=
  next_ifDo_of_true (by rw [hruns, Option.isSome_iff_ne_none.mpr hversion, hmode]; rfl) _ _

theorem exec_idleOcppWindow_of_booted (hconn : s.svc.connected = true) (hbooted : s.svc.booted = true) :
    exec .idleOcppWindow s = .next (flush (sendNow { kind := .heartbeat } (windowOpened s))) := by
  rw [exec_idleOcppWindow_of_periodic hruns hversion hmode, hconn, hbooted, Bool.and_self, ifDo_true]

theorem exec_idleOcppWindow_of_unconnected (hconn : s.svc.connected = false) : exec .idleOcppWindow s = .next (windowOpened s) := by
  rw [exec_idleOcppWindow_of_periodic hruns hversion hmode, hconn, Bool.false_and, ifDo_false]

end

end

end

end

/-! ### The statement -/

/-- Settles O49: each clause is the lemma of its row, or of a wait. -/
theorem operatorConnection : Obligations.OperatorConnection := by
  unfold Obligations.OperatorConnection
  refine fun s hruns => ⟨fun hversion hlife hconn hwait => ?reconnect, fun hpos hearly b => exec_ocppReconnect_of_early b (waitOver_of_early hpos hearly),
    rfl, nextWait_le s, fun hconn hawaits st sec iv => ?boot,
    fun hconn hbooted => ⟨exec_heartbeatSend_of_late hruns hconn hbooted, exec_heartbeatSend_of_early hruns hconn⟩,
    fun hconn hawaits sec => ⟨exec_heartbeatResponse_of_first hruns hconn hawaits sec,
      fun l hlast => ⟨exec_heartbeatResponse_of_hour hruns hconn hawaits sec hlast, exec_heartbeatResponse_of_soon hruns hconn hawaits sec hlast⟩⟩,
    fun hntp => exec_ntpReply_of_uses hruns hntp, exec_ntpReply_of_none, exec_ocppConnectionLost_of_connected hruns,
    exec_ocppConnectionLost_of_none hruns, exec_tlsFailure_of_version hruns,
    fun hversion hmode => ⟨exec_idleOcppWindow_of_booted hruns hversion hmode, exec_idleOcppWindow_of_unconnected hruns hversion hmode⟩⟩
  case reconnect =>
    have hover := waitOver_of_over hwait
    refine ⟨fun hlink => ?_, fun hlink => ?_, exec_ocppReconnect_of_over hruns false hversion hlife hconn hover⟩
    · exact (exec_ocppReconnect_of_over hruns true hversion hlife hconn hover).trans (congrArg Host.Outcome.next (if_pos hlink))
    · exact (exec_ocppReconnect_of_over hruns true hversion hlife hconn hover).trans
        (congrArg Host.Outcome.next (if_neg (Bool.eq_false_iff.mp hlink)))
  case boot =>
    refine ⟨fun hst => ?_, fun hst => exec_bootNotificationResponse_of_other hruns hconn hawaits hst sec iv⟩
    subst hst
    exact exec_bootNotificationResponse_of_accepted hruns hconn hawaits sec iv

end Sys2Proof.Machine
end

section
/-! SUPPORT. Authorisation (15 R547 to R551, R562, Table 15.5; 07 Table 7.16): what the list and the cache say, the answers and time-outs of
the back office, the reader and the held identities, and the proof of AuthorisationAnswers. -/

namespace Sys2Proof.Machine

section
variable {s : State}

/-! ### R547 -/

section
variable {id : Bytes} {e : ListEntry} {src r : Nat} (o : Option Outlet) (kind : Nat) (ev : Bool)

section
variable (hentry : findEntry s id = some (e, src)) (hresult : entryResult s e = some r)
include hentry hresult

/-- An entry that refuses answers at once. -/
theorem authorise_of_refused (hr : r ≠ 0) : (authorise o kind id true ev s).1 = r ∧ (authorise o kind id true ev s).2.1 = src := by
  unfold authorise
  simp only [if_true, hentry, Option.bind_some, hresult]
  cases r with
  | zero => exact absurd rfl hr
  | succ n => exact ⟨trivial, rfl⟩

/-- An entry that accepts answers at once where pre-authorisation is on. -/
theorem authorise_of_accepted (hr : r = 0) (hkey : cfgBool s.cfg s.fab (.gen .localPreAuthorize) = true) :
    (authorise o kind id true ev s).1 = 0 ∧ (authorise o kind id true ev s).2.1 = src := by
  unfold authorise
  subst hr
  simp only [if_true, hentry, Option.bind_some, hresult, hkey]
  exact ⟨trivial, rfl⟩

end

section
variable (hentry : findEntry s id = none)
include hentry

/-- An identity that neither list nor cache knows goes on to the back office. -/
theorem authorise_of_unknown : authorise o kind id true ev s =
    authorise.onward { outlet := o, kind, id, locally := false, source := 2, event := ev } false s := by
  unfold authorise
  simp only [if_true, hentry]
  rfl

theorem authorise_of_asked (hconn : s.svc.connected = true) (hbooted : s.svc.booted = true) : (authorise o kind id true ev s).1 = 5 ∧
    (authorise o kind id true ev s).2.2 = askOperator { outlet := o, kind, id, locally := false, source := 2, event := ev } s := by
  rw [authorise_of_unknown o kind ev hentry, authorise.onward, hconn, hbooted]
  exact ⟨rfl, rfl⟩

theorem authorise_of_offline (hconn : s.svc.connected = false) :
    (authorise o kind id true ev s).1 = if cfgBool s.cfg s.fab (.gen .offlineUnknown) then 0 else 4 := by
  rw [authorise_of_unknown o kind ev hentry, authorise.onward, hconn]
  show (offlineResult s _ false).1 = _
  rw [offlineResult]
  cases cfgBool s.cfg s.fab (.gen .offlineUnknown) <;> rfl

end

end

/-! ### AUTH_IDENTITY_SUBMIT (07 Table 7.16) -/

section
variable {mb : Mailbox} {b : Bytes} (h : serves .authIdentitySubmit mb b s)

/-- The identity that the command carries. -/
abbrev submittedId (b : Bytes) : Bytes := (b.drop 4).take (rd b 2 1)

/-- An outlet that is none, a kind that is none, or no identity. -/
abbrev SubmitBad (b : Bytes) : Prop := (1 < rd b 0 1 ∧ rd b 0 1 ≠ 0xFF) ∨ rd b 1 1 = 0 ∨ 3 < rd b 1 1 ∨ rd b 2 1 = 0

theorem submitBad_iff : (decide (1 < rd b 0 1 ∧ rd b 0 1 ≠ 0xFF) || rd b 1 1 == 0 || decide (3 < rd b 1 1) || rd b 2 1 == 0) = true ↔
    SubmitBad b := by
  simp only [Bool.or_eq_true, decide_eq_true_eq, beq_iff_eq, or_assoc]

include h

theorem exec_authIdentitySubmit_served : exec (.authIdentitySubmit mb) s = .next (Reply.apply mb
    (guards [(lifecycle (takeUp mb s) == 3, .notPermitted),
        (decide (1 < rd b 0 1 ∧ rd b 0 1 ≠ 0xFF) || rd b 1 1 == 0 || decide (3 < rd b 1 1) || rd b 2 1 == 0, .argRange)] (takeUp mb s)
      (if rd b 1 1 = 3 then ok (u8 0 ++ u8 3 ++ u16 0 ++ u32 0) (bindId (outletField (rd b 0 1)) 2 (submittedId b) 3 (takeUp mb s))
        else
          let r := authorise (outletField (rd b 0 1)) (rd b 1 1) (submittedId b) true true (takeUp mb s)
          ok (u8 r.1 ++ u8 r.2.1 ++ u16 0 ++ u32 0) r.2.2))) :=
  congrArg Host.Outcome.next (runCommand_served _ rfl h)

theorem exec_authIdentitySubmit_of_retired (hlife : lifecycle (takeUp mb s) = 3) :
    exec (.authIdentitySubmit mb) s = .next (complete mb .notPermitted [] (takeUp mb s)) := by
  rw [exec_authIdentitySubmit_served h, beq_iff_eq.mpr hlife, guards_cons_true]
  rfl

section
variable (hlife : lifecycle (takeUp mb s) ≠ 3)
include hlife

theorem exec_authIdentitySubmit_of_bad (hbad : SubmitBad b) :
    exec (.authIdentitySubmit mb) s = .next (complete mb .argRange [] (takeUp mb s)) := by
  rw [exec_authIdentitySubmit_served h, beq_false_of_ne hlife, submitBad_iff.mpr hbad, guards_cons_false, guards_cons_true]
  rfl

section
variable (hgood : ¬ SubmitBad b)
include hgood

theorem exec_authIdentitySubmit_of_host (hkind : rd b 1 1 = 3) : exec (.authIdentitySubmit mb) s =
    .next (complete mb .ok [0, 3, 0, 0, 0, 0, 0, 0] (bindId (outletField (rd b 0 1)) 2 (submittedId b) 3 (takeUp mb s))) := by
  rw [exec_authIdentitySubmit_served h, beq_false_of_ne hlife, Bool.eq_false_iff.mpr (submitBad_iff.not.mpr hgood), guards_cons_false,
    guards_cons_false, guards_nil, if_pos hkind]
  rfl

theorem exec_authIdentitySubmit_of_asked (hkind : rd b 1 1 ≠ 3) : exec (.authIdentitySubmit mb) s =
    let r := authorise (outletField (rd b 0 1)) (rd b 1 1) (submittedId b) true true (takeUp mb s)
    .next (complete mb .ok (u8 r.1 ++ u8 r.2.1 ++ u16 0 ++ u32 0) r.2.2) := by
  rw [exec_authIdentitySubmit_served h, beq_false_of_ne hlife, Bool.eq_false_iff.mpr (submitBad_iff.not.mpr hgood), guards_cons_false,
    guards_cons_false, guards_nil, if_neg hkind]
  rfl

end

end

end

/-! ### Authorize answered (R547, R548) -/

section
variable (hconn : s.svc.connected = true) (hruns : appRuns s = true) {id : Bytes}
  (hmine : s.svc.sent.any (fun m => m.kind == .authorize && m.text == id) = true) (r : AuthStatus) (x : Nat)

/-- The answer in the cache, and out of those waited for. -/
def answerCached (id : Bytes) (r : AuthStatus) (x : Nat) (s : State) : State :=
  cachePut ⟨id, some r, x, parentOf s id⟩ (dropSent (fun m => m.kind == .authorize && m.text == id) s)

include hconn hruns hmine

theorem exec_authorizeResponse_of_late (hnone : (answerCached id r x s).svc.waiting.find? (fun w => w.id == id) = none) :
    exec (.authorizeResponse id r x) s = .next (answerCached id r x s) := by
  refine ((next_fromOperator hruns hconn _).trans (next_ifDo_of_true hmine _ _)).trans ?_
  unfold answerCached at hnone ⊢
  simp only [hnone]

theorem exec_authorizeResponse_of_waiting {w : AuthWait}
    (hsome : (answerCached id r x s).svc.waiting.find? (fun w => w.id == id) = some w) : exec (.authorizeResponse id r x) s =
      .next (authDone w (match r with | .accepted => 0 | .blocked => 1 | .expired => 2 | .invalid => 3 | .unknown => 4) 2
        { answerCached id r x s with svc := { (answerCached id r x s).svc with waiting := (answerCached id r x s).svc.waiting.erase w } }) := by
  refine ((next_fromOperator hruns hconn _).trans (next_ifDo_of_true hmine _ _)).trans ?_
  unfold answerCached at hsome ⊢
  simp only [hsome]
  cases r <;> rfl

end

/-! ### Time-outs and held identities (R547, R551) -/

section
variable (hruns : appRuns s = true)
include hruns

theorem exec_authOfflineTimeout_of_late {id : Bytes} {w : AuthWait} (hlate : s.svc.waiting.find? (fun w => w.id == id &&
      decide (cfgNat s.cfg s.fab (.gen .messageTimeoutS) * 32768 ≤ (s.time.life - w.asked).toNat)) = some w) :
    exec (.authOfflineTimeout id) s = .next (authDone w (offlineResult s w (w.source != 2)).1 (offlineResult s w (w.source != 2)).2
      { s with svc := { s.svc with waiting := s.svc.waiting.erase w } }) := by
  refine (next_ifDo_of_true hruns _ _).trans ?_
  simp only [passedSince_some, secs, hlate]
  rfl

theorem exec_authOfflineTimeout_of_early {id : Bytes}
    (hearly : ∀ w ∈ s.svc.waiting, w.id = id → (s.time.life - w.asked).toNat < cfgNat s.cfg s.fab (.gen .messageTimeoutS) * 32768) :
    exec (.authOfflineTimeout id) s = .next s := by
  have hnone : s.svc.waiting.find? (fun w => w.id == id &&
      decide (cfgNat s.cfg s.fab (.gen .messageTimeoutS) * 32768 ≤ (s.time.life - w.asked).toNat)) = none := by
    rw [List.find?_eq_none]
    intro w hw hlate
    rw [Bool.and_eq_true, beq_iff_eq, decide_eq_true_eq] at hlate
    exact absurd hlate.2 (Nat.not_le.mpr (hearly w hw hlate.1))
  refine (next_ifDo_of_true hruns _ _).trans ?_
  simp only [passedSince_some, secs, hnone]

theorem exec_identityLapse_of_runs : exec .identityLapse s = .next { s with svc := { s.svc with heldIds := s.svc.heldIds.filter (fun h =>
    !decide (cfgNat s.cfg s.fab (.gen .authTimeoutS) * 32768 ≤ (s.time.life - h.life).toNat)) } } :=
  next_ifDo_of_true hruns _ _

/-! ### The reader (R550, R562) -/

omit hruns in
theorem exec_readerPoll_of_early {l : Life} (hpolled : s.svc.polledAt = some l)
    (hearly : (s.time.life - l).toNat < msecs (cfgNat s.cfg s.fab (.gen .readerPollMs))) (a : Option Bytes) :
    exec (.readerPoll a) s = .next s := by
  refine next_ifDo_of_false ?_ _ _
  rw [intervalOver, hpolled, passedSince_some, decide_eq_false (Nat.not_le.mpr hearly)]
  exact Bool.and_false _

section
variable (hport : cfgOpt s.cfg s.fab (.gen .readerPort) ≠ none)
  (hdue : ∀ l, s.svc.polledAt = some l → msecs (cfgNat s.cfg s.fab (.gen .readerPollMs)) ≤ (s.time.life - l).toNat)
include hport hdue

theorem readerPoll_due : (appRuns s && (cfgOpt s.cfg s.fab (.gen .readerPort)).isSome &&
    intervalOver s s.svc.polledAt (msecs (cfgNat s.cfg s.fab (.gen .readerPollMs)))) = true := by
  rw [hruns, Option.isSome_iff_ne_none.mpr hport, intervalOver]
  cases hpolled : s.svc.polledAt with
  | none => rfl
  | some l =>
    rw [passedSince_some, decide_eq_true (hdue l hpolled)]
    rfl

theorem exec_readerPoll_of_none : exec (.readerPoll none) s = .next { s with svc := { s.svc with
    polledAt := some s.time.life
    readerFails := s.svc.readerFails + 1, readerAbsent := s.svc.readerAbsent || decide (3 ≤ s.svc.readerFails + 1) } } :=
  next_ifDo_of_true (readerPoll_due hruns hport hdue) _ _

theorem exec_readerPoll_of_noCard {b : Bytes} (hanswer : readerAnswer b = some none) : ∃ x y, exec (.readerPoll (some b)) s =
    .next { s with svc := { s.svc with
      polledAt := some s.time.life, readerFails := 0, readerAbsent := false, noCardSince := some x, readerUid := y } } := by
  let since := s.svc.noCardSince.getD s.time.life
  refine ⟨since, if passedSince s (some since) (secs 1) then none else s.svc.readerUid, (next_ifDo_of_true (readerPoll_due hruns hport hdue) _ _).trans ?_⟩
  simp only [Option.bind_some, hanswer]
  rfl

theorem exec_readerPoll_of_sameCard {b uid : Bytes} (hanswer : readerAnswer b = some (some uid)) (hsame : s.svc.readerUid = some uid) :
    exec (.readerPoll (some b)) s = .next { s with svc := { s.svc with
      polledAt := some s.time.life, readerFails := 0, readerAbsent := false, noCardSince := none } } := by
  refine (next_ifDo_of_true (readerPoll_due hruns hport hdue) _ _).trans ?_
  simp only [Option.bind_some, hanswer]
  refine congrArg Host.Outcome.next ((if_pos hsame).trans ?_)
  rw [← hsame]
  rfl

end

end

end

/-! ### The cache (R548) -/

theorem cachePut_cache (e : ListEntry) (s : State) : (cachePut e s).app.cache.length ≤ 2000 ∧ e ∈ (cachePut e s).app.cache :=
  ⟨List.length_take_le _ _, List.mem_cons_self⟩

/-! ### The statement -/

/-- Settles O50: each clause is the lemma of its command or row, or of a step of R547. -/
theorem authorisationAnswers : Obligations.AuthorisationAnswers := by
  unfold Obligations.AuthorisationAnswers
  exact ⟨fun s mb b h => ⟨exec_authIdentitySubmit_of_retired h, exec_authIdentitySubmit_of_bad h, exec_authIdentitySubmit_of_host h,
      exec_authIdentitySubmit_of_asked h⟩,
    fun s o kind id ev e src r hentry hresult => ⟨authorise_of_refused o kind ev hentry hresult, authorise_of_accepted o kind ev hentry hresult⟩,
    fun s o kind id ev hentry => ⟨authorise_of_asked o kind ev hentry, authorise_of_offline o kind ev hentry⟩,
    fun s id r x hconn hruns hmine => ⟨exec_authorizeResponse_of_late hconn hruns hmine r x,
      fun w hsome => (exec_authorizeResponse_of_waiting hconn hruns hmine r x hsome).trans (by cases r <;> rfl)⟩,
    fun s hruns => ⟨fun id w => exec_authOfflineTimeout_of_late hruns, fun id => exec_authOfflineTimeout_of_early hruns,
      exec_identityLapse_of_runs hruns, fun l => exec_readerPoll_of_early, fun hport hdue => ⟨exec_readerPoll_of_none hruns hport hdue,
        fun b => exec_readerPoll_of_noCard hruns hport hdue, fun b uid => exec_readerPoll_of_sameCard hruns hport hdue⟩⟩,
    cachePut_cache⟩

end Sys2Proof.Machine
end

section
/-! SUPPORT. Meter values, records, transaction answers and solar following (15 R543, R544, R548, R554 to R557; 07 Table 7.16): what each row
does while the application runs, and the proof of MessagesAndSolar. -/

namespace Sys2Proof.Machine

section
variable {s : State}

/-! ### Intervals (R543, R554, R555) -/

theorem intervalOver_of_early {l : Option Life} {x : Life} {n : Nat} (hl : l = some x) (hearly : (s.time.life - x).toNat < n) :
    intervalOver s l n = false := by
  rw [hl, intervalOver, passedSince_some, decide_eq_false (Nat.not_le.mpr hearly)]
  rfl

theorem intervalOver_of_passed {l : Option Life} {n : Nat} (h : ∀ x, l = some x → n ≤ (s.time.life - x).toNat) :
    intervalOver s l n = true := by
  cases l with
  | none => rfl
  | some x =>
    rw [intervalOver, passedSince_some, decide_eq_true (h x rfl)]
    rfl

theorem passedSince_of_some {l : Option Life} {x : Life} {n : Nat} (hl : l = some x) (hpassed : n ≤ (s.time.life - x).toNat) :
    passedSince s l n = true := by
  rw [hl, passedSince_some, decide_eq_true hpassed]

/-! ### SOLAR_FOLLOW_SET (07 Table 7.16) -/

section
variable {mb : Mailbox} {b : Bytes}

/-- An outlet or a mode that is none, or in mode 2 a minimum below the outlet's least or above its limit. -/
abbrev FollowBad (b : Bytes) (u : State) : Prop :=
  1 < rd b 0 1 ∨ 2 < rd b 1 1 ∨ (rd b 1 1 = 2 ∧ (rdI32 b 4 < (if isDc u (outletOfNum (rd b 0 1)) then 1000 else 6000) ∨
    (limitMa u (outletOfNum (rd b 0 1)) false : Int) < rdI32 b 4))

/-- Both checks of the command. -/
def followRefused (b : Bytes) (u : State) : Bool :=
  (decide (1 < rd b 0 1) || decide (2 < rd b 1 1)) ||
    (rd b 1 1 == 2 && (decide (rdI32 b 4 < (if isDc u (outletOfNum (rd b 0 1)) then 1000 else 6000)) ||
      decide ((limitMa u (outletOfNum (rd b 0 1)) false : Int) < rdI32 b 4)))

theorem followRefused_iff {u : State} : followRefused b u = true ↔ FollowBad b u := by
  simp only [followRefused, Bool.or_eq_true, Bool.and_eq_true, decide_eq_true_eq, beq_iff_eq, or_assoc]

/-- The mode and the minimum as the command gives them. -/
def followSet (b : Bytes) (u : State) : State := modSolar (outletOfNum (rd b 0 1)) (fun x =>
  { x with mode := rd b 1 1, minMa := (rdI32 b 4).toNat, below := none, above := none, paused := false }) u

variable (h : serves .solarFollowSet mb b s)
include h

theorem exec_solarFollowSet_served : exec (.solarFollowSet mb) s = .next (Reply.apply mb
    (guards [(followRefused b (takeUp mb s), .argRange)] (takeUp mb s) (ok [] (followSet b (takeUp mb s))))) := by
  rw [followRefused, ← guards_same]
  exact congrArg Host.Outcome.next (runCommand_served _ rfl h)

theorem exec_solarFollowSet_of_bad (hbad : FollowBad b (takeUp mb s)) :
    exec (.solarFollowSet mb) s = .next (complete mb .argRange [] (takeUp mb s)) := by
  rw [exec_solarFollowSet_served h, followRefused_iff.mpr hbad, guards_cons_true]
  rfl

theorem exec_solarFollowSet_of_good (hgood : ¬ FollowBad b (takeUp mb s)) :
    exec (.solarFollowSet mb) s = .next (complete mb .ok [] (followSet b (takeUp mb s))) := by
  rw [exec_solarFollowSet_served h, Bool.eq_false_iff.mpr (followRefused_iff.not.mpr hgood), guards_cons_false]
  rfl

end

/-! ### Meter values, records and transaction answers (R543, R544, R548) -/

/-- AO32 cycles since the session's start or its last meter values. -/
abbrev sinceMeter (s : State) (o : Outlet) : Nat :=
  (s.time.life - (if (s.veh.out.get o).startLife.toNat ≤ (s.svc.meterAt.get o).toNat then s.svc.meterAt.get o
    else (s.veh.out.get o).startLife)).toNat

theorem metersDue_of_passed {o : Outlet} (hkey : cfgNat s.cfg s.fab (.gen .meterIntervalS) ≠ 0)
    (hpassed : cfgNat s.cfg s.fab (.gen .meterIntervalS) * 32768 ≤ sinceMeter s o) : metersDue s o = true := by
  rw [metersDue, bne_iff_ne.mpr hkey, passedSince_some, secs, decide_eq_true hpassed, Bool.and_self]

theorem metersDue_of_early {o : Outlet} (h : cfgNat s.cfg s.fab (.gen .meterIntervalS) = 0 ∨
    sinceMeter s o < cfgNat s.cfg s.fab (.gen .meterIntervalS) * 32768) : metersDue s o = false := by
  rw [metersDue, passedSince_some, secs]
  rcases h with hkey | hearly
  · rw [hkey]
    rfl
  · rw [decide_eq_false (Nat.not_le.mpr hearly), Bool.and_false]

theorem exec_meterValuesSend_of_early {o : Outlet} (hdue : metersDue s o = false) : exec (.meterValuesSend o) s = .next s :=
  next_ifDo_of_false (by rw [hdue, Bool.and_false]) _ _

section
variable (hruns : appRuns s = true)
include hruns

theorem exec_meterValuesSend_of_due {o : Outlet} (hbilled : (s.veh.out.get o).billed = true) (hopen : sessionOpen s o = true)
    (hdue : metersDue s o = true) : exec (.meterValuesSend o) s = .next (putMsg
      { kind := if ocppVersion s = some 1 then .txUpdate else .meter
        outlet := some o, nums := (s.veh.out.get o).id.toNat :: measurands s o }
      { s with svc := { s.svc with meterAt := s.svc.meterAt.modify o (fun _ => s.time.life) } }) :=
  next_ifDo_of_true (by rw [hruns, hbilled, hopen, hdue]; rfl) _ _

section
variable (hconn : s.svc.connected = true)
include hconn

theorem exec_recordDelivery_of_waiting {n : Nat} {m : OpMsg} (hfind : s.svc.sent.find? (fun m => msgRecord m == some (n : Int)) = some m) :
    exec (.recordDelivery n) s = .next { s with svc := { s.svc with last := some m } } := by
  refine (next_fromOperator hruns hconn _).trans ?_
  simp only [hfind]
  rfl

theorem exec_recordDelivery_of_none {n : Nat} (hfind : s.svc.sent.find? (fun m => msgRecord m == some (n : Int)) = none) :
    exec (.recordDelivery n) s = .next (flush s) := by
  refine (next_fromOperator hruns hconn _).trans ?_
  simp only [hfind]

theorem exec_transactionResponse_of_record (n : Nat) (e : ListEntry) : exec (.transactionResponse (some n) (some e)) s =
    .next (cachePut e { s with svc := { s.svc with sent := s.svc.sent.filter (fun m => msgRecord m != some (n : Int)) } }) :=
  next_fromOperator hruns hconn _

theorem exec_transactionResponse_of_start : exec (.transactionResponse none none) s = .next (dropSent (fun m => m.kind == .txStart) s) :=
  next_fromOperator hruns hconn _

end

/-! ### Solar following (R554 to R556) -/

theorem exec_solarProductionTick_of_second (h : ∀ l, s.svc.producedAt = some l → 32768 ≤ (s.time.life - l).toNat) :
    exec .solarProductionTick s = .next { s with svc := { s.svc with
      producedAt := some s.time.life, production := (production s :: s.svc.production).take 60
      surplus := surplusOf s ((production s :: s.svc.production).take 60) } } :=
  next_ifDo_of_true (by rw [hruns, intervalOver_of_passed (n := secs 1) h, Bool.and_self]) _ _

theorem exec_solarUpdate_of_due
    (h : ∀ l, s.svc.solarAt = some l → cfgNat s.cfg s.fab (.gen .solarUpdateS) * 32768 ≤ (s.time.life - l).toNat) :
    exec .solarUpdate s = .next (followSun .b (followSun .a { s with svc := { s.svc with solarAt := some s.time.life } })) :=
  next_ifDo_of_true (by rw [hruns, secs, intervalOver_of_passed h, Bool.and_self]) _ _

section
variable {o : Outlet} {l : Life} (hmode : (s.svc.solar.get o).mode = 1) (hfollows : followsSun s o = true)
include hmode hfollows

theorem exec_solarStopTimer_of_passed (hpaused : (s.svc.solar.get o).paused = false) (hbelow : (s.svc.solar.get o).below = some l)
    (hpassed : cfgNat s.cfg s.fab (.gen .solarStopS) * 32768 ≤ (s.time.life - l).toNat) : exec (.solarStopTimer o) s =
      .next (setTarget o 0 none (modSolar o (fun x => { x with paused := true, below := none, above := none }) s)) :=
  next_ifDo_of_true (by rw [hruns, hmode, hpaused, hfollows, secs, passedSince_of_some hbelow hpassed]; rfl) _ _

theorem exec_solarStartTimer_of_passed (hpaused : (s.svc.solar.get o).paused = true) (habove : (s.svc.solar.get o).above = some l)
    (hpassed : cfgNat s.cfg s.fab (.gen .solarStartS) * 32768 ≤ (s.time.life - l).toNat) : exec (.solarStartTimer o) s =
      .next (solarTarget o (s.svc.solar.get o).share 0 (modSolar o (fun x => { x with paused := false, above := none, below := none }) s)) :=
  next_ifDo_of_true (by rw [hruns, hmode, hpaused, hfollows, secs, passedSince_of_some habove hpassed]; rfl) _ _

end

end

theorem exec_solarUpdate_of_early {l : Life} (hlast : s.svc.solarAt = some l)
    (hearly : (s.time.life - l).toNat < cfgNat s.cfg s.fab (.gen .solarUpdateS) * 32768) : exec .solarUpdate s = .next s :=
  next_ifDo_of_false (by rw [secs, intervalOver_of_early hlast hearly, Bool.and_false]) _ _

theorem exec_solarTimers_of_otherMode {o : Outlet} (hmode : (s.svc.solar.get o).mode ≠ 1) :
    exec (.solarStopTimer o) s = .next s ∧ exec (.solarStartTimer o) s = .next s := by
  constructor <;>
  · refine next_ifDo_of_false ?_ _ _
    rw [beq_false_of_ne hmode]
    simp only [Bool.and_false, Bool.false_and]

/-! ### Shares (R555, R557) -/

section
variable {o : Outlet}

theorem shareOf_of_none (h : followsSun s o = false) : shareOf s o = 0 := if_pos (by rw [h]; rfl)

section
variable (h : followsSun s o = true)
include h

theorem shareOf_of_follows : shareOf s o =
    if !followsSun s o.other then s.svc.surplus else s.svc.surplus - min (s.svc.surplus / 2) (usable s o.other) :=
  if_neg (by rw [h]; exact Bool.false_ne_true)

theorem shareOf_of_alone (hother : followsSun s o.other = false) : shareOf s o = s.svc.surplus := by
  rw [shareOf_of_follows h, hother]
  rfl

theorem shareOf_of_both (hother : followsSun s o.other = true) :
    shareOf s o = s.svc.surplus - min (s.svc.surplus / 2) (usable s o.other) := by
  rw [shareOf_of_follows h, hother]
  rfl

theorem followSun_of_freeTariff (hfree : freeTariff s = true) : followSun o s = setTarget o (limitMa s o false : Nat) none
    (modSolar o (fun x => { x with share := shareOf s o, below := none, above := none, paused := false }) s) := by
  rw [followSun, h, hfree]
  cases o <;> rfl

end

end

end

/-! ### The statement -/

/-- Settles O52: each clause is the lemma of its command or row, or of a share. -/
theorem messagesAndSolar : Obligations.MessagesAndSolar := by
  unfold Obligations.MessagesAndSolar
  exact ⟨fun s mb b h => ⟨exec_solarFollowSet_of_bad h, exec_solarFollowSet_of_good h⟩,
    fun s hruns => ⟨fun o hbilled hopen => ⟨fun hkey hpassed => exec_meterValuesSend_of_due hruns hbilled hopen (metersDue_of_passed hkey hpassed),
        fun hearly => exec_meterValuesSend_of_early (metersDue_of_early hearly)⟩,
      fun hconn n => ⟨fun m => exec_recordDelivery_of_waiting hruns hconn, exec_recordDelivery_of_none hruns hconn,
        exec_transactionResponse_of_record hruns hconn n, exec_transactionResponse_of_start hruns hconn⟩,
      exec_solarProductionTick_of_second hruns, exec_solarUpdate_of_due hruns, fun l => exec_solarUpdate_of_early,
      fun o l hmode hfollows => ⟨exec_solarStopTimer_of_passed hruns hmode hfollows, exec_solarStartTimer_of_passed hruns hmode hfollows⟩,
      fun o => exec_solarTimers_of_otherMode⟩,
    fun s o => ⟨shareOf_of_none, shareOf_of_alone, shareOf_of_both⟩, fun o s => followSun_of_freeTariff⟩

end Sys2Proof.Machine
end

section
/-! SUPPORT. Rectangles of the panel (16 R566, R568, R570, R588): the pixels of a rectangle in their order, what a row of writes leaves in a
plane, the checks of both commands, and the proof of DisplayRectangles. -/

namespace Sys2Proof.Machine

/-! ### Pixels in their order (R568) -/

theorem rectPixels_succ (x y w h : Nat) :
    rectPixels x y w (h + 1) = rectPixels x y w h ++ (List.range w).map (fun i => pixelAt (x + i) (y + h)) := by
  rw [rectPixels, List.range_succ, List.flatMap_append, List.flatMap_singleton]
  rfl

/-- The pixel of a rectangle under its number, row by row. -/
def rectPixel (x y w k : Nat) : Nat := pixelAt (x + k % w) (y + k / w)

theorem rectPixel_of_place {x y w i : Nat} (hi : i < w) (j : Nat) : rectPixel x y w (j * w + i) = pixelAt (x + i) (y + j) := by
  rw [rectPixel, Nat.mul_add_mod_of_lt hi, Nat.add_comm (j * w), Nat.add_mul_div_right _ _ (by omega), Nat.div_eq_of_lt hi, Nat.zero_add]

theorem rectPixels_eq (x y w h : Nat) : rectPixels x y w h = (List.range (h * w)).map (rectPixel x y w) := by
  induction h with
  | zero => rw [Nat.zero_mul]; rfl
  | succ h ih =>
    rw [rectPixels_succ, ih, Nat.succ_mul, List.range_add, List.map_append, List.map_map]
    exact congrArg _ (List.map_congr_left fun i hi => (rectPixel_of_place (List.mem_range.mp hi) h).symm)

theorem pixelAt_inj {p p' q q' : Nat} (hp : p < 960) (hp' : p' < 960) (h : pixelAt p q = pixelAt p' q') : p = p' ∧ q = q' := by
  unfold pixelAt at h
  omega

theorem rectPixel_inj {x y w j k : Nat} (hw : 0 < w) (hwide : x + w ≤ 960) (h : rectPixel x y w j = rectPixel x y w k) : j = k := by
  have hj := Nat.mod_lt j hw
  have hk := Nat.mod_lt k hw
  obtain ⟨hcol, hrow⟩ := pixelAt_inj (by omega) (by omega) h
  rw [← Nat.div_add_mod j w, ← Nat.div_add_mod k w, Nat.add_left_cancel hcol, Nat.add_left_cancel hrow]

/-- A pixel to a side of a rectangle, above it or below it is none of its pixels. -/
theorem rectPixel_ne {x y w h p q k : Nat} (hk : k < h * w) (hwide : x + w ≤ 960) (hp : p < 960)
    (hout : p < x ∨ x + w ≤ p ∨ q < y ∨ y + h ≤ q) : rectPixel x y w k ≠ pixelAt p q := by
  intro he
  have hw : 0 < w := Nat.pos_of_ne_zero fun h0 => by simp [h0] at hk
  have hcol := Nat.mod_lt k hw
  have hrow : k / w < h := Nat.div_lt_of_lt_mul (by rwa [Nat.mul_comm])
  obtain ⟨hx, hy⟩ := pixelAt_inj (by omega) hp he
  subst hx hy
  rcases hout with hleft | hright | habove | hbelow
  · exact absurd hleft (Nat.not_lt.mpr (Nat.le_add_right _ _))
  · exact absurd hcol (Nat.not_lt.mpr (Nat.le_of_add_le_add_left hright))
  · exact absurd habove (Nat.not_lt.mpr (Nat.le_add_right _ _))
  · exact absurd hrow (Nat.not_lt.mpr (Nat.le_of_add_le_add_left hbelow))

/-! ### A row of writes -/

section
variable (addr : Nat → Nat) (val : Nat → Byte) {m : List Host.Cell}

/-- The first `n` values, each at its address. -/
def Memory.writeAll (n : Nat) (m : List Host.Cell) : List Host.Cell :=
  (List.range n).foldl (fun m k => Memory.write m (addr k) (val k)) m

theorem Memory.writeAll_succ (n : Nat) :
    Memory.writeAll addr val (n + 1) m = Memory.write (Memory.writeAll addr val n m) (addr n) (val n) := by
  rw [Memory.writeAll, List.range_succ, List.foldl_concat]
  rfl

variable (wf : Memory.wf m = true)
include wf

theorem Memory.wf_writeAll (n : Nat) : Memory.wf (Memory.writeAll addr val n m) = true := by
  induction n with
  | zero => exact wf
  | succ n ih =>
    rw [Memory.writeAll_succ]
    exact Memory.wf_write _ _ ih

theorem Memory.read_writeAll_other {n a : Nat} (h : ∀ k < n, addr k ≠ a) :
    Memory.read (Memory.writeAll addr val n m) a = Memory.read m a := by
  induction n with
  | zero => rfl
  | succ n ih =>
    rw [Memory.writeAll_succ, Memory.read_write (Memory.wf_writeAll addr val wf n), if_neg (h n (Nat.lt_succ_self n)).symm]
    exact ih fun k hk => h k (Nat.lt_succ_of_lt hk)

theorem Memory.read_writeAll_same {n k : Nat} (hinj : ∀ j k, addr j = addr k → j = k) (hk : k < n) :
    Memory.read (Memory.writeAll addr val n m) (addr k) = val k := by
  induction n with
  | zero => omega
  | succ n ih =>
    rw [Memory.writeAll_succ, Memory.read_write (Memory.wf_writeAll addr val wf n)]
    by_cases hlast : k = n
    · rw [if_pos (congrArg addr hlast), hlast]
    · rw [if_neg fun he => hlast (hinj k n he)]
      exact ih (by omega)

end

theorem zipIdx_map_range {α : Type} (f : Nat → α) (n : Nat) :
    ((List.range n).map f).zipIdx = (List.range n).map (fun k => (f k, k)) :=
  List.ext_getElem (by simp) (by simp)

/-- The target plane after a region write. -/
theorem regionPlane_eq (x y w h : Nat) (val : Nat → Byte) (m : List Host.Cell) :
    (rectPixels x y w h).zipIdx.foldl (fun m p => Memory.write m p.1 (val p.2)) m = Memory.writeAll (rectPixel x y w) val (h * w) m := by
  rw [rectPixels_eq, zipIdx_map_range, List.foldl_map]
  rfl

section
variable {s : State} {mb : Mailbox} {b : Bytes} {x y w h : Nat}

/-! ### The checks of a rectangle (R566, R588) -/

/-- A rectangle without pixels, or one that reaches beyond the panel. -/
def rectBeyond (s : State) (x y w h : Nat) : Bool :=
  w == 0 || h == 0 || decide (s.fab.disp.width < x + w) || decide (s.fab.disp.height < y + h)

theorem rectBeyond_of_beyond (hbeyond : s.fab.disp.width < x + w ∨ s.fab.disp.height < y + h) : rectBeyond s x y w h = true := by
  rcases hbeyond with hx | hy
  · rw [rectBeyond, decide_eq_true hx, Bool.or_true, Bool.true_or]
  · rw [rectBeyond, decide_eq_true hy, Bool.or_true]

theorem rectBeyond_of_within (hw : 0 < w) (hh : 0 < h) (hx : x + w ≤ s.fab.disp.width) (hy : y + h ≤ s.fab.disp.height) :
    rectBeyond s x y w h = false := by
  rw [rectBeyond, beq_false_of_ne hw.ne', beq_false_of_ne hh.ne', decide_eq_false (Nat.not_lt.mpr hx), decide_eq_false (Nat.not_lt.mpr hy)]
  rfl

theorem rectFails_eq (s : State) (x y w h : Nat) :
    rectFails s x y w h = [(rectBeyond s x y w h, .argRange), (decide (legalTop s.fab < y + h), .legalArea)] := rfl

/-! ### DISPLAY_REGION_WRITE -/

/-- A plane with a region's pixels written; the state with them in the target plane. -/
def regionPlane (b : Bytes) (m : List Host.Cell) : List Host.Cell :=
  Memory.writeAll (rectPixel (rd b 0 2) (rd b 2 2) (rd b 4 2)) (nibble (b.drop 12)) (rd b 6 2 * rd b 4 2) m
def regionWritten (b : Bytes) (u : State) : State := { u with disp := { u.disp with target := regionPlane b u.disp.target } }

section
variable (hs : serves .displayRegionWrite mb b s)
include hs

theorem exec_displayRegionWrite_served : exec (.displayRegionWrite mb) s = .next (Reply.apply mb
    (guards [(decide (1000 < rd b 4 2 * rd b 6 2) || rectBeyond (takeUp mb s) (rd b 0 2) (rd b 2 2) (rd b 4 2) (rd b 6 2), .argRange),
      (decide (legalTop (takeUp mb s).fab < rd b 2 2 + rd b 6 2), .legalArea)] (takeUp mb s) (ok [] (regionWritten b (takeUp mb s))))) := by
  rw [← guards_same, regionWritten, regionPlane, ← regionPlane_eq]
  exact congrArg Host.Outcome.next (runCommand_served _ rfl hs)

theorem exec_displayRegionWrite_of_beyond
    (hbeyond : (takeUp mb s).fab.disp.width < rd b 0 2 + rd b 4 2 ∨ (takeUp mb s).fab.disp.height < rd b 2 2 + rd b 6 2) :
    exec (.displayRegionWrite mb) s = .next (complete mb .argRange [] (takeUp mb s)) := by
  rw [exec_displayRegionWrite_served hs, rectBeyond_of_beyond hbeyond, Bool.or_true, guards_cons_true]
  rfl

section
variable (hw : 0 < rd b 4 2) (hh : 0 < rd b 6 2) (hsize : rd b 4 2 * rd b 6 2 ≤ 1000)
  (hx : rd b 0 2 + rd b 4 2 ≤ (takeUp mb s).fab.disp.width) (hy : rd b 2 2 + rd b 6 2 ≤ (takeUp mb s).fab.disp.height)
include hw hh hsize hx hy

theorem exec_displayRegionWrite_of_within : exec (.displayRegionWrite mb) s = .next (Reply.apply mb
    (guards [(decide (legalTop (takeUp mb s).fab < rd b 2 2 + rd b 6 2), .legalArea)] (takeUp mb s) (ok [] (regionWritten b (takeUp mb s))))) := by
  rw [exec_displayRegionWrite_served hs, rectBeyond_of_within hw hh hx hy, decide_eq_false (Nat.not_lt.mpr hsize), Bool.or_false,
    guards_cons_false]

theorem exec_displayRegionWrite_of_legal (hlegal : legalTop (takeUp mb s).fab < rd b 2 2 + rd b 6 2) :
    exec (.displayRegionWrite mb) s = .next (complete mb .legalArea [] (takeUp mb s)) := by
  rw [exec_displayRegionWrite_of_within hs hw hh hsize hx hy, decide_eq_true hlegal, guards_cons_true]
  rfl

theorem exec_displayRegionWrite_of_application (hfree : rd b 2 2 + rd b 6 2 ≤ legalTop (takeUp mb s).fab) :
    exec (.displayRegionWrite mb) s = .next (complete mb .ok [] (regionWritten b (takeUp mb s))) := by
  rw [exec_displayRegionWrite_of_within hs hw hh hsize hx hy, decide_eq_false (Nat.not_lt.mpr hfree), guards_cons_false, guards_nil]
  rfl

end

end

/-! ### DISPLAY_UPDATE -/

/-- Some update waits or runs in the rectangle. -/
def rectBusy (s : State) (x y w h : Nat) : Bool := s.disp.slots.toList.any (fun u => (u.map (overlaps x y w h)).getD false)

theorem rectBusy_of_apart (hapart : ∀ (i : Fin 8) (v : DispUpdate), s.disp.slots[i] = some v → overlaps x y w h v = false) :
    rectBusy s x y w h = false := by
  rw [rectBusy, List.any_eq_false]
  intro u hu
  obtain ⟨i, hi, rfl⟩ := List.mem_iff_getElem.mp hu
  rw [Vector.getElem_toList, Bool.not_eq_true]
  have hlen : i < 8 := by simpa using hi
  cases hv : s.disp.slots[i] with
  | none => rfl
  | some v => exact hapart ⟨i, hlen⟩ v hv

/-- The slots of the application. -/
theorem mem_applicationSlots (i : Fin 8) : i ∈ (List.finRange 8).take 7 ↔ i.val < 7 := by
  revert i
  decide

theorem freeUpdate_of_taken (htaken : ∀ i : Fin 8, i.val < 7 → s.disp.slots[i] ≠ none) : freeUpdate s = none := by
  rw [freeUpdate, List.find?_eq_none]
  intro i hi
  rw [Option.isNone_iff_eq_none]
  exact htaken i ((mem_applicationSlots i).mp hi)

theorem freeUpdate_of_first {i : Fin 8} (hi : i.val < 7) (hfree : s.disp.slots[i] = none)
    (hfirst : ∀ j : Fin 8, j.val < i.val → s.disp.slots[j] ≠ none) : freeUpdate s = some i := by
  rw [freeUpdate, List.find?_eq_some_iff_getElem]
  refine ⟨Option.isNone_iff_eq_none.mpr hfree, i, by simpa using hi, by simp, fun j hj => ?_⟩
  rw [Bool.not_eq_true', Option.isNone_eq_false_iff, Option.isSome_iff_ne_none, updateIn]
  simpa using hfirst ⟨j, by omega⟩ hj

/-- The update of the command; the reply with a slot, or none, for it. -/
def updateOf (b : Bytes) : DispUpdate :=
  { x := rd b 0 2, y := rd b 2 2, w := rd b 4 2, h := rd b 6 2, ident := BitVec.ofNat 16 (rd b 8 2), fast := rd b 10 1 == 1 }
def placeUpdate (b : Bytes) (u : State) : Reply :=
  match freeUpdate u with
  | none => refuse .busy u
  | some i => ok [] (setUpdate i (some (updateOf b)) u)

variable (hs : serves .displayUpdate mb b s) (hdie : dieGood (takeUp mb s) = true)
include hs hdie

theorem exec_displayUpdate_served : exec (.displayUpdate mb) s = .next (Reply.apply mb
    (guards [(rectBeyond (takeUp mb s) (rd b 0 2) (rd b 2 2) (rd b 4 2) (rd b 6 2), .argRange), (decide (1 < rd b 10 1), .argRange),
      (decide (legalTop (takeUp mb s).fab < rd b 2 2 + rd b 6 2), .legalArea),
      (rectBusy (takeUp mb s) (rd b 0 2) (rd b 2 2) (rd b 4 2) (rd b 6 2), .displayBusy)] (takeUp mb s) (placeUpdate b (takeUp mb s)))) := by
  refine (congrArg Host.Outcome.next (runCommand_served _ rfl hs)).trans ?_
  rw [hdie]
  rfl

theorem exec_displayUpdate_of_beyond
    (hbeyond : (takeUp mb s).fab.disp.width < rd b 0 2 + rd b 4 2 ∨ (takeUp mb s).fab.disp.height < rd b 2 2 + rd b 6 2) :
    exec (.displayUpdate mb) s = .next (complete mb .argRange [] (takeUp mb s)) := by
  rw [exec_displayUpdate_served hs hdie, rectBeyond_of_beyond hbeyond, guards_cons_true]
  rfl

variable (hw : 0 < rd b 4 2) (hh : 0 < rd b 6 2) (hmode : rd b 10 1 ≤ 1)
  (hx : rd b 0 2 + rd b 4 2 ≤ (takeUp mb s).fab.disp.width) (hy : rd b 2 2 + rd b 6 2 ≤ (takeUp mb s).fab.disp.height)
include hw hh hmode hx hy

theorem exec_displayUpdate_of_within : exec (.displayUpdate mb) s = .next (Reply.apply mb
    (guards [(decide (legalTop (takeUp mb s).fab < rd b 2 2 + rd b 6 2), .legalArea),
      (rectBusy (takeUp mb s) (rd b 0 2) (rd b 2 2) (rd b 4 2) (rd b 6 2), .displayBusy)] (takeUp mb s) (placeUpdate b (takeUp mb s)))) := by
  rw [exec_displayUpdate_served hs hdie, rectBeyond_of_within hw hh hx hy, decide_eq_false (Nat.not_lt.mpr hmode), guards_cons_false,
    guards_cons_false]

theorem exec_displayUpdate_of_legal (hlegal : legalTop (takeUp mb s).fab < rd b 2 2 + rd b 6 2) :
    exec (.displayUpdate mb) s = .next (complete mb .legalArea [] (takeUp mb s)) := by
  rw [exec_displayUpdate_of_within hs hdie hw hh hmode hx hy, decide_eq_true hlegal, guards_cons_true]
  rfl

variable (hfree : rd b 2 2 + rd b 6 2 ≤ legalTop (takeUp mb s).fab)
  (hapart : ∀ (i : Fin 8) (v : DispUpdate), (takeUp mb s).disp.slots[i] = some v →
    overlaps (rd b 0 2) (rd b 2 2) (rd b 4 2) (rd b 6 2) v = false)
include hfree hapart

theorem exec_displayUpdate_of_application :
    exec (.displayUpdate mb) s = .next (Reply.apply mb (placeUpdate b (takeUp mb s))) := by
  rw [exec_displayUpdate_of_within hs hdie hw hh hmode hx hy, decide_eq_false (Nat.not_lt.mpr hfree), rectBusy_of_apart hapart,
    guards_cons_false, guards_cons_false, guards_nil]

theorem exec_displayUpdate_of_taken (htaken : ∀ i : Fin 8, i.val < 7 → (takeUp mb s).disp.slots[i] ≠ none) :
    exec (.displayUpdate mb) s = .next (complete mb .busy [] (takeUp mb s)) := by
  rw [exec_displayUpdate_of_application hs hdie hw hh hmode hx hy hfree hapart, placeUpdate, freeUpdate_of_taken htaken]
  rfl

theorem exec_displayUpdate_of_free {i : Fin 8} (hi : i.val < 7) (hnone : (takeUp mb s).disp.slots[i] = none)
    (hfirst : ∀ j : Fin 8, j.val < i.val → (takeUp mb s).disp.slots[j] ≠ none) :
    exec (.displayUpdate mb) s = .next (complete mb .ok [] (setUpdate i (some (updateOf b)) (takeUp mb s))) := by
  rw [exec_displayUpdate_of_application hs hdie hw hh hmode hx hy hfree hapart, placeUpdate, freeUpdate_of_first hi hnone hfirst]
  rfl

end

/-- Settles O53: the checks in their order, then the pixels of a rectangle at addresses of their own, and the first free slot. -/
theorem displayRectangles : Obligations.DisplayRectangles := by
  refine ⟨fun s mb b hs => ⟨exec_displayRegionWrite_of_beyond hs, fun hw hh hsize hx hy =>
      ⟨exec_displayRegionWrite_of_legal hs hw hh hsize hx hy, fun hfree hwide wf => ?_⟩⟩,
    fun s mb b hs hdie => ⟨exec_displayUpdate_of_beyond hs hdie, fun hw hh hmode hx hy =>
      ⟨exec_displayUpdate_of_legal hs hdie hw hh hmode hx hy, fun hfree hapart =>
        ⟨exec_displayUpdate_of_taken hs hdie hw hh hmode hx hy hfree hapart, fun i hi hnone hfirst =>
          exec_displayUpdate_of_free hs hdie hw hh hmode hx hy hfree hapart hi hnone hfirst⟩⟩⟩⟩
  have hcols := hx.trans hwide
  refine ⟨_, exec_displayRegionWrite_of_application hs hw hh hsize hx hy hfree, fun i j hi hj => ?_, fun p q hp hout => ?_,
    Memory.wf_writeAll _ _ wf _⟩
  · have hlast := calc
      j * rd b 4 2 + i < (j + 1) * rd b 4 2 := by rw [Nat.succ_mul]; omega
      _ ≤ rd b 6 2 * rd b 4 2 := Nat.mul_le_mul_right _ hj
    have hread := Memory.read_writeAll_same (rectPixel (rd b 0 2) (rd b 2 2) (rd b 4 2)) (nibble (b.drop 12)) wf
      (fun j k => rectPixel_inj hw hcols) hlast
    rwa [rectPixel_of_place hi j] at hread
  · exact Memory.read_writeAll_other _ _ wf fun k hk => rectPixel_ne hk hcols hp hout

end Sys2Proof.Machine
end

section
/-! SUPPORT. The display engine (16 R569 to R582): the start of updates, frames, the end of one, the legal update's page, the segment
strip, and the proof of DisplayEngine. -/

namespace Sys2Proof.Machine

/-! ### The start of an update (R570 to R573) -/

section
variable {s : State} {c : Int} {i : Fin 8} {u : DispUpdate} (hslot : s.disp.slots[i] = some u) (hwaits : u.started = false)
include hslot hwaits

theorem startUpdate_of_driven (hpx : (rectPixels u.x u.y u.w u.h).filterMap (pixelWave s u.fast c) ≠ []) :
    startUpdate c i s = { s with disp := { s.disp with slots := s.disp.slots.set i (some { u with
      started := true, pixels := (rectPixels u.x u.y u.w u.h).filterMap (pixelWave s u.fast c)
      longest := ((rectPixels u.x u.y u.w u.h).filterMap (pixelWave s u.fast c)).foldl (fun n p => max n p.codes.length) 0 }) } } := by
  simp only [startUpdate, updateIn, hslot, hwaits, List.isEmpty_eq_false_iff.mpr hpx]
  rfl

theorem startUpdate_of_null (hi : i.val < 7) (hpx : (rectPixels u.x u.y u.w u.h).filterMap (pixelWave s u.fast c) = []) :
    startUpdate c i s = raise .displayUpdateDone (u16 u.ident.toNat ++ [0, 0])
      { s with disp := { s.disp with slots := s.disp.slots.set i none, lastIdent := u.ident } } := by
  have happlication : i ≠ 7 := fun h => by simp [h] at hi
  simp only [startUpdate, updateIn, hslot, hwaits, hpx, updateDone, if_neg happlication, beq_false_of_ne happlication]
  rfl

end

theorem updateDone_time (i : Fin 8) (u : DispUpdate) (st : Status) (s : State) : (updateDone i u st s).time = s.time := by
  unfold updateDone
  split_ifs
  · rfl
  · rw [raise_frame]
    rfl

theorem startUpdate_time (c : Int) (i : Fin 8) (s : State) : (startUpdate c i s).time = s.time := by
  unfold startUpdate
  split
  · rfl
  · dsimp only
    split_ifs
    · rfl
    · cases i == 7 <;> exact updateDone_time _ _ _ _
    · rfl

theorem forEach_time {α : Type} {f : α → State → State} (hf : ∀ a t, (f a t).time = t.time) (l : List α) (s : State) :
    (forEach l f s).time = s.time := by
  induction l generalizing s with
  | nil => rfl
  | cons a l ih => exact (ih (f a s)).trans (hf a s)

/-! ### Frames (R572) -/

/-- The driven pixels of the updates in progress with their codes. -/
abbrev drivenCodes (s : State) : List (Nat × Nat) := s.disp.slots.toList.flatMap (fun u => (u.map frameCodes).getD [])

theorem scanOf_row {f : Fab} {l : List (Nat × Nat)} {y : Nat} {v : List Int} (h : (y, v) ∈ scanOf f l) :
    y ≤ f.disp.height ∧ (∃ p ∈ l, pixelY p.1 = y) ∧ v = (List.range f.disp.width).map (fun x =>
      ((l.find? (fun p => p.1 == pixelAt x y)).map (fun p => sourceMv f.disp p.2)).getD 0) := by
  obtain ⟨row, hrow, heq⟩ := List.mem_map.mp h
  obtain ⟨rfl, rfl⟩ := Prod.mk.inj heq
  obtain ⟨hrange, hany⟩ := List.mem_filter.mp hrow
  obtain ⟨p, hp, hy⟩ := List.any_eq_true.mp hany
  exact ⟨Nat.le_of_lt_succ (List.mem_range.mp hrange), ⟨p, hp, beq_iff_eq.mp hy⟩, rfl⟩

/-- A pixel of a selected row that no update drives receives 0 V. -/
theorem scanOf_undriven {f : Fab} {l : List (Nat × Nat)} {x y : Nat} {v : List Int} (h : (y, v) ∈ scanOf f l) (hx : x < f.disp.width)
    (hundriven : ∀ p ∈ l, p.1 ≠ pixelAt x y) : v.getD x 1 = 0 := by
  obtain ⟨-, -, rfl⟩ := scanOf_row h
  have hfind : l.find? (fun p => p.1 == pixelAt x y) = none :=
    List.find?_eq_none.mpr fun p hp => by simpa using hundriven p hp
  simp [List.getD, hx, hfind]

/-! ### The end of an update (R569, R576, R579) -/

theorem judgeDisplay_beside (s : State) :
    beside (judgeDisplay s) = beside { s with disp := { s.disp with verified := displayGood s } } := by
  unfold judgeDisplay
  dsimp only
  split_ifs with hsame
  · rw [hsame]
  · refine (ifDo_beside _ _ (forEach_beside (fun o t => stopSession_beside t o _ _) _ _)).trans ?_
    exact raise_beside (modDisp (fun d => { d with verified := displayGood s }) s) _ _

theorem updateDone_of_application {i : Fin 8} (hi : i ≠ 7) (u : DispUpdate) (st : Status) (s : State) :
    beside (updateDone i u st s) = beside { s with disp := { s.disp with lastIdent := u.ident } } := by
  rw [updateDone, if_neg hi]
  exact raise_beside _ _ _

theorem updateDone_of_legal (u : DispUpdate) (st : Status) (s : State) : updateDone 7 u st s = s := rfl

/-- The state as an update driven to its end leaves the planes, the tiles and its slot, before the end is reported. -/
def updateDriven (i : Fin 8) (u : DispUpdate) (s : State) : State :=
  s |> setUpdate i none
    |> modDisp (fun d => { d with
          current := u.pixels.foldl (fun m p => Memory.write m p.pixel (BitVec.ofNat 8 (p.new + 1))) d.current
          stress := addStress s.fab u d.stress
          startDone := d.startDone || i == 7 })
    |> (fun t => modDisp (fun d => { d with scan := if anyUpdate t then d.scan else [] }) t)
    |> modDispStore (fun x => { x with updates := x.updates + 1 })

/-- The legal update asked for while one ran follows it. -/
def legalFollows (i : Fin 8) (t : State) : State :=
  match t.disp.legalNext with
  | some full => if i = 7 then t |> modDisp (fun d => { d with legalNext := none }) |> placeLegal full else t
  | none => t

theorem legalFollows_of_application {i : Fin 8} (hi : i ≠ 7) (t : State) : legalFollows i t = t := by
  unfold legalFollows
  split
  · exact if_neg hi
  · rfl

/-- A legal update that follows leaves the planes, the tiles and the counters. -/
theorem legalFollows_kept (i : Fin 8) (t : State) : (legalFollows i t).dispStore = t.dispStore ∧
    (legalFollows i t).disp.stress = t.disp.stress ∧ (legalFollows i t).disp.current = t.disp.current := by
  unfold legalFollows
  split
  · split_ifs <;> exact ⟨rfl, rfl, rfl⟩
  · exact ⟨rfl, rfl, rfl⟩

/-- The state after an update's end. -/
def updateEnded (i : Fin 8) (u : DispUpdate) (s : State) : State :=
  judgeDisplay (legalFollows i (updateDone i u .ok (updateDriven i u s)))

section
variable {s : State} {i : Fin 8} {u : DispUpdate}

theorem updateDone_kept (s : State) : (updateDone i u .ok s).dispStore = s.dispStore ∧
    (updateDone i u .ok s).disp.stress = s.disp.stress ∧ (updateDone i u .ok s).disp.current = s.disp.current ∧
    (updateDone i u .ok s).disp.slots = s.disp.slots := by
  by_cases hi : i = 7
  · subst hi
    exact ⟨rfl, rfl, rfl, rfl⟩
  · have hdone := updateDone_of_application hi u .ok s
    rw [disp_of_beside hdone, dispStore_of_beside hdone]
    exact ⟨rfl, rfl, rfl, rfl⟩

theorem updateEnded_kept : (updateEnded i u s).dispStore.updates = s.dispStore.updates + 1 ∧
    (updateEnded i u s).disp.stress = addStress s.fab u s.disp.stress ∧
    (updateEnded i u s).disp.current = u.pixels.foldl (fun m p => Memory.write m p.pixel (BitVec.ofNat 8 (p.new + 1))) s.disp.current := by
  obtain ⟨hstore, hstress, hcurrent, -⟩ := updateDone_kept (i := i) (u := u) (updateDriven i u s)
  obtain ⟨hstore', hstress', hcurrent'⟩ := legalFollows_kept i (updateDone i u .ok (updateDriven i u s))
  have hjudge := judgeDisplay_beside (legalFollows i (updateDone i u .ok (updateDriven i u s)))
  rw [updateEnded, disp_of_beside hjudge, dispStore_of_beside hjudge]
  exact ⟨congrArg DispStore.updates (hstore'.trans hstore), hstress'.trans hstress, hcurrent'.trans hcurrent⟩

theorem updateEnded_slots (hi : i.val < 7) : (updateEnded i u s).disp.slots = s.disp.slots.set i none := by
  have happlication : i ≠ 7 := fun h => by simp [h] at hi
  rw [updateEnded, disp_of_beside (judgeDisplay_beside _), legalFollows_of_application happlication]
  exact (updateDone_kept _).2.2.2

theorem exec_displayUpdateEnd_of_none (hslot : s.disp.slots[i] = none) : exec (.displayUpdateEnd i) s = .next s := by
  change execDisplayUpdateEnd i s = _
  simp only [execDisplayUpdateEnd, updateIn, hslot]

variable (hslot : s.disp.slots[i] = some u)
include hslot

theorem exec_displayUpdateEnd_of_some : exec (.displayUpdateEnd i) s =
    .next (if !u.started || u.frame < u.longest then s else updateEnded i u s) := by
  change execDisplayUpdateEnd i s = _
  simp only [execDisplayUpdateEnd, updateIn, hslot]
  rfl

theorem exec_displayUpdateEnd_of_early (h : u.started = false ∨ u.frame < u.longest) : exec (.displayUpdateEnd i) s = .next s := by
  rw [exec_displayUpdateEnd_of_some hslot, if_pos]
  simpa using h

theorem exec_displayUpdateEnd_of_driven (hstarted : u.started = true) (hend : u.longest ≤ u.frame) :
    exec (.displayUpdateEnd i) s = .next (updateEnded i u s) := by
  rw [exec_displayUpdateEnd_of_some hslot, if_neg]
  simpa [hstarted] using hend

end

/-! ### The legal update (R579, R580) -/

section
variable {s : State}

theorem exec_legalUpdateRequest_of_early (hdue : legalDue s = false) : exec .legalUpdateRequest s = .next s :=
  next_ifDo_of_false (by rw [hdue, Bool.and_false]) _ _

section
variable (hruns : s.met.running = true) (hdue : legalDue s = true)
include hruns hdue

theorem exec_legalUpdateRequest_of_due : exec .legalUpdateRequest s = .next (requestLegal false (if anySession s || s.pwr.state != .run then 0
    else if legalCadence s then 1 - s.disp.legal.page else s.disp.legal.page) s) :=
  next_ifDo_of_true (by rw [hruns, hdue]; rfl) _ _

theorem exec_legalUpdateRequest_of_session (h : anySession s = true ∨ s.pwr.state ≠ .run) :
    exec .legalUpdateRequest s = .next (requestLegal false 0 s) := by
  rw [exec_legalUpdateRequest_of_due hruns hdue, if_pos]
  simpa using h

theorem exec_legalUpdateRequest_of_free (hfree : anySession s = false) (hrun : s.pwr.state = .run) : exec .legalUpdateRequest s =
    .next (requestLegal false (if legalCadence s then 1 - s.disp.legal.page else s.disp.legal.page) s) := by
  rw [exec_legalUpdateRequest_of_due hruns hdue, hfree, hrun]
  rfl

end

/-! ### SEGMENT_SET (R582) and the rows of a frame boundary -/

section
variable {mb : Mailbox} {b : Bytes} (h : serves .segmentSet mb b s)
include h

theorem exec_segmentSet_served : exec (.segmentSet mb) s = .next (Reply.apply mb
    (guards [(BitVec.ofNat 64 (rd b 8 8) &&& 0xFF != 0, .legalArea)] (takeUp mb s)
      (ok [] (putSegments (BitVec.ofNat 64 (rd b 8 8)) (BitVec.ofNat 64 (rd b 0 8)) (takeUp mb s))))) :=
  congrArg Host.Outcome.next (runCommand_served _ rfl h)

theorem exec_segmentSet_of_legal (hlegal : BitVec.ofNat 64 (rd b 8 8) &&& 0xFF ≠ 0) :
    exec (.segmentSet mb) s = .next (complete mb .legalArea [] (takeUp mb s)) := by
  rw [exec_segmentSet_served h, bne_iff_ne.mpr hlegal, guards_cons_true]
  rfl

theorem exec_segmentSet_of_free (hfree : BitVec.ofNat 64 (rd b 8 8) &&& 0xFF = 0) : exec (.segmentSet mb) s =
    .next (complete mb .ok [] (putSegments (BitVec.ofNat 64 (rd b 8 8)) (BitVec.ofNat 64 (rd b 0 8)) (takeUp mb s))) := by
  rw [exec_segmentSet_served h, hfree, bne_self_eq_false, guards_cons_false, guards_nil]
  rfl

end

section
variable (hdrives : dispDrives s = true)
include hdrives

theorem exec_displayUpdateStart_of_drives (t : Option Int) : exec (.displayUpdateStart t) s =
    let u := forEach (List.finRange 8) (startUpdate (bandTemp s t)) s
    .next (judgeDisplay { u with disp := { u.disp with
      deciC := t.orElse (fun _ => u.disp.deciC), deciCAt := if t.isSome then some u.time.life else u.disp.deciCAt } }) := by
  have htime := forEach_time (startUpdate_time (bandTemp s t)) (List.finRange 8) s
  change execDisplayUpdateStart t s = _
  rw [execDisplayUpdateStart, next_ifDo_of_true hdrives, ← htime]
  dsimp only
  generalize forEach (List.finRange 8) (startUpdate (bandTemp s t)) s = u
  rfl

theorem exec_displayFrame_of_drives : exec .displayFrame s = .next { s with disp := { s.disp with
    scan := scanOf s.fab (drivenCodes s ++ testCodes s (drivenCodes s))
    slots := s.disp.slots.map (fun u => u.map (fun x => if x.started && decide (x.frame < x.longest) then { x with frame := x.frame + 1 } else x)) } } := by
  refine (next_ifDo_of_true hdrives _ s).trans ?_
  rfl

end

theorem exec_frameBoundary_of_dark (hdark : dispDrives s = false) (t : Option Int) :
    exec (.displayUpdateStart t) s = .next s ∧ exec .displayFrame s = .next s :=
  ⟨next_ifDo_of_false hdark _ _, next_ifDo_of_false hdark _ _⟩

end

/-- Settles O54: an update's end reaches the display through its slot, planes and tiles alone, and the judgement after it changes no more
than the verification. -/
theorem displayEngine : Obligations.DisplayEngine := by
  refine ⟨fun s t hdrives => exec_displayUpdateStart_of_drives hdrives t, fun s t hdark => exec_frameBoundary_of_dark hdark t,
    fun s c i u hslot hi hwaits => ⟨startUpdate_of_null hslot hwaits hi, startUpdate_of_driven hslot hwaits⟩,
    fun s hdrives => exec_displayFrame_of_drives hdrives, fun f l y v h => ?_,
    fun s i => ⟨exec_displayUpdateEnd_of_none, fun u => exec_displayUpdateEnd_of_early, fun u hslot hstarted hend => ?_⟩,
    fun s hruns => ⟨exec_legalUpdateRequest_of_early, exec_legalUpdateRequest_of_session hruns, exec_legalUpdateRequest_of_free hruns⟩,
    fun s mb b h => ⟨exec_segmentSet_of_legal h, exec_segmentSet_of_free h⟩,
    fun s mb b h => congrArg Host.Outcome.next (runCommand_served _ rfl h)⟩
  · obtain ⟨hrow, hdriven, hlevels⟩ := scanOf_row h
    exact ⟨hrow, hdriven, by rw [hlevels]; simp, fun x => scanOf_undriven h⟩
  · obtain ⟨hcount, hstress, hcurrent⟩ := updateEnded_kept (i := i) (u := u) (s := s)
    exact ⟨_, exec_displayUpdateEnd_of_driven hslot hstarted hend, hcount, hstress, hcurrent, updateEnded_slots⟩

end Sys2Proof.Machine
end

section
/-! SUPPORT. A download by the host (19 R655 to R660; 07 Table 7.7): the checks of its commands, staged blocks and their confirmation, and the
proof of Downloads. -/

namespace Sys2Proof.Machine

section
variable {s : State}

/-! ### Banks, and what the operations of a download leave in update control -/

theorem bankOf_modBank (x : Bank) (f : BankMem → BankMem) (s : State) : bankOf (modBank x f s) x = f (bankOf s x) := by
  cases x <;> rfl

theorem modBank_header (x : Bank) (f : BankMem → BankMem) (s : State) : (modBank x f s).upd.header = s.upd.header := by
  cases x <;> rfl

theorem stageHeader_upd (s : State) : (stageHeader s).upd = s.upd := by
  unfold stageHeader
  cases !s.upd.confirmed.contains 0 <;> rfl

theorem confirmBlock_stage_of_last {n : Nat} (data : Bytes) (hall : ∀ k, k < blockCount s.upd.header → k = n ∨ k ∈ s.upd.confirmed) :
    (confirmBlock n data s).upd.stage = 2 := by
  refine if_pos ?_
  rw [modBank_header, List.all_eq_true]
  intro k hk
  rw [List.contains_iff_mem, List.mem_cons]
  exact hall k (List.mem_range.mp hk)

theorem bankOf_discardDownload (x : Bank) :
    bankOf (discardDownload s) x = bankOf (modBank s.upd.target (fun b => { b with verified := false }) s) x := by
  cases x <;> rfl

theorem bankOf_judgeBank_true (x : Bank) :
    bankOf (judgeBank true s) x = bankOf (modBank s.upd.target (fun b => { b with verified := true }) s) x := by
  cases x <;> rfl

theorem discardDownload_unverified (s : State) : (bankOf (discardDownload s) s.upd.target).verified = false := by
  rw [bankOf_discardDownload, bankOf_modBank]

theorem judgeBank_verified (s : State) : (bankOf (judgeBank true s) s.upd.target).verified = true := by
  rw [bankOf_judgeBank_true, bankOf_modBank]

theorem judgeBank_failed (s : State) : (judgeBank false s).upd.stage = 1 ∧ (judgeBank false s).upd.confirmed = [] := by
  rw [judgeBank, if_neg Bool.false_ne_true, stageHeader_upd]
  exact ⟨rfl, rfl⟩

/-! ### Staged blocks (R659) -/

theorem exec_stagedBlockCommit_of_whole {n : Nat} {x : Staged} {data : Bytes} (ok : Bool)
    (hstaged : s.run.staging.find? (fun x => x.block == n) = some x) (hwhole : stagedBytes s.upd.header x = some data) :
    exec (.stagedBlockCommit n ok) s =
      .next (ifDo (ok && s.upd.stage == 1 && decide (n < blockCount s.upd.header)) (confirmBlock n data) s) := by
  change execStagedBlockCommit n ok s = _
  simp only [execStagedBlockCommit, hstaged, hwhole]

theorem exec_stagedBlockCommit_of_right {n : Nat} {x : Staged} {data : Bytes}
    (hstaged : s.run.staging.find? (fun x => x.block == n) = some x) (hwhole : stagedBytes s.upd.header x = some data)
    (hstage : s.upd.stage = 1) (hn : n < blockCount s.upd.header) :
    exec (.stagedBlockCommit n true) s = .next (confirmBlock n data s) := by
  rw [exec_stagedBlockCommit_of_whole true hstaged hwhole, hstage, decide_eq_true hn]
  rfl

section
variable {mb : Mailbox} {b : Bytes}

/-! ### UPDATE_BEGIN (R656, R658) -/

/-- The reply to a header after the state's checks. -/
def beginReply (b : Bytes) (u : State) : Reply :=
  match imageFails u b with
  | some st => refuse st u
  | none => ok (u32 (blockCount b) ++ u32 (firstUnconfirmed (beginDownload .host b u).upd)) (beginDownload .host b u)

section
variable (h : serves .updateBegin mb b s)
include h

theorem exec_updateBegin_served : exec (.updateBegin mb) s = .next (Reply.apply mb
    (guards [(lifecycle (takeUp mb s) == 3, .notPermitted), ((takeUp mb s).upd.stage == 5, .state),
      ((takeUp mb s).upd.stage == 1 && (takeUp mb s).upd.holder == .operator, .busy)] (takeUp mb s) (beginReply b (takeUp mb s)))) :=
  congrArg Host.Outcome.next (runCommand_served _ rfl h)

theorem exec_updateBegin_of_retired (hretired : lifecycle (takeUp mb s) = 3) :
    exec (.updateBegin mb) s = .next (complete mb .notPermitted [] (takeUp mb s)) := by
  rw [exec_updateBegin_served h, hretired]
  rfl

variable (hlife : lifecycle (takeUp mb s) ≠ 3)
include hlife

theorem exec_updateBegin_of_trial (hstage : (takeUp mb s).upd.stage = 5) :
    exec (.updateBegin mb) s = .next (complete mb .state [] (takeUp mb s)) := by
  rw [exec_updateBegin_served h, beq_false_of_ne hlife, hstage]
  rfl

theorem exec_updateBegin_of_operator (hstage : (takeUp mb s).upd.stage = 1) (hholder : (takeUp mb s).upd.holder = .operator) :
    exec (.updateBegin mb) s = .next (complete mb .busy [] (takeUp mb s)) := by
  rw [exec_updateBegin_served h, beq_false_of_ne hlife, hstage, hholder]
  rfl

variable (hstage : (takeUp mb s).upd.stage ≠ 5) (hfree : (takeUp mb s).upd.stage ≠ 1 ∨ (takeUp mb s).upd.holder ≠ .operator)
include hstage hfree

theorem exec_updateBegin_of_free : exec (.updateBegin mb) s = .next (Reply.apply mb (beginReply b (takeUp mb s))) := by
  have hidle : ((takeUp mb s).upd.stage == 1 && (takeUp mb s).upd.holder == .operator) = false := by
    rcases hfree with hfree | hfree <;> rw [beq_false_of_ne hfree]
    · rfl
    · exact Bool.and_false _
  rw [exec_updateBegin_served h, beq_false_of_ne hlife, beq_false_of_ne hstage, hidle, guards_cons_false, guards_cons_false,
    guards_cons_false, guards_nil]

theorem exec_updateBegin_of_badHeader (st : Status) (hbad : imageFails (takeUp mb s) b = some st) :
    exec (.updateBegin mb) s = .next (complete mb st [] (takeUp mb s)) := by
  rw [exec_updateBegin_of_free h hlife hstage hfree, beginReply, hbad]
  rfl

theorem exec_updateBegin_of_goodHeader (hgood : imageFails (takeUp mb s) b = none) : exec (.updateBegin mb) s =
    .next (complete mb .ok (u32 (blockCount b) ++ u32 (firstUnconfirmed (beginDownload .host b (takeUp mb s)).upd))
      (beginDownload .host b (takeUp mb s))) := by
  rw [exec_updateBegin_of_free h hlife hstage hfree, beginReply, hgood]
  rfl

end

/-! ### UPDATE_BLOCK_WRITE (R659) -/

/-- The staging buffer after the data of a write; a confirmed block's data is left alone. -/
def stagedBy (b : Bytes) (u : State) : List Staged :=
  if u.upd.confirmed.contains (rd b 0 4) then u.run.staging else stage (rd b 0 4) (rd b 4 2) (b.drop 8) u.run.staging

/-- The reply to a write within the image. -/
def blockReply (b : Bytes) (u : State) : Reply :=
  if u.upd.confirmed.contains (rd b 0 4) then ok (blocksReply u) u
  else ok (blocksReply u) (modRun (fun r => { r with staging := stage (rd b 0 4) (rd b 4 2) (b.drop 8) r.staging }) u)

theorem blockReply_apply (mb : Mailbox) (b : Bytes) (u : State) : Reply.apply mb (blockReply b u) =
    complete mb .ok (blocksReply u) { u with run := { u.run with staging := stagedBy b u } } := by
  unfold blockReply stagedBy
  split_ifs <;> rfl

section
variable (h : serves .updateBlockWrite mb b s)
include h

theorem exec_updateBlockWrite_served : exec (.updateBlockWrite mb) s = .next (Reply.apply mb
    (guards [(lifecycle (takeUp mb s) == 3, .notPermitted), ((takeUp mb s).upd.stage == 0 || (takeUp mb s).upd.stage == 5, .state),
      (rd b 4 2 % 4 != 0, .argRange), ((takeUp mb s).upd.stage == 1 && (takeUp mb s).upd.holder == .operator, .busy),
      (decide (blockCount (takeUp mb s).upd.header ≤ rd b 0 4) ||
        decide (blockLen (takeUp mb s).upd.header (rd b 0 4) < rd b 4 2 + (b.drop 8).length), .updBlockRange)]
      (takeUp mb s) (blockReply b (takeUp mb s)))) :=
  congrArg Host.Outcome.next (runCommand_served _ rfl h)

theorem exec_updateBlockWrite_of_retired (hretired : lifecycle (takeUp mb s) = 3) :
    exec (.updateBlockWrite mb) s = .next (complete mb .notPermitted [] (takeUp mb s)) := by
  rw [exec_updateBlockWrite_served h, hretired]
  rfl

variable (hlife : lifecycle (takeUp mb s) ≠ 3)
include hlife

theorem exec_updateBlockWrite_of_idle (hstage : (takeUp mb s).upd.stage = 0 ∨ (takeUp mb s).upd.stage = 5) :
    exec (.updateBlockWrite mb) s = .next (complete mb .state [] (takeUp mb s)) := by
  rw [exec_updateBlockWrite_served h, beq_false_of_ne hlife]
  rcases hstage with hstage | hstage <;> rw [hstage] <;> rfl

variable (hbegun : (takeUp mb s).upd.stage ≠ 0) (hstage : (takeUp mb s).upd.stage ≠ 5)
include hbegun hstage

theorem exec_updateBlockWrite_of_offWord (hoff : rd b 4 2 % 4 ≠ 0) :
    exec (.updateBlockWrite mb) s = .next (complete mb .argRange [] (takeUp mb s)) := by
  rw [exec_updateBlockWrite_served h, beq_false_of_ne hlife, beq_false_of_ne hbegun, beq_false_of_ne hstage, bne_iff_ne.mpr hoff]
  rfl

variable (hword : rd b 4 2 % 4 = 0) (hholder : (takeUp mb s).upd.holder = .host)
include hword hholder

theorem exec_updateBlockWrite_of_word : exec (.updateBlockWrite mb) s = .next (Reply.apply mb
    (guards [(decide (blockCount (takeUp mb s).upd.header ≤ rd b 0 4) ||
      decide (blockLen (takeUp mb s).upd.header (rd b 0 4) < rd b 4 2 + (b.length - 8)), .updBlockRange)]
      (takeUp mb s) (blockReply b (takeUp mb s)))) := by
  rw [exec_updateBlockWrite_served h, beq_false_of_ne hlife, beq_false_of_ne hbegun, beq_false_of_ne hstage, hword, hholder,
    show (Downloader.host == .operator) = false from rfl, Bool.and_false, List.length_drop]
  rfl

theorem exec_updateBlockWrite_of_outside (hrange : blockCount (takeUp mb s).upd.header ≤ rd b 0 4 ∨
    blockLen (takeUp mb s).upd.header (rd b 0 4) < rd b 4 2 + (b.length - 8)) :
    exec (.updateBlockWrite mb) s = .next (complete mb .updBlockRange [] (takeUp mb s)) := by
  rw [exec_updateBlockWrite_of_word h hlife hbegun hstage hword hholder, (by simpa using hrange :
    (decide (blockCount (takeUp mb s).upd.header ≤ rd b 0 4) ||
      decide (blockLen (takeUp mb s).upd.header (rd b 0 4) < rd b 4 2 + (b.length - 8))) = true), guards_cons_true]
  rfl

theorem exec_updateBlockWrite_of_within (hn : rd b 0 4 < blockCount (takeUp mb s).upd.header)
    (hlen : rd b 4 2 + (b.length - 8) ≤ blockLen (takeUp mb s).upd.header (rd b 0 4)) : exec (.updateBlockWrite mb) s =
    .next (complete mb .ok (blocksReply (takeUp mb s))
      { takeUp mb s with run := { (takeUp mb s).run with staging := stagedBy b (takeUp mb s) } }) := by
  rw [exec_updateBlockWrite_of_word h hlife hbegun hstage hword hholder, decide_eq_false (Nat.not_le.mpr hn),
    decide_eq_false (Nat.not_lt.mpr hlen), Bool.or_false, guards_cons_false, guards_nil, blockReply_apply]

end

/-! ### UPDATE_VERIFY (R660) -/

/-- The target bank holds a good header and images of its digests. -/
def bankGood (u : State) : Bool := (imageFails u u.upd.header).isNone && digestsMatch (bankOf u u.upd.target)

section
variable (h : serves .updateVerify mb b s)
include h

theorem exec_updateVerify_served : exec (.updateVerify mb) s = .next (Reply.apply mb
    (guards [(lifecycle (takeUp mb s) == 3, .notPermitted), ((takeUp mb s).upd.stage == 5, .state),
      ((takeUp mb s).upd.stage == 0 || firstUnconfirmed (takeUp mb s).upd != blockCount (takeUp mb s).upd.header, .updIncomplete)] (takeUp mb s)
      (.done (if bankGood (takeUp mb s) then .ok else .updVerifyFailed) [] (judgeBank (bankGood (takeUp mb s)) (takeUp mb s))))) :=
  congrArg Host.Outcome.next (runCommand_served _ rfl h)

theorem exec_updateVerify_of_retired (hretired : lifecycle (takeUp mb s) = 3) :
    exec (.updateVerify mb) s = .next (complete mb .notPermitted [] (takeUp mb s)) := by
  rw [exec_updateVerify_served h, hretired]
  rfl

variable (hlife : lifecycle (takeUp mb s) ≠ 3)
include hlife

theorem exec_updateVerify_of_trial (hstage : (takeUp mb s).upd.stage = 5) :
    exec (.updateVerify mb) s = .next (complete mb .state [] (takeUp mb s)) := by
  rw [exec_updateVerify_served h, beq_false_of_ne hlife, hstage]
  rfl

theorem exec_updateVerify_of_idle (hstage : (takeUp mb s).upd.stage = 0) :
    exec (.updateVerify mb) s = .next (complete mb .updIncomplete [] (takeUp mb s)) := by
  rw [exec_updateVerify_served h, beq_false_of_ne hlife, hstage]
  rfl

variable (hstage : (takeUp mb s).upd.stage ≠ 5)
include hstage

theorem exec_updateVerify_of_missing (hmissing : firstUnconfirmed (takeUp mb s).upd ≠ blockCount (takeUp mb s).upd.header) :
    exec (.updateVerify mb) s = .next (complete mb .updIncomplete [] (takeUp mb s)) := by
  rw [exec_updateVerify_served h, beq_false_of_ne hlife, beq_false_of_ne hstage, bne_iff_ne.mpr hmissing, Bool.or_true]
  rfl

variable (hbegun : (takeUp mb s).upd.stage ≠ 0) (hwhole : firstUnconfirmed (takeUp mb s).upd = blockCount (takeUp mb s).upd.header)
include hbegun hwhole

theorem exec_updateVerify_of_whole : exec (.updateVerify mb) s = .next (complete mb
    (if bankGood (takeUp mb s) then .ok else .updVerifyFailed) [] (judgeBank (bankGood (takeUp mb s)) (takeUp mb s))) := by
  rw [exec_updateVerify_served h, beq_false_of_ne hlife, beq_false_of_ne hstage, beq_false_of_ne hbegun, hwhole, bne_self_eq_false]
  rfl

theorem exec_updateVerify_of_good (hheader : imageFails (takeUp mb s) (takeUp mb s).upd.header = none)
    (hdigests : digestsMatch (bankOf (takeUp mb s) (takeUp mb s).upd.target) = true) :
    exec (.updateVerify mb) s = .next (complete mb .ok [] (judgeBank true (takeUp mb s))) := by
  have hgood : bankGood (takeUp mb s) = true := by
    rw [bankGood, hheader, hdigests]
    rfl
  rw [exec_updateVerify_of_whole h hlife hstage hbegun hwhole, hgood, if_pos rfl]

theorem exec_updateVerify_of_bad (hbad : imageFails (takeUp mb s) (takeUp mb s).upd.header ≠ none ∨
    digestsMatch (bankOf (takeUp mb s) (takeUp mb s).upd.target) = false) :
    exec (.updateVerify mb) s = .next (complete mb .updVerifyFailed [] (judgeBank false (takeUp mb s))) := by
  have hgood : bankGood (takeUp mb s) = false := by
    rcases hbad with hheader | hdigests
    · rw [bankGood, Option.isNone_eq_false_iff.mpr (Option.isSome_iff_ne_none.mpr hheader), Bool.false_and]
    · rw [bankGood, hdigests, Bool.and_false]
  rw [exec_updateVerify_of_whole h hlife hstage hbegun hwhole, hgood, if_neg Bool.false_ne_true]

end

/-! ### UPDATE_ABORT and UPDATE_STATUS_GET -/

section
variable (h : serves .updateAbort mb b s)
include h

theorem exec_updateAbort_served : exec (.updateAbort mb) s = .next (Reply.apply mb
    (guards [(lifecycle (takeUp mb s) == 3, .notPermitted), ((takeUp mb s).upd.stage == 5, .state)] (takeUp mb s)
      (ok [] (if (takeUp mb s).upd.stage = 0 then takeUp mb s else discardDownload (takeUp mb s))))) :=
  congrArg Host.Outcome.next (runCommand_served _ rfl h)

theorem exec_updateAbort_of_retired (hretired : lifecycle (takeUp mb s) = 3) :
    exec (.updateAbort mb) s = .next (complete mb .notPermitted [] (takeUp mb s)) := by
  rw [exec_updateAbort_served h, hretired]
  rfl

variable (hlife : lifecycle (takeUp mb s) ≠ 3)
include hlife

theorem exec_updateAbort_of_trial (hstage : (takeUp mb s).upd.stage = 5) :
    exec (.updateAbort mb) s = .next (complete mb .state [] (takeUp mb s)) := by
  rw [exec_updateAbort_served h, beq_false_of_ne hlife, hstage]
  rfl

theorem exec_updateAbort_of_idle (hstage : (takeUp mb s).upd.stage = 0) :
    exec (.updateAbort mb) s = .next (complete mb .ok [] (takeUp mb s)) := by
  rw [exec_updateAbort_served h, beq_false_of_ne hlife, hstage]
  rfl

theorem exec_updateAbort_of_begun (hbegun : (takeUp mb s).upd.stage ≠ 0) (hstage : (takeUp mb s).upd.stage ≠ 5) :
    exec (.updateAbort mb) s = .next (complete mb .ok [] (discardDownload (takeUp mb s))) := by
  rw [exec_updateAbort_served h, beq_false_of_ne hlife, beq_false_of_ne hstage, if_neg hbegun]
  rfl

end

/-- What UPDATE_STATUS_GET answers after its first byte. -/
def statusTail (u : State) : Bytes :=
  u8 (if u.upd.stage = 0 then downloadTarget u else u.upd.target).num ++ u8 ((u.run.running.map Bank.num).getD 0xFF)
    ++ u8 (if u.hif.trial then ((selCurrent u.upd).map BootSel.attempts).getD 0 else 0)
    ++ u32 (blockCount u.upd.header) ++ u32 u.upd.confirmed.length ++ u32 (u.run.healthy / 32768)
    ++ u8 (rd u.upd.header 16 1) ++ u8 (rd u.upd.header 17 1) ++ u16 u.upd.lastStatus.toNat ++ u32 0

theorem statusTail_length (u : State) : (statusTail u).length = 23 := by
  simp only [statusTail, u8, u16, u32, List.length_append, leBytes_length]

theorem exec_updateStatusGet_served (h : serves .updateStatusGet mb b s) : exec (.updateStatusGet mb) s =
    .next (complete mb .ok (BitVec.ofNat 8 s.upd.stage :: statusTail (takeUp mb s)) (takeUp mb s)) := by
  refine (congrArg Host.Outcome.next (runCommand_served _ rfl h)).trans ?_
  simp only [statusTail, List.append_assoc]
  rfl

end

end

/-- Settles O58: the checks of each command in their order, and what begins, stages, confirms, judges and discards a download. -/
theorem downloads : Obligations.Downloads := by
  refine ⟨fun s mb b hretired => ⟨fun h => exec_updateBegin_of_retired h hretired, fun h => exec_updateBlockWrite_of_retired h hretired,
      fun h => exec_updateVerify_of_retired h hretired, fun h => exec_updateAbort_of_retired h hretired⟩,
    fun s mb b h hlife => ⟨exec_updateBegin_of_trial h hlife, exec_updateBegin_of_operator h hlife, fun hstage hfree =>
      ⟨exec_updateBegin_of_badHeader h hlife hstage hfree, exec_updateBegin_of_goodHeader h hlife hstage hfree⟩⟩,
    fun s mb b h hlife => ⟨exec_updateBlockWrite_of_idle h hlife, exec_updateBlockWrite_of_offWord h hlife,
      fun hbegun hstage hword hholder => ⟨exec_updateBlockWrite_of_outside h hlife hbegun hstage hword hholder, fun hn hlen =>
        ⟨_, exec_updateBlockWrite_of_within h hlife hbegun hstage hword hholder hn hlen, rfl⟩⟩⟩,
    fun s n x data hstaged hwhole => ⟨exec_stagedBlockCommit_of_right hstaged hwhole, exec_stagedBlockCommit_of_whole false hstaged hwhole⟩,
    fun n data s => ⟨rfl, confirmBlock_stage_of_last data⟩,
    fun s mb b h hlife => ⟨exec_updateVerify_of_trial h hlife, exec_updateVerify_of_idle h hlife, exec_updateVerify_of_missing h hlife,
      fun hstage hbegun hwhole => ⟨exec_updateVerify_of_good h hlife hstage hbegun hwhole, exec_updateVerify_of_bad h hlife hstage hbegun hwhole⟩⟩,
    fun s mb b h hlife => ⟨exec_updateAbort_of_trial h hlife, exec_updateAbort_of_idle h hlife, exec_updateAbort_of_begun h hlife⟩,
    fun s => ⟨rfl, rfl, discardDownload_unverified s, rfl, judgeBank_verified s, judgeBank_failed s⟩,
    fun s mb b h => ⟨_, exec_updateStatusGet_served h, by rw [List.length_cons, statusTail_length], rfl⟩⟩

end Sys2Proof.Machine
end
